-- ==== Sys2Proof/Word.lean ====
section
/-! DEFINITION. The words the block's registers, fields and buses are made of. -/

namespace Sys2Proof

/-- One byte of a record, packet, frame or flash structure (R7). -/
abbrev Byte := BitVec 8

/-- A 32-bit register or field. -/
abbrev Word := BitVec 32

/-- A 64-bit register or field. -/
abbrev Dword := BitVec 64

/-- An 18-bit logical address (R14). -/
abbrev Laddr := BitVec 18

end Sys2Proof
end

