-- ==== Sys2Proof/Types.lean ====
section
/-! DEFINITION. The kinds of data that the commands of the block carry: roles, issuers, command packets with their
path, Plovan records, port traffic. -/

namespace Sys2Proof

/-- The role strap codes of Table 0.1 (R2), and the value before the first sample. -/
inductive Role where
  | die | tray | spine | invalid
deriving DecidableEq, Repr

/-- The power states of Table 19.3 (R450). -/
inductive PState where
  | run | doze | sleep | off
deriving DecidableEq, Repr

/-- Issuer classes of commands (R398): F the fabric manager, T the tray host, H host die firmware. -/
inductive Issuer where
  | fm | trayHost | hostFw
deriving DecidableEq, Repr

/-- The path a command packet came on (Table 16.1), with what the path says of its issuer.
`fabric src issuer seq` is a COMMAND record from gateway `src` (R404 to R406), `fabricQueue` an entry of the
tray's own fabric queue that names this very block (R404), `broadcast root bid` a BROADCAST record of KIND COMMAND
(R407) and `restore i` the command of index `i` of the RESTORE section (R447). -/
inductive Path where
  | localQueue
  | fabricQueue (issuer : Issuer) (seq : BitVec 16)
  | fabric (src : Laddr) (issuer : Issuer) (seq : BitVec 16)
  | broadcast (root : Laddr) (bid : Word)
  | restore (index : Nat)
deriving DecidableEq, Repr

/-- A command packet as it stands when the block runs it (Table 16.2) together with what its path answers: `reads` is, pointer by pointer
in parameter order, what a read through the pointer returns (`none`: the path reports a failed read, R388; on a path with inline data: its
parts did not make up ILEN, R405); `inl` is the inline input of a command that carries its data inline (R388, R405, R407); `writesOk` is
false when the path reports a failed write through an output pointer. -/
structure Cmd where
  path : Path
  tag : BitVec 16
  fence : Bool
  plen : BitVec 8
  flagsRsvd : BitVec 7
  params : List Byte
  reads : List (Option (List Byte))
  inl : List Byte
  writesOk : Bool
deriving DecidableEq, Repr

/-- A Plovan record (R98, Table 4.1): the header fields and the body bytes between header and CRC.
`typ` is the TYPE code of Table 4.3; it stays a number because a forwarder passes reserved types too (R99). -/
structure Rec where
  typ : BitVec 8
  role : BitVec 2
  cls : BitVec 2
  src : Laddr
  unit : BitVec 6
  pos : BitVec 24
  stamp : Word
  cells : BitVec 8
  flags : BitVec 8
  epochLo : BitVec 16
  body : List Byte
deriving DecidableEq, Repr

/-- An interface of the scheduler as the IF parameter numbers it (Table 16.10): 0 FAB, 1 to 16 SIDE link s + 1. -/
abbrev Iface := Fin 17

/-- What the routing of the surroundings says of an arriving frame: consumed here, or forwarded on an interface
towards a next hop. The spec states which records a block consumes, not how a unicast frame finds its next hop:
DESIGN CHOICE, the caller names it (log entry 9). -/
inductive Routing where
  | consume
  | forward (out : Iface) (hopDst : Laddr)
deriving DecidableEq, Repr

/-- An IEEE 1588 message at the TIME port as far as the subset of Table 2.2 reads it: EtherType, versionPTP, minorVersionPTP,
domain, clockIdentity of the source, sequence number, correctionField in 2^-16 ns, its 80-bit timestamp, the two-step
flag, and logMessageInterval. -/
structure Ptp where
  etherType : BitVec 16
  version : BitVec 4
  minor : BitVec 4
  domain : BitVec 8
  clkId : Dword
  seq : BitVec 16
  corr : Int
  ts : BitVec 80
  twoStep : Bool
  interval : Int
deriving DecidableEq, Repr

/-- A slot of a TAP beat with its parity bit (Table 3.2, R76). -/
structure TapSlot where
  word : Word
  par : Bool
deriving DecidableEq, Repr

/-- A snoop lane frame with the sideband of Table 10.2 (R250): watch, step, replay mark, byte offset, payload. -/
structure Snoop where
  wid : BitVec 6
  stepLo : BitVec 8
  replay : Bool
  boff : BitVec 48
  data : List Byte
deriving DecidableEq, Repr

/-- A TRC packet: header word and payload words (Table 12.1). -/
structure TrcPacket where
  header : Dword
  words : List Dword
deriving DecidableEq, Repr

/-- What one regulator page answered to a poll (R359): member index, answered or not, its words. -/
structure PmbReading where
  idx : Fin 16
  ok : Bool
  iout : BitVec 16
  vout : BitVec 16
  temp : BitVec 16
  status : BitVec 16
deriving DecidableEq, Repr

/-- What the regulator answers while a Temper plan is written (R363): its VOUT_MODE (`none`: the read failed twice), and that
the write and the read back succeeded. -/
structure PmbWrite where
  mode : Option (BitVec 8)
  ok : Bool
deriving DecidableEq, Repr, Inhabited

/-- A calibration bank of Assay (R364): offsets, KE in mJ per code² in units of 2^-64, scales, readout key. -/
structure CalBank where
  offV : Int
  offI : Int
  ke : Nat
  kv : Nat
  ki : Nat
  key : List Byte
deriving DecidableEq, Repr, Inhabited

/-- What the header of a firmware image says (Table 18.4). -/
structure FwHdr where
  ver : Word
  rdMin : Nat
  rdMax : Nat
  cfgWr : Nat
  qmax : Nat
  mmax : Nat
  tlib : Nat
  len : Nat
  digest : Nat
deriving DecidableEq, Repr, Inhabited

/-- A Governor link message of 64 bits, as it came (R347). -/
structure GovMsg where
  word : Dword
deriving DecidableEq, Repr

/-- How a scan segment ended (R380). -/
inductive ScanEnd where
  | pass
  | fail (op : BitVec 32) (mism : BitVec 32)
deriving DecidableEq, Repr

/-- The demands of Table 19.6 (R454). -/
inductive Demand where
  | doorbell | frame | trc | brake | samples | discs | hallmark | assay | aged
deriving DecidableEq, Repr

/-- The arrays of Table 1.9 in the order of Table 3.5. -/
inductive EccArray where
  | counters | hopper | quern | millrace | crown | ctl | hallmark | tray
deriving DecidableEq, Repr

/-- What the scrubber or a functional read finds in one word (R31, R32): `errs` bits in error; `at` names the word's
place in the array: a counter, a stream (8 for the trace buffer, whose words count with Hopper's, R311), a handle, a segment, a
staging entry. `raced` says that a functional write
came between the scrubber's read and its write-back. `heavy` says the word is read functionally. -/
structure EccHit where
  array : EccArray
  at1 : Nat
  at2 : Nat
  errs : Nat
  raced : Bool
deriving DecidableEq, Repr

/-- The PORT domains that can be named (R3). -/
inductive PortName where
  | tap | trc | cmd | side (s : Fin 16) | fab | stamp | time | mem | flash | pwr | metro | test | disc | hb | rst
deriving DecidableEq, Repr

end Sys2Proof
end

