-- ==== Sys2Proof/Syntax.lean ====
section
/-! DEFINITION. The commands of the block: one constructor per row of the table of operations and events. A command
packet carries its parameters in its `Cmd`; an event carries what the port or the time base shows. -/

namespace Sys2Proof

/-- The commands and events of the block (spec/opcode_table.json). -/
inductive Instr where
  /-- PG_AO_ASSERT (R443). AO power-good asserts and the block runs the start-up sequence of Table 19.1 up to the
  RESTORE section. -/
  | pgAoAssert (strap : Role) (refclk : Bool) (slotOk : Bool) (selfOk : Bool)
  /-- RESTORE_DONE (R447). The last RESTORE command gets its final reply; PORT domains are released, streams restart
  and command fetching begins. -/
  | restoreDone
  /-- PG_AO_DEASSERT (R26). Loss of AO power resets AO, CTL, ENG and every PORT domain without a last gasp. -/
  | pgAoDeassert
  /-- PG_METRO_ASSERT (R364). METRO power comes good; Assay starts and samples METRO_CAL_EN for calibration. -/
  | pgMetroAssert (calEn : Bool)
  /-- PG_METRO_DEASSERT (R26). Loss of METRO power resets the Assay partition and RSEQ restarts. -/
  | pgMetroDeassert
  /-- RST_HOST_N_ASSERT (R286). Host cold reset asserts; AO captures and sends LAST_GASP, flushes Hopper and resets
  CTL, ENG and all PORT domains. -/
  | rstHostNAssert
  /-- RST_WARM_N_ASSERT (R26). Host warm reset asserts and resets the TAP, TRC, STAMP, TEST and HB PORT domains. -/
  | rstWarmNAssert
  /-- RST_WARM_N_RELEASE (R275). Warm reset release disarms the heartbeat watch and starts BOOT_TO. -/
  | rstWarmNRelease
  /-- RESET_RELEASE (R449). CTL or ENG leaves a reset that AO survived; the block repeats the steps of Table 19.2 and
  enters RUN. -/
  | resetRelease (selfOk : Bool)
  /-- REFCLK_LOSS (R72). No reference edge for 4 periods switches AO to its internal oscillator, sets TB0 FREE and
  emits epoch records. -/
  | refclkLoss
  /-- REFCLK_RETURN (R72). A reference clock stable for 1 ms switches AO back at a group boundary and 1588 acquisition
  restarts from FREE. -/
  | refclkReturn
  /-- EPOCH_PULSE (R48). An epoch pulse is compared with the TB0 second, captured by Assay with TB3 and triggers epoch
  records. -/
  | epochPulse
  /-- SYNC_RECEIVED (R45). A 1588 Sync from the configured source is accepted or discarded and drives the lock state
  machine. -/
  | syncReceived (m : Ptp)
  /-- FOLLOW_UP_RECEIVED (R43). A Follow_Up message is taken for the two-step Sync it completes, or discarded. -/
  | followUpReceived (m : Ptp)
  /-- DELAY_RESP_RECEIVED (R43). A Delay_Resp completes a delay measurement for the TB0 servo, or is discarded. -/
  | delayRespReceived (m : Ptp)
  /-- ANNOUNCE_RECEIVED (R43). An Announce is checked against the configured source and domain, or discarded. -/
  | announceReceived (m : Ptp)
  /-- DELAY_REQ (R43). A Delay_Req is sent per Sync or at the configured interval while a recent Sync and the
  reference clock allow. -/
  | delayReq
  /-- SYNC_TIMEOUT (R45). No Sync accepted for 3 s moves ACQUIRE to FREE or LOCKED to HOLDOVER. -/
  | syncTimeout
  /-- TAP_BEAT (R76). A 16-slot TAP beat is parity-checked and its slots increment every matching counter. -/
  | tapBeat (slots : List TapSlot)
  /-- DISC_CONDITIONED_CHANGE (R95). A discrete input's conditioned state changes after 3 agreeing samples and its
  state machine emits records. -/
  | discConditionedChange (input : Fin 32) (level : Bool)
  /-- CHATTER_WINDOW_END (R95). At a chatter window boundary a chattering input emits its chatter record and may
  return to NORMAL. -/
  | chatterWindowEnd (input : Fin 32)
  /-- STUCK_TIMEOUT (R95). The stuck timer reaching STUCK_TO moves the input to STUCK with one STUCK record. -/
  | stuckTimeout (input : Fin 32)
  /-- HB_PIN_BEAT (R273). A filtered rising edge of HB_PIN counts as a beat when HB_SRC allows. -/
  | hbPinBeat
  /-- PWR_REQ_CHANGE (R348). Two agreeing samples of PWR_REQ give the agent a new request and update CLAMP. -/
  | pwrReqChange (req : BitVec 11)
  /-- LINK_UP_RISE (R141). Link initialisation samples INIT_CRED as the held credits and stops the credit timer. -/
  | linkUpRise (ifc : Iface) (initCred : BitVec 12) (peer : Laddr)
  /-- LINK_UP_FALL (R141). Link down abandons the frame in progress and leaves frames of the interface queued. -/
  | linkUpFall (ifc : Iface)
  /-- CREDIT_RETURN (R142). Credits returned on CRED_RET become usable and restart the credit timer. -/
  | creditReturn (ifc : Iface) (n : BitVec 4)
  /-- LINK_ERROR_PULSE (R470). A STAMP_LINKERR pulse is counted in FAB_PORT_ERR of its port. -/
  | linkErrorPulse (port : Fin 64)
  /-- INSERTION_SLOT (R51). A departing frame's slot request is filled with its egress stamp, or with all ones when
  too early. -/
  | insertionSlot (port : Fin 64) (phase : Nat) (early : Bool)
  /-- STAMP_PAIR (R53). An arriving frame with a valid slot forms a stamp pair, kept if first in its pair interval. -/
  | stampPair (port : Fin 64) (slot : Dword) (peer : Laddr) (phase : Nat)
  /-- SNOOP_FRAME (R250). A snoop lane frame of an enabled WID updates its step's statistics and digest. -/
  | snoopFrame (port : Fin 64) (f : Snoop)
  /-- TRACE_PACKET (R317). An INSTR, DATA or EVENT packet is stamped, excluded, dropped or admitted to the trace
  buffer. -/
  | tracePacket (p : TrcPacket)
  /-- STEP_MARK (R256). A STEP_MARK opens or ends a step for Touchstone and tensor watches and updates the AO last
  step. -/
  | stepMark (p : TrcPacket)
  /-- COLL_MARK (R241). A COLL_MARK is stamped and an ARRIVAL record with hints is sent within 2 µs. -/
  | collMark (p : TrcPacket)
  /-- STREAM_MARK (R211). A STREAM_MARK is handed to every STEP channel of its stream as a step input. -/
  | streamMark (p : TrcPacket)
  /-- TENSOR_PACKET (R323). A TENSOR packet is accepted into its watch's dump or discarded by cause. -/
  | tensorPacket (p : TrcPacket)
  /-- SMBALERT (R359). SMBALERT# asserted makes the block read STATUS_WORD of every page and clear faults. -/
  | smbalert (status : List (BitVec 16))
  /-- PMB_POLL (R359). Every PMB_POLL the block polls each configured regulator page. -/
  | pmbPoll (readings : List PmbReading)
  /-- SIDE_READ_RESPONSE (R299). A side read access completes with data or an error and capture continues. -/
  | sideReadResponse (data : List Byte) (err : Option Bool)
  /-- SIDE_READ_TIMEOUT (R299). A side read access that times out is filled with the poison pattern and logged
  unreadable. -/
  | sideReadTimeout
  /-- ASSAY_CONVERSION (R365). Every 125 µs of TB3 Assay starts a simultaneous voltage and current conversion. -/
  | assayConversion
  /-- ASSAY_SAMPLE_PAIR (R366). A sample pair is multiplied and accumulated into the import or export energy. -/
  | assaySamplePair (v : BitVec 24) (i : BitVec 24)
  /-- ASSAY_PAIR_MISSING (R366). A pair not read within 100 µs is replaced by the previous product and counted,
  setting SENSE_FAULT after 8. -/
  | assayPairMissing
  /-- ASSAY_READOUT_FRAME (R368). At an epoch pulse or after 1.25 s Assay publishes a readout frame to the AO buffer. -/
  | assayReadoutFrame
  /-- HEARTBEAT_WRITE (R413). A write to HEARTBEAT is a beat when HB_SRC is REG or either. -/
  | heartbeatWrite (value : Word)
  /-- CQ_TAIL_WRITE (R418). A doorbell write makes command entries visible, or is ignored with DBERR. -/
  | cqTailWrite (fab : Bool) (value : BitVec 12)
  /-- RQ_HEAD_WRITE (R419). A write of RQ_HEAD frees reply slots, or is ignored with DBERR. -/
  | rqHeadWrite (fab : Bool) (value : BitVec 12)
  /-- QUEUE_PAIR_ENABLE (R417). Setting EN enables a queue pair with pointers at 0, or is refused with CFGERR. -/
  | queuePairEnable (fab : Bool) (rqLog2 : BitVec 4) (cqLog2 : BitVec 4)
  /-- QUEUE_PAIR_DISABLE (R420). Clearing EN stops fetching, discards unanswered commands and sets IDLE and QIDLE. -/
  | queuePairDisable (fab : Bool)
  /-- TS_TB0_LO_READ (R415). A read of TS_TB0_LO captures TB0, TB1, TB2 and the lock state into the snapshot
  registers. -/
  | tsTb0LoRead (wide : Bool)
  /-- LO_HALF_READ (R410). A 32-bit read of an _LO register latches its _HI half for the reading path. -/
  | loHalfRead (off : BitVec 16)
  /-- W1C_STATUS_WRITE (R416). Writing ones to INT_STATUS or a pair status register clears those bits and updates INT. -/
  | w1cStatusWrite (off : BitVec 16) (value : Word)
  /-- INT_ENABLE_WRITE (R477). A write of INT_ENABLE updates INT and in tray role may send the MSI-X message. -/
  | intEnableWrite (value : Word)
  /-- BAD_ACCESS (R408). An access of wrong width or alignment is ignored or reads 0 and sets BADACC. -/
  | badAccess (write : Bool) (off : BitVec 16) (size : Nat)
  /-- REGISTER_WRITE (R408). A write to a register with no behaviour of its own replaces its writable bits. -/
  | registerWrite (off : BitVec 16) (value : Word)
  /-- COMMAND_FETCH (R392). The block fetches the next visible command entry and runs its checks and synchronous work. -/
  | commandFetch (fab : Bool) (entry : Option (List Byte)) (reads : List (Option (List Byte))) (writesOk : Bool)
  /-- REPLY_WRITE_FAIL (R495). A failed reply or event write stops the pair, sets WRERR and discards its unanswered
  commands. -/
  | replyWriteFail (fab : Bool)
  /-- ASYNC_COMMAND_DONE (R390). A command that replied ACCEPTED finishes its background work and writes its final
  reply. -/
  | asyncCommandDone (path : Path) (tag : BitVec 16)
  /-- FABRIC_QUEUE_ENTRY (R406). The gateway takes a fabric queue entry, numbers it and sends it as COMMAND records. -/
  | fabricQueueEntry (entry : List Byte) (inl : Option (List Byte)) (route : Bool)
  /-- COMMAND_RECORD_RECEIVED (R405). A COMMAND record for this block is assembled, deduplicated by key and run in SEQ
  order. -/
  | commandRecordReceived (r : Rec)
  /-- REPLY_RECORD_RECEIVED (R405). The gateway assembles REPLY records and writes the fabric reply and output. -/
  | replyRecordReceived (r : Rec) (writesOk : Bool)
  /-- CMD_RETRY_EXPIRY (R406). With no answer within CMD_RETRY the gateway resends, and after the third sending writes
  E_TIMEOUT. -/
  | cmdRetryExpiry (dest : Laddr) (seq : BitVec 16)
  /-- SEQ_GAP_SKIP (R406). After 3 × CMD_RETRY the destination skips missing SEQ values and runs held commands. -/
  | seqGapSkip (src : Laddr) (issuer : Issuer)
  /-- SYS_IDENTIFY (R402). Returns the physical ID, address, role, stepping and firmware version. -/
  | sysIdentify (c : Cmd)
  /-- SYS_STATUS (R402). Returns power state, lock, status flags, CFGVER, lost events and accepted commands. -/
  | sysStatus (c : Cmd)
  /-- SYS_ADDRESS (R402). Assigns a new logical address, taking effect from the next record, an EPOCH record. -/
  | sysAddress (c : Cmd)
  /-- SYS_PHASE (R402). Sets the phase role carried in record headers. -/
  | sysPhase (c : Cmd)
  /-- SYS_PSTATE (R451). Sets the target power state and starts entry or exit. -/
  | sysPstate (c : Cmd)
  /-- DOMAIN_RESET (R36). Owner reset of the named CTL, ENG and PORT domains starting within 10 µs of the reply. -/
  | domainReset (c : Cmd)
  /-- DOMAIN_RESET_START (R286). The owner-commanded reset begins after its reply, with last gasp when CTL or ENG is
  named. -/
  | domainResetStart
  /-- SERVICE_RESTORE (R293). Releases the out-of-service hold, clears escalation history and sends SERVICE_RESTORED. -/
  | serviceRestore (c : Cmd)
  /-- TRAY_DESIGNATE (R459). Makes the block acting tray master for a member list, or names its tray master. -/
  | trayDesignate (c : Cmd)
  /-- SYS_INJECT (R402). Injects a drill fault such as HB_STOP, STREAM_DROP, LINK_DOWN or HOP_CORRUPT. -/
  | sysInject (c : Cmd)
  /-- TIME_CONFIG (R483). Sets the 1588 source, domain, origin, TOL, W_c, pair interval and time tree root. -/
  | timeConfig (c : Cmd)
  /-- TIME_JOB (R40). Sets the job origin for TB2 from the next AO cycle boundary; a registration command. -/
  | timeJob (c : Cmd)
  /-- TIME_ASYM (R402). Sets the asymmetry of one link for Fantail. -/
  | timeAsym (c : Cmd)
  /-- TIME_CAL (R50). Programs a port's egress and ingress calibration latencies. -/
  | timeCal (c : Cmd)
  /-- TIME_STATUS (R402). Returns lock state, step count, ADJ and the latest correction epoch. -/
  | timeStatus (c : Cmd)
  /-- COLLECT_COUNTER (R402). Writes counter configuration words for heavy counters. -/
  | collectCounter (c : Cmd)
  /-- COLLECT_SET (R491). Changes a sample set's window and bank list from the next boundary of the old grid. -/
  | collectSet (c : Cmd)
  /-- COLLECT_ARM (R88). Arms a heavy set: resets its counters, takes a boundary sample and sets its tag. -/
  | collectArm (c : Cmd)
  /-- COLLECT_MAP (R93). Loads a feature map for a set, effective at its next sample boundary. -/
  | collectMap (c : Cmd)
  /-- COLLECT_READ (R402). Captures counter values in one ENG cycle and writes them to the pointer. -/
  | collectRead (c : Cmd)
  /-- DISC_CONFIG (R97). Sets polarity, chatter and stuck parameters of a discrete input. -/
  | discConfig (c : Cmd)
  /-- COLLECT_STATUS (R402). Returns a set's window, late count and last sample stamp. -/
  | collectStatus (c : Cmd)
  /-- STREAM_CONFIG (R107). Sets a stream's ratio, polynomial, quota and reconciliation period. -/
  | streamConfig (c : Cmd)
  /-- STREAM_SHAPER (R133). Writes a shaper configuration word, effective at the next selection. -/
  | streamShaper (c : Cmd)
  /-- STREAM_GATE (R138). Installs a gate schedule from the next gate cycle boundary, or rejects it. -/
  | streamGate (c : Cmd)
  /-- STREAM_LINK (R142). Sets the credit timeout of an interface. -/
  | streamLink (c : Cmd)
  /-- STREAM_STATUS (R402). Returns tokens, queued frames, gate overruns and reclaimed credits of a class. -/
  | streamStatus (c : Cmd)
  /-- REDUCE_DEFINE (R402). Defines a reduction from the next cut boundary, subject to the memory bound. -/
  | reduceDefine (c : Cmd)
  /-- REDUCE_DELETE (R402). Removes a reduction at the next cut boundary. -/
  | reduceDelete (c : Cmd)
  /-- CUT_CONFIG (R162). Sets cut period, guard band and settle time of a level. -/
  | cutConfig (c : Cmd)
  /-- CUT_READ (R161). Copies the published cut through the reduction buffer to the consumer. -/
  | cutRead (c : Cmd)
  /-- CUT_REGISTER (R168). Registers two zero-copy halves for a cut reader. -/
  | cutRegister (c : Cmd)
  /-- CUT_RELEASE (R168). Releases a half, which may receive the newest published cut. -/
  | cutRelease (c : Cmd)
  /-- TREE_INSTALL (R175). Installs a tree with its parent and child entries, its generation taking effect at a cut
  boundary. -/
  | treeInstall (c : Cmd)
  /-- BCAST_SEND (R171). Starts a broadcast from the root down a tree. -/
  | bcastSend (c : Cmd)
  /-- MAP_CONFIG (R169). Configures or stops congestion maps. -/
  | mapConfig (c : Cmd)
  /-- REDUCE_STATUS (R402). Returns the last published epoch and late operands. -/
  | reduceStatus (c : Cmd)
  /-- MODEL_LOAD (R191). Starts loading a Quern or Millrace image into an EMPTY handle. -/
  | modelLoad (c : Cmd)
  /-- MODEL_ACTIVATE (R192). Activates a loaded model at ACT_AT, optionally replacing an active one. -/
  | modelActivate (c : Cmd)
  /-- MODEL_DEACTIVATE (R402). Moves a handle from ACTIVE to LOADED. -/
  | modelDeactivate (c : Cmd)
  /-- MODEL_UNLOAD (R193). Empties a LOADED or STOPPED handle once any evaluation ends. -/
  | modelUnload (c : Cmd)
  /-- MODEL_STATUS (R402). Returns a handle's state, identity and skip count. -/
  | modelStatus (c : Cmd)
  /-- CHANNEL_OPEN (R212). Opens a Millrace channel from a binding. -/
  | channelOpen (c : Cmd)
  /-- CHANNEL_CLOSE (R402). Frees a Millrace channel. -/
  | channelClose (c : Cmd)
  /-- CHANNEL_RESET (R212). Returns an open channel to its start state and clears DIVERGED. -/
  | channelReset (c : Cmd)
  /-- CHANNEL_FORECAST (R214). Starts a forecast rollout of H values from a copy of the channel. -/
  | channelForecast (c : Cmd)
  /-- MODEL_PARAM (R402). Sets EACH_WAIT and RESID_WAIT. -/
  | modelParam (c : Cmd)
  /-- SCORE_SET (R227). Installs a score descriptor. -/
  | scoreSet (c : Cmd)
  /-- SCORE_CLEAR (R402). Withdraws a score's open verdicts with reason OWNER and frees its state. -/
  | scoreClear (c : Cmd)
  /-- VERDICT_WITHDRAW (R231). Withdraws a provisional verdict or clears a demoted entry. -/
  | verdictWithdraw (c : Cmd)
  /-- VERDICT_CONFIG (R402). Names the verdict tree. -/
  | verdictConfig (c : Cmd)
  /-- VERDICT_BUDGET (R238). Sets rate and depth of a tray or fleet expulsion bucket. -/
  | verdictBudget (c : Cmd)
  /-- VERDICT_DRILL (R246). Installs or removes a drill over a set of subjects and a TB0 span. -/
  | verdictDrill (c : Cmd)
  /-- JOB_MEMBERS (R243). Installs or appends a job view and its judge; a registration command. -/
  | jobMembers (c : Cmd)
  /-- JOB_END (R400). Removes a job view, closes its instances and starts the teardown flush. -/
  | jobEnd (c : Cmd)
  /-- VERDICT_PARAM (R402). Sets straggler and disagreement parameters. -/
  | verdictParam (c : Cmd)
  /-- VERDICT_STATUS (R402). Returns a subject's score state and open verdict. -/
  | verdictStatus (c : Cmd)
  /-- SENTRY_WATCH (R265). Sets the watched job and watch entries, resetting COMMIT_THROUGH for a new job. -/
  | sentryWatch (c : Cmd)
  /-- SENTRY_PARTNERS (R257). Names the replay partner and alternate. -/
  | sentryPartners (c : Cmd)
  /-- SENTRY_GOAL (R270). Sets the goal word and replay modulus from the next step begin. -/
  | sentryGoal (c : Cmd)
  /-- SENTRY_ROLLBACK (R268). Lowers LT to LASTGOOD after a rollback. -/
  | sentryRollback (c : Cmd)
  /-- SENTRY_RELEASE (R269). Raises COMMIT_THROUGH and LT to a named step. -/
  | sentryRelease (c : Cmd)
  /-- SENTRY_STATUS (R402). Returns COMMIT_THROUGH, LT and suspended WIDs. -/
  | sentryStatus (c : Cmd)
  /-- SENTRY_PARAM (R402). Sets the Touchstone parameters of Table 10.11. -/
  | sentryParam (c : Cmd)
  /-- HEARTBEAT_CONFIG (R275). Sets Brake parameters and disarms or re-arms the heartbeat watch. -/
  | heartbeatConfig (c : Cmd)
  /-- INGOT_CONFIG (R297). Installs Ingot regions and the context table base. -/
  | ingotConfig (c : Cmd)
  /-- INGOT_TAKE (R298). Starts an Ingot capture with cause OWNER and no reset. -/
  | ingotTake (c : Cmd)
  /-- INGOT_READ (R304). Returns a stored Ingot image by offset and length. -/
  | ingotRead (c : Cmd)
  /-- INGOT_CLEAR (R304). Erases the named Ingot slot. -/
  | ingotClear (c : Cmd)
  /-- CONTEXT_RESULT (R296). The host reports the result of a context replay during a guilty-party search. -/
  | contextResult (c : Cmd)
  /-- BRAKE_STATUS (R402). Returns MISS, Brake state, NESC and the last beat. -/
  | brakeStatus (c : Cmd)
  /-- TRACE_CONFIG (R311). Sets trace enables, class mapping, thresholds, flush and sync period. -/
  | traceConfig (c : Cmd)
  /-- TRACE_AUTH (R316). Installs an authorisation for privileged trace if the token matches. -/
  | traceAuth (c : Cmd)
  /-- TRACE_DEAUTH (R316). Ends the authorisation in force. -/
  | traceDeauth (c : Cmd)
  /-- TRACE_STATUS (R402). Returns a source's excluded, dropped and sync-wait counts and authorisation time left. -/
  | traceStatus (c : Cmd)
  /-- WATCH_ARM (R321). Arms or replaces a tensor watch and posts WATCH_ARMED. -/
  | watchArm (c : Cmd)
  /-- WATCH_DISARM (R402). Frees a tensor watch and posts WATCH_DISARMED. -/
  | watchDisarm (c : Cmd)
  /-- WATCH_RATE (R324). Sets the tensor bucket rate and depth. -/
  | watchRate (c : Cmd)
  /-- WATCH_STATUS (R402). Returns a watch's state, dumps, discards and tokens. -/
  | watchStatus (c : Cmd)
  /-- RECORDER_READ (R341). Returns Hallmark records in ascending SEQ from staging and flash. -/
  | recorderRead (c : Cmd)
  /-- RECORDER_STATUS (R341). Returns head, spare, records held, unwritten count, drops and CLEARSEQ. -/
  | recorderStatus (c : Cmd)
  /-- RECORDER_CLEAR (R342). Stages a CLEAR record clearing all earlier records, at most once per 60 s. -/
  | recorderClear (c : Cmd)
  /-- RECORDER_NOTE (R342). Stages an owner INFO or NOTICE record and returns its SEQ. -/
  | recorderNote (c : Cmd)
  /-- RECORDER_CONFIG (R343). Sets Hallmark rate and flash bucket parameters. -/
  | recorderConfig (c : Cmd)
  /-- POWER_BUDGET (R353). Sets the tray budget from the next grant period. -/
  | powerBudget (c : Cmd)
  /-- POWER_MEMBER (R346). Configures a tray member's floor, ceiling, weight and regulator. -/
  | powerMember (c : Cmd)
  /-- POWER_STATIC (R349). Sets the die's static grant and returns FLOOR_R to 2,047. -/
  | powerStatic (c : Cmd)
  /-- POWER_CONFIG (R402). Sets GL_TO, GRANT_REC, PMB_POLL and PMBus speed. -/
  | powerConfig (c : Cmd)
  /-- POWER_STATUS (R355). Returns accounts, targets, requests and regulator readings. -/
  | powerStatus (c : Cmd)
  /-- TEMPER_CONFIG (R402). Sets the Temper parameters of Table 14.10. -/
  | temperConfig (c : Cmd)
  /-- METRO_READ (R368). Returns buffered Assay readout frames. -/
  | metroRead (c : Cmd)
  /-- TEST_CONFIG (R375). Installs the content plan, core mask and test timing parameters. -/
  | testConfig (c : Cmd)
  /-- TEST_GRANT (R377). The host grants a core for a test window, which opens or is refused. -/
  | testGrant (c : Cmd)
  /-- TEST_DEFER (R377). The host defers a test window request. -/
  | testDefer (c : Cmd)
  /-- TEST_DONE (R380). The host returns a kernel signature, compared with KSIG to close the window. -/
  | testDone (c : Cmd)
  /-- TEST_CLEAR (R382). Clears a FAILED core, which becomes due at once. -/
  | testClear (c : Cmd)
  /-- TEST_STATUS (R402). Returns a core's test state, result, segment and due instant. -/
  | testStatus (c : Cmd)
  /-- UPDATE_STAGE (R426). Starts staging an image or configuration region into flash. -/
  | updateStage (c : Cmd)
  /-- UPDATE_CHAIN (R402). Places the block in a Hoist chain with PREV and NEXT. -/
  | updateChain (c : Cmd)
  /-- UPDATE_START (R432). Starts a VALID firmware slot as a TRIAL through a CTL and ENG reset. -/
  | updateStart (c : Cmd)
  /-- UPDATE_CONFIRM (R433). Confirms the running TRIAL image. -/
  | updateConfirm (c : Cmd)
  /-- UPDATE_STATUS (R402). Returns running slot, firmware state, versions and time to the deadline. -/
  | updateStatus (c : Cmd)
  /-- DATA_FRAME_RECEIVED (R118). An arriving frame is hop-checked, its Billets decoded and its records checked and
  accepted, or forwarded. -/
  | dataFrameReceived (ifc : Iface) (bytes : List Byte) (abort : Bool) (route : Routing)
  /-- OVERFLOW_FRAME_RECEIVED (R113). The overflow frame after a data frame supplies chunks for Billets with OVF set. -/
  | overflowFrameReceived (ifc : Iface) (bytes : List Byte) (abort : Bool) (route : Routing)
  /-- EPOCH_RECEIVED (R105). An EPOCH record refreshes stamp extension and restarts the books on RESTART. -/
  | epochReceived (r : Rec)
  /-- RECONCILE_RECEIVED (R122). A RECONCILE record of KIND 0 settles the consumer's books of the stream. -/
  | reconcileReceived (r : Rec)
  /-- LAST_GASP_RECEIVED (R288). A member's LAST_GASP makes the tray master send a PEER_RESET notice. -/
  | lastGaspReceived (r : Rec)
  /-- JOIN_RECEIVED (R459). A master answers a member's JOIN with its own JOIN record. -/
  | joinReceived (ifc : Iface) (r : Rec)
  /-- JOIN_ANSWER_RECEIVED (R20). A die-role block receives its master's answer and becomes JOINED. -/
  | joinAnswerReceived (r : Rec)
  /-- JOIN_TIMEOUT (R20). No tray answer within 100 ms leaves the die-role block unjoined. -/
  | joinTimeout
  /-- FAB_JOIN_REPEAT (R458). An unjoined block sends JOIN over FAB to its gateways every 1 s. -/
  | fabJoinRepeat
  /-- STAMP_PAIRS_RECEIVED (R161). Accepted STAMP_PAIRS entries are written into Fantail's pair store. -/
  | stampPairsReceived (r : Rec)
  /-- CORRECTION_RECEIVED (R163). A correction table from the time tree is held for composing fleet corrections. -/
  | correctionReceived (r : Rec)
  /-- FEATURES_RECEIVED (R188). FEATURES records assemble a source vector for EACH models and REMOTE channels. -/
  | featuresReceived (r : Rec)
  /-- ARRIVAL_RECEIVED (R242). A tray master gathers a member's arrival for judging or batching. -/
  | arrivalReceived (r : Rec)
  /-- BATCH_RECEIVED (R243). A judge takes BATCH entries into an open straggler instance. -/
  | batchReceived (r : Rec)
  /-- EXPEL_VERDICT_RECEIVED (R239). A budget holder passes, drills or demotes a confirmed EXPEL. -/
  | expelVerdictReceived (r : Rec)
  /-- HEALTHY_STEP_RECEIVED (R264). The judge updates a member's LT and sends JOB_RELEASE when the job through point
  rises. -/
  | healthyStepReceived (r : Rec)
  /-- REPLAY_REQ_RECEIVED (R258). A partner posts a replay event to its host or answers REFUSED. -/
  | replayReqReceived (r : Rec)
  /-- REPLAY_DIGEST_RECEIVED (R261). The subject compares replay digests with its own for a step. -/
  | replayDigestReceived (r : Rec)
  /-- REFUSED_RECEIVED (R258). A refused replay request is sent to the alternate or dropped. -/
  | refusedReceived (r : Rec)
  /-- JOB_RELEASE_RECEIVED (R264). A JOB_RELEASE is relayed to member dies or raises the die's release point. -/
  | jobReleaseReceived (r : Rec)
  /-- CUT_CONTRIB_RECEIVED (R152). A CUT_CONTRIB record is assigned to a cut or held as an operand. -/
  | cutContribReceived (r : Rec)
  /-- BROADCAST_RECEIVED (R171). A BROADCAST record is accepted and relayed to active children. -/
  | broadcastReceived (r : Rec)
  /-- BROADCAST_ACK_RECEIVED (R172). A child's acknowledgement is taken and the node acknowledges upward when
  resolved. -/
  | broadcastAckReceived (r : Rec)
  /-- ACK_TIMER_EXPIRY (R173). A child's acknowledgement timer expires and the broadcast is resent via alternate
  parents. -/
  | ackTimerExpiry (bid : Word) (child : Fin 64)
  /-- RESEND_ACK_TIMER_EXPIRY (R173). A resent target stays silent and is listed TIMEOUT or UNREACHED. -/
  | resendAckTimerExpiry (bid : Word) (target : Laddr)
  /-- IMAGE_CHUNK_DATA (R428). A chain member takes a DATA chunk in order, forwards it to NEXT and writes it. -/
  | imageChunkData (r : Rec)
  /-- CHUNK_WRITTEN (R428). A chunk written to flash is acknowledged to PREV. -/
  | chunkWritten (index : Word)
  /-- IMAGE_CHUNK_ACK (R429). An ACK from NEXT advances the acknowledged index of the chain window. -/
  | imageChunkAck (r : Rec)
  /-- HOIST_RTO_EXPIRY (R429). No progress for HOIST_RTO resends every unacknowledged chunk, and after 5 rounds stages
  CHAIN_BROKEN. -/
  | hoistRtoExpiry
  /-- HOIST_WAIT_EXPIRY (R429). A stage that receives no chunk for HOIST_WAIT ends with E_TIMEOUT. -/
  | hoistWaitExpiry
  /-- START_REQ (R435). A tray master grants one member at a time a firmware start, or denies it. -/
  | startReq (r : Rec)
  /-- START_GRANT (R435). A member holding a pending UPDATE.START receives the grant and starts. -/
  | startGrant (r : Rec)
  /-- START_DENY (R435). A denied member ends UPDATE.START with BUSY. -/
  | startDeny (r : Rec)
  /-- START_DONE (R435). A member's START_DONE releases the tray master's grant. -/
  | startDone (r : Rec)
  /-- START_REQ_TIMEOUT (R435). No answer to START_REQ within 100 ms ends UPDATE.START with BUSY. -/
  | startReqTimeout
  /-- START_GRANT_EXPIRY (R435). A grant not released by START_DONE is released 660 s after it was given. -/
  | startGrantExpiry
  /-- GRANT_MESSAGE (R350). An agent applies a GRANT to LIMIT and reports back with its SEQ. -/
  | grantMessage (m : GovMsg)
  /-- REPORT_MESSAGE (R353). The arbiter takes a member's REPORT and books acknowledged reductions. -/
  | reportMessage (link : Fin 16) (m : GovMsg)
  /-- PLAN (R362). The arbiter applies a die's voltage plan within the window and 6 h rule or holds it. -/
  | plan (link : Fin 16) (m : GovMsg) (w : PmbWrite)
  /-- PLAN_ACK (R363). The agent passes the outcome of a plan application to Temper. -/
  | planAck (m : GovMsg)
  /-- GRANT_PERIOD_START (R352). At each 20 µs period the arbiter freezes reports, computes targets and sends
  reductions. -/
  | grantPeriodStart
  /-- PHASE_2_START (R353). When reductions are acknowledged or 12 µs pass the arbiter sends raises within BOUND. -/
  | phase2Start
  /-- GL_TO_EXPIRY (R349). No valid GRANT for GL_TO makes the agent fall back to FB. -/
  | glToExpiry
  /-- MEMBER_SILENT (R354). No valid REPORT for GL_TO makes a member silent and stages LINK_SILENT. -/
  | memberSilent (link : Fin 16)
  /-- SILENT_ACCOUNT_RELEASE (R354). GL_TO + 3 µs after its last grant a silent member's account is set to its FB. -/
  | silentAccountRelease (link : Fin 16)
  /-- REPORT_INTERVAL (R350). Without a GRANT the agent sends a REPORT every 20 µs. -/
  | reportInterval
  /-- GRANT_REC_BOUNDARY (R356). A tray-role block sends a GRANT record at each GRANT_REC boundary. -/
  | grantRecBoundary
  /-- PLAN_HOLD_RELEASE (R362). 6 h after the last change the most recent held plan is applied. -/
  | planHoldRelease (link : Fin 17) (w : PmbWrite)
  /-- TM_PERIOD_BOUNDARY (R360). At each TM_PERIOD Temper reads temperature and starts or skips a measurement. -/
  | tmPeriodBoundary (temp : Int)
  /-- TEMPER_MEASUREMENT_DONE (R361). A completed measurement is planned and a PLAN and TEMPER_PLAN record sent when
  the offset changes. -/
  | temperMeasurementDone (slack : List (Option Nat)) (ros : List Nat) (w : PmbWrite)
  /-- SAMPLE_BOUNDARY (R85). At a set's boundary counters are copied to shadow registers and a sample is taken or
  merged. -/
  | sampleBoundary (set : Fin 16) (drained : Bool)
  /-- RESID_WAIT_EXPIRY (R210). A feature vector held for a Millrace step is released at b + RESID_WAIT. -/
  | residWaitExpiry (set : Fin 16)
  /-- RECONCILE_PERIOD (R121). At each reconciliation boundary RECONCILE records are emitted and Hopper recounts its
  cells. -/
  | reconcilePeriod (stream : Fin 8)
  /-- EPOCH_RECORD_INTERVAL (R54). After 999 ms of TB1 without one, an epoch record is emitted on the stream. -/
  | epochRecordInterval (stream : Fin 4)
  /-- FRAME_SELECTION (R128). When an interface can start a frame the scheduler selects and sends an eligible frame. -/
  | frameSelection (ifc : Iface) (late : Bool)
  /-- FWD_FRAME_STALE (R131). A forwarded frame held over 2 s in a FWD queue is dropped whole. -/
  | fwdFrameStale (ifc : Iface) (cls : Fin 4)
  /-- CREDIT_TIMER_EXPIRY (R142). At CRED_TO every outstanding credit is reclaimed and a NOTICE recorded. -/
  | creditTimerExpiry (ifc : Iface)
  /-- SHAPER_REFILL (R132). Each microsecond of TB1 a shaper adds RATE bytes up to BURST. -/
  | shaperRefill
  /-- SLUICE_REFILL (R145). Each Sluice bucket refills at its fused rate up to its depth. -/
  | sluiceRefill
  /-- ADMISSION_REFILL (R147). Each millisecond the admission bucket gains one token. -/
  | admissionRefill
  /-- TEARDOWN_FLUSH (R148). The deferred teardown flush starts when class 1 queues empty or 2 s pass. -/
  | teardownFlush
  /-- CORRECTION_WINDOW_END (R61). At each window end Fantail solves offsets and drifts of its members. -/
  | correctionWindowEnd
  /-- CORRECTION_PUBLISH (R66). A completed solve is published as a correction table. -/
  | correctionPublish
  /-- SOLVE_DEADLINE (R65). A solve that misses its deadline is not published and its nodes go HOLD. -/
  | solveDeadline
  /-- CUT_WINDOW_END (R151). A leaf sends its contribution for the window that ended as CUT_CONTRIB records. -/
  | cutWindowEnd (fleet : Bool)
  /-- CUT_CLOSE (R164). A node closes cut N, resolving missing operands, and forwards or publishes it. -/
  | cutClose (fleet : Bool)
  /-- QUERN_EVAL_START (R197). An evaluation starts once an accumulator unit and passes are free. -/
  | quernEvalStart (handle : Fin 16)
  /-- QUERN_EVAL_COMPLETE (R190). An evaluation delivers its output set to the Verdict unit. -/
  | quernEvalComplete (handle : Fin 16)
  /-- EACH_WAIT_EXPIRY (R188). EACH_WAIT after the stamp starts an EACH evaluation with missing positions. -/
  | eachWaitExpiry (handle : Fin 16) (src : Laddr)
  /-- ACT_AT_REACHED (R192). At ACT_AT the new model takes over its inputs from the replaced one. -/
  | actAtReached (millrace : Bool) (handle : Fin 16)
  /-- MODEL_LOAD_COMPLETE (R179). A loaded image is checked and the handle goes to LOADED or EMPTY. -/
  | modelLoadComplete (millrace : Bool) (handle : Fin 16)
  /-- MODEL_BROADCAST_WAIT_EXPIRY (R431). A model load whose broadcast does not begin within HOIST_WAIT ends with
  E_TIMEOUT. -/
  | modelBroadcastWaitExpiry (millrace : Bool) (handle : Fin 16)
  /-- MILLRACE_STEP_START (R217). A channel step starts in stamp order when array cycles are free. -/
  | millraceStepStart (ch : Fin 4096)
  /-- MILLRACE_STEP_COMPLETE (R206). A channel step completes its residual and state stages and its codes update. -/
  | millraceStepComplete (ch : Fin 4096)
  /-- ROLLOUT_COMPLETE (R214). A forecast rollout completes and its values and reply are delivered. -/
  | rolloutComplete (path : Path) (tag : BitVec 16)
  /-- EXPEL_BUCKET_REFILL (R238). Each second an expulsion bucket gains RATE tokens and may release a demoted entry. -/
  | expelBucketRefill (fleet : Bool)
  /-- BATCH_WAIT_EXPIRY (R242). BATCH_WAIT after the first arrival the tray master sends its batch. -/
  | batchWaitExpiry (job : Word) (coll : BitVec 16) (step : Dword)
  /-- ARR_WAIT_EXPIRY (R243). ARR_WAIT after the first arrival the judge closes the instance. -/
  | arrWaitExpiry (job : Word) (coll : BitVec 16) (step : Dword)
  /-- SILENT_TO_EXPIRY (R247). No record from a die for SILENT_TO makes its block view DEAD. -/
  | silentToExpiry (die : Laddr)
  /-- DIS_HOLD_EXPIRY (R247). Views differing for DIS_HOLD send a DISAGREE ONSET record. -/
  | disHoldExpiry (die : Laddr)
  /-- SNOOP_SETTLE_EXPIRY (R254). SNOOP_SETTLE after its end mark a step closes and its checks run. -/
  | snoopSettleExpiry (step : Dword)
  /-- REPLAY_TO_EXPIRY (R260). An unanswered replay request counts as refused at REPLAY_TO. -/
  | replayToExpiry (step : Dword)
  /-- HEARTBEAT_PERIOD_END (R274). At each period end MISS is updated and HANG verdicts are raised, confirmed or
  withdrawn. -/
  | heartbeatPeriodEnd
  /-- BOOT_TO_EXPIRY (R275). No beat within BOOT_TO of the release arms the watch with MISS 0. -/
  | bootToExpiry
  /-- ENG_CONF_TO_EXPIRY (R277). No ENGINE_RESUMED within ENG_CONF_TO confirms the ENGINE hang. -/
  | engConfToExpiry
  /-- BLOCK_BEAT_PERIOD_END (R278). Member block beats are judged per BLK_PERIOD and HANG BLOCK verdicts raised. -/
  | blockBeatPeriodEnd (member : Laddr)
  /-- INTERNAL_WATCH_PERIOD (R279). Each 1 ms the AO hardware judges CTL and ENG progress and resets them on a
  confirmed internal hang. -/
  | internalWatchPeriod (ctlBeat : Bool) (engBeat : Bool)
  /-- RECOV_TO_EXPIRY (R282). No beat within RECOV_TO after the warm rung leads to the cold rung. -/
  | recovToExpiry
  /-- COLD_RUNG (R282). RESET_REQ_COLD asserts once the Ingot write has ended or INGOT_WRITE_TO passed. -/
  | coldRung
  /-- REQ_TO_EXPIRY (R283). A reset request not seen within REQ_TO is released and reported RESET_IGNORED. -/
  | reqToExpiry
  /-- PEER_LINK_DOWN_TIMEOUT (R288). A member's side link down with no FAB record in 10 µs sends PEER_RESET with
  NO_GASP. -/
  | peerLinkDownTimeout (ifc : Iface)
  /-- INGOT_CAPTURE_END (R300). Capture ends when regions are read, INGOT_BUDGET passes or the size limit is reached. -/
  | ingotCaptureEnd
  /-- INGOT_WRITE_DONE (R302). The full Ingot write ends with VALID written and INGOT_READY sent. -/
  | ingotWriteDone
  /-- GP_TO_EXPIRY (R296). A context with no answer within GP_TO is guilty and a warm reset follows. -/
  | gpToExpiry
  /-- TR_FLUSH_EXPIRY (R312). TR_FLUSH after its first entry an open TRACE record closes. -/
  | trFlushExpiry (cls : Bool)
  /-- SYNC_PERIOD_BOUNDARY (R313). Each SYNC_PERIOD a PERIODIC SYNC entry is placed and a sync request raised. -/
  | syncPeriodBoundary
  /-- AUTH_EXPIRY (R316). An authorisation ends when its duration passes. -/
  | authExpiry
  /-- AUTH_LOCKOUT_END (R316). One hour after the fourth refusal TRACE.AUTH is accepted again. -/
  | authLockoutEnd
  /-- TENSOR_BUCKET_REFILL (R324). The tensor bucket refills at TW_RATE up to TW_DEPTH. -/
  | tensorBucketRefill
  /-- HALLMARK_FLASH_WRITE_DONE (R336). A staged record's second program completes and the entry becomes WRITTEN. -/
  | hallmarkFlashWriteDone
  /-- RL_BUCKET_REFILL (R334). A code's bucket gains a token and stages a SUPPRESSED record if records were
  suppressed. -/
  | rlBucketRefill (code : BitVec 16)
  /-- FLASH_BUCKET_REFILL (R336). The flash bucket gains FL_RATE tokens per second. -/
  | flashBucketRefill
  /-- OPT_TICK (R339). Every 360 s of TB1 OPT advances and every 8 h a HOURS record is staged. -/
  | optTick
  /-- TEST_DUE (R376). A core becoming due is requested through a test window request event. -/
  | testDue (core : BitVec 8)
  /-- REASK_EXPIRY (R377). A pending test window request is posted again every REASK. -/
  | reaskExpiry
  /-- TEST_OVERDUE (R379). A core past MAX_DEFER becomes overdue, is counted and requested again. -/
  | testOverdue (core : BitVec 8)
  /-- WIN_US_EXPIRY (R380). WIN_US reached without end stops the window with result TIMEOUT. -/
  | winUsExpiry
  /-- SEL_ACK_TIMEOUT (R380). No SEL_ACK within 1 ms ends the window with TIMEOUT. -/
  | selAckTimeout
  /-- SCAN_SEGMENT_END (R380). The sequencer reaches END of a segment and runs the exit sequence. -/
  | scanSegmentEnd (res : ScanEnd)
  /-- EXIT_SEQUENCE_DONE (R383). The window closes, the TEST port is released and a TEST_RESULT record is sent. -/
  | exitSequenceDone
  /-- STAGE_COMPLETE (R425). A stage's read-back check makes the slot VALID or erases it with a failure status. -/
  | stageComplete (readBackOk : Bool)
  /-- FW_SELF_CONFIRM (R433). A TRIAL image meeting all conditions confirms itself. -/
  | fwSelfConfirm
  /-- FW_HEALTH_DEADLINE (R434). At 600 s unconfirmed the AO health hardware restarts the CONFIRMED slot and marks the
  trial FAILED. -/
  | fwHealthDeadline
  /-- DRAIN_END (R452). When streams empty or DRAIN_TO passes, queued records are flushed, SYS.PSTATE replies and
  clocks stop. -/
  | drainEnd
  /-- OFF_FLASH_FLUSH_DONE (R453). After OFF entry flushes Hallmark entries the block asserts AO_OFF_REQ. -/
  | offFlashFlushDone
  /-- WAKE_DEMAND (R454). A demand while the target is lower starts CTL and ENG and exits to RUN. -/
  | wakeDemand (kind : Demand)
  /-- WAKE_HOLD_EXPIRY (R455). WAKE_HOLD after the last demand entry to the target state starts. -/
  | wakeHoldExpiry
  /-- CTL_IDLE_STOP (R455). In SLEEP the CTL clock stops once the pair is empty and 1 ms has passed. -/
  | ctlIdleStop
  /-- CROWN_POWERED (R459). The designated die powers Crown memory, sets ACTING and writes the reply. -/
  | crownPowered
  /-- SCRUB_WORD (R32). The scrubber reads, checks and corrects a word of an array. -/
  | scrubWord (hit : EccHit)
  /-- MONITOR_WINDOW_END (R70). At the end of each 1,024-AO-cycle monitor window, each region clock monitor computes
  rho, classes the window stretched or stopped and counts it in REGION_STRETCH_WIN or REGION_STOP_WIN. -/
  | monitorWindowEnd (counts : List (Nat × Nat))
  /-- OTHER_1588_MESSAGE (R43). A 1588 message outside the subset, such as Pdelay, Signaling or Management, or one
  with a wrong domain or EtherType, arrives at the TIME port and is discarded and counted in PTP_DISCARD. -/
  | other1588Message
  /-- PORT_CLOCK_STOP (R73). A port stamp unit sees its port clock stop and withholds stamp pairs for that port until
  16 frames have passed in each direction after the clock returns. -/
  | portClockStop (port : Fin 64)
  /-- ASSAY_CALIBRATION_WRITE (R364). While METRO_CAL_EN was high at METRO power-up, a transaction on the METRO
  calibration interface writes offsets, KE, scales and the readout key into the next one-time fuse bank. -/
  | assayCalibrationWrite (data : List Byte)
  /-- FAULT_INJECTION_END (R402). The DUR of a SYS.INJECT fault runs out, and the injected HB_STOP, LINK_DOWN or other
  drill fault ends. -/
  | faultInjectionEnd (fault : Nat)
  /-- RESET_REQUEST_RELEASE (R283). A reset request output whose matching RST input was already seen is released once
  it has been held for 64 AO cycles. -/
  | resetRequestRelease (cold : Bool)
  /-- PORT_DOMAIN_RELEASE (R141). A PORT domain reset by DOMAIN.RESET or by firmware leaves reset; on SIDE or FAB this
  samples INIT_CRED as a link initialisation, and an epoch record becomes owed on that interface. -/
  | portDomainRelease (port : PortName) (initCred : BitVec 12)
deriving DecidableEq, Repr

end Sys2Proof
end

