-- ==== Sys2Proof/Decode.lean ====
section
/-! DEFINITION. The commands that a word spells by the bits of the table: none, because no row of the table has bits. -/

namespace Sys2Proof

/-- The command that a word of `nbits` bits spells. Every row of spec/opcode_table.json has an empty encoding: commands reach the block
as packets, register accesses, records and pin events, which the operands of `Instr` carry. -/
def decodeTableWord (_nbits _w : Nat) : Option Instr := none

end Sys2Proof
end

