-- ==== Sys2Proof/Machine/Bytes.lean ====
section
/-! DEFINITION. Byte order, bit fields, saturation and the four check polynomials (R7, R8, R115). -/

namespace Sys2Proof.Machine

/-- The `n` low bytes of `v`, most significant first (R7). -/
def be : Nat → Nat → List Byte
  | 0, _ => []
  | n + 1, v => BitVec.ofNat 8 (v / 256 ^ n) :: be n v

/-- Put an element in front of the first that it does not lie behind. -/
def insertLe {α : Type} (le : α → α → Bool) (x : α) : List α → List α
  | [] => [x]
  | y :: l => if le x y then x :: y :: l else y :: insertLe le x l

/-- Sort by an order; elements that are equal in it keep their places. Structural, so that the kernel can run it. -/
def sortLe {α : Type} (le : α → α → Bool) : List α → List α
  | [] => []
  | x :: l => insertLe le x (sortLe le l)

/-- Numbers in ascending order. -/
def sortNat (l : List Nat) : List Nat := sortLe (fun a b => decide (a ≤ b)) l

/-- The number that a list of bytes spells, most significant first (R7). -/
def beNat (l : List Byte) : Nat :=
  l.foldl (fun a b => a * 256 + b.toNat) 0

/-- `n` bytes from offset `off`, 0 where the list ends. -/
def slice (l : List Byte) (off n : Nat) : List Byte :=
  let t := (l.drop off).take n
  t ++ List.replicate (n - t.length) 0

/-- The big-endian number of `n` bytes at `off` (R7). -/
def rd (l : List Byte) (off n : Nat) : Nat :=
  beNat (slice l off n)

/-- Bits [hi:lo] of a number (R8). -/
def bits (v hi lo : Nat) : Nat :=
  v / 2 ^ lo % 2 ^ (hi + 1 - lo)

/-- Bit i of a number (R8). -/
def bit (v i : Nat) : Bool :=
  v / 2 ^ i % 2 == 1

/-- 1 for true. -/
def b2n (b : Bool) : Nat :=
  if b then 1 else 0

/-- A list of bytes brought to `n` bytes, padded with 0. -/
def padTo (n : Nat) (l : List Byte) : List Byte :=
  l.take n ++ List.replicate (n - l.length) 0

/-- `n` zero bytes (R9: the block writes every reserved byte as 0). -/
def zeros (n : Nat) : List Byte :=
  List.replicate n 0

/-- A count that saturates at the largest value of `w` bits. -/
def satAdd (w : Nat) (a n : Nat) : Nat :=
  min (a + n) (2 ^ w - 1)

/-- The signed number that the low `w` bits of `v` spell in two's complement. -/
def signed (w v : Nat) : Int :=
  if v % 2 ^ w < 2 ^ (w - 1) then (v % 2 ^ w : Nat) else ((v % 2 ^ w : Nat) : Int) - (2 ^ w : Nat)

/-- The `w` low bits of a signed number as two's complement. -/
def unsigned (w : Nat) (v : Int) : Nat :=
  (v % (2 ^ w : Nat)).toNat

/-- A signed number held within [-m, m]. -/
def clampInt (m : Int) (v : Int) : Int :=
  if v < -m then -m else if v > m then m else v

/-- ⌈a ÷ b⌉. -/
def ceilDiv (a b : Nat) : Nat :=
  (a + b - 1) / b

/-- One bit step of a reflected CRC. -/
def crcStepR (poly crc : Nat) : Nat :=
  if crc % 2 = 1 then (crc / 2) ^^^ poly else crc / 2

/-- Eight bit steps of a reflected CRC on one byte. -/
def crcByteR (poly crc : Nat) (b : Byte) : Nat :=
  let s := crcStepR poly
  s (s (s (s (s (s (s (s (crc ^^^ b.toNat))))))))

/-- One bit step of a CRC of `w` bits that is not reflected. -/
def crcStepN (w poly crc : Nat) : Nat :=
  if crc / 2 ^ (w - 1) % 2 = 1 then (crc * 2 % 2 ^ w) ^^^ poly else crc * 2 % 2 ^ w

/-- Eight bit steps of a CRC of `w` bits that is not reflected, on one byte. -/
def crcByteN (w poly crc : Nat) (b : Byte) : Nat :=
  let s := crcStepN w poly
  s (s (s (s (s (s (s (s (crc ^^^ (b.toNat * 2 ^ (w - 8))))))))))

/-- CRC-32C, POLY 0b00 of Table 4.9 (R115); 0x82F6_3B78 is 0x1EDC_6F41 with its bits reversed. -/
def crc32c (l : List Byte) : Nat :=
  (l.foldl (crcByteR 0x82F63B78) 0xFFFFFFFF) ^^^ 0xFFFFFFFF

/-- CRC-32 of IEEE 802.3, POLY 0b01 of Table 4.9 (R115). -/
def crc32 (l : List Byte) : Nat :=
  (l.foldl (crcByteR 0xEDB88320) 0xFFFFFFFF) ^^^ 0xFFFFFFFF

/-- CRC-64/ECMA-182, POLY 0b10 of Table 4.9 (R115). -/
def crc64 (l : List Byte) : Nat :=
  l.foldl (crcByteN 64 0x42F0E1EBA9EA3693) 0

/-- CRC-16/CCITT, POLY 0b11 of Table 4.9 (R115). -/
def crc16 (l : List Byte) : Nat :=
  l.foldl (crcByteN 16 0x1021) 0xFFFF

/-- The hop check value of the polynomial that POLY names (Table 4.9). -/
def hopCrc (poly : Nat) (l : List Byte) : Nat :=
  if poly = 0 then crc32c l else if poly = 1 then crc32 l else if poly = 2 then crc64 l else crc16 l

/-- The k-th 64-bit word of a byte list (R7). -/
def dwords : Nat → List Byte → List Nat
  | 0, _ => []
  | n + 1, l => rd l 0 8 :: dwords n (l.drop 8)

/-- A byte list cut into pieces of `k` bytes, at most `n` of them. -/
def chunksOf (k : Nat) : Nat → List Byte → List (List Byte)
  | 0, _ => []
  | n + 1, l => if l.isEmpty then [] else l.take k :: chunksOf k n (l.drop k)

end Sys2Proof.Machine
end

