-- ==== Sys2Proof/Machine/HallState.lean ====
section
/-! DEFINITION. State of Hallmark (spec/13): staging area, buckets, flash log. -/

namespace Sys2Proof.Machine

/-- Severities of Table 13.1, least first. -/
inductive Sev where
  | info | notice | fault | fatal
deriving DecidableEq, Repr

/-- A Hallmark record (Table 13.1). -/
structure HRec where
  code : BitVec 16
  sev : Sev
  carried : Bool
  drill : Bool
  supp : Bool
  lock : Bool
  argb : Byte
  seq : Word
  t : Dword
  opt : BitVec 24
  powc : BitVec 16
  arg : Dword
deriving DecidableEq, Repr

/-- A staging entry (R331): its record, whether written, copied, and whether its flash write has begun. -/
structure HEnt where
  r : HRec
  written : Bool
  copied : Bool
  begun : Bool
deriving DecidableEq, Repr

/-- A token bucket of a code (R334). -/
structure HBucket where
  code : BitVec 16
  tokens : Nat
  supp : Nat
  sev : Sev
  t : Dword
  nextAt : Nat
deriving DecidableEq, Repr

/-- A slot of the flash log that is not erased (R329). -/
inductive HSlot where
  | holds (r : HRec)
  | torn
deriving DecidableEq, Repr

/-- Hallmark. `ents` is in order of staging, oldest first, at most 64; `log` is the flash log by slot 0 to 4,095,
an unlisted slot being erased; `nextSlot` the slot of the head to be written. The log and nothing else survives an AO
reset. -/
structure HallUnit where
  ents : List HEnt
  seq : Word
  opt : BitVec 24
  optAt : Nat
  powc : BitVec 16
  drop : Nat
  dropSeen : Nat
  buckets : List HBucket
  common : HBucket
  flash : Nat
  flashAt : Nat
  rlDepth : Nat
  rlInt : Nat
  flRate : Nat
  flDepth : Nat
  log : List (Nat × HSlot)
  head : Nat
  nextSlot : Nat
  lastClear : Option Nat
  lastSeq : Word
deriving DecidableEq, Repr

/-- Hallmark after AO reset, with the flash log as the flash holds it (R336, R338, R343). -/
def hallReset (log : List (Nat × HSlot)) : HallUnit where
  ents := []
  seq := 1
  opt := 0
  optAt := 0
  powc := 1
  drop := 0
  dropSeen := 0
  buckets := []
  common := { code := 0, tokens := 16, supp := 0, sev := .info, t := 0, nextAt := 1000000000 }
  flash := 64
  flashAt := 0
  rlDepth := 4
  rlInt := 60
  flRate := 1
  flDepth := 64
  log := log
  head := 0
  nextSlot := 0
  lastClear := none
  lastSeq := 0

end Sys2Proof.Machine
end

