-- ==== Sys2Proof/Machine/Table.lean ====
section
/-! DEFINITION. Keyed tables in one canonical form: a list of (key, value) pairs with keys strictly rising. -/

namespace Sys2Proof.Machine

/-- A table keyed by numbers. -/
abbrev Table (α : Type) := List (Nat × α)

/-- The entry of key `k`. -/
def tget {α : Type} : Table α → Nat → Option α
  | [], _ => none
  | (a, x) :: t, k => if a = k then some x else tget t k

/-- The entry of key `k`, or a default. -/
def tgetD {α : Type} (t : Table α) (k : Nat) (d : α) : α :=
  (tget t k).getD d

/-- Write the entry of key `k`, in place or at its place in ascending order. -/
def tput {α : Type} : Table α → Nat → α → Table α
  | [], k, v => [(k, v)]
  | (a, x) :: t, k, v =>
    if k < a then (k, v) :: (a, x) :: t
    else if k = a then (k, v) :: t
    else (a, x) :: tput t k v

/-- Remove the entry of key `k`. -/
def tdel {α : Type} : Table α → Nat → Table α
  | [], _ => []
  | (a, x) :: t, k => if a = k then t else (a, x) :: tdel t k

/-- Change the entry of key `k` where there is one. -/
def tmod {α : Type} (t : Table α) (k : Nat) (f : α → α) : Table α :=
  match tget t k with
  | some x => tput t k (f x)
  | none => t

/-- Change every entry. -/
def tmap {α : Type} (t : Table α) (f : Nat → α → α) : Table α :=
  t.map fun e => (e.1, f e.1 e.2)

/-- The entries that a test keeps. -/
def tkeep {α : Type} (t : Table α) (p : Nat → α → Bool) : Table α :=
  t.filter fun e => p e.1 e.2

/-- Keys strictly rising: the canonical form. -/
def tableWf {α : Type} : Table α → Bool
  | [] => true
  | [_] => true
  | a :: b :: t => decide (a.1 < b.1) && tableWf (b :: t)

/-- Change the element at an index where there is one. -/
def lmod {α : Type} : List α → Nat → (α → α) → List α
  | [], _, _ => []
  | x :: l, 0, f => f x :: l
  | x :: l, n + 1, f => x :: lmod l n f

/-- The element at an index, or a default. -/
def lget {α : Type} (l : List α) (n : Nat) (d : α) : α :=
  l.getD n d

end Sys2Proof.Machine
end

