-- ==== Sys2Proof/Machine/HallBase.lean ====
section
/-! DEFINITION. The staging area of Hallmark as data (R328 to R336): places, the choice of the flash writer, rate limits. -/

namespace Sys2Proof.Machine

/-- The code of a severity (Table 13.1). -/
def sevCode : Sev → Nat
  | .info => 0 | .notice => 1 | .fault => 2 | .fatal => 3

/-- A severity is below another. -/
def sevLt (a b : Sev) : Bool := decide (sevCode a < sevCode b)

/-- Bytes 0 to 28 of a Hallmark record (Table 13.1). -/
def hrecHead (r : HRec) : List Byte :=
  be 2 r.code.toNat ++ be 1 (sevCode r.sev * 64 + b2n r.carried * 32 + b2n r.drill * 16 + b2n r.supp * 8
    + b2n r.lock * 4) ++ be 1 r.argb.toNat ++ be 4 r.seq.toNat ++ be 8 r.t.toNat ++ be 3 r.opt.toNat
    ++ be 2 r.powc.toNat ++ be 8 r.arg.toNat

/-- The 32 bytes of a Hallmark record with CRC and valid mark (Table 13.1). -/
def hrecBytes (r : HRec) : List Byte := hrecHead r ++ be 2 (crc16 (hrecHead r)) ++ be 1 0x5A

/-- Codes that are never rate limited (R335). -/
def hallExempt (code : BitVec 16) (sev : Sev) : Bool :=
  sev == .fatal || code == 0x0C04 || code == 0x0C07 || code == 0x0C06 || code == 0x0C01 || code == 0x0C03

/-- The next SEQ: counting from 1 and wrapping at 0xFFFF_FFFF to 1 (R328). -/
def nextSeq (q : Word) : Word := if q = 0xFFFFFFFF then 1 else q + 1

/-- An entry is free when it is both WRITTEN and COPIED (R331). -/
def HEnt.free (e : HEnt) : Bool := e.written && e.copied

/-- Remove the first element that a test picks. -/
def dropFirst {α : Type} (p : α → Bool) : List α → List α
  | [] => []
  | x :: l => if p x then l else x :: dropFirst p l

/-- The lowest severity among entries that may be discarded. -/
def lowestSev : List HEnt → Option Sev
  | [] => none
  | e :: l =>
    match lowestSev l with
    | none => if e.begun && !e.written then none else some e.r.sev
    | some v => if e.begun && !e.written then some v else if sevLt e.r.sev v then some e.r.sev else some v

/-- Discard the oldest record of the lowest severity present, never one between its two programs (R332). -/
def discardOne (l : List HEnt) : List HEnt :=
  match lowestSev l with
  | none => l
  | some v => dropFirst (fun e => !(e.begun && !e.written) && e.r.sev == v) l

/-- A new record takes the oldest free entry; with none free one record is discarded (R331, R332). The second
component is true when a record was discarded. -/
def placeEnt (l : List HEnt) (e : HEnt) : List HEnt × Bool :=
  if l.length < 64 then (l ++ [e], false)
  else if l.any HEnt.free then (dropFirst HEnt.free l ++ [e], false)
  else (discardOne (l ++ [e]), true)

/-- The flash writer's next entry: highest severity first, then staging order, which is SEQ order (R336). -/
def pickEnt (l : List HEnt) : Option HEnt :=
  let w := l.filter fun e => !e.written
  match w.find? fun e => e.r.sev == .fatal with
  | some e => some e
  | none =>
    match w.find? fun e => e.r.sev == .fault with
    | some e => some e
    | none =>
      match w.find? fun e => e.r.sev == .notice with
      | some e => some e
      | none => w.head?

/-- Mark the entry of a SEQ. -/
def markEnt (l : List HEnt) (q : Word) (f : HEnt → HEnt) : List HEnt :=
  l.map fun e => if e.r.seq == q then f e else e

/-- The writer begins the next record when the flash is free of Hallmark writes and a token is there; FAULT and FATAL
do not wait for a token and take one when one is present (R336). -/
def HallUnit.beginWrite (h : HallUnit) : HallUnit :=
  if h.ents.any fun e => e.begun && !e.written then h
  else match pickEnt h.ents with
    | none => h
    | some e =>
      if sevLt e.r.sev .fault && h.flash == 0 then h
      else { h with ents := markEnt h.ents e.r.seq fun x => { x with begun := true }, flash := h.flash - 1 }

/-- The log slot of a record between its two programs is torn when its write is given up (R329, R336, R344). -/
def HallUnit.tear (h : HallUnit) : HallUnit :=
  if h.ents.any fun e => e.begun && !e.written then
    { h with log := tput h.log (h.head * 128 + h.nextSlot) .torn, nextSlot := h.nextSlot + 1 }
  else h

/-- Entries that are UNWRITTEN or not COPIED have reached the high-water mark (R333). -/
def HallUnit.high (h : HallUnit) : Bool := decide (48 ≤ (h.ents.filter fun e => !e.free).length)

/-- The next refill of a bucket: at whole multiples of its interval of TB1 (R132, R334). -/
def refillAt (secs now1 : Nat) : Nat := (now1 / (secs * 1000000000) + 1) * (secs * 1000000000)

/-- A bucket at its start (R334). -/
def newBucket (code : BitVec 16) (depth : Nat) (nextAt : Nat) : HBucket :=
  { code := code, tokens := depth, supp := 0, sev := .info, t := 0, nextAt := nextAt }

/-- The refills of a bucket that are due, one each interval of TB1; after one the suppressed count is 0 (R334). -/
def HBucket.refill (b : HBucket) (depth secs now1 : Nat) : HBucket :=
  if b.nextAt ≤ now1 then
    let n := (now1 - b.nextAt) / (secs * 1000000000) + 1
    { b with tokens := min depth (b.tokens + n), supp := 0, nextAt := b.nextAt + n * (secs * 1000000000) }
  else b

/-- A record of a bucket's code takes a token or is suppressed, the first suppressed record leaving its T and the
highest severity being kept (R334, Table 13.2 SUPPRESSED). -/
def HBucket.take (b : HBucket) (sev : Sev) (t : Nat) (code : BitVec 16) : HBucket × Bool :=
  if 0 < b.tokens then ({ b with tokens := b.tokens - 1 }, true)
  else if b.supp = 0 then ({ b with supp := 1, sev := sev, t := BitVec.ofNat 64 t, code := code }, false)
  else ({ b with supp := b.supp + 1, sev := if sevLt b.sev sev then sev else b.sev }, false)

/-- The rate limit of a code: its bucket, a new full one, one in place of a full bucket with no suppressed count, or
the common bucket (R334, R335). -/
def HallUnit.limit (h : HallUnit) (code : BitVec 16) (sev : Sev) (now1 now0 : Nat) : HallUnit × Bool :=
  match h.buckets.find? fun b => b.code == code with
  | some b =>
    let p := b.take sev now0 code
    ({ h with buckets := h.buckets.map fun x => if x.code == code then p.1 else x }, p.2)
  | none =>
    let p := (newBucket code h.rlDepth (refillAt h.rlInt now1)).take sev now0 code
    if h.buckets.length < 64 then ({ h with buckets := h.buckets ++ [p.1] }, p.2)
    else match h.buckets.find? fun b => b.tokens == h.rlDepth && b.supp == 0 with
      | some v => ({ h with buckets := h.buckets.map fun x => if x.code == v.code then p.1 else x }, p.2)
      | none =>
        let q := h.common.take sev now0 code
        ({ h with common := q.1 }, q.2)

end Sys2Proof.Machine
end

