-- ==== Sys2Proof/Config.lean ====
section
/-! DEFINITION. What an integration or a fuse fixes (R462, R409, Table 17.4), and the free values: constants without a
body, so that no proof can lean on a value of them. -/

namespace Sys2Proof

/-- The fused 32-bit physical ID (R14). -/
opaque Config.physId : Word

/-- Fused static fallback grant DIE_FB in 0.25 A units (R349, Table 17.4). -/
opaque Config.dieFb : BitVec 11

/-- Fused default tray budget in 0.25 A units (R345, Table 17.4). -/
opaque Config.budgetDef : BitVec 11

/-- Fused nominal core voltage in mV (Table 17.4). -/
opaque Config.vnom : BitVec 12

/-- Host cores minus 1 as CAP_INT reports them (R462). -/
opaque Config.coresM1 : BitVec 8

/-- Engines per core minus 1 (R462). -/
opaque Config.enginesM1 : BitVec 4

/-- Stamp ports, 0 to 64 (R462). -/
opaque Config.stamps : BitVec 7

/-- Side links, 0 to 16 (R462). -/
opaque Config.sides : BitVec 5

/-- Memory ports, 0 to 32 (R462). -/
opaque Config.mems : BitVec 6

/-- Chip-level region clock monitors, 0 to 16 (R462). -/
opaque Config.regions : BitVec 5

/-- Period of one FAB flit in picoseconds, 50 to 5,000 (R462). -/
opaque Config.fabFlitPs : Nat

/-- Period of one SIDE flit in picoseconds, 50 to 5,000 (R462). -/
opaque Config.sideFlitPs : Nat

/-- Nominal cycles of a region in a monitor window of 1,024 AO cycles (R70, REGION_NOM of R462). -/
opaque Config.regionNom : Nat → Nat

/-- How far TB3 moves, in 2^-16 ns, in the n-th AO cycle: Assay's own oscillator, which the spec does not tie to AO
(R41). A free value. -/
opaque Config.tb3Advance : Nat → Nat

/-- What the servo makes of the n-th offset measurement: the spec bounds ADJ (R39) and gives the servo no rule.
A free value, brought within the limit where it is used. -/
opaque Config.servoAdj : Nat → Int

/-- What a count of cycles of a region comes to in nanoseconds, as binary32 bits, where the monitor window in which they fell has no ρ
at the sample (R71; log entry 27): by the number of the reading, the cycles and the region. A free value. -/
opaque Config.cycTime : Nat → Int → Nat → Nat

/-- At the n-th reading of free values, whether descriptor j of the map of a set at another block is RESID: that block's own matter, which
no record carries here (R212; log entry 26). -/
opaque Config.remoteResid : Nat → Nat → Nat → Nat → Bool

/-- PMBus address and page of the tray chip's own core regulator (Table 14.11). -/
opaque Config.ownPmbus : Nat × Nat

/-- Fused reference temperature T0 in 0.25 °C (Table 14.10). -/
opaque Config.temperT0 : Int

/-- Fused default of S_TGT (Table 14.10). -/
opaque Config.temperTgt : Nat

/-- Fused default of TPS (Table 14.10). -/
opaque Config.temperTps : Nat

/-- Fused count of each ring oscillator at manufacture. -/
opaque Config.roRef : Nat → Nat

/-- The calibration with which Assay meters while no fuse bank is written: the spec states none. A free value. -/
opaque Config.uncalibrated : CalBank

/-- Mean of `n` codes of sum `s` at a scale (VAVG, IAVG): the spec gives the scales no unit. A free value. -/
opaque Config.assayMean : Int → Nat → Nat → Nat

/-- Power in watts of a pair product under a calibration (PMAX). A free value, as `assayMean` is. -/
opaque Config.assayPower : Int → Nat → Nat

/-- The firmware image that the integrator delivers in slot 0 (R423). -/
opaque Config.fwDelivered : FwHdr

/-- FLASH_SIZE of R422: 0 for 128 MiB, 1 to 3 for 256 MiB, 512 MiB and 1 GiB. -/
opaque Config.flashSize : BitVec 2

/-- STATE of WATCH.STATUS for a free (0), armed (1) and open (2) watch: the spec gives the byte no codes. A free value. -/
opaque Config.watchState : Nat → Nat

/-- What the tray chip's own regulator answers when the stored Temper offset is applied at start (R362), by the count of free values
read: the row of the table names no answer. A free value. -/
opaque Config.startRegulator : Nat → PmbWrite

end Sys2Proof
end

