-- ==== Sys2Proof/Machine/HopState.lean ====
section
/-! DEFINITION. State of Hopper, the books, Weir and Sluice (spec/04, spec/05). -/

namespace Sys2Proof.Machine

/-- Where a record of this block goes: to the tray master or parent (R17), to one block, to the children of a mask,
to every destination the stream serves, or to those of them that it reaches over some interfaces (R54), or over a die's side link to
its tray (the JOIN of R20). -/
inductive Dest where
  | up
  | side
  | block (a : Laddr)
  | children (mask : Dword) (addrs : List Laddr)
  | every
  | over (ifcs : List Nat)
deriving DecidableEq, Repr

/-- A copy that a queued record still owes: interface and next hop. -/
structure Hop where
  ifc : Nat
  dst : Laddr
deriving DecidableEq, Repr

/-- A record queued in Hopper, final since its acceptance (R99, R108), with its destination, the copies that have
left, and the TB0 nanoseconds of the instant its STAMP carries the low 32 bits of. -/
structure QRec where
  r : Rec
  dst : Dest
  sent : List Hop
  full : Nat
deriving DecidableEq, Repr

/-- A record that a unit offers to Hopper: destination, class, type, unit, flags, the TB0 nanoseconds of its STAMP
(`none`: TB0 at acceptance, R100) and its body. -/
structure Req where
  dst : Dest
  cls : Fin 4
  typ : BitVec 8
  unit : BitVec 6
  flags : BitVec 8
  stamp : Option Nat
  body : List Byte
deriving DecidableEq, Repr

/-- An outgoing stream's AO books (R104, R109, R120) and what it owes under R54 and R121. `served` are the blocks to which it has
carried records by address. -/
structure OutStream where
  pos : BitVec 24
  emit : Nat
  dropQuota : Nat
  dropStale : Nat
  dropEcc : Nat
  dropFlush : Nat
  queued : Nat
  restart : Bool
  epochOwed : Bool
  reconOwed : Bool
  ifcOwed : List Nat
  loss : Bool
  lastEpoch : Nat
  carried : Bool
  served : List Laddr
deriving DecidableEq, Repr

/-- A multicast frame pair of which copies are still to leave (R144): the positions of its records, and its two frames. -/
structure CopyFrame where
  poss : List Nat
  data : List Byte
  ovf : List Byte
deriving DecidableEq, Repr

/-- A stream's ENG configuration and queue (R107, R110, R112, R121). `copies` are the multicast frames in copying. `quota` in cells;
`ratio` true is 4:1; `reconNext` a period that waits for the next boundary of the old one (R83). -/
structure StreamCfg where
  quota : Nat
  ratio : Bool
  poly : BitVec 2
  reconMs : Nat
  reconLast : Nat
  reconNext : Option Nat
  ovfId : BitVec 16
  queue : List QRec
  copies : List CopyFrame
deriving DecidableEq, Repr

/-- Consumer state and books of one (SRC, CLASS) (R105, R122). `base` is unset until the first settlement of a stream
first seen mid-run; `fwdEvent` says that a forwarder event was seen since the last settlement; `dirty` that LOST_LINK
or LOST_FWD changed since the last KIND 1 record; `reconAt` the TB0 nanoseconds of the last RECONCILE record, or of the
first record of a stream from which none has come;
`via` the hop its frames last came from. -/
structure Consumer where
  last : BitVec 24
  base : Option Int
  deliv : Nat
  gap : Nat
  dup : Nat
  lostLink : Nat
  lostFwd : Nat
  restarts : Nat
  fwdEvent : Bool
  dirty : Bool
  reconAt : Nat
  via : Laddr
deriving DecidableEq, Repr

/-- A frame in a FWD queue: data frame with its overflow frame, copies still to leave, TB1 arrival, SLUICE_HELD mark, and the cells
of its records in Hopper (R107). -/
structure FwdFrame where
  data : List Byte
  ovf : List Byte
  hops : List Hop
  arrived : Nat
  heldMark : Bool
  cells : Nat
deriving DecidableEq, Repr

/-- A class of an interface (R126, R132 to R135): shaper word, tokens, a word that waits for the next selection,
virtual time and tags in 2^-16 byte, and the FWD queue. `heldMark` holds the positions of the OWN frame that SLUICE_HELD has counted;
`ownActive` says that OWN held a frame at the last selection. -/
structure ClassQ where
  en : Bool
  rate : Nat
  burst : Nat
  wOwn : Nat
  wFwd : Nat
  tokens : Nat
  next : Option (Dword)
  v : Dword
  sOwn : Dword
  fOwn : Dword
  sFwd : Dword
  fFwd : Dword
  fwd : List FwdFrame
  heldMark : List Nat
  ownActive : Bool
deriving DecidableEq, Repr

/-- The overflow frame of a pair whose data frame has left (R129, R130). -/
structure Second where
  cls : Nat
  bytes : List Byte
  dst : Laddr
deriving DecidableEq, Repr

/-- A frame whose flits are leaving (R129, R134): TB1 in 2^-16 ps at which its tail has left, its stream, and how many records left
Hopper with it. -/
structure Leaving where
  till : Nat
  cls : Nat
  recs : Nat
deriving DecidableEq, Repr

/-- A frame as it arrived, with what the surroundings say of its way (log entry 9). -/
structure RxFrame where
  bytes : List Byte
  route : Routing
deriving DecidableEq, Repr

/-- An egress interface (R136 to R142, R487). `portReset` is its PORT domain held in reset; `linkUp` the LINK_UP pin; `short` while Weir
holds the link down for want of credits (R139); `rx` holds frames that arrived while ENG was stopped; `rxPair` a data frame whose overflow
frame has not come yet (R113); `leaving` the frame whose flits are on their way; `initCred` the INIT_CRED pins as they last stood (Table
20.7). -/
structure IfcSt where
  portReset : Bool
  linkUp : Bool
  short : Bool
  held : Nat
  granted : Nat
  outstanding : Nat
  credStart : Nat
  credTo : Nat
  reclaimed : Nat
  downAt : Option Nat
  gateCyc : Nat
  gates : List Dword
  gateNext : Option (Nat × List Dword)
  gateLast : Nat
  overrun : Nat
  cls : List ClassQ
  second : Option Second
  leaving : Option Leaving
  rx : List RxFrame
  rxPair : Option RxFrame
  peer : Laddr
  initCred : Nat
deriving DecidableEq, Repr

/-- Hopper, Weir and Sluice. `sluice` holds the aggregate bucket and the four class buckets; `shaperK`, `sluiceK` and
`admK` count refills (R132, R145, R147); `flushes` are the teardown flushes that wait (R148). -/
structure HopUnit where
  out : List OutStream
  cfg : List StreamCfg
  consumers : List (Nat × Consumer)
  ifcs : List IfcSt
  sluice : List Nat
  shaperK : Nat
  sluiceK : Nat
  admission : Nat
  admK : Nat
  gaspLost : Nat
  flushes : List (Nat × Nat × List Req)
  freeCells : Nat
  ovfCells : Nat
deriving DecidableEq, Repr

/-- An outgoing stream after AO reset: books at 0, a restart EPOCH record owed (R104). -/
def outReset : OutStream where
  pos := 0
  emit := 0
  dropQuota := 0
  dropStale := 0
  dropEcc := 0
  dropFlush := 0
  queued := 0
  restart := true
  epochOwed := true
  reconOwed := true
  ifcOwed := []
  loss := false
  lastEpoch := 0
  carried := false
  served := []

/-- A stream after ENG reset (R107, R110, R121). -/
def streamReset : StreamCfg where
  quota := 30720
  ratio := false
  poly := 0
  reconMs := 10
  reconLast := 0
  reconNext := none
  ovfId := 1
  queue := []
  copies := []

/-- A class of an interface after ENG reset (R134, R135, Table 5.2), at the RATE its fuse gives. -/
def classReset (rate : Nat) : ClassQ where
  en := true
  rate := rate
  burst := 0x10000
  wOwn := 1
  wFwd := 1
  tokens := 0
  next := none
  v := 0
  sOwn := 0
  fOwn := 0
  sFwd := 0
  fFwd := 0
  fwd := []
  heldMark := []
  ownActive := false

/-- An interface after AO reset, with its PORT domain in reset and its link down. -/
def ifcReset (rates : List Nat) : IfcSt where
  portReset := true
  linkUp := false
  short := false
  held := 0
  granted := 0
  outstanding := 0
  credStart := 0
  credTo := 100
  reclaimed := 0
  downAt := none
  gateCyc := 1000000
  gates := []
  gateNext := none
  gateLast := 0
  overrun := 0
  cls := rates.map classReset
  second := none
  leaving := none
  rx := []
  rxPair := none
  peer := 0
  initCred := 0

/-- Fused Sluice class ceilings of a role in MB/s, Table 5.5; the ceilings go by the role strap. -/
def sluiceRate : Role → List Nat
  | .tray => [2000, 9000, 6000, 8000]
  | .spine => [8000, 36000, 24000, 32000]
  | _ => [250, 1500, 1000, 1000]

/-- Fused aggregate Sluice ceiling of a role in MB/s, Table 5.5. -/
def sluiceAll : Role → Nat
  | .tray => 9000
  | .spine => 36000
  | _ => 1500

/-- Depth of every Sluice bucket of a role in bytes, Table 5.5. -/
def sluiceDepth : Role → Nat
  | .tray => 262144
  | .spine => 1048576
  | _ => 65536

/-- Hopper, Weir and Sluice after AO reset. -/
def hopReset (r : Role) : HopUnit where
  out := List.replicate 4 outReset
  cfg := List.replicate 8 streamReset
  consumers := []
  ifcs := ifcReset (sluiceRate r) :: List.replicate 16 (ifcReset [8000, 8000, 8000, 8000])
  sluice := [0, 0, 0, 0, 0]
  shaperK := 0
  sluiceK := 0
  admission := 16
  admK := 0
  gaspLost := 0
  flushes := []
  freeCells := 262144
  ovfCells := 0

end Sys2Proof.Machine
end

