-- ==== Sys2Proof/Machine/BrakeState.lean ====
section
/-! DEFINITION. State of Brake (spec/11). -/

namespace Sys2Proof.Machine

/-- Brake parameters (Table 11.3). `src` 0 REG, 1 PIN, 2 either; times in nanoseconds. -/
structure BrakeCfg where
  src : Nat
  period : Nat
  prov : Nat
  conf : Nat
  bootTo : Nat
  engConfTo : Nat
  blkPeriod : Nat
  warmFirst : Bool
  recovTo : Nat
  reqTo : Nat
  escCount : Nat
  escWin : Nat
  ingotEn : Bool
  budget : Nat
  writeTo : Nat
  gpEn : Bool
  gpTo : Nat
deriving DecidableEq, Repr

/-- The heartbeat watch (R275): disarmed, waiting for the first beat (with the TB1 nanoseconds of the release that BOOT_TO
counts from, none after AO reset), or armed. -/
inductive Watch where
  | off
  | waiting (release : Option Nat)
  | armed
deriving DecidableEq, Repr

/-- Block beats of one member (R278): consecutive periods without one, whether one came in this period, that the
verdict of this silence has closed, the TB0 nanoseconds of the last period end and the step count there. -/
structure BlockBeat where
  addr : Laddr
  miss : Nat
  beaten : Bool
  closed : Bool
  k : Nat
  steps : BitVec 16
deriving DecidableEq, Repr

/-- The engine whose event 63 opened the ENGINE verdict (R277): the TB1 nanoseconds of the event and how many events of other
engines followed. -/
structure EngHang where
  core : Nat
  engine : Nat
  since : Nat
  extra : Nat
deriving DecidableEq, Repr

/-- Where a reset ladder stands (R282): capturing; warm request asserted; warm reset in progress; waiting for a beat since a TB1
instant; waiting for the Ingot write; cold request asserted. -/
inductive Rung where
  | capture
  | warm
  | warmIn
  | recover (since : Nat)
  | coldWait
  | cold
deriving DecidableEq, Repr

/-- A reset ladder (R282): hang source, confirmed verdict, core and engine (0xFF without), further ENGINE events, drill mark,
that NESC reached ESC_COUNT with it (R292), and its rung. -/
structure Ladder where
  source : Nat
  vid : Word
  core : Nat
  engine : Nat
  extra : Nat
  drill : Bool
  oos : Bool
  rung : Rung
deriving DecidableEq, Repr

/-- A reset request output that is asserted (R283): TB1 in 2^-16 ns at its assertion, and whether the reset input has been
seen. -/
structure ReqOut where
  since : Nat
  seen : Bool
deriving DecidableEq, Repr

/-- A region of INGOT.CONFIG (R297); `kind` 1 is the context table. -/
structure Region where
  kind : Nat
  level : Nat
  core : Nat
  engine : Nat
  len : Nat
  addr : Nat
deriving DecidableEq, Repr

/-- What the capture has of a region (Table 11.12): bytes present, bytes poisoned, and that it was not fully read. -/
structure Taken where
  data : List Byte
  poisoned : Nat
  cut : Bool
deriving DecidableEq, Repr

/-- An unreadable entry (Table 11.13). -/
structure Unread where
  region : Nat
  cause : Nat
  off : Nat
  len : Nat
  toff : Nat
deriving DecidableEq, Repr

/-- A capture in progress (R298 to R300): why and for which verdict, when, the regions in list order with the index of the one in
progress and what that has; `done` what those before it have; `fails` the consecutive failed accesses of the region in progress;
the unreadable entries listed and their whole number. -/
structure Capture where
  cause : Nat
  vid : Word
  core : Nat
  engine : Nat
  drill : Bool
  trig : Nat
  start : Nat
  start1 : Nat
  regions : List Region
  index : Nat
  cur : Taken
  done : List Taken
  fails : Nat
  unread : List Unread
  nunr : Nat
deriving DecidableEq, Repr

/-- An access on the side read path (R299): TB1 in 2^-16 ns of its issue, its length, and what it is for: 0 the capture, 1 the
preparation read of a context table, 2 nothing any more. -/
structure SideRead where
  since : Nat
  len : Nat
  use : Nat
deriving DecidableEq, Repr

/-- The flash write of a full Ingot (R302): its image, and the TB1 nanoseconds at which its capture ended. -/
structure IngotWrite where
  image : List Byte
  vid : Word
  source : Nat
  drill : Bool
  since : Nat
deriving DecidableEq, Repr

/-- A guilty-party search (R296): the hang, the context in replay with the TB1 nanoseconds of its posting, and the contexts
still to replay. -/
structure Search where
  vid : Word
  core : Nat
  engine : Nat
  drill : Bool
  cur : Word
  since : Nat
  todo : List Word
deriving DecidableEq, Repr

/-- What was last seen of a block below (R288): it has been reported reset and not been heard since; the streams whose restart
EPOCH records have come since. -/
structure PeerSt where
  gone : Bool
  epochs : List Nat
deriving DecidableEq, Repr

/-- Brake. In AO: parameters, watch, block beats, internal watch (R279; `intK` counts its periods, `ctlRaise` and `engRaise` hold the TB0
nanoseconds at which the open verdict of each source was raised, with DRILL), escalation events in TB0 nanoseconds, ladder, request
outputs, region list. `closed` says that the verdict of the present silence has been confirmed or withdrawn. `hbK` is the TB0 nanoseconds
of the last period end, `hbSteps` the step count there; `hbNext` is an HB_PERIOD that waits for the next period end, `blkNext` a
BLK_PERIOD with the boundary from which it holds (R83). `owed` holds the records that Brake and the Verdict unit made while ENG did not
run. In CTL: capture, side access, copy of the context table (`none` while it is not complete), Ingot buffer, write, search. -/
structure BrakeUnit where
  cfg : BrakeCfg
  watch : Watch
  miss : Nat
  beaten : Bool
  closed : Bool
  hbK : Nat
  hbSteps : BitVec 16
  hbNext : Option Nat
  blkNext : Option (Nat × Nat)
  lastBeat : Nat
  blocks : List BlockBeat
  eng : Option EngHang
  intK : Nat
  ctlMiss : Nat
  engMiss : Nat
  ctlRaise : Option (Nat × Bool)
  engRaise : Option (Nat × Bool)
  intEvents : List Nat
  esc : List Nat
  ladder : Option Ladder
  reqWarm : Option ReqOut
  reqCold : Option ReqOut
  peers : List (Nat × PeerSt)
  owed : List Req
  regions : List Region
  ctxBase : Nat
  fixed : Option (List Region)
  capture : Option Capture
  side : Option SideRead
  prepDue : Option (Nat × Nat)
  prepCopy : Option (List Byte)
  ctxCopy : Option (List Byte)
  buffer : List Byte
  writing : Option IngotWrite
  clearDue : Bool
  search : Option Search
deriving DecidableEq, Repr

/-- The defaults of Table 11.3. -/
def brakeCfgReset : BrakeCfg where
  src := 0
  period := 1000000
  prov := 2
  conf := 4
  bootTo := 10000000000
  engConfTo := 4000000
  blkPeriod := 10000000
  warmFirst := true
  recovTo := 100000000
  reqTo := 1000000
  escCount := 3
  escWin := 900000000000
  ingotEn := true
  budget := 20000000
  writeTo := 5000000000
  gpEn := true
  gpTo := 1000000000

/-- Brake after AO reset. -/
def brakeReset : BrakeUnit where
  cfg := brakeCfgReset
  watch := .waiting none
  miss := 0
  beaten := false
  closed := false
  hbK := 0
  hbSteps := 0
  hbNext := none
  blkNext := none
  lastBeat := 0
  blocks := []
  eng := none
  intK := 0
  ctlMiss := 0
  engMiss := 0
  ctlRaise := none
  engRaise := none
  intEvents := []
  esc := []
  ladder := none
  reqWarm := none
  reqCold := none
  peers := []
  owed := []
  regions := []
  ctxBase := 0
  fixed := none
  capture := none
  side := none
  prepDue := none
  prepCopy := none
  ctxCopy := none
  buffer := []
  writing := none
  clearDue := false
  search := none

end Sys2Proof.Machine
end

