-- ==== Sys2Proof/Machine/CmdState.lean ====
section
/-! DEFINITION. State of the command protocol and of the register window (spec/16, spec/17). -/

namespace Sys2Proof.Machine

/-- The registers of a queue pair, Table 17.9, with the PHASE that the next slot carries (R389). -/
structure QPair where
  cqBase : Dword
  cqTail : BitVec 12
  cqHead : BitVec 12
  rqBase : Dword
  rqHead : BitVec 12
  rqTail : BitVec 12
  en : Bool
  rqLog2 : BitVec 4
  cqLog2 : BitVec 4
  wrerr : Bool
  cfgerr : Bool
  dberr : Bool
  idle : Bool
  phase : Bool
deriving DecidableEq, Repr

/-- A reply or event (Table 16.3) before it has a slot: PHASE and LOST are set as it is written. -/
structure Reply where
  tag : BitVec 16
  status : BitVec 16
  opcode : BitVec 16
  final : Bool
  event : Bool
  detail : Dword
  result : List Byte
deriving DecidableEq, Repr

/-- What the final reply of a command in ACCEPTED state will say (R390): status, DETAIL, RESULT, and the bytes that
go to its output pointer or back as fabric output. -/
structure Final where
  status : BitVec 16
  detail : Dword
  result : List Byte
  out : List Byte
deriving DecidableEq, Repr

/-- A command without its final reply (R390, R401), in the order of acceptance: its path, TAG and OPCODE, the pointer of its output,
the object its work is about; `ready` is set once its work has ended. -/
structure Acc where
  path : Path
  tag : BitVec 16
  opcode : BitVec 16
  ptr : Dword
  obj : Nat
  ready : Option Final
deriving DecidableEq, Repr

/-- A fabric queue entry that the gateway has in flight or waiting (R404 to R406). -/
structure Flight where
  dest : Laddr
  issuer : Issuer
  seq : BitVec 16
  tag : BitVec 16
  opcode : BitVec 16
  packet : List Byte
  inl : List Byte
  omax : Nat
  optr : Dword
  sent : Nat
  lastSent : Nat
  answered : Bool
  parts : List (Nat × List Byte)
deriving DecidableEq, Repr

/-- A stored reply of a fabric command (R406), or `none` while the original still runs. -/
structure Stored where
  src : Laddr
  issuer : Issuer
  seq : BitVec 16
  reply : Option (Reply × List Byte)
deriving DecidableEq, Repr

/-- A fabric command that arrived whole and is held ahead of a gap (R406); `bad` that its parts did not make up ILEN. -/
structure Held where
  src : Laddr
  issuer : Issuer
  seq : BitVec 16
  packet : List Byte
  inl : List Byte
  bad : Bool
deriving DecidableEq, Repr

/-- A fabric command of which not all parts have come (R405). -/
structure Assembling where
  src : Laddr
  issuer : Issuer
  seq : BitVec 16
  packet : List Byte
  npart : Nat
  ilen : Nat
  parts : List (Nat × List Byte)
deriving DecidableEq, Repr

/-- The expected SEQ of a key prefix (SRC, ISSUER), with the time since which a gap waits (R406, R489). -/
structure SeqOrder where
  src : Laddr
  issuer : Issuer
  expect : BitVec 16
  gapAt : Option Nat
deriving DecidableEq, Repr

/-- The time snapshot registers (R415, Table 17.6). -/
structure Snap where
  tb0 : Dword
  tb1 : Dword
  tb2 : Dword
  lock : BitVec 2
  frac : BitVec 16
deriving DecidableEq, Repr

/-- Command protocol and register window. `latch` holds, per access path, the _HI half latched by a read of its _LO register (R410);
`fresh` holds the W1C bits that an event has set in this AO cycle, which a clear in the same cycle leaves set (R12): bit i of INT_STATUS
as i, bit b of STATUS of the local pair as 16 + b, of the fabric pair as 24 + b; `tailWas` the CQ_TAIL of a pair before the writes of this
AO cycle (R421); `waiting` the replies that wait for a free slot (R394; false local pair, true fabric pair); `events` the up to 64 events
held in AO, each with its slots and the tail of its fabric reply entries; `lostL`, `lostF` that the next event carries LOST; `store` the
replies of the latest 1,024 fabric commands. -/
structure CmdUnit where
  loc : QPair
  fab : QPair
  intStatus : BitVec 11
  intEnable : BitVec 11
  fresh : List Nat
  tailWas : List (Bool × BitVec 12)
  snap : Snap
  latch : List (Nat × (Nat × Word))
  waiting : List (Bool × Reply × List Byte)
  events : List (Bool × List Reply × List Byte)
  evlost : Nat
  lostL : Bool
  lostF : Bool
  acc : List Acc
  ctlResets : Nat
  gwSeq : List (Nat × BitVec 16)
  flight : List Flight
  gwWait : List Flight
  store : List Stored
  order : List SeqOrder
  ahead : List Held
  assembling : List Assembling
deriving DecidableEq, Repr

/-- A queue pair after the reset of the CMD PORT domain (Table 17.9). -/
def qpairReset : QPair where
  cqBase := 0
  cqTail := 0
  cqHead := 0
  rqBase := 0
  rqHead := 0
  rqTail := 0
  en := false
  rqLog2 := 4
  cqLog2 := 4
  wrerr := false
  cfgerr := false
  dberr := false
  idle := true
  phase := true

/-- The snapshot registers after AO reset (Table 17.6). -/
def snapRegsReset : Snap where
  tb0 := 0
  tb1 := 0
  tb2 := 0
  lock := 0
  frac := 0

/-- Command protocol and register window after AO reset. -/
def cmdReset : CmdUnit where
  loc := qpairReset
  fab := qpairReset
  intStatus := 0
  intEnable := 0
  fresh := []
  tailWas := []
  snap := snapRegsReset
  latch := []
  waiting := []
  events := []
  evlost := 0
  lostL := false
  lostF := false
  acc := []
  ctlResets := 0
  gwSeq := []
  flight := []
  gwWait := []
  store := []
  order := []
  ahead := []
  assembling := []

end Sys2Proof.Machine
end

