-- ==== Sys2Proof/Machine/CollState.lean ====
section
/-! DEFINITION. State of the collector (spec/03): counters, sample sets, feature maps, discrete inputs. -/

namespace Sys2Proof.Machine

/-- A counter: 48-bit value and the wrap count of COUNT mode (R78). -/
structure Counter where
  val : BitVec 48
  wraps : BitVec 2
deriving DecidableEq, Repr

/-- A monitor window that ended in a sample window: the cycles of each region in it (R70) and the set's counters at its end, for the
conversion of cycle counts window by window (R71). -/
structure MonWin where
  obs : List (Nat × Nat)
  vals : List (Nat × Counter)
deriving DecidableEq, Repr

/-- A set's last sample as the feature map needs it (R71, R85, R91): counters copied, stamp, window start, and the monitor windows that
ended in the window, oldest first. -/
structure Snapshot where
  vals : List (Nat × Counter)
  stamp : Nat
  start : Nat
  mons : List MonWin
deriving DecidableEq, Repr

/-- A sample set (R83 to R88, R490, R491). `win` is P in nanoseconds; `banks` bit b is heavy bank b; `lastK` the TB0 nanoseconds of the
last boundary taken; `winStart` the start of the window in progress; `running` is false until the set has a sampled window in progress;
`baseline` is true while the set back in RUN has not taken its baseline; `merged` counts windows that SAMPLE_LATE merged or that the set
slept through; `mons` are the monitor windows that ended in the window in progress; `stretch` says that a monitor window of the current
sample window was stretched, `stops` the regions that one of them found stopped; `eccHit` the counters that an uncorrectable read
restarted in the current window, `eccLast` those of the last sample; `taken` samples taken, 2 standing for more; `mapNext` a map with the
TB0 nanoseconds of its load. -/
structure SampleSet where
  win : Nat
  winNext : Option Nat
  banks : Dword
  banksNext : Option Dword
  tag : BitVec 16
  lastK : Nat
  winStart : Nat
  running : Bool
  baseline : Bool
  merged : Nat
  prev : Snapshot
  cur : Snapshot
  mons : List MonWin
  stretch : Bool
  stops : List Nat
  eccHit : List Nat
  eccLast : List Nat
  taken : Nat
  nlate : Nat
  lastStamp : Nat
  map : List (BitVec 128)
  mapNext : Option (Nat × List (BitVec 128))
deriving DecidableEq, Repr

/-- The latest feature vector of a set (R91): stamp, flags (STRETCH, CLKSTOP, BOUNDARY) and codes. -/
structure FVec where
  stamp : Nat
  flags : BitVec 8
  codes : List (BitVec 16)
deriving DecidableEq, Repr

/-- A light-set sample that waits in AO (R457). -/
structure StagedSample where
  stamp : Nat
  start : Nat
  nwin : Nat
  flags : BitVec 8
  vals : List (Nat × Counter)
deriving DecidableEq, Repr

/-- States of a discrete input, Table 3.11. -/
inductive DiscMode where
  | normal | chatter | stuck
deriving DecidableEq, Repr

/-- The programmable parameters of a discrete input (R94). -/
structure DiscCfg where
  pol : Bool
  winMs : Nat
  chatMax : Nat
  chatExit : Nat
  stuckMs : Nat
deriving DecidableEq, Repr

/-- A discrete input (R94 to R97): `state` is unknown until the first 3 agreeing samples after AO reset. -/
structure Disc where
  mode : DiscMode
  state : Option Bool
  count : Nat
  lastWin : Nat
  activeSince : Option Nat
  cfg : DiscCfg
  cfgNext : Option DiscCfg
deriving DecidableEq, Repr

/-- The collector. Counters that are not listed read 0; counter n lies in bank n / 256 (bank 0 is the light set). -/
structure CollUnit where
  counters : List (Nat × Counter)
  cfg : List (Nat × Word)
  sets : List SampleSet
  vecs : List (Nat × FVec)
  disc : List Disc
  stageSamples : List StagedSample
  stageDisc : List Req
deriving DecidableEq, Repr

/-- A discrete input after AO reset (R94, R97). -/
def discReset : Disc where
  mode := .normal
  state := none
  count := 0
  lastWin := 0
  activeSince := none
  cfg := { pol := false, winMs := 10, chatMax := 64, chatExit := 8, stuckMs := 60000 }
  cfgNext := none

/-- A snapshot of nothing. -/
def snapReset : Snapshot where
  vals := []
  stamp := 0
  start := 0
  mons := []

/-- A sample set at the defaults of Table 3.6, with no banks and no map. The light set (set 0) is sampled from
the start; a heavy set has no sampled window until its first boundary. -/
def setReset (light : Bool) : SampleSet where
  win := 1000000
  winNext := none
  banks := 0
  banksNext := none
  tag := 0
  lastK := 0
  winStart := 0
  running := light
  baseline := false
  merged := 0
  prev := snapReset
  cur := snapReset
  mons := []
  stretch := false
  stops := []
  eccHit := []
  eccLast := []
  taken := 0
  nlate := 0
  lastStamp := 0
  map := []
  mapNext := none

/-- The collector after AO reset. -/
def collReset : CollUnit where
  counters := []
  cfg := []
  sets := setReset true :: List.replicate 15 (setReset false)
  vecs := []
  disc := List.replicate 32 discReset
  stageSamples := []
  stageDisc := []

end Sys2Proof.Machine
end

