-- ==== Sys2Proof/Machine/CrownState.lean ====
section
/-! DEFINITION. State of Crown (spec/06): reductions, cuts, operands, cut readers, trees, broadcasts, congestion maps. -/

namespace Sys2Proof.Machine

/-- A reduction (R151, R153, Table 16.11, Table 16.12). `edges` are the 64-bit patterns of HIST edges. -/
structure Redn where
  rid : Nat
  op : Nat
  etype : Nat
  cls : Nat
  nelem : Nat
  defver : Nat
  tree : Nat
  rmask : Nat
  lkind : Nat
  agg : Nat
  sel : Nat
  sub : Nat
  base : Nat
  nb : Nat
  cap : Nat
  m : Nat
  edges : List Nat
deriving DecidableEq, Repr

/-- An element in state (Table 6.3): a number (an integer, or the bits of a binary64 value), the counts of a histogram,
or a sketch with its total and its buckets in ascending key order. -/
inductive El where
  | num (v : Int)
  | hist (cs : List Nat)
  | sk (total : Nat) (bs : List (Nat × Nat))
deriving DecidableEq, Repr

/-- What names an operand (R152): reduction, segment, CEPOCH as its records carry it, sender, and whether it is a partial. -/
structure OpKey where
  rid : Nat
  seg : Nat
  cep : Nat
  src : Nat
  partial1 : Bool
deriving DecidableEq, Repr

/-- An operand for a segment of a reduction in a cut (R152): its records by PART, each as its body. `win` is the live window of a leaf,
`cut` the end T_N of the cut that it belongs to, once that is known (R163). `flaw` is the cause under which an operand is not used:
EXCLUDED for a leaf that is UNALIGNED or misaligned, LOST where its stamps could not be extended (R56) or Crown's memory lost it
(R33). -/
structure Operand where
  key : OpKey
  win : Option (Nat × Nat)
  cut : Option Nat
  defver : Nat
  npart : Nat
  npres : Nat
  nans : Nat
  flaw : Option Nat
  parts : List (Nat × List Byte)
deriving DecidableEq, Repr

/-- The result of a segment at the close: elements, SAT, contributors present, missing entries in ascending ADDR, NaN
inputs, and whether the correction of a contributor present was HOLD. -/
structure SegResult where
  els : List El
  sat : Bool
  npres : Nat
  miss : List Nat
  nans : Nat
  hold : Bool
deriving DecidableEq, Repr

/-- A zero-copy cut reader (R168). `missedAt` is the AO cycle of the latest cut that found both halves held, as TB1 gives it. -/
structure Reader where
  path : Path
  tag : BitVec 16
  hlen : Nat
  h0 : Dword
  h1 : Dword
  held0 : Bool
  held1 : Bool
  missed : Nat
  missedAt : Nat
  owed : Bool
deriving DecidableEq, Repr

/-- What the samples of one window gave to one leaf (Table 16.12): end of the window and element values. -/
structure LeafAcc where
  rid : Nat
  till : Nat
  vals : List (Option Int)
deriving DecidableEq, Repr

/-- A child entry of a tree (R403): address, alternate parent with the standby index there, height, active or standby, and
its own children with theirs. -/
structure Child where
  addr : Laddr
  alt : Laddr
  altIdx : BitVec 6
  height : Nat
  active : Bool
  gcs : List (Laddr × Laddr × BitVec 6)
deriving DecidableEq, Repr

/-- A tree at this node (Broadcast trees, R173). No parent means that this node is the root. `ackTo` in nanoseconds. -/
structure Tree where
  gen : Word
  parent : Option Laddr
  ackTo : Nat
  children : List Child
deriving DecidableEq, Repr

/-- A cut between its window end and its publication: number, interval of corrected time, the definitions and trees it is judged
under (R175, R177), whether it was missed in a reset of the publisher (R285), and the results of the reductions that have closed. -/
structure Cut where
  n : Nat
  t0 : Nat
  t1 : Nat
  defs : List Redn
  trees : List (Nat × Tree)
  missed : Bool
  done : List (Nat × List SegResult)
deriving DecidableEq, Repr

/-- One level of cuts, tray or fleet (R160, R162, R164). `oldP` is the period before the one in force, with the boundary at which it
ended; `lastT` the last boundary that was taken; `closed` the end of the last cut of each reduction that closed, with the TB0
nanoseconds of that close; `lateOps` the operands of late counting that came last (R166); `pubEpoch` the last published epoch, held in
AO (R285). -/
structure CutLevel where
  periodNext : Option Nat
  oldP : Option (Nat × Nat)
  guard : Nat
  settle : Nat
  defs : List Redn
  defsNext : List (Nat × Option Redn)
  lastT : Nat
  closing : List Cut
  closed : List (Nat × Nat × Nat)
  late : Nat
  lateOps : List OpKey
  reassigned : Nat
  operands : List Operand
  leaves : List LeafAcc
  pubEpoch : Nat
  published : Option (Nat × List Byte)
  reader : Option Reader
deriving DecidableEq, Repr

/-- A node whose acknowledgement a broadcast waits for (R172, R173). -/
structure Wait where
  addr : Laddr
  index : Nat
  height : Nat
  resent : Bool
  done : Bool
  since : Nat
  reached : Nat
  miss : List Word
  parts : Nat
deriving DecidableEq, Repr

/-- A broadcast in progress at this node (R171 to R175). `src` and `bid` name it; `upTo` is the node it is acknowledged to, none at the
root, `also` the alternate parents that have re-sent it (R173); `got` the chunks held in order; `gap` that one was missed; `recs` the
records as they came. -/
structure Bcast where
  src : Laddr
  bid : Word
  tree : Nat
  gen : Word
  kind : Nat
  nchunk : Nat
  upTo : Option Laddr
  also : List Laddr
  got : Nat
  gap : Bool
  recs : List Rec
  waits : List Wait
  held : Option Tree
deriving DecidableEq, Repr

/-- A relay as alternate parent: the broadcast, the target, and the parent that re-sent it (R173). -/
structure Pass where
  bid : Word
  target : Laddr
  back : Laddr
deriving DecidableEq, Repr

/-- An entry of a congestion map configuration (R169, MAP.CONFIG). -/
structure MapEnt where
  port : Nat
  queue : Nat
  maxc : Nat
  sumc : Nat
  dropc : Nat
deriving DecidableEq, Repr

/-- A congestion map configuration (R169, R170). -/
structure MapCfg where
  set : Nat
  ents : List MapEnt
  th1 : Nat
  th2 : Nat
  th3 : Nat
deriving DecidableEq, Repr

/-- Crown. `trayP` and `fleetP` are the cut periods in force; `resets`, `asleep` and `fwdLast` keep what R165 asks of contributors: TB0
nanoseconds of restarts, power state changes (instant, not in RUN), and of the last forwarder event. `bcDone` keeps the newest 16
broadcasts that this node has acknowledged, without their records (R173); `expelled` are the nodes excluded or expelled; `lastCut` the end
of the tray cut after which an acting master hands over (R22, R460); `oldTrees` the trees before the last change, with its TB1 (R177);
`mp` the map period MP in nanoseconds (R169). -/
structure CrownUnit where
  trayP : Nat
  fleetP : Nat
  tray : CutLevel
  fleet : CutLevel
  resets : List (Nat × List Nat)
  asleep : List (Nat × List (Nat × Bool))
  fwdLast : List (Nat × Nat)
  expelled : List Nat
  lastCut : Option Nat
  trees : List (Nat × Tree)
  treesNext : List (Nat × Tree)
  oldTrees : List (Nat × Tree) × Nat
  bidNext : Word
  bcasts : List Bcast
  bcDone : List Bcast
  passes : List Pass
  bcDrop : Nat
  nfail : List (Word × Nat)
  mp : Nat
  map : Option MapCfg
deriving DecidableEq, Repr

/-- A level after AO reset, with SETTLE_HOP 2 ms and G 1 µs (R160, R163). -/
def levelReset : CutLevel where
  periodNext := none
  oldP := none
  guard := 1000
  settle := 2000000
  defs := []
  defsNext := []
  lastT := 0
  closing := []
  closed := []
  late := 0
  lateOps := []
  reassigned := 0
  operands := []
  leaves := []
  pubEpoch := 0
  published := none
  reader := none

/-- Crown after AO reset: cut periods 10 ms and 100 ms (R162). -/
def crownReset : CrownUnit where
  trayP := 10000000
  fleetP := 100000000
  tray := levelReset
  fleet := levelReset
  resets := []
  asleep := []
  fwdLast := []
  expelled := []
  lastCut := none
  trees := []
  treesNext := []
  oldTrees := ([], 0)
  bidNext := 1
  bcasts := []
  bcDone := []
  passes := []
  bcDrop := 0
  nfail := []
  mp := 1000000
  map := none

end Sys2Proof.Machine
end

