-- ==== Sys2Proof/Machine/FlashState.lean ====
section
/-! DEFINITION. The flash, the configuration region and Hoist (spec/18). -/

namespace Sys2Proof.Machine

/-- Slot states of Table 18.3. -/
inductive SlotSt where
  | erased | writing | valid | confirmed | trial | failed
deriving DecidableEq, Repr

/-- A directory entry (Table 18.2). `kind` follows from the entry's place. -/
structure DirEntry where
  st : SlotSt
  ver : Word
  len : Nat
  digest : Nat
  tstage : Nat
deriving DecidableEq, Repr

/-- A copy of the slot directory: GEN, its seven entries, and that its CRC values match. -/
structure DirCopy where
  gen : Nat
  ents : List DirEntry
  ok : Bool
deriving DecidableEq, Repr

/-- A copy of the configuration region: GEN, CFMT, WFW, its sections in order, and that HCRC and DIGEST match. -/
structure CfgCopy where
  gen : Nat
  cfmt : Nat
  wfw : Word
  secs : List (Nat × List Byte)
  ok : Bool
deriving DecidableEq, Repr

/-- Contents of the flash but for the Hallmark log (Table 18.1): the directory copies, the headers of the two
firmware slots, the model slots, the scan library, the copies A and B of the configuration region (`none`: erased), and the
Ingot area: the full slot and the two minimal slots (empty: erased). -/
structure FlashUnit where
  dir0 : DirCopy
  dir1 : DirCopy
  fw : List (Option FwHdr)
  models : List (List Byte)
  lib : List Byte
  cfgA : Option CfgCopy
  cfgB : Option CfgCopy
  ingot0 : List Byte
  ingot1 : List Byte
  ingot2 : List Byte
deriving DecidableEq, Repr

/-- The configuration in effect (R438, R439): sections, the copy they were read from or last written to (`none`: nothing
usable was read), its GEN and CFMT, and the copy that a confirmed image last wrote. -/
structure ConfUnit where
  secs : List (Nat × List Byte)
  copy : Option Bool
  gen : Nat
  cfmt : Nat
  confirmedCopy : Option Bool
deriving DecidableEq, Repr

/-- A chain of UPDATE.CHAIN: KIND, SLOT, PREV and NEXT (0: none). -/
structure Chain where
  kind : Nat
  slot : Nat
  prev : Laddr
  next : Laddr
deriving DecidableEq, Repr

/-- The stage in progress (R426 to R430). `src` 0 PTR, 1 the chain; `bytes` what has arrived; `expect` the next chunk index;
`written` the chunks written to flash, for which ACK has gone to PREV; `acked` the chunks that NEXT has acknowledged, `sent`
those sent to it; `rounds` the repeats of R429 without progress; `broken` that the chain is given up; `ended` that the slot is done
and only the forwarding goes on; `dup` that the slot
already holds the image (R430); `erased` that the erase has begun; times in TB1 nanoseconds. -/
structure Stage where
  kind : Nat
  slot : Nat
  src : Nat
  len : Nat
  digest : Nat
  xfer : Option Word
  bytes : List Byte
  expect : Nat
  written : Nat
  sent : Nat
  acked : Nat
  rounds : Nat
  broken : Bool
  dup : Bool
  erased : Bool
  lastChunk : Nat
  lastAck : Nat
  ended : Bool
deriving DecidableEq, Repr

/-- Hoist. In AO: the running slot, the image's header, the TB1 nanoseconds of the start of a trial, the state shown by
FWSTATE 2, what R433 asks of the trial, and the held UPDATE.START (path, tag) with
its final status once that stands. In CTL: chains, the stage, and the start that
waits for a grant with the TB1 nanoseconds of its request; the grant that a tray master gave (member, when).
`xferNext` numbers the transfers of a head. -/
structure HoistUnit where
  running : Nat
  hdr : FwHdr
  trialAt : Option Nat
  fallen : Bool
  trialBad : Bool
  selfOk : Bool
  confOk : Bool
  restoreOk : Bool
  heldStart : Option (Path × BitVec 16)
  heldFinal : Option (BitVec 16)
  chains : List Chain
  stage : Option Stage
  waitStart : Option (Nat × Nat × Path × BitVec 16)
  grant : Option (Laddr × Nat)
  xferNext : Word
deriving DecidableEq, Repr

/-- An erased directory entry. -/
def dirErased : DirEntry where
  st := .erased
  ver := 0
  len := 0
  digest := 0
  tstage := 0

/-- The flash as the integrator delivers it (R423): slot 0 confirmed, everything else erased. -/
def flashDelivered : FlashUnit where
  dir0 :=
    { gen := 1, ok := true,
      ents := { st := .confirmed, ver := Config.fwDelivered.ver, len := Config.fwDelivered.len,
                digest := Config.fwDelivered.digest, tstage := 0 } :: List.replicate 6 dirErased }
  dir1 := { gen := 0, ok := false, ents := List.replicate 7 dirErased }
  fw := [some Config.fwDelivered, none]
  models := [[], [], [], []]
  lib := []
  cfgA := none
  cfgB := none
  ingot0 := []
  ingot1 := []
  ingot2 := []

/-- No configuration read. -/
def confReset : ConfUnit where
  secs := []
  copy := none
  gen := 0
  cfmt := 0
  confirmedCopy := none

/-- An image header that nothing has read. -/
def fwHdrReset : FwHdr where
  ver := 0
  rdMin := 0
  rdMax := 0
  cfgWr := 0
  qmax := 0
  mmax := 0
  tlib := 0
  len := 0
  digest := 0

/-- Hoist after AO reset. -/
def hoistReset : HoistUnit where
  running := 0
  hdr := fwHdrReset
  trialAt := none
  fallen := false
  trialBad := false
  selfOk := false
  confOk := false
  restoreOk := false
  heldStart := none
  heldFinal := none
  chains := []
  stage := none
  waitStart := none
  grant := none
  xferNext := 1

end Sys2Proof.Machine
end

