-- ==== Sys2Proof/Machine/GovState.lean ====
section
/-! DEFINITION. State of the Governor, of Temper and of Assay (spec/14). Currents in 0.25 A, offsets in 2.5 mV steps. -/

namespace Sys2Proof.Machine

/-- What POWER.MEMBER configures for a die index (R346). -/
structure MemberCfg where
  addr : Laddr
  floor : Nat
  ceil : Nat
  weight : Nat
  pmaddr : Nat
  page : Nat
deriving DecidableEq, Repr

/-- A REPORT as it came (Table 14.4). -/
structure GovReport where
  ackSeq : Nat
  req : Nat
  held : Nat
  fb : Nat
  clamped : Bool
  trip : Bool
deriving DecidableEq, Repr

/-- The last readings of a regulator page (R359). -/
structure PmbRead where
  iout : BitVec 16
  vout : BitVec 16
  temp : BitVec 16
  status : BitVec 16
deriving DecidableEq, Repr

/-- A die index of the arbiter (R346, R352 to R354, R362). `acct` is A_i, `tgt` T_i; `waitAck` a phase 1 grant not yet
acknowledged (SEQ, target); `sentAt` and `lastAt` the TB1 nanoseconds of the last GRANT sent and of the last valid REPORT;
`back` that a silent member has reported again; `released` that its account went to FB; `offset` and `offsetAt` the offset
applied to its regulator and the TB1 nanoseconds of the change; `held` a plan that waits (offset, VNOM). -/
structure GovMember where
  cfg : Option MemberCfg
  cfgNext : Option MemberCfg
  acct : Nat
  tgt : Nat
  seq : BitVec 4
  sentAt : Nat
  waitAck : Option (BitVec 4 × Nat)
  last : Option GovReport
  lastAt : Nat
  frozen : Option GovReport
  silent : Bool
  back : Bool
  released : Bool
  err : Nat
  read : PmbRead
  offset : Int
  offsetAt : Nat
  held : Option (Int × Nat)
deriving DecidableEq, Repr

/-- The Governor. Agent: G, FLOOR_R, STATIC, REQ, the SEQ last applied, the TB1 nanoseconds of the last GRANT, whether GL_TO
fell back, the CLAMP output, the grid boundary of the last REPORT looked at, the offset in force with the TB1 nanoseconds
of its change and the TB0 nanoseconds of it, and a plan held for the 6 h rule. Arbiter: budget, bound, members, period
number, phase (0 none, 1 or 2), that BUDGET or BOUND changed in the period, the GRANT body of the last period's end, the
last GRANT_REC boundary, the TB1 nanoseconds of the last poll. `glTo` in nanoseconds, `grantRec` and `poll` in
milliseconds; `startPlan` that the stored offset of the start (R362) waits for its PLAN_ACK. -/
structure GovUnit where
  g : Nat
  floorR : Nat
  static : Nat
  req : Nat
  ackSeq : BitVec 4
  lastGrant : Option Nat
  fallback : Bool
  clamp : Bool
  lastRep : Nat
  err : Nat
  off : Int
  offAt : Nat
  offTb0 : Nat
  heldPlan : Option Int
  budget : Nat
  budgetNext : Option Nat
  bound : Nat
  members : List GovMember
  period : Nat
  phase : Nat
  changed : Bool
  endBody : List Byte
  lastRec : Nat
  lastPoll : Nat
  glTo : Nat
  grantRec : Nat
  poll : Nat
  speed : Nat
  startPlan : Bool
deriving DecidableEq, Repr

/-- Temper (Table 14.10, R360, R361): its parameters, a TM_PERIOD that waits for the next boundary, the last boundary, a measurement in
progress with its temperature, the least slacks of the last measurements (newest last), the measurements since CTL reset, the monitors
that did not answer, and that AGE_WARN has been passed. `warn` in 0.01 %, `band` in 0.25 °C. -/
structure TemperUnit where
  period : Nat
  periodNext : Option Nat
  band : Nat
  qn : Nat
  tgt : Nat
  hyst : Nat
  tps : Nat
  warn : Nat
  lastK : Nat
  busy : Option Int
  mins : List Nat
  mseq : Nat
  noAnswer : Nat
  aged : Bool
deriving DecidableEq, Repr

/-- The Assay partition (R364 to R368), in the METRO domain. `tb3` is in 2^-16 ns; `calOpen` that METRO_CAL_EN was high at
METRO power-up; `banks` the fuse banks written; `conv` the TB3 nanoseconds of a conversion whose pair has not come;
`lastP` the previous product; `missRun` the consecutive missing pairs; `gapPairs` pairs not accumulated, 8 to the
millisecond; `pulseDue` that an epoch pulse came since the last frame; `sumV`, `sumI`, `n`, `pmax` of the interval. -/
structure MetroUnit where
  up : Bool
  tb3 : Nat
  calOpen : Bool
  banks : List CalBank
  convK : Nat
  conv : Option Nat
  accImp : Nat
  accExp : Nat
  lastP : Int
  missRun : Nat
  nmiss : Nat
  gapPairs : Nat
  sense : Bool
  clipV : Bool
  clipI : Bool
  nsamp : Nat
  rseq : Nat
  pulseDue : Bool
  tb0P : Nat
  tb3P : Nat
  lastFrame : Nat
  sumV : Int
  sumI : Int
  n : Nat
  pmax : Option Int
deriving DecidableEq, Repr

/-- A readout frame in the AO buffer: its 88 bytes, that it has become a record or is lost to transport, and the TB0
nanoseconds at which it came. -/
structure AssayFrame where
  bytes : List Byte
  sent : Bool
  at0 : Nat
deriving DecidableEq, Repr

/-- The AO side of Assay: the 4-frame buffer, and RSEQ and ASTAT of the last frame seen. -/
structure AssayAo where
  frames : List AssayFrame
  lastSeq : Nat
  lastStat : Nat
deriving DecidableEq, Repr

/-- A die index that nothing has configured. -/
def govMemberReset : GovMember where
  cfg := none
  cfgNext := none
  acct := 0
  tgt := 0
  seq := 0
  sentAt := 0
  waitAck := none
  last := none
  lastAt := 0
  frozen := none
  silent := true
  back := false
  released := true
  err := 0
  read := { iout := 0, vout := 0, temp := 0, status := 0 }
  offset := 0
  offsetAt := 0
  held := none

/-- The Governor after AO reset: G equals FB (R349), BUDGET the fused default (R345), the defaults of R354, R356, R358 and
R359. -/
def govReset : GovUnit where
  g := Config.dieFb.toNat
  floorR := 2047
  static := Config.dieFb.toNat
  req := 0
  ackSeq := 0
  lastGrant := none
  fallback := false
  clamp := false
  lastRep := 0
  err := 0
  off := 0
  offAt := 0
  offTb0 := 0
  heldPlan := none
  budget := Config.budgetDef.toNat
  budgetNext := none
  bound := Config.budgetDef.toNat
  members := List.replicate 16 govMemberReset
  period := 0
  phase := 0
  changed := false
  endBody := []
  lastRec := 0
  lastPoll := 0
  glTo := 200000
  grantRec := 100
  poll := 10
  speed := 1
  startPlan := false

/-- Temper after CTL reset: the defaults of Table 14.10. -/
def temperReset : TemperUnit where
  period := 60
  periodNext := none
  band := 20
  qn := 4
  tgt := Config.temperTgt
  hyst := 8
  tps := Config.temperTps
  warn := 300
  lastK := 0
  busy := none
  mins := []
  mseq := 0
  noAnswer := 0
  aged := false

/-- The Assay partition without power, with the fuse banks it keeps. -/
def metroReset (banks : List CalBank) : MetroUnit where
  up := false
  tb3 := 0
  calOpen := false
  banks := banks
  convK := 0
  conv := none
  accImp := 0
  accExp := 0
  lastP := 0
  missRun := 0
  nmiss := 0
  gapPairs := 0
  sense := false
  clipV := false
  clipI := false
  nsamp := 0
  rseq := 0
  pulseDue := false
  tb0P := 0
  tb3P := 0
  lastFrame := 0
  sumV := 0
  sumI := 0
  n := 0
  pmax := none

/-- The AO side of Assay after AO reset. -/
def assayReset : AssayAo where
  frames := []
  lastSeq := 0
  lastStat := 0

end Sys2Proof.Machine
end

