-- ==== Sys2Proof/Machine/ModelState.lean ====
section
/-! DEFINITION. State of Quern (spec/07), Millrace (spec/08) and of the feature vectors that wait for them. Floating-point
values are held as their bits. -/

namespace Sys2Proof.Machine

/-- States of a model handle, Table 7.8. -/
inductive HandleSt where
  | empty | loading | loaded | active | stopped
deriving DecidableEq, Repr

/-- What a handle holds besides its model (R191, R192, R431): state; while LOADING its source (0 flash, 1 pointer,
2 broadcast), slot, length, BID, the bytes and the next chunk of a broadcast, and when the load was accepted (TB1 ns).
`actAt` is a pending activation, `repl` the handle it replaces; `since` and `til` bound the stamps that are its own. -/
structure Handle where
  st : HandleSt
  lsrc : Nat
  slot : Nat
  len : Nat
  bid : Word
  image : List Byte
  next : Nat
  loadAt : Nat
  actAt : Option Nat
  repl : Option Nat
  since : Nat
  til : Option Nat
  unloading : Bool
deriving DecidableEq, Repr

/-- A node word (Table 7.5). -/
structure QNode where
  defLeft : Bool
  feat : Nat
  thresh : Nat
  lo : Nat
  hi : Nat
deriving DecidableEq, Repr

/-- A tree: leaves, nodes, and per leaf the binary16 outputs. -/
structure QTree where
  nleaf : Nat
  nodes : List QNode
  leaves : List (List Nat)
deriving DecidableEq, Repr

/-- A Quern model (Table 7.3). Gather entries are source, set, feature. -/
structure QModel where
  wcode : Nat
  k : Nat
  modelId : Word
  modelVer : Word
  nfeat : Nat
  inmode : Nat
  set : Nat
  len : Nat
  bias : List Nat
  gather : List (Nat × Nat × Nat)
  trees : List QTree
deriving DecidableEq, Repr

/-- An input vector of Quern: source, stamp, flags of the vector, codes. -/
structure QVec where
  src : Laddr
  stamp : Nat
  flags : BitVec 8
  codes : List Nat
deriving DecidableEq, Repr

/-- A vector of another block that is being assembled from FEATURES records (R188): codes by position. `nwin` says how
many windows it covers; `started` that its evaluation has begun. -/
structure Asm where
  src : Laddr
  set : Nat
  stamp : Nat
  flags : BitVec 8
  codes : List (Nat × Nat)
  started : List Nat
deriving DecidableEq, Repr

/-- A Quern handle: pending and running evaluations, skip and late-input counts (R188, R198). -/
structure QHandle where
  h : Handle
  model : Option QModel
  pend : List QVec
  run : List QVec
  skip : Nat
  late : Nat
deriving DecidableEq, Repr

/-- An MX block: scale byte and 32 element bytes (R203). -/
structure MxBlock where
  scale : Nat
  els : List Nat
deriving DecidableEq, Repr

/-- A Millrace model (Tables 8.6 and 8.7). -/
structure MModel where
  wtype : Nat
  atype : Nat
  modelId : Word
  modelVer : Word
  n : Nat
  r : Nat
  din : Nat
  target : Nat
  ash : Nat
  warm : Nat
  len : Nat
  vinit : Nat
  vfloor : Nat
  c0 : Nat
  lambda : List Nat
  iz : List Nat
  is : List Nat
  b : List MxBlock
  q : List MxBlock
  p : List MxBlock
  c : List MxBlock
deriving DecidableEq, Repr

/-- A Millrace handle. -/
structure MHandle where
  h : Handle
  model : Option MModel
deriving DecidableEq, Repr

/-- A step input of a channel (R211): stamp, raw values, gap mark. -/
structure MInput where
  stamp : Nat
  raws : List (Option Int)
  gap : Bool
deriving DecidableEq, Repr

/-- The codes of a complete step (R208, R209). -/
structure StepCodes where
  stamp : Nat
  resid : Nat
  drift : Nat
  fcast : Nat
deriving DecidableEq, Repr

/-- The running values of a channel (R206, R212). `f` is undefined until the first step. -/
structure MCtx where
  x : List Nat
  f : Option Nat
  v : Nat
  m : Nat
  n : Nat
  cep : Nat
  steps : Nat
  last : List Nat
  drift : Option Nat
deriving DecidableEq, Repr

/-- An open channel (Table 8.5, R206 to R218). `moves` are the handles that replace the channel's own, each with its ACT_AT, in order
(R220); `running` is the step in progress, `resetDue` that its codes are discarded and a
reset follows (CHANNEL.RESET, R225); `done` the complete steps, newest last; `gapNext` that the next step is a gap step; `prev`
the stamp and step number of the last input. `lateFrom` is the
stamp of the last vector whose hold ended without this channel's step (R210). -/
structure Channel where
  handle : Nat
  moves : List (Nat × Nat)
  kind : Nat
  src : Laddr
  set : Nat
  miss : Nat
  stream : Nat
  rate : Nat
  idx : List Nat
  ctx : MCtx
  diverged : Bool
  pend : List MInput
  running : Option MInput
  resetDue : Bool
  skip : Nat
  lateSteps : Nat
  lateFrom : Nat
  gapNext : Bool
  prev : Option (Nat × Nat)
  done : List StepCodes
deriving DecidableEq, Repr

/-- A rollout (R214): the command it serves, its channel, the stamp, cep and n of the copy, and the values. -/
structure Rollout where
  path : Path
  tag : BitVec 16
  ch : Nat
  stamp : Nat
  cep : Nat
  n : Nat
  vals : List Nat
deriving DecidableEq, Repr

/-- A feature vector held for RESID codes (R210): set, stamp, flags, windows covered, codes, and for each RESID position
the channel and code. -/
structure HeldVec where
  set : Nat
  stamp : Nat
  flags : BitVec 8
  nwin : Nat
  codes : List Nat
  resid : List (Nat × Nat × Nat)
deriving DecidableEq, Repr

/-- Quern and Millrace. `eachWait` and `residWait` in nanoseconds; `remote` the vectors of other blocks in assembly, and this block's own
that a GATHER model names; they stay for GATHER models until their cut has closed. -/
structure ModelUnit where
  quern : List QHandle
  mill : List MHandle
  chans : List (Nat × Channel)
  rollouts : List Rollout
  eachWait : Nat
  residWait : Nat
  remote : List Asm
  held : List HeldVec
  diverged : Nat
deriving DecidableEq, Repr

/-- An empty handle. -/
def handleReset : Handle where
  st := .empty
  lsrc := 0
  slot := 0
  len := 0
  bid := 0
  image := []
  next := 0
  loadAt := 0
  actAt := none
  repl := none
  since := 0
  til := none
  unloading := false

/-- Quern and Millrace after ENG reset: every handle EMPTY, no channel open (R193, R222). EACH_WAIT 500 µs and RESID_WAIT
20 µs (R188, R210). -/
def modelReset : ModelUnit where
  quern := List.replicate 16 { h := handleReset, model := none, pend := [], run := [], skip := 0, late := 0 }
  mill := List.replicate 16 { h := handleReset, model := none }
  chans := []
  rollouts := []
  eachWait := 500000
  residWait := 20000
  remote := []
  held := []
  diverged := 0

end Sys2Proof.Machine
end

