-- ==== Sys2Proof/Machine/OutState.lean ====
section
/-! DEFINITION. What leaves the block at its ports (R3, Table 20.3). The list of it is the model's own record: no rule of
the block reads it (log entry 3). -/

namespace Sys2Proof.Machine

/-- One thing that left the block. -/
inductive Out where
  /-- A whole frame on interface 0 FAB or s + 1 SIDE link s (R466). -/
  | frame (ifc : Nat) (bytes : List Byte)
  /-- The frame in progress ends with ABORT (R134, R141, R466). -/
  | abort (ifc : Nat)
  /-- Receive credits returned (R466). -/
  | credits (ifc : Nat) (n : Nat)
  /-- Bytes 0 to 5 and those from 8 on of a slot of a reply queue written, false local pair, true fabric pair (R389). -/
  | slot (fab : Bool) (index : Nat) (head rest : List Byte)
  /-- Bytes 6 and 7 of that slot, in the ordered write after them (R389). -/
  | slotFlags (fab : Bool) (index : Nat) (bytes : List Byte)
  /-- Bytes written through a pointer in the memory behind a path. -/
  | memory (fab : Bool) (ptr : Dword) (bytes : List Byte)
  /-- A Delay_Req at the TIME port (R44). -/
  | delayReq
  /-- An insertion slot filled (R51). -/
  | slotFill (port : Nat) (v : Dword)
  /-- A Governor link message (R347). -/
  | governor (link : Nat) (bytes : List Byte)
  /-- A PMBus transaction (R358). -/
  | pmbus (addr : Nat) (cmd : Nat) (data : Nat)
  /-- A side read request (R472). -/
  | sideRead (addr : Nat) (len : Nat)
  /-- The one-cycle pulse on TRC_SYNC_REQ (R313). -/
  | syncReq
  /-- A scan segment starts or a window opens on the TEST port (Table 15.3). -/
  | test (core : Nat) (item : Nat) (seg : Nat)
  /-- An MSI-X message (R477). -/
  | msix
  /-- The answer of a register window read (R408). -/
  | readData (v : Nat)
  /-- A pulse on XSPI_RESET_N (R478). -/
  | xspiReset
  /-- The SFDP table read in 1S-1S-1S at 50 MHz; every flash access after it runs in 8D-8D-8D with XSPI_DS (R478). -/
  | xspiSfdp
  /-- A flash read. -/
  | xspiRead (addr : BitVec 32) (len : Nat)
  /-- A sector of 4 KiB erased. -/
  | xspiErase (addr : BitVec 32)
  /-- Bytes of one page programmed. -/
  | xspiProgram (addr : BitVec 32) (bytes : List Byte)
  /-- A sealed readout frame of Assay (R368). -/
  | readout (bytes : List Byte)
deriving DecidableEq, Repr

end Sys2Proof.Machine
end

