-- ==== Sys2Proof/Machine/SentryState.lean ====
section
/-! DEFINITION. State of Touchstone (spec/10). -/

namespace Sys2Proof.Machine

/-- Statistics of one stream in one step (Table 10.5), with the watch entry (Table 10.3) that the step was opened under.
`maxabs` is held as binary32 bits; `checks` are the failed checks of Table 10.6. -/
structure WStat where
  wid : Nat
  entry : BitVec 128
  n : Nat
  nzero : Nat
  nnan : Nat
  ninf : Nat
  nrange : Nat
  sumexp : Int
  maxabs : Nat
  digest : Dword
  checks : Nat
deriving DecidableEq, Repr

/-- What one die answered to a replay request: WID, DIGEST, N. -/
structure RepAns where
  wid : Nat
  digest : Dword
  n : Dword
deriving DecidableEq, Repr

/-- How the first replay of a step ended (Table 10.8). -/
inductive FirstAns where
  | waits | mismatch | refused
deriving DecidableEq, Repr

/-- The replay of a step: not asked, asked of the partner, asked of the alternate, clean, or with no outcome. -/
inductive RepSt where
  | idle | partner | alternate | clean | dropped
deriving DecidableEq, Repr

/-- A step of the watched job from its begin mark until it is confirmed (R254 to R262): the replay modulus in force at its
opening, the TB1 nanoseconds of its end mark, whether it has closed, PARTIAL, FORCED and a STAGE_REPLAY mark; the state of its
replay with the TB1 nanoseconds of the request, the dies asked, the answers of the partner and those of the die asked now, and
the lowest WID that mismatched. `reported` says that its STEP records have left. -/
structure TStep where
  step : Dword
  modulus : Nat
  stats : List WStat
  ended : Option Nat
  closed : Bool
  part : Bool
  forced : Bool
  staged : Bool
  rep : RepSt
  asked : Nat
  first : FirstAns
  peer : Laddr
  alt : Laddr
  peerAns : List RepAns
  answers : List RepAns
  badWid : Option Nat
  reported : Bool
deriving DecidableEq, Repr

/-- A replay request that this block holds as partner or alternate (R258, R260): its two halves of WATCH bytes, whether it has
been accepted, and its own run; `sflags` are the defined SFLAGS of the request. -/
structure Hosted where
  subj : Laddr
  job : Word
  step : Dword
  sflags : Nat
  lo : Option (List Byte)
  hi : Option (List Byte)
  accepted : Bool
  asked : Nat
  running : Bool
  ended : Option Nat
  stats : List WStat
deriving DecidableEq, Repr

/-- What a judge holds of a job in JOB scope (R264): the latest LT of every member, and its job through point. -/
structure Through where
  job : Word
  lts : List (Nat × Dword)
  through : Dword
deriving DecidableEq, Repr

/-- Touchstone. `through` is COMMIT_THROUGH, held in AO (R265). `watch` lists the entries by WID, `watchNext` and `goalNext`
wait for the next step begin mark; `steps` are the open and the unconfirmed steps in order of opening; `unsettled` the steps with
a confirmed SUSPECT that no SENTRY.ROLLBACK has settled; `released` the last JOB_RELEASE; `prepSeen` that the STAGE_REPLAY
preparation now in force has marked its step; `late` counts late frames by WID, `badMarks` discarded begin marks; `alarms` are
false alarms by WID with their TB1 nanoseconds, `suspended` the WIDs of R271. `prevs` holds the streams of the steps closed last
that `steps` no longer lists (R254), `readmit` the LASTGOOD of a rollback below LT, from which begin marks are taken again (R256,
R268). `job` is `none` before the first SENTRY.WATCH. -/
structure SentryUnit where
  through : Dword
  job : Option Word
  first : Dword
  watch : List (Nat × BitVec 128)
  watchNext : Option (List (Nat × BitVec 128))
  partner : Option (Laddr × Laddr)
  goal : Dword
  goalNext : Option Dword
  lt : Dword
  steps : List TStep
  prevs : List WStat
  readmit : Option Dword
  unsettled : List Dword
  released : Option Dword
  prepSeen : Bool
  late : List (Nat × Nat)
  badMarks : Nat
  alarms : List (Nat × Nat)
  suspended : List Nat
  hosted : List Hosted
  throughs : List Through
  settle : Nat
  replayTo : Nat
  faWin : Nat
  faMax : Nat
deriving DecidableEq, Repr

/-- Touchstone after AO reset: goal word of Table 10.10, parameters of Table 10.11, times in nanoseconds. -/
def sentryReset : SentryUnit where
  through := 0
  job := none
  first := 0
  watch := []
  watchNext := none
  partner := none
  goal := 0x00400000006403E8
  goalNext := none
  lt := 0
  steps := []
  prevs := []
  readmit := none
  unsettled := []
  released := none
  prepSeen := false
  late := []
  badMarks := 0
  alarms := []
  suspended := []
  hosted := []
  throughs := []
  settle := 10000
  replayTo := 10000000000
  faWin := 3600000000000
  faMax := 8

end Sys2Proof.Machine
end

