-- ==== Sys2Proof/Machine/SysState.lean ====
section
/-! DEFINITION. Identity, joining, power states, clocks, reset domains and pins (spec/01, spec/19, spec/20). -/

namespace Sys2Proof.Machine

/-- How far the start-up sequence of Table 19.1 has come. -/
inductive Phase where
  | unpowered
  | roleLess
  | badFirmware
  | restoring (index : Nat)
  | running
deriving DecidableEq, Repr

/-- Power-state entry in progress (R452): the TB1 nanoseconds of its start, its target, and the streams that still owe their
POWER_STATE and RECONCILE records. -/
structure Entry where
  start : Nat
  target : PState
  owed : List Nat
deriving DecidableEq, Repr

/-- Faults that SYS.INJECT puts in (Table 16.7): HB_STOP, STREAM_DROP, LINK_DOWN until a TB1 instant, and the frames
HOP_CORRUPT still has to spoil. -/
structure Inject where
  drill : Word
  fault : Nat
  arg : Nat
  until1 : Nat
  left : Nat
deriving DecidableEq, Repr

/-- A member of a tray master: the link it joined over (0 FAB, s + 1 SIDE link s), address, physical ID. -/
structure Member where
  ifc : Nat
  addr : Laddr
  phys : Word
deriving DecidableEq, Repr

/-- Identity and joining. `strap` is the role sampled at AO reset (R2), `pin` the pins as they stand. `trayAddr` is the tray-role block
from which JOIN was last heard, `joinDst` the blocks to which JOIN goes over FAB (R458, R459), `masterFrom` the TB0 nanoseconds of the
tray cut boundary from which a tray-role block is master, `none` until it has answered a JOIN (R22), `masterNext` the tray-role master
that takes over at the next tray cut boundary (R22). `joinAt` is the TB1 nanoseconds at which a JOIN was sent and is unanswered;
`designated` says that TRAY.DESIGNATE has named a master; `crownWait` the member list of a designation that waits for Crown's power
(R459); `histBad` the words of tray memory whose history entries are marked unreadable (Table 1.9); `fwver` the version of the running
firmware image (R424). -/
structure SysUnit where
  strap : Role
  pin : Role
  laddr : Laddr
  laddrValid : Bool
  phaseRole : BitVec 2
  joined : Bool
  master : Option Laddr
  masterNext : Option Laddr
  trayAddr : Option Laddr
  joinDst : List Laddr
  masterFrom : Option Nat
  joinAt : Option Nat
  fabJoinAt : Option Nat
  designated : Bool
  acting : Bool
  actingAt : Nat
  actMembers : List Laddr
  crownWait : Option (List Laddr)
  members : List Member
  oos : Bool
  injects : List Inject
  histBad : List Nat
  fwver : Word
deriving DecidableEq, Repr

/-- Power, clocks and reset domains. A domain is held while its `…Held` is true; `engOn` and `ctlOn` say that the clock
runs. `intHold` is the internal reset hold (R294, R445). `ports` lists the PORT domains (Table 17.1 order of R3) that are in
reset; the flit interfaces carry their own mark. `lastDemand` is the TB1 nanoseconds of the last demand of a wake. -/
structure PowUnit where
  phase : Phase
  aoHeld : Bool
  ctlHeld : Bool
  engHeld : Bool
  metroHeld : Bool
  ctlOn : Bool
  engOn : Bool
  intHold : Bool
  heldPorts : List Nat
  pstate : PState
  target : PState
  entry : Option Entry
  waking : Bool
  demandHeld : Bool
  lastDemand : Nat
  ctlAwake : Option Nat
  offReq : Bool
  offFlush : Bool
  hostReset : Bool
  warmReset : Bool
  pgMetro : Bool
  sources : BitVec 8
  relEng : Bool
  relCtl : Bool
  pend : Option (BitVec 8 × Dword × Nat)
  lastReset : Dword
deriving DecidableEq, Repr

/-- The PORT domains other than SIDE and FAB, numbered in the order in which R3 lists the ports: 0 TAP, 1 TRC, 2 CMD,
3 SIDE, 4 FAB, 5 STAMP, 6 TIME, 7 MEM, 8 FLASH, 9 PWR, 10 METRO, 11 TEST, 12 DISC, 13 HB, 14 RST (DESIGN CHOICE: the spec
gives DOMAIN.RESET's PORTS bit p the meaning 'port p' and no other numbering; log entry 12). -/
def portCount : Nat := 15

/-- Identity and joining after AO reset, for a sampled role. -/
def sysReset (r : Role) : SysUnit where
  strap := r
  pin := r
  laddr := 0
  laddrValid := false
  phaseRole := 0
  joined := false
  master := none
  masterNext := none
  trayAddr := none
  joinDst := []
  masterFrom := none
  joinAt := none
  fabJoinAt := none
  designated := false
  acting := false
  actingAt := 0
  actMembers := []
  crownWait := none
  members := []
  oos := false
  injects := []
  histBad := []
  fwver := 0

/-- Power, clocks and domains before PG_AO: everything in reset. -/
def powReset : PowUnit where
  phase := .unpowered
  aoHeld := true
  ctlHeld := true
  engHeld := true
  metroHeld := true
  ctlOn := false
  engOn := false
  intHold := false
  heldPorts := List.range portCount
  pstate := .run
  target := .run
  entry := none
  waking := false
  demandHeld := false
  lastDemand := 0
  ctlAwake := none
  offReq := false
  offFlush := false
  hostReset := false
  warmReset := false
  pgMetro := false
  sources := 0
  relEng := false
  relCtl := false
  pend := none
  lastReset := 0

end Sys2Proof.Machine
end

