-- ==== Sys2Proof/Machine/TestState.lean ====
section
/-! DEFINITION. State of in-field test (spec/15), held in AO. -/

namespace Sys2Proof.Machine

/-- An open test window (R377, R380): core, item, segment, KIND (0 KERNEL, 1 SCAN), STEP of the grant, the TB0 and TB1
nanoseconds of the opening, WIN_US, and once the sequencer has left the content for the exit sequence the result, FAILOP and
NMISM it closes with. `ksig` is the signature that the item expects. -/
structure TestWindow where
  core : Nat
  item : Word
  seg : Nat
  kind : Nat
  step : Dword
  topen : Nat
  open1 : Nat
  winUs : Nat
  ksig : Dword
  leaving : Option (Nat × Nat × Nat)
deriving DecidableEq, Repr

/-- The pending request for a core (R377): core, item, segment, EST_US, the step of the plan, the TB1 nanoseconds of the last
posting. -/
structure TestReq where
  core : Nat
  item : Word
  seg : Nat
  est : Nat
  asked : Nat
deriving DecidableEq, Repr

/-- What is known of a core: its next plan step as 64 × plan index + segment, windows taken by that segment in this pass, a
first failure that waits for its retest, FAILED, the last result, that it is overdue, the TB1 nanoseconds of its last
CORE_ACTIVE slot, and a due instant that TEST.CLEAR set. -/
structure TestCore where
  pos : Nat
  attempts : Nat
  failed1 : Bool
  failed : Bool
  last : Nat
  overdue : Bool
  activeAt : Option Nat
  dueAt : Option Nat
deriving DecidableEq, Repr

/-- In-field test. `plan` holds item IDs; `planNext` a plan that takes effect at the next request; `tint` and `maxdef` in hours,
`reask` in minutes; `mask` the cores under test; `done` the TB0 nanoseconds of each core's last completed pass; `planAt` the
TB0 nanoseconds at which the plan was installed; `bad` the items found bad since the library was last replaced; `cores`
lists the cores with something to tell, in ascending order. -/
structure TestUnit where
  plan : List Word
  planNext : Option (List Word)
  tint : Nat
  maxdef : Nat
  reask : Nat
  mask : List Byte
  done : List (Nat × Nat)
  planAt : Option Nat
  cores : List (Nat × TestCore)
  req : Option TestReq
  win : Option TestWindow
  bad : List Word
deriving DecidableEq, Repr

/-- A core of which nothing is known. -/
def testCoreReset : TestCore where
  pos := 0
  attempts := 0
  failed1 := false
  failed := false
  last := 0
  overdue := false
  activeAt := none
  dueAt := none

/-- In-field test after AO reset: the defaults of Table 15.4, all host cores of CAP_INT under test. -/
def testReset : TestUnit where
  plan := []
  planNext := none
  tint := 168
  maxdef := 24
  reask := 10
  mask := List.replicate 32 0xFF
  done := []
  planAt := none
  cores := []
  req := none
  win := none
  bad := []

end Sys2Proof.Machine
end

