-- ==== Sys2Proof/Machine/TimeState.lean ====
section
/-! DEFINITION. State of Invar and Fantail (spec/02): time bases, 1588 discipline, port stamp units, received epochs,
correction windows. -/

namespace Sys2Proof.Machine

/-- Lock states of TB0, Table 2.3 (R45). -/
inductive Lock where
  | free | acquire | locked | holdover
deriving DecidableEq, Repr

/-- What TIME.CONFIG sets (R483), held in AO. `drq` is the signed log2 interval, 0x7F one per Sync; `tol` in
1/1,024; `wcMs` in milliseconds; `pairIv` in 16 µs; `troot` the root of the time tree. -/
structure TimeCfg where
  domain : BitVec 8
  clkId : Dword
  drq : BitVec 8
  origin : BitVec 80
  tol : Nat
  wcMs : Nat
  pairIv : Nat
  troot : Option Laddr
deriving DecidableEq, Repr

/-- One stamped port (R49 to R53, R73): calibration latencies in 0.25 ns, frame sequence number of departing frames,
the boundary of the pair interval for which a pair is kept, and the frames still to pass in each direction after
the port clock stopped. -/
structure StampPort where
  egress : BitVec 16
  ingress : BitVec 16
  fseq : BitVec 16
  keptAt : Option Nat
  holdTx : Nat
  holdRx : Nat
deriving DecidableEq, Repr

/-- The most recent epoch record of a source and stream (R54, R55), with the receiver's TB0 when it arrived. -/
structure RxEpoch where
  e : Nat
  lock : BitVec 2
  steps : BitVec 16
  arrived : Nat
deriving DecidableEq, Repr

/-- A stamp pair entry of Table 2.6 as Fantail holds it: receiving and sending block, ports, FSEQ, lock states,
stamps in 0.25 ns. In the pair store both stamps are extended (R55); in a pair that waits to go on to the fleet solve TX is the wire
stamp of the slot, which only a holder of the sender's epoch records can extend. -/
structure StampPair where
  rxBlk : Laddr
  peer : Laddr
  lport : BitVec 6
  pport : BitVec 6
  fseq : BitVec 16
  txLock : BitVec 2
  rxLock : BitVec 2
  tx : Nat
  rx : Nat
deriving DecidableEq, Repr

/-- Quality of a correction entry, Table 2.9. -/
inductive Qual where
  | solved | hold | unaligned
deriving DecidableEq, Repr

/-- A correction entry of Table 2.8: OFFSET in 2^-8 ns, DRIFT in 2^-40. -/
structure CorrEntry where
  qual : Qual
  links : Nat
  offset : Int
  drift : Int
  resid : Nat
  holdn : Nat
deriving DecidableEq, Repr

/-- A correction table (R66): epoch number, window start, W_c in nanoseconds, entries by address. -/
structure CorrTable where
  cepoch : Nat
  wstart : Nat
  wc : Nat
  entries : List (Nat × CorrEntry)
deriving DecidableEq, Repr

/-- Class of a region monitor's last window (R70). -/
inductive RegionClass where
  | normal | stretched | stopped
deriving DecidableEq, Repr

/-- A region monitor's last window: its class and the cycles observed, of which ρ = observed ÷ nominal (R70, R71). -/
structure RegionWin where
  cls : RegionClass
  obs : Nat
deriving DecidableEq, Repr

/-- Invar and Fantail. `tb0` holds 64 bits of nanoseconds, 16 fraction bits and 16 sub-fraction bits (R38, R39);
`tb1` 64 and 16 bits; `phase` the AO cycle within the group of five; `adjNext` an ADJ that waits for the next group;
`lastSync` and `syncSrc` when a Sync was last accepted and the source configured then;
`syncTwoStep` the sequence number of a two-step Sync that awaits its Follow_Up, `syncT2` its receive time less its
correction; `msDiff` receive less send time of the last Sync in 2^-16 ns; `reqDue` that a Sync calls for a Delay_Req;
`delayReqAt` the send time of the Delay_Req that awaits its answer; `delayNs` says that a delay
measurement is complete, with its value; `windowsDone` the TB0 nanoseconds at which the last solved window ended;
`wcNext` a new W_c in ms with the boundary from which it holds; `tb0p1` and `tb0p2` hold TB0 as it stood one and two AO edges ago,
for the samples of the discrete inputs (R94), `tb1p1` TB1 one AO edge ago; `monCycles` the AO
cycles since the last monitor window ended (R70); `stepLog` the TB0 steps that epoch records showed, by address, with the TB0
nanoseconds from which the new count holds (R60); `away` the pairs that wait for their conversion to go on towards the fleet solve
(R63); `freeCount` counts the free values that have been read. -/
structure TimeUnit where
  tb0 : BitVec 96
  tb1 : BitVec 80
  jobOrigin : Dword
  phase : Fin 5
  tb0p1 : BitVec 96
  tb0p2 : BitVec 96
  tb1p1 : BitVec 80
  adj : Word
  adjNext : Option Word
  lock : Lock
  inLock : Nat
  outLock : Nat
  lastSync : Option Nat
  syncSrc : Dword
  delayNs : Option Int
  syncTwoStep : Option (BitVec 16)
  syncT2 : Int
  msDiff : Option Int
  reqDue : Bool
  delayReqAt : Option Int
  drqLast : Nat
  steps : BitVec 16
  cfg : TimeCfg
  refclk : Bool
  refReturn : Option Nat
  ports : List (Nat × StampPort)
  epochs : List (Nat × RxEpoch)
  monCycles : Nat
  regions : List (Nat × RegionWin)
  asym : List (Nat × Int)
  pairs : List StampPair
  away : List StampPair
  stepLog : List (Nat × Nat)
  solved : List CorrTable
  nodes : List (Nat × CorrEntry)
  trayCorr : List CorrTable
  fleetCorr : List CorrTable
  windowsDone : Nat
  wcNext : Option (Nat × Nat)
  freeCount : Nat
deriving DecidableEq, Repr

/-- TIME.CONFIG values after AO reset (R483, Table 2.11). -/
def timeCfgReset : TimeCfg where
  domain := 0
  clkId := 0
  drq := 0x7F
  origin := 0
  tol := 4
  wcMs := 10
  pairIv := 16
  troot := none

/-- Invar and Fantail after AO reset (R38, R40, R45, R483). -/
def timeReset : TimeUnit where
  tb0 := 0
  tb1 := 0
  jobOrigin := 0
  phase := 0
  tb0p1 := 0
  tb0p2 := 0
  tb1p1 := 0
  adj := 0
  adjNext := none
  lock := .free
  inLock := 0
  outLock := 0
  lastSync := none
  syncSrc := 0
  delayNs := none
  syncTwoStep := none
  syncT2 := 0
  msDiff := none
  reqDue := false
  delayReqAt := none
  drqLast := 0
  steps := 0
  cfg := timeCfgReset
  refclk := true
  refReturn := none
  ports := []
  epochs := []
  monCycles := 0
  regions := []
  asym := []
  pairs := []
  away := []
  stepLog := []
  solved := []
  nodes := []
  trayCorr := []
  fleetCorr := []
  windowsDone := 0
  wcNext := none
  freeCount := 0

end Sys2Proof.Machine
end

