-- ==== Sys2Proof/Machine/TraceState.lean ====
section
/-! DEFINITION. State of Tailrace (spec/12). -/

namespace Sys2Proof.Machine

/-- A trace entry (Table 12.5); `t` is its stamp in TB0 nanoseconds, `packet` false for SYNC and DROP entries. -/
structure TrEntry where
  kind : Nat
  src : Nat
  tcls : Nat
  priv : Bool
  hsync : Bool
  loss : Bool
  excl : Bool
  t : Nat
  words : List Dword
  packet : Bool
deriving DecidableEq, Repr

/-- A TRACE record in the making: entries in order, and the TB1 nanoseconds of its first. -/
structure TrRec where
  ents : List TrEntry
  opened : Nat
deriving DecidableEq, Repr

/-- A source (R311 to R318): excluded and sync-wait counts, dropped packets in all, packets and payload words dropped since the
last report by trace class, marks for its next entry, and that its INSTR and DATA packets wait for HSYNC. -/
structure TrSource where
  excl : Nat
  syncw : Nat
  drops : Nat
  unrep : List (Nat × (Nat × Nat))
  lossDue : Bool
  exclDue : Bool
  waits : Bool
deriving DecidableEq, Repr

/-- An authorisation (R316): source mask, TB1 in 2^-16 ns at its acceptance with the sources that an earlier one covered then (a
packet of that cycle is judged without the new one, R327), and the TB0 nanoseconds of its end. -/
structure TrAuth where
  mask : BitVec 256
  since : Nat
  before : BitVec 256
  til : Nat
deriving DecidableEq, Repr

/-- A tensor watch entry (Table 12.7) with its 64 bytes. -/
structure WatchEnt where
  etype : Nat
  every : Bool
  pcls : Nat
  name : Word
  job : Word
  cap : Nat
  step : Nat
  stride : Nat
  offLo : Nat
  nelem : Nat
  posLo : Nat
  posHi : Nat
  count : Nat
  raw : List Byte
deriving DecidableEq, Repr

/-- A dump in progress (R322 to R325): step, data bytes left under CAP, TRUNCATED, GAP, the elements of the record in the making
with their position and first offset, the bytes of each packet that they came in, and that LAST has left. -/
structure Dump where
  step : Dword
  left : Nat
  trunc : Bool
  gap : Bool
  data : List Byte
  pkts : List Nat
  pos : Nat
  off : Nat
  done : Bool
deriving DecidableEq, Repr

/-- A tensor watch: the entry in force, one that waits for the next step begin mark, the open dump, dumps taken, and discards by
cause (CLOSED, RANGE, CAP, RATE). -/
structure TWatch where
  ent : Option WatchEnt
  next : Option WatchEnt
  open' : Option Dump
  dumps : Nat
  disc : List Nat
deriving DecidableEq, Repr

/-- Tailrace. `lastStep` (R309) is held in AO. `mask` to `syncP` are the trace configuration: TCMAP bit c true for Plovan class 3,
thresholds in 1/64, TR_FLUSH and SYNC_PERIOD in nanoseconds; `syncK` is the last boundary of SYNC_PERIOD in TB0 nanoseconds, `syncNext` a new
length that waits for the next one. `open2` and `open3` are the open records, `closed` the records that
wait for room in Hopper; `first2` and `first3` the FIRST_AFTER_EXIT marks owed. `refusals` are the TB1 nanoseconds of refused
TRACE.AUTH commands, `lockAt` the fourth of them. `tokens` is the tensor bucket in bytes, `twK` its refills. `replays` are the
open replay brackets (job, step, subject). -/
structure TraceUnit where
  lastStep : Dword
  mask : BitVec 256
  tcmap : BitVec 4
  mout : Bool
  th3 : Nat
  th2 : Nat
  th1 : Nat
  flush : Nat
  syncP : Nat
  syncK : Nat
  syncNext : Option Nat
  syncSeq : BitVec 16
  sources : List (Nat × TrSource)
  open2 : Option TrRec
  open3 : Option TrRec
  closed : List (Bool × TrRec)
  first2 : Bool
  first3 : Bool
  fullDue : Bool
  auth : Option TrAuth
  refusals : List Nat
  lockAt : Option Nat
  watches : List (Nat × TWatch)
  twRate : Nat
  twDepth : Nat
  tokens : Nat
  twK : Nat
  replays : List (Word × Dword × Laddr)
deriving DecidableEq, Repr

/-- Tailrace after AO reset, with the defaults of R311, R312, R313, R317 and R324. -/
def traceReset : TraceUnit where
  lastStep := 0
  mask := 0
  tcmap := 0xC
  mout := false
  th3 := 32
  th2 := 48
  th1 := 58
  flush := 100000
  syncP := 10000000
  syncK := 0
  syncNext := none
  syncSeq := 0
  sources := []
  open2 := none
  open3 := none
  closed := []
  first2 := false
  first3 := false
  fullDue := true
  auth := none
  refusals := []
  lockAt := none
  watches := []
  twRate := 100
  twDepth := 8388608
  tokens := 8388608
  twK := 0
  replays := []

/-- A source of which nothing is known. -/
def trSourceNew : TrSource where
  excl := 0
  syncw := 0
  drops := 0
  unrep := []
  lossDue := false
  exclDue := false
  waits := false

end Sys2Proof.Machine
end

