-- ==== Sys2Proof/Machine/VerdictState.lean ====
section
/-! DEFINITION. State of the Verdict unit (spec/09). -/

namespace Sys2Proof.Machine

/-- A score term (Table 9.5). The weight is held as binary32 bits. -/
structure Term where
  typ : Nat
  k : Nat
  weight : Nat
deriving DecidableEq, Repr

/-- A score descriptor (Table 9.4). Thresholds and hysteresis are held as binary32 bits. -/
structure ScoreDesc where
  drift : Bool
  handle : Nat
  ssh : Nat
  confWin : Nat
  wdWin : Nat
  prep : Nat
  thW : Nat
  thS : Nat
  thE : Nat
  hyst : Nat
  terms : List Term
deriving DecidableEq, Repr

/-- An open verdict of a (score, subject) (R231): VID, class, hold count, age, raise instant, drill mark, MODELVER. -/
structure OpenV where
  vid : Word
  v : Nat
  hold : Nat
  age : Nat
  raiseT : Nat
  drill : Bool
deriving DecidableEq, Repr

/-- State of a (score, subject) (R228 to R231): h as binary32 bits, previous class, standing class, open verdict, and
FAULT entries since the last update. `fresh` holds a new descriptor that applies at the next update. -/
structure Pair where
  score : Nat
  subj : Laddr
  h : Nat
  cp : Nat
  s : Nat
  v : Option OpenV
  strag : Nat
deriving DecidableEq, Repr

/-- An open HANG or STEP verdict (R234): kind 2 or 3, subject, source code of its owner, step number. -/
structure OwnV where
  kind : Nat
  vid : Word
  subj : Laddr
  source : Nat
  engine : Nat
  step : Dword
  raiseT : Nat
  drill : Bool
deriving DecidableEq, Repr

/-- The fields of a VERDICT body (Table 9.8). -/
structure VRec where
  vid : Word
  subj : Laddr
  kind : Nat
  cls : Nat
  prevs : Nat
  state : Nat
  vflags : Nat
  score : Nat
  hold : Nat
  age : Nat
  h : Nat
  modelver : Word
  orig : Laddr
  raiseT : Nat
  step : Dword
deriving DecidableEq, Repr

/-- An expulsion budget holder (R238, R240): bucket in tokens, and the demoted list, oldest first. -/
structure Holder where
  rate : Nat
  depth : Nat
  tokens : Nat
  k : Nat
  demoted : List VRec
  overflow : Nat
deriving DecidableEq, Repr

/-- A member of a job view (R240). -/
structure JobMember where
  addr : Laddr
  prole : Nat
  gone : Bool
  gmask : Dword
deriving DecidableEq, Repr

/-- A job view. -/
structure JobView where
  job : Word
  judge : Laddr
  members : List JobMember
deriving DecidableEq, Repr

/-- An arrival of an instance: member, hints, correction quality where a BATCH brought it, the tray that corrected it, and
its stamp in nanoseconds or corrected time in 2^-8 ns. -/
structure Arrival where
  addr : Laddr
  hints : Nat
  qual : Nat
  via : Option Laddr
  t : Nat
deriving DecidableEq, Repr

/-- A straggler instance (R242, R243): at a judge, or at a tray master that sends batches; `sent` are the arrivals that
have left in a BATCH record. -/
structure Inst where
  job : Word
  coll : BitVec 16
  step : Dword
  opened : Nat
  arrivals : List Arrival
  sent : List Laddr
deriving DecidableEq, Repr

/-- A drill (R246). -/
structure Drill where
  id : Word
  start : Nat
  stop : Nat
  subjects : List Laddr
deriving DecidableEq, Repr

/-- A stretch in which the block view and a job view differ (R247): job, TB0 and TB1 nanoseconds of its start, whether the
ONSET record has left. -/
structure Dis where
  job : Word
  since : Nat
  since1 : Nat
  onset : Bool
deriving DecidableEq, Repr

/-- What a tray master knows of the liveness of a die (R247). Times are TB1 nanoseconds. -/
structure DieView where
  hangConf : Bool
  gasp : Bool
  lastRec : Nat
  lastFab : Nat
  dis : List Dis
deriving DecidableEq, Repr

/-- What the arrival hints of a die rest on (R241), in TB1 nanoseconds: the last CORE_PREEMPT, the last FAB_LINK_DOWN or
FAB_LANE_DEGRADE, the FAB_REPLAY increments of the last second, and when the grant was last below the request. -/
structure HintLog where
  preemptAt : Option Nat
  linkAt : Option Nat
  replays : List (Nat × Nat)
  belowEnd : Option Nat
deriving DecidableEq, Repr

/-- The Verdict unit. Holders and their demoted lists are held in AO (R238). `marks` keeps the TB0 and TB1 nanoseconds of each job's
last collective mark; `prep` the preparations in force, by score and subject, with the PREP bits (R233). -/
structure VerdictUnit where
  scores : List (Nat × ScoreDesc)
  pairs : List Pair
  full : List Nat
  unscored : Nat
  vidNext : Word
  own : List OwnV
  vtree : Option Nat
  tray : Holder
  fleet : Holder
  jobs : List (Nat × JobView)
  drills : List (Nat × Drill)
  insts : List Inst
  closedInsts : List (Word × BitVec 16 × Dword)
  lateArr : Nat
  dies : List (Nat × DieView)
  marks : List (Nat × (Nat × Nat))
  hints : HintLog
  arrWait : Nat
  lateMin : Nat
  silentTo : Nat
  disHold : Nat
  repMin : Nat
  cohortMin : Nat
  lateMult : Nat
  prep : List (Nat × Laddr × Nat)
deriving DecidableEq, Repr

/-- A holder after AO reset: one expulsion in its bucket (R238). -/
def holderReset (rate : Nat) : Holder where
  rate := rate
  depth := 1
  tokens := 3600000
  k := 0
  demoted := []
  overflow := 0

/-- The Verdict unit after AO reset, with the defaults of R238, R241, R243, R244 and R247. -/
def verdictReset : VerdictUnit where
  scores := []
  pairs := []
  full := []
  unscored := 0
  vidNext := 1
  own := []
  vtree := none
  tray := holderReset 1000
  fleet := holderReset 0
  jobs := []
  drills := []
  insts := []
  closedInsts := []
  lateArr := 0
  dies := []
  marks := []
  hints := { preemptAt := none, linkAt := none, replays := [], belowEnd := none }
  arrWait := 100000000
  lateMin := 20000
  silentTo := 100000000
  disHold := 200000000
  repMin := 16
  cohortMin := 4
  lateMult := 8
  prep := []

end Sys2Proof.Machine
end

