-- ==== Sys2Proof/Machine/State.lean ====
section
/-! DEFINITION. The state of the block, the reasons a step can stop, and the state after reset. -/

namespace Sys2Proof.Machine

/-- Reasons for which a command stops the block. There is none: where the spec gives a command no effect in a state (a domain in
reset, a port that the role does not have, a time that has not come), the block stays as it is. -/
inductive Fault where
deriving DecidableEq, Repr

/-- Reasons for which a command is refused. -/
inductive Refusal where
  /-- The command has no meaning yet: an arm of `exec` that names it. Safe: nothing is said of the block after it. No arm raises it
  any more. -/
  | notModelled (mnemonic : String)
deriving DecidableEq, Repr

/-- The block: its units as the chapters of the spec name them. `outs` is the model's own record of what left at the ports, newest
first, which no rule of the block reads (log entry 3); `pending` the commands that wait, first in, first out. -/
structure State where
  sys : SysUnit
  pow : PowUnit
  time : TimeUnit
  coll : CollUnit
  hop : HopUnit
  hall : HallUnit
  cmd : CmdUnit
  crown : CrownUnit
  model : ModelUnit
  verd : VerdictUnit
  sentry : SentryUnit
  trace : TraceUnit
  brake : BrakeUnit
  test : TestUnit
  gov : GovUnit
  temper : TemperUnit
  metro : MetroUnit
  assay : AssayAo
  flash : FlashUnit
  conf : ConfUnit
  hoist : HoistUnit
  outs : List Out
  pending : List Instr
deriving DecidableEq, Repr

/-- The block before PG_AO asserts: every domain in reset, every register at its reset value, the flash as R423 delivers it, no command
waiting. PG_AO_ASSERT runs the start-up sequence from here (log entry 1). -/
def State.reset : State where
  sys := sysReset .invalid
  pow := powReset
  time := timeReset
  coll := collReset
  hop := hopReset .invalid
  hall := hallReset []
  cmd := cmdReset
  crown := crownReset
  model := modelReset
  verd := verdictReset
  sentry := sentryReset
  trace := traceReset
  brake := brakeReset
  test := testReset
  gov := govReset
  temper := temperReset
  metro := metroReset []
  assay := assayReset
  flash := flashDelivered
  conf := confReset
  hoist := hoistReset
  outs := []
  pending := []

/-! ### Changing one u -/

/-- Change identity and joining. -/
def State.modSys (f : SysUnit → SysUnit) (s : State) : State := { s with sys := f s.sys }

/-- Change power, clocks and domains. -/
def State.modPow (f : PowUnit → PowUnit) (s : State) : State := { s with pow := f s.pow }

/-- Change the time bases. -/
def State.modTime (f : TimeUnit → TimeUnit) (s : State) : State := { s with time := f s.time }

/-- Change the collector. -/
def State.modColl (f : CollUnit → CollUnit) (s : State) : State := { s with coll := f s.coll }

/-- Change streams, Hopper and Weir. -/
def State.modHop (f : HopUnit → HopUnit) (s : State) : State := { s with hop := f s.hop }

/-- Change Hallmark. -/
def State.modHall (f : HallUnit → HallUnit) (s : State) : State := { s with hall := f s.hall }

/-- Change the command transport. -/
def State.modCmd (f : CmdUnit → CmdUnit) (s : State) : State := { s with cmd := f s.cmd }

/-- Change Crown. -/
def State.modCrown (f : CrownUnit → CrownUnit) (s : State) : State := { s with crown := f s.crown }

/-- Change Quern and Millrace. -/
def State.modModel (f : ModelUnit → ModelUnit) (s : State) : State := { s with model := f s.model }

/-- Change the Verdict u. -/
def State.modVerd (f : VerdictUnit → VerdictUnit) (s : State) : State := { s with verd := f s.verd }

/-- Change Touchstone. -/
def State.modSentry (f : SentryUnit → SentryUnit) (s : State) : State := { s with sentry := f s.sentry }

/-- Change Tailrace. -/
def State.modTrace (f : TraceUnit → TraceUnit) (s : State) : State := { s with trace := f s.trace }

/-- Change Brake. -/
def State.modBrake (f : BrakeUnit → BrakeUnit) (s : State) : State := { s with brake := f s.brake }

/-- Change in-field test. -/
def State.modTest (f : TestUnit → TestUnit) (s : State) : State := { s with test := f s.test }

/-- Change the Governor. -/
def State.modGov (f : GovUnit → GovUnit) (s : State) : State := { s with gov := f s.gov }

/-- Change Temper. -/
def State.modTemper (f : TemperUnit → TemperUnit) (s : State) : State := { s with temper := f s.temper }

/-- Change Assay in METRO. -/
def State.modMetro (f : MetroUnit → MetroUnit) (s : State) : State := { s with metro := f s.metro }

/-- Change the AO side of Assay. -/
def State.modAssay (f : AssayAo → AssayAo) (s : State) : State := { s with assay := f s.assay }

/-- Change the flash. -/
def State.modFlash (f : FlashUnit → FlashUnit) (s : State) : State := { s with flash := f s.flash }

/-- Change the configuration in force. -/
def State.modConf (f : ConfUnit → ConfUnit) (s : State) : State := { s with conf := f s.conf }

/-- Change Hoist. -/
def State.modHoist (f : HoistUnit → HoistUnit) (s : State) : State := { s with hoist := f s.hoist }

end Sys2Proof.Machine
end

