-- ==== Sys2Proof/Machine/Ops.lean ====
section
/-! DEFINITION. The operations that every unit shares: time, role and clocks, light-set counters, interrupt status,
and the record path from a unit into Hopper. -/

namespace Sys2Proof.Machine

/-- TB0 in integer nanoseconds, by truncation (R38). -/
def State.tb0Ns (s : State) : Nat := s.time.tb0.toNat / 2 ^ 32

/-- TB1 in integer nanoseconds, by truncation (R38). -/
def State.tb1Ns (s : State) : Nat := s.time.tb1.toNat / 2 ^ 16

/-- An instant of TB0 that fell in an earlier AO cycle than the present one. An expiry acts from the cycle after its instant, so that
what else falls in the cycle of the instant comes first, as the tables of coinciding events have it (log entry 82). -/
def State.past0 (s : State) (t : Nat) : Bool := decide (t ≤ s.time.tb0p1.toNat / 2 ^ 32)

/-- TB0 in nanoseconds as it stood one AO edge ago: a row that ends a period of a grid takes the boundaries up to it. -/
def State.tb0Past (s : State) : Nat := s.time.tb0p1.toNat / 2 ^ 32

/-- An instant of TB1 that fell in an earlier AO cycle than the present one. -/
def State.past1 (s : State) (t : Nat) : Bool := decide (t ≤ s.time.tb1p1.toNat / 2 ^ 16)

/-- TB2 in integer nanoseconds: TB0 minus the job origin (R40). -/
def State.tb2Ns (s : State) : Dword := BitVec.ofNat 64 s.tb0Ns - s.time.jobOrigin

/-- The AO domain is powered and out of reset. -/
def State.aoUp (s : State) : Bool := !s.pow.aoHeld

/-- The ENG clock runs and ENG is out of reset (ENG_RUN of Table 17.5). -/
def State.engUp (s : State) : Bool := !s.pow.engHeld && s.pow.engOn

/-- The CTL clock runs and CTL is out of reset (CTL_RUN of Table 17.5). -/
def State.ctlUp (s : State) : Bool := !s.pow.ctlHeld && s.pow.ctlOn

/-- Number of a port in `PowUnit.heldPorts` (log entry 12). -/
def portNo : PortName → Nat
  | .tap => 0 | .trc => 1 | .cmd => 2 | .side _ => 3 | .fab => 4 | .stamp => 5 | .time => 6 | .mem => 7 | .flash => 8
  | .pwr => 9 | .metro => 10 | .test => 11 | .disc => 12 | .hb => 13 | .rst => 14

/-- A PORT domain is out of reset. -/
def State.portUp (s : State) (p : PortName) : Bool :=
  s.aoUp && match p with
  | .side i => !(lget (s.hop.ifcs.map (·.portReset)) (i.val + 1) true)
  | .fab => !(lget (s.hop.ifcs.map (·.portReset)) 0 true)
  | q => !(s.pow.heldPorts.contains (portNo q))

/-- Die role. -/
def State.isDie (s : State) : Bool := s.sys.strap == .die

/-- Tray role. -/
def State.isTray (s : State) : Bool := s.sys.strap == .tray

/-- Spine role. -/
def State.isSpine (s : State) : Bool := s.sys.strap == .spine

/-- The code of a role strap (Table 0.1). -/
def roleCode : Role → Nat
  | .die => 0 | .tray => 1 | .spine => 2 | .invalid => 3

/-- The code of a lock state (Table 2.3). -/
def lockCode : Lock → Nat
  | .free => 0 | .acquire => 1 | .locked => 2 | .holdover => 3

/-- The code of a power state (Table 4.4, POWER_STATE). -/
def pstateCode : PState → Nat
  | .run => 0 | .doze => 1 | .sleep => 2 | .off => 3

/-- The block as the master of a tray: tray role, or acting tray master (R20, R459). -/
def State.isMaster (s : State) : Bool := s.isTray || (s.isDie && s.sys.acting)

/-- Something leaves the block. -/
def State.emit (o : Out) (s : State) : State := { s with outs := o :: s.outs }

/-! ### Counters -/

/-- A counter's entry in the table; the counter that reads 0 with no wraps is not listed. -/
def putCounter (t : List (Nat × Counter)) (i : Nat) (c : Counter) : List (Nat × Counter) :=
  if c.val = 0 ∧ c.wraps = 0 then tdel t i else tput t i c

/-- A counter, reading 0 where it is not listed. -/
def getCounter (t : List (Nat × Counter)) (i : Nat) : Counter := tgetD t i { val := 0, wraps := 0 }

/-- A COUNT counter with `n` added: it wraps at 2^48, and its wrap count saturates at 3 (R78). -/
def Counter.add (c : Counter) (n : Nat) : Counter :=
  { val := BitVec.ofNat 48 (c.val.toNat + n),
    wraps := BitVec.ofNat 2 (min 3 (c.wraps.toNat + (c.val.toNat + n) / 2 ^ 48)) }

/-- Add `n` to a light-set counter (R81). -/
def State.bumpN (i n : Nat) (s : State) : State :=
  s.modColl fun u => { u with counters := putCounter u.counters i ((getCounter u.counters i).add n) }

/-- Count one event in the light set. -/
def State.bump (i : Nat) (s : State) : State := s.bumpN i 1

/-- Indices of the light set, Table 3.5. -/
def cLimitClamp : Nat := 0x50
def cPtpDiscard : Nat := 0x51
def cWireExtFail : Nat := 0x52
def cSlotLate : Nat := 0x53
def cLinkExcl : Nat := 0x54
def cPulseMismatch : Nat := 0x55
def cRefclkLoss : Nat := 0x56
def cTb0Step : Nat := 0x57
def cRecEmitted : Nat := 0x58
def cRecDropped : Nat := 0x59
def cRecCheckFail : Nat := 0x5A
def cRecSeqGap : Nat := 0x5B
def cBilletOverflow : Nat := 0x5C
def cSluiceHeld : Nat := 0x5D
def cCmdReceived : Nat := 0x5E
def cCmdRejected : Nat := 0x5F
def cTapParity : Nat := 0x60
def cDiscChatter : Nat := 0x61
def cSampleLate : Nat := 0x62
def cFeatureMissing : Nat := 0x63
def cRegionStretch : Nat := 0x64
def cRegionStop : Nat := 0x65
def cVerdictProv : Nat := 0x66
def cVerdictConf : Nat := 0x67
def cVerdictWithdrawn : Nat := 0x68
def cHeartbeatMiss : Nat := 0x69
def cHangConfirmed : Nat := 0x6A
def cHallmarkDrop : Nat := 0x6B
def cTraceDrop : Nat := 0x6C
def cSdcReplay : Nat := 0x6D
def cSdcMismatch : Nat := 0x6E
def cPstateChange : Nat := 0x6F
def cGovClamp : Nat := 0x70
def cTestOverdue : Nat := 0x71
def cHopperRecount : Nat := 0x72
def cDiscStageDrop : Nat := 0x73

/-! ### Interrupts (R416, R477) -/

/-- INT is driven while (INT_STATUS AND INT_ENABLE) is not 0. -/
def State.intPin (s : State) : Bool := s.cmd.intStatus &&& s.cmd.intEnable != 0

/-- INT_STATUS bits set by an event; none while the CMD PORT domain is in reset. In tray role INT turning on sends
the MSI-X message. -/
def State.intSet (i : Nat) (s : State) : State :=
  if s.portUp .cmd then
    let t := s.modCmd fun u => { u with intStatus := u.intStatus ||| BitVec.ofNat 11 (2 ^ i), fresh := i :: u.fresh }
    if s.isTray && !s.intPin && t.intPin then t.emit .msix else t
  else s

/-! ### Staging an event (R328, R331, R332) -/

/-- A record is numbered and staged (R328, R331, R332), whatever its rate limit. -/
def State.stageRaw (code : BitVec 16) (sev : Sev) (argb : Nat) (arg : Nat) (drill supp : Bool) (t : Nat)
    (s : State) : State :=
  let r : HRec :=
    { code := code, sev := sev, carried := false, drill := drill, supp := supp, lock := s.time.lock == .locked,
      argb := BitVec.ofNat 8 argb, seq := s.hall.seq, t := BitVec.ofNat 64 t, opt := s.hall.opt,
      powc := s.hall.powc, arg := BitVec.ofNat 64 arg }
  let p := placeEnt s.hall.ents { r := r, written := false, copied := false, begun := false }
  let s1 := s.modHall fun h => { h with ents := p.1, seq := nextSeq h.seq, lastSeq := h.seq,
                                        drop := if p.2 then h.drop + 1 else h.drop }
  let s2 := if p.2 then s1.bump cHallmarkDrop else s1
  if sevLt sev .fault then s2 else s2.intSet 7

/-- A unit reports an event whose copy is offered with the next one: Hopper's own report in the midst of an emission (R119). -/
def State.stageQuiet (code : BitVec 16) (sev : Sev) (argb arg : Nat) (s : State) : State :=
  if s.aoUp then
    let p := s.hall.limit code sev s.tb1Ns s.tb0Ns
    let s0 := s.modHall fun _ => p.1
    if p.2 then (s0.stageRaw code sev argb arg false false s.tb0Ns).modHall HallUnit.beginWrite else s0
  else s

/-! ### Records -/

/-- Type codes of Table 4.3. -/
def tEpoch : BitVec 8 := 0x01
def tStampPairs : BitVec 8 := 0x02
def tCorrection : BitVec 8 := 0x03
def tSample : BitVec 8 := 0x04
def tFeatures : BitVec 8 := 0x05
def tDisc : BitVec 8 := 0x06
def tReconcile : BitVec 8 := 0x07
def tLastGasp : BitVec 8 := 0x08
def tJoin : BitVec 8 := 0x09
def tPowerState : BitVec 8 := 0x0A
def tVerdict : BitVec 8 := 0x10
def tWithdrawal : BitVec 8 := 0x11
def tLateness : BitVec 8 := 0x12
def tDisagree : BitVec 8 := 0x13
def tSentryDigest : BitVec 8 := 0x18
def tRollback : BitVec 8 := 0x19
def tCutContrib : BitVec 8 := 0x20
def tCutPublish : BitVec 8 := 0x21
def tCongestion : BitVec 8 := 0x22
def tBroadcast : BitVec 8 := 0x23
def tBroadcastAck : BitVec 8 := 0x24
def tTrace : BitVec 8 := 0x28
def tTensorDump : BitVec 8 := 0x29
def tHallmarkCopy : BitVec 8 := 0x30
def tGrant : BitVec 8 := 0x38
def tAssay : BitVec 8 := 0x39
def tTemperPlan : BitVec 8 := 0x3A
def tTestResult : BitVec 8 := 0x40
def tCommand : BitVec 8 := 0x48
def tReply : BitVec 8 := 0x49
def tImageChunk : BitVec 8 := 0x50
def tBrakeNotice : BitVec 8 := 0x58

/-- The TYPE codes that Table 4.3 does not mark reserved (R99). -/
def knownType (t : BitVec 8) : Bool :=
  let n := t.toNat
  (1 ≤ n && n ≤ 0x0A) || (0x10 ≤ n && n ≤ 0x13) || n == 0x18 || n == 0x19 || (0x20 ≤ n && n ≤ 0x24) || n == 0x28
    || n == 0x29 || n == 0x30 || (0x38 ≤ n && n ≤ 0x3A) || n == 0x40 || n == 0x48 || n == 0x49 || n == 0x50 || n == 0x58

/-- Unit codes of Table 4.2. -/
def uCollect : BitVec 6 := 0x00
def uInvar : BitVec 6 := 0x01
def uFantail : BitVec 6 := 0x02
def uHopper : BitVec 6 := 0x03
def uCrown : BitVec 6 := 0x05
def uVerdict : BitVec 6 := 0x08
def uTouchstone : BitVec 6 := 0x09
def uBrake : BitVec 6 := 0x0A
def uTailrace : BitVec 6 := 0x0B
def uHallmark : BitVec 6 := 0x0C
def uGovernor : BitVec 6 := 0x0D
def uAssay : BitVec 6 := 0x0E
def uTemper : BitVec 6 := 0x0F
def uHoist : BitVec 6 := 0x10
def uControl : BitVec 6 := 0x11
def uTest : BitVec 6 := 0x12

/-- Bits of the header FLAGS byte [23:16] (Table 4.1). -/
def fProv : BitVec 8 := 0x80
def fStretch : BitVec 8 := 0x40
def fClkstop : BitVec 8 := 0x20
def fLoss : BitVec 8 := 0x10
def fUnverified : BitVec 8 := 0x08
def fBoundary : BitVec 8 := 0x04

/-- Cells of a record with a body of `n` bytes (R98). -/
def cellsFor (n : Nat) : Nat := ceilDiv (n + 20) 64

/-- Header and body of a record, padded up to the CRC (R98, Table 4.1). -/
def recHead (r : Rec) : List Byte :=
  be 16 (r.typ.toNat * 2 ^ 120 + 1 * 2 ^ 116 + r.role.toNat * 2 ^ 114 + r.cls.toNat * 2 ^ 112 + r.src.toNat * 2 ^ 94
    + r.unit.toNat * 2 ^ 88 + r.pos.toNat * 2 ^ 64 + r.stamp.toNat * 2 ^ 32 + r.cells.toNat * 2 ^ 24
    + r.flags.toNat * 2 ^ 16 + r.epochLo.toNat) ++ padTo (64 * r.cells.toNat - 20) r.body

/-- The bytes of a record with its closing CRC-32C (R98). -/
def recBytes (r : Rec) : List Byte := recHead r ++ be 4 (crc32c (recHead r))

/-- Low 16 bits of the cut epoch that contains an instant of live time (Table 4.1): the epoch N with
T_(N-1) ≤ t < T_N, T_N = N × P, of the level whose cuts the block's records enter first (log entry 14). -/
def State.epochLo (s : State) (t : Nat) : BitVec 16 :=
  BitVec.ofNat 16 (t / (if s.isSpine then s.crown.fleetP else s.crown.trayP) + 1)

/-- The state of an interface. -/
def State.ifc (s : State) (i : Nat) : IfcSt := lget s.hop.ifcs i (ifcReset [])

/-- Change an interface. -/
def State.modIfc (i : Nat) (f : IfcSt → IfcSt) (s : State) : State :=
  s.modHop fun u => { u with ifcs := lmod u.ifcs i f }

/-- Change an outgoing stream's books. -/
def State.modOut (c : Nat) (f : OutStream → OutStream) (s : State) : State :=
  s.modHop fun u => { u with out := lmod u.out c f }

/-- Change a stream's ENG configuration and queue. -/
def State.modCfg (c : Nat) (f : StreamCfg → StreamCfg) (s : State) : State :=
  s.modHop fun u => { u with cfg := lmod u.cfg c f }

/-- An outgoing stream's books. -/
def State.out (s : State) (c : Nat) : OutStream := lget s.hop.out c outReset

/-- A stream's configuration and queue. -/
def State.scfg (s : State) (c : Nat) : StreamCfg := lget s.hop.cfg c streamReset

/-- The link of an interface carries frames: PORT domain out of reset, LINK_UP high, not held down for short credits
(R139), not taken down by an injected LINK_DOWN (SYS.INJECT). -/
def State.linkOk (s : State) (i : Nat) : Bool :=
  let f := s.ifc i
  !f.portReset && f.linkUp && !f.short && !(s.sys.injects.any fun j => j.fault == 2 && j.arg == i)

/-- The parent towards which records go up: that of the installed tree with the lowest ID that has one, 0 where there is none
(the spec gives each tree its parent and no other record of it). -/
def State.parent (s : State) : Laddr := ((s.crown.trees.filterMap fun e => e.2.parent).head?).getD 0

/-- A die-role block that sends to a tray master: not itself one. -/
def State.isMember (s : State) : Bool := s.isDie && !s.sys.acting

/-- The hop over a die's side link, to the tray-role block at its end. -/
def State.sideHop (s : State) : Hop := { ifc := 1, dst := s.sys.trayAddr.getD 0 }

/-- The hop towards the tray master or parent (R17): a die reaches a tray-role block over its side link, and over FAB while that
link is down; an acting tray master it reaches over FAB only (Table 1.5, R459). -/
def State.upHop (s : State) : Hop :=
  if s.isMember then
    if s.linkOk 1 && (s.sys.master.isNone || s.sys.master == s.sys.trayAddr) then s.sideHop
    else { ifc := 0, dst := s.sys.master.getD 0 }
  else { ifc := 0, dst := s.parent }

/-- The hop towards one block (R17): a die that is no acting master sends everything but a JOIN to its tray master. -/
def State.blockHop (s : State) (join : Bool) (a : Laddr) : Hop :=
  if s.isMember then
    if join then { ifc := 0, dst := a } else s.upHop
  else match s.sys.members.find? (fun m => m.addr == a) with
    | some m => { ifc := m.ifc, dst := a }
    | none => { ifc := 0, dst := a }

/-- The active children of the installed trees that are no members: the blocks below a spine-role block, and those a tray serves over
FAB (R170, R171). -/
def State.treeKids (s : State) : List Laddr :=
  let kids := (s.crown.trees.map fun e => (e.2.children.filter (·.active)).map (·.addr)).flatten.eraseDups
  kids.filter fun a => !(s.sys.members.any fun m => m.addr == a) && a != s.sys.laddr

/-- Every hop that stream c serves (R54). A member die has one path (R17); before it is joined, the ways that its JOIN records take. Any
other block serves its parents, its members, the blocks below it, and those to which the stream has carried records. -/
def State.everyHop (s : State) (c : Nat) : List Hop :=
  (if s.isMember then
    (if s.sys.master.isSome || s.linkOk 1 then [s.upHop] else [])
      ++ (if s.sys.joined then [] else s.sys.joinDst.map fun a => ({ ifc := 0, dst := a } : Hop))
  else
    s.upHop :: (s.crown.trees.filterMap fun e => e.2.parent).map (s.blockHop false)
      ++ (s.sys.members.map fun (m : Member) => ({ ifc := m.ifc, dst := m.addr } : Hop))
      ++ s.treeKids.map (s.blockHop false) ++ (s.out c).served.map (s.blockHop false)).eraseDups

/-- The hops that stream c serves over some interfaces (R54); a die reaches its tray over its side link. -/
def State.overHops (s : State) (c : Nat) (l : List Nat) : List Hop :=
  ((s.everyHop c ++ if s.isDie then [s.sideHop] else []).eraseDups).filter fun h => l.contains h.ifc

/-- The hops of a destination for stream c. -/
def State.destHops (s : State) (c : Nat) (join : Bool) : Dest → List Hop
  | .up => [s.upHop]
  | .side => [s.sideHop]
  | .block a => [s.blockHop join a]
  | .children _ l => l.map (s.blockHop false)
  | .every => s.everyHop c
  | .over l => s.overHops c l

/-- The copies that a queued record still owes. -/
def State.targets (s : State) (q : QRec) : List Hop :=
  (s.destHops q.r.cls.toNat (q.r.typ == tJoin) q.dst).filter fun h => !q.sent.contains h

/-- The records of the OWN queue of an interface: those of stream c with a copy to send there (R126). -/
def State.ownQ (s : State) (i c : Nat) : List QRec :=
  (s.scfg c).queue.filter fun q => (s.targets q).any fun h => h.ifc == i

/-- Cells that a queue holds. -/
def queueCells (q : List QRec) : Nat := (q.map fun x => x.r.cells.toNat).sum

/-- The types that the last 64 cells of a quota are reserved for (R107). -/
def bookType (t : BitVec 8) : Bool := t == tEpoch || t == tReconcile || t == tPowerState

/-- A drop of one record of outgoing stream c: light set, STREAM_DROP and the LOSS flag owed (R101, R109). -/
def State.dropMark (c : Nat) (s : State) : State :=
  (((s.bump cRecDropped).bump (0xF0 + c)).modOut c fun o => { o with loss := true })

/-- A class of an interface. -/
def IfcSt.classQ (f : IfcSt) (c : Nat) : ClassQ := lget f.cls c (classReset 0)

/-- Change a class of an interface. -/
def State.modClass (i c : Nat) (f : ClassQ → ClassQ) (s : State) : State :=
  s.modIfc i fun x => { x with cls := lmod x.cls c f }

/-- The blocks that a destination names. -/
def Dest.addrs : Dest → List Laddr
  | .block a => [a]
  | .children _ l => l
  | _ => []

/-- The record that Hopper makes of an offer: final from its acceptance on (R99, R100, R104). -/
def State.accepted (q : Req) (s : State) : QRec :=
  let c := q.cls.val
  let n := cellsFor q.body.length
  let full := q.stamp.getD s.tb0Ns
  { r := { typ := q.typ, role := s.sys.phaseRole, cls := BitVec.ofNat 2 c, src := s.sys.laddr, unit := q.unit,
           pos := (s.out c).pos, stamp := BitVec.ofNat 32 full, cells := BitVec.ofNat 8 n,
           flags := if (s.out c).loss then q.flags ||| fLoss else q.flags, epochLo := s.epochLo full,
           body := padTo (64 * n - 20) q.body },
    dst := q.dst, sent := [], full := full }

/-- Hopper takes an offered record whole, or drops it at a full quota (R101, R104, R107, R108, R120). A record that an injected
STREAM_DROP takes has its position and is counted as DROP_FLUSH (SYS.INJECT, Table 4.12). -/
def State.place (q : Req) (s : State) : State × Bool :=
  let c := q.cls.val
  let n := cellsFor q.body.length
  let lim := if bookType q.typ then (s.scfg c).quota else (s.scfg c).quota - 64
  if queueCells (s.scfg c).queue + n ≤ lim then
    let s1 := (s.modOut c fun o =>
      { o with pos := o.pos + 1, emit := o.emit + 1, loss := false, carried := true }).bump cRecEmitted
    if s.sys.injects.any (fun j => j.fault == 1 && j.arg == c) then
      ((s1.modOut c fun o => { o with dropFlush := o.dropFlush + 1 }).dropMark c, false)
    else
      let s2 := s1.modOut c fun o => { o with queued := o.queued + 1, served := (o.served ++ q.dst.addrs).eraseDups }
      ((s2.modCfg c fun g => { g with queue := g.queue ++ [s.accepted q] }).modHop fun u =>
        { u with freeCells := u.freeCells - n }, true)
  else ((s.modOut c fun o => { o with dropQuota := o.dropQuota + 1 }).dropMark c, false)

/-- The body of an EPOCH record (Table 4.4). -/
def State.epochBody (s : State) (restart : Bool) : List Byte :=
  be 8 s.tb0Ns ++ be 1 (b2n restart * 128 + lockCode s.time.lock) ++ zeros 1 ++ be 2 s.time.steps.toNat
    ++ be 4 s.time.adj.toNat

/-- The body of a RECONCILE record of KIND 0, as it counts itself (Table 4.13, R121). -/
def State.reconBody (s : State) (c : Nat) : List Byte :=
  let o := s.out c
  be 1 c ++ be 1 0 ++ zeros 2 ++ be 8 (o.emit + 1) ++ be 8 o.dropQuota ++ be 8 o.dropStale ++ be 8 o.dropEcc
    ++ be 8 o.dropFlush

/-- Cells that Hopper holds: those of its own records and of the frames that it forwards (Table 4.11). -/
def State.cellsQueued (s : State) : Nat :=
  (s.hop.cfg.map fun g => queueCells g.queue).sum
    + (s.hop.ifcs.map fun f => (f.cls.map fun k => (k.fwd.map (·.cells)).sum).sum).sum

/-- The recount at a RECONCILE emission: a broken balance rebuilds the free list, is counted and reported (R119). -/
def State.recount (s : State) : State :=
  let want := 262144 - s.cellsQueued - s.hop.ovfCells
  if s.hop.freeCells = want then s
  else
    ((s.modHop fun u => { u with freeCells := want }).bump cHopperRecount).stageQuiet 0x0301 .notice 0
      ((s.hop.freeCells : Int) - (want : Int)).natAbs

/-- Hopper accepts a RECONCILE record of KIND 0 on stream c (R119, R121). -/
def State.putRecon (c : Fin 4) (s : State) : State :=
  let t := s.recount
  let p := t.place { dst := .every, cls := c, typ := tReconcile, unit := uHopper, flags := 0, stamp := none,
                     body := t.reconBody c.val }
  if p.2 then p.1.modOut c.val fun o => { o with reconOwed := false, carried := false } else p.1

/-- Hopper accepts an EPOCH record on stream c, which settles what is owed on the interfaces that it leaves over (R54, R104). -/
def State.putEpochTo (d : Dest) (c : Fin 4) (s : State) : State :=
  let p := s.place { dst := d, cls := c, typ := tEpoch, unit := uInvar, flags := 0, stamp := none,
                     body := s.epochBody (s.out c.val).restart }
  let ifcs := (s.destHops c.val false d).map (·.ifc)
  if p.2 then
    p.1.modOut c.val fun o =>
      { o with restart := false, ifcOwed := o.ifcOwed.filter fun i => !ifcs.contains i, lastEpoch := s.tb1Ns }
  else p.1

/-- The EPOCH record that goes to every destination of the stream; after the restart EPOCH record, the RECONCILE record (R54, R121). -/
def State.putEpoch (c : Fin 4) (s : State) : State :=
  let o := s.out c.val
  let t := s.putEpochTo .every c
  if (t.out c.val).pos = o.pos then t
  else
    let u := t.modOut c.val fun x => { x with epochOwed := false }
    if o.restart && o.reconOwed then u.putRecon c else u

/-- The EPOCH record that must come before any other record of a stream, and before one that leaves over an interface whose PORT
domain has left reset (R54). -/
def State.settleEpoch (c : Fin 4) (d : Dest) (join : Bool) (s : State) : State :=
  let o := s.out c.val
  let t := if o.restart || o.epochOwed then s.putEpoch c else s
  let due := ((t.destHops c.val join d).map (·.ifc)).filter fun i => (t.out c.val).ifcOwed.contains i
  if due.isEmpty then t else t.putEpochTo (.over due) c

/-- Every admission token that is due (R147): one per millisecond of TB1, up to 16. -/
def State.admitDue (s : State) : State :=
  let k := s.tb1Ns / 1000000
  s.modHop fun u => { u with admK := k, admission := min 16 (u.admission + (k - u.admK)) }

/-- A unit offers a record. While ENG does not run nothing is accepted; the second component says whether Hopper
accepted it. -/
def State.offer (q : Req) (s : State) : State × Bool :=
  if s.engUp then (if q.typ == tEpoch then s else s.settleEpoch q.cls q.dst (q.typ == tJoin)).place q else (s, false)

/-- A unit offers a record and does not ask what became of it. -/
def State.send (q : Req) (s : State) : State := (s.offer q).1

/-- A record that its unit makes whether or not ENG runs is offered, or is owed in AO until ENG runs (R276, R279, R383). -/
def State.sendOwed (q : Req) (s : State) : State :=
  if s.engUp then s.send q else (s.modBrake fun u => { u with owed := u.owed ++ [q] })

/-- The records owed are offered, oldest first. -/
def State.flushOwed (s : State) : State :=
  if s.engUp then s.brake.owed.foldl (fun t q => t.send q) (s.modBrake fun u => { u with owed := [] }) else s

/-- An epoch record is due on every outgoing stream: at once while ENG runs, else owed (R45, R54). -/
def State.epochEverywhere (s : State) : State :=
  if s.engUp then (List.finRange 4).foldl (fun t c => t.putEpoch c) s
  else (s.modHop fun u => { u with out := u.out.map fun o => { o with epochOwed := true } })

/-- Hopper queues are emptied and their records counted as DROP_FLUSH (R109); the AO count of queued records serves
where ENG is reset. -/
def State.flushStream (c : Nat) (s : State) : State :=
  let n := (s.out c).queued
  if n = 0 then s
  else
    let s1 := s.modOut c fun o => { o with dropFlush := o.dropFlush + n, queued := 0, loss := true }
    let s2 := s1.modCfg c fun g => { g with queue := [], copies := [] }
    (s2.bumpN cRecDropped n).bumpN (0xF0 + c) n

/-- All four outgoing streams flushed. -/
def State.flushAll (s : State) : State :=
  let t := [0, 1, 2, 3].foldl (fun t c => t.flushStream c) s
  t.modHop fun u => { u with freeCells := 262144 - t.cellsQueued - u.ovfCells }

/-- The next free value: the counter of the state moves on, and the caller applies an opaque constant of Config to
the old count. -/
def State.tickFree (s : State) : State :=
  s.modTime fun u => { u with freeCount := u.freeCount + 1 }

end Sys2Proof.Machine
end

