-- ==== Sys2Proof/Machine/HallOps.lean ====
section
/-! DEFINITION. Staging a Hallmark record (R328 to R336): rate limit, number, place, copy, and the choice of the flash
writer. Every unit reports its events through `State.stage`. -/

namespace Sys2Proof.Machine

/-- Whenever HALLMARK_DROP has risen and an entry is free, one STAGING_LOSS record is staged (R332). -/
def State.stagingLoss (s : State) : State :=
  if s.hall.dropSeen < s.hall.drop && (decide (s.hall.ents.length < 64) || s.hall.ents.any HEnt.free) then
    (s.stageRaw 0x0C07 .notice 0 (s.hall.drop - s.hall.dropSeen) false false s.tb0Ns).modHall
      fun h => { h with dropSeen := h.drop }
  else s

/-- The copy of a staged record to the fabric manager (R333, R493): class 0 for FAULT and FATAL, else class 2. -/
def copyReq (r : HRec) : Req :=
  { dst := .up, cls := if sevLt r.sev .fault then 2 else 0, typ := tHallmarkCopy, unit := uHallmark, flags := 0,
    stamp := none, body := hrecBytes r }

/-- One entry's copy is offered; INFO and NOTICE copies wait until RUN or the high-water mark (R333). -/
def State.copyEnt (s : State) (e : HEnt) : State :=
  if e.copied || (sevLt e.r.sev .fault && s.pow.pstate != .run && !s.hall.high) then s
  else
    let p := s.offer (copyReq e.r)
    if p.2 then p.1.modHall fun h => { h with ents := markEnt h.ents e.r.seq fun x => { x with copied := true } }
    else p.1

/-- Every staged record whose copy may leave is offered, in staging order (R333, Table 19.7). -/
def State.hallCopies (s : State) : State := s.hall.ents.foldl State.copyEnt s

/-- What follows a change of the staging area: copies, STAGING_LOSS, the next flash write. -/
def State.hallSettle (s : State) : State :=
  ((s.hallCopies.stagingLoss).hallCopies).modHall HallUnit.beginWrite

/-- What a refill leaves to report: a SUPPRESSED record, which takes no token, where records were suppressed (R334). -/
def State.suppressed (due : Bool) (b : HBucket) (s : State) : State :=
  if !due || b.supp == 0 then s
  else (s.stageRaw 0x0C04 b.sev 0 (b.code.toNat * 2 ^ 48 + b.supp) false true b.t.toNat).hallSettle

/-- The due refills of the bucket of a code, or of the common bucket (R334, R335). -/
def State.refillBucket (code : BitVec 16) (s : State) : State :=
  match s.hall.buckets.find? fun b => b.code == code with
  | some b =>
    (s.modHall fun h =>
      { h with buckets := h.buckets.map fun x => if x.code == code then x.refill h.rlDepth h.rlInt s.tb1Ns else x }).suppressed
        (decide (b.nextAt ≤ s.tb1Ns)) b
  | none =>
    let b := s.hall.common
    (s.modHall fun h => { h with common := b.refill 16 1 s.tb1Ns }).suppressed (decide (b.nextAt ≤ s.tb1Ns)) b

/-- A unit reports an event to Hallmark; a due refill of its bucket comes first (R344). The second component is the SEQ its record
received, or 0 when R334 suppressed it (R342). -/
def State.stageSeq (code : BitVec 16) (sev : Sev) (argb : Nat) (arg : Nat) (drill : Bool) (s : State) :
    State × Word :=
  if s.aoUp then
    if hallExempt code sev then
      let s1 := s.stageRaw code sev argb arg drill (code == 0x0C04) s.tb0Ns
      (s1.hallSettle, s.hall.seq)
    else
      let r := s.refillBucket code
      let p := r.hall.limit code sev s.tb1Ns s.tb0Ns
      let s0 := r.modHall fun _ => p.1
      if p.2 then ((s0.stageRaw code sev argb arg drill false s.tb0Ns).hallSettle, r.hall.seq) else (s0, 0)
  else (s, 0)

/-- A unit reports an event to Hallmark. -/
def State.stage (code : BitVec 16) (sev : Sev) (argb arg : Nat) (s : State) : State :=
  (s.stageSeq code sev argb arg false).1

/-- A unit reports an event under a drill tag (R246, R328). -/
def State.stageDrill (code : BitVec 16) (sev : Sev) (argb arg : Nat) (drill : Bool) (s : State) : State :=
  (s.stageSeq code sev argb arg drill).1

/-- A firmware write beyond a limit is clamped: LIMIT_CLAMP counts it and Hallmark records a NOTICE with the row of
Table 1.8 (R30). -/
def State.clampEvent (row : Nat) (s : State) : State := (s.bump cLimitClamp).stage 0x1101 .notice row 0

end Sys2Proof.Machine
end

