-- ==== Sys2Proof/Machine/CmdOps.lean ====
section
/-! DEFINITION. Replies and events (R389, R390, R394, R395, R404 to R407), and running a command: its checks in the
order of R397, its effect, its reply. -/

namespace Sys2Proof.Machine

/-- Change a queue pair: the local pair, or the fabric pair where `fab` is true. -/
def State.modPair (fab : Bool) (f : QPair → QPair) (s : State) : State :=
  s.modCmd fun c => if fab then { c with fab := f c.fab } else { c with loc := f c.loc }

/-- A queue pair. -/
def State.pair (s : State) (fab : Bool) : QPair := if fab then s.cmd.fab else s.cmd.loc

/-- Entries of a queue of a pair: 2 to the LOG2 field (R417). -/
def qSize (log2 : BitVec 4) : Nat := 2 ^ log2.toNat

/-- Free slots of the reply queue (R419). -/
def QPair.freeSlots (p : QPair) : Nat :=
  let n := qSize p.rqLog2
  n - 1 - (p.rqTail.toNat + n - p.rqHead.toNat) % n

/-- Visible entries of the command queue (R418). -/
def QPair.visible (p : QPair) : Nat :=
  let n := qSize p.cqLog2
  (p.cqTail.toNat + n - p.cqHead.toNat) % n

/-- The 32 bytes of a reply (Table 16.3). -/
def replyBytes (r : Reply) (phase lost : Bool) : List Byte :=
  be 2 r.tag.toNat ++ be 2 r.status.toNat ++ be 2 r.opcode.toNat
    ++ be 1 (b2n phase * 128 + b2n r.final * 64 + b2n r.event * 32 + b2n lost * 16) ++ zeros 1 ++ be 8 r.detail.toNat
    ++ padTo 16 r.result

/-- The block writes the next slot of a reply queue: the 32 bytes of a reply and, on the fabric pair, the tail of the
fabric reply entry (R389, Table 16.22); bytes 6 and 7 follow in a write of their own. -/
def State.putSlot (fab : Bool) (r : Reply) (tail : List Byte) (lost : Bool) (s : State) : State :=
  let p := s.pair fab
  let b := replyBytes r p.phase lost ++ (if fab then padTo 32 tail else [])
  let s1 := (s.emit (.slot fab p.rqTail.toNat (b.take 6) (b.drop 8))).emit (.slotFlags fab p.rqTail.toNat (slice b 6 2))
  let wrap := p.rqTail.toNat + 1 == qSize p.rqLog2
  let s2 := s1.modPair fab fun q =>
    { q with rqTail := if wrap then 0 else q.rqTail + 1, phase := if wrap then !q.phase else q.phase }
  if fab then s2.intSet 1 else if r.final then s2.intSet 0 else s2

/-- A pair can take one more slot now. -/
def State.canPut (fab : Bool) (s : State) : Bool := (s.pair fab).en && decide (0 < (s.pair fab).freeSlots)

/-- A reply goes into a free slot, or waits for one; none is written once the pair is not enabled (R394, R420). -/
def State.putReply (fab : Bool) (r : Reply) (tail : List Byte) (s : State) : State :=
  if !(s.pair fab).en then s
  else if s.canPut fab && !(s.cmd.waiting.any fun w => w.1 == fab) then s.putSlot fab r tail false
  else s.modCmd fun c => { c with waiting := c.waiting ++ [(fab, r, tail)] }

/-- An event fits into the free slots of its pair: its slots are consecutive (R395), and all are written together. -/
def State.eventFits (fab : Bool) (l : List Reply) (s : State) : Bool :=
  (s.pair fab).en && decide (l.length ≤ (s.pair fab).freeSlots)

/-- The slots of an event are written, the first with LOST where events were dropped before it (R394). -/
def State.writeEvent (fab : Bool) (l : List Reply) (tail : List Byte) (s : State) : State :=
  match l with
  | [] => s
  | r :: rest =>
    let s1 := s.putSlot fab r tail (if fab then s.cmd.lostF else s.cmd.lostL)
    let s2 := s1.modCmd fun c => if fab then { c with lostF := false } else { c with lostL := false }
    rest.foldl (fun t x => t.putSlot fab x tail false) s2

/-- An event goes into free slots of its pair, or waits in AO with at most 64 others, or is dropped and counted in
EVLOST (R394). -/
def State.putEvent (fab : Bool) (l : List Reply) (tail : List Byte) (s : State) : State :=
  if s.eventFits fab l && !(s.cmd.waiting.any fun w => w.1 == fab) && !(s.cmd.events.any fun w => w.1 == fab) then
    s.writeEvent fab l tail
  else if s.cmd.events.length < 64 then s.modCmd fun c => { c with events := c.events ++ [(fab, l, tail)] }
  else s.modCmd fun c =>
    if fab then { c with evlost := satAdd 32 c.evlost 1, lostF := true }
    else { c with evlost := satAdd 32 c.evlost 1, lostL := true }

/-- Replies and events of a pair that wait are written, oldest first, while slots are free (R394); `n` bounds the
slots of a queue. -/
def State.drainSlots (fab : Bool) : Nat → State → State
  | 0, s => s
  | n + 1, s =>
    if s.canPut fab then
      match s.cmd.waiting.find? fun w => w.1 == fab with
      | some w =>
        State.drainSlots fab n ((s.putSlot fab w.2.1 w.2.2 false).modCmd fun c =>
          { c with waiting := dropFirst (fun x => x.1 == fab) c.waiting })
      | none =>
        match s.cmd.events.find? fun w => w.1 == fab with
        | some w =>
          if s.eventFits fab w.2.1 then
            State.drainSlots fab n ((s.modCmd fun c =>
              { c with events := dropFirst (fun x => x.1 == fab) c.events }).writeEvent fab w.2.1 w.2.2)
          else s
        | none => s
    else s

/-- The slots of an event: 24 bytes of data each, DETAIL first, every slot but the last with FINAL 0 (R395). -/
def eventSlots (code : BitVec 16) (data : List Byte) : List Reply :=
  let parts := chunksOf 24 8 (if data.isEmpty then [0] else data)
  (List.range parts.length).map fun i =>
    let d := padTo 24 (parts.getD i [])
    { tag := 0, status := 0, opcode := code, final := i + 1 == parts.length, event := true,
      detail := BitVec.ofNat 64 (rd d 0 8), result := d.drop 8 }

/-- An event is posted to the local pair (R395). -/
def State.event (code : BitVec 16) (data : List Byte) (s : State) : State :=
  s.putEvent false (eventSlots code data) []

/-- The 32 bytes of a reply as a REPLY record carries them; the gateway sets PHASE as it writes the slot. -/
def replyWire (r : Reply) : List Byte := replyBytes r false false

/-- REPLY records, class 1, up to 1,980 output bytes each, with a DEST field (R405, Table 16.23). -/
def State.sendReplyTo (dst : Dest) (dest : Nat) (r : Reply) (out : List Byte) (s : State) : State :=
  let parts := if out.isEmpty then [[]] else chunksOf 1980 530 out
  (List.range parts.length).foldl (fun t i =>
    t.send { dst := dst, cls := 1, typ := tReply, unit := uControl, flags := 0, stamp := none,
             body := be 4 dest ++ be 2 i ++ be 2 parts.length ++ be 4 out.length ++ zeros 4 ++ replyWire r
               ++ parts.getD i [] }) s

/-- REPLY records to a gateway or root. -/
def State.sendReplyRecs (dst : Laddr) (r : Reply) (out : List Byte) (s : State) : State :=
  s.sendReplyTo (.block dst) dst.toNat r out

/-- The destination keeps the last reply of each of the latest 1,024 fabric commands (R406). -/
def CmdUnit.storeReply (c : CmdUnit) (src : Laddr) (iss : Issuer) (seq : BitVec 16)
    (r : Option (Reply × List Byte)) : CmdUnit :=
  let rest := c.store.filter fun e => !(e.src == src && e.issuer == iss && e.seq == seq)
  let l := rest ++ [{ src := src, issuer := iss, seq := seq, reply := r }]
  { c with store := l.drop (l.length - 1024) }

/-- The gateway's fabric reply entry of one of its own fabric queue entries (R404, R405): output beyond OMAX is not
written and answered E_CAPACITY. `src` is the replying block. -/
def State.gatewayReply (f : Flight) (src : Laddr) (r : Reply) (out : List Byte) (s : State) : State :=
  if r.final && decide (f.omax < out.length) then
    let x : Reply :=
      { r with tag := f.tag, opcode := f.opcode, status := 0x0030, result := [],
               detail := BitVec.ofNat 64 (out.length * 2 ^ 32 + r.status.toNat * 2 ^ 16 + 0xFF) }
    (s.bump cCmdRejected).putReply true x (be 4 src.toNat ++ be 4 0)
  else
    let s1 := if out.isEmpty then s else s.emit (.memory true f.optr out)
    s1.putReply true { r with tag := f.tag } (be 4 src.toNat ++ be 4 out.length)

/-- The gateway's own answer to an entry, with SRC its own address, counted in CMD_REJECTED (R397, R404 to R406). -/
def State.gwError (tag opcode st : BitVec 16) (detail : Dword) (s : State) : State :=
  (s.bump cCmdRejected).putReply true
    { tag := tag, status := st, opcode := opcode, final := true, event := false, detail := detail, result := [] }
    (be 4 s.sys.laddr.toNat ++ be 4 0)

/-- A reply goes back on the path its command came by: a slot of the local pair; a fabric reply entry of the gateway's own pair; stored
and sent as REPLY records; to the root of a broadcast only a status other than OK and ACCEPTED (R407); nowhere for a RESTORE command
(R447), whose failure R433 remembers. A gateway that no longer holds an entry of its own (R432) writes the reply without output. `ptr` is
where output bytes go on the local path. -/
def State.reply (p : Path) (ptr : Dword) (r : Reply) (out : List Byte) (s : State) : State :=
  let s0 := if r.status.toNat < 0x20 then s else s.bump cCmdRejected
  match p with
  | .localQueue =>
    let s1 := if out.isEmpty then s0 else s0.emit (.memory false ptr out)
    s1.putReply false r []
  | .fabricQueue iss seq =>
    match s0.cmd.flight.find? fun f => f.dest == s.sys.laddr && f.issuer == iss && f.seq == seq with
    | some f =>
      let s1 := s0.gatewayReply f s.sys.laddr r out
      if r.final then
        s1.modCmd fun c => { c with flight := c.flight.filter fun g =>
          !(g.dest == f.dest && g.issuer == f.issuer && g.seq == f.seq) }
      else s1
    | none => s0.putReply true r (be 4 s.sys.laddr.toNat ++ be 4 0)
  | .fabric src iss seq =>
    (s0.modCmd fun c => c.storeReply src iss seq (some (r, out))).sendReplyRecs src r out
  | .broadcast root _ => if r.status.toNat ≤ 1 then s0 else s0.sendReplyRecs root r out
  | .restore _ =>
    if r.status.toNat ≤ 1 then s0 else (s0.modHoist fun u => { u with restoreOk := false })

/-! ### Status codes of Table 16.5 -/

def stOk : BitVec 16 := 0x0000
def stAccepted : BitVec 16 := 0x0001
def stBusy : BitVec 16 := 0x0010
def stThrottled : BitVec 16 := 0x0011
def stOpcode : BitVec 16 := 0x0020
def stParam : BitVec 16 := 0x0021
def stState : BitVec 16 := 0x0022
def stRole : BitVec 16 := 0x0023
def stAuth : BitVec 16 := 0x0024
def stRange : BitVec 16 := 0x0025
def stCapacity : BitVec 16 := 0x0030
def stCheck : BitVec 16 := 0x0031
def stTimeout : BitVec 16 := 0x0040
def stUnreachable : BitVec 16 := 0x0041
def stInternal : BitVec 16 := 0x00F0

/-- DETAIL of an error reply (Table 16.3): free amount, reason, parameter offset. -/
def errDetail (free reason off : Nat) : Dword := BitVec.ofNat 64 (free * 2 ^ 32 + reason * 2 ^ 8 + off)

/-- A check of a command: the status and DETAIL it gives where it fails. -/
structure Check where
  ok : Bool
  status : BitVec 16
  detail : Dword
deriving DecidableEq, Repr

/-- A value not allowed at parameter offset `off`. -/
def ckParam (ok : Bool) (off : Nat) : Check := { ok := ok, status := stParam, detail := errDetail 0 0 off }

/-- A value outside its range at parameter offset `off`. -/
def ckRange (ok : Bool) (off : Nat) : Check := { ok := ok, status := stRange, detail := errDetail 0 0 off }

/-- A state that forbids the command. -/
def ckState (ok : Bool) : Check := { ok := ok, status := stState, detail := errDetail 0 0 0xFF }

/-- A capacity that would be exceeded, with the amount still free. -/
def ckCap (ok : Bool) (free : Nat) : Check := { ok := ok, status := stCapacity, detail := errDetail free 0 0xFF }

/-- A check with a status of its own and no field at fault. -/
def ckStatus (ok : Bool) (st : BitVec 16) : Check := { ok := ok, status := st, detail := errDetail 0 0 0xFF }

/-- A field of an opcode's parameter list (R388): a value, reserved bytes, or a pointer. -/
inductive Fld where
  | v (n : Nat)
  | r (n : Nat)
  | ptr
deriving DecidableEq, Repr

/-- Size of a field in bytes. -/
def Fld.size : Fld → Nat
  | .v n => n
  | .r n => n
  | .ptr => 8

/-- An opcode of Tables 16.7 to 16.21: its code, parameter list, roles (die, die only as acting tray master, tray,
spine), issuer classes, whether Table 16.24 serves it while ENG is stopped, and whether it is of the registration or
teardown kind (R399). -/
structure OpSpec where
  code : BitVec 16
  flds : List Fld
  die : Bool
  acting : Bool
  tray : Bool
  spine : Bool
  f : Bool
  t : Bool
  h : Bool
  served : Bool
  admission : Bool
deriving DecidableEq, Repr

/-- The roles of an opcode's Roles column (R398): "(D)" is die role only as acting tray master. -/
structure Roles where
  die : Bool
  acting : Bool
  tray : Bool
  spine : Bool
deriving DecidableEq, Repr

def rDTS : Roles := { die := true, acting := true, tray := true, spine := true }
def rATS : Roles := { die := false, acting := true, tray := true, spine := true }
def rD : Roles := { die := true, acting := true, tray := false, spine := false }
def rT : Roles := { die := false, acting := false, tray := true, spine := false }
def rS : Roles := { die := false, acting := false, tray := false, spine := true }
def rTS : Roles := { die := false, acting := false, tray := true, spine := true }
def rDT : Roles := { die := true, acting := true, tray := true, spine := false }

/-- The issuer classes of an opcode's Who column (R398). -/
structure Who where
  f : Bool
  t : Bool
  h : Bool
deriving DecidableEq, Repr

def wF : Who := { f := true, t := false, h := false }
def wFT : Who := { f := true, t := true, h := false }
def wFTH : Who := { f := true, t := true, h := true }
def wH : Who := { f := false, t := false, h := true }

/-- An opcode that is not of the registration or teardown kind. -/
def mkOp (code : BitVec 16) (flds : List Fld) (r : Roles) (w : Who) (served : Bool) : OpSpec :=
  { code := code, flds := flds, die := r.die, acting := r.acting, tray := r.tray, spine := r.spine, f := w.f, t := w.t,
    h := w.h, served := served, admission := false }

/-- PLEN of an opcode: the size of its parameter list (R387). -/
def OpSpec.plen (o : OpSpec) : Nat := (o.flds.map Fld.size).sum

/-- The issuer class of a command on its path (Table 16.1). -/
def State.issuerOf (s : State) : Path → Issuer
  | .localQueue =>
    match s.sys.strap with
    | .die => .hostFw
    | .tray => .trayHost
    | _ => .fm
  | .fabricQueue i _ => i
  | .fabric _ i _ => i
  | .broadcast _ _ => .fm
  | .restore _ => .fm

/-- A command that carries its data inline (R388). -/
def inlinePath : Path → Bool
  | .localQueue => false
  | .fabricQueue _ _ => true
  | .fabric _ _ _ => true
  | .broadcast _ _ => true
  | .restore _ => true

/-- A command that arrived over the fabric (R401). -/
def fabPath : Path → Bool
  | .fabricQueue _ _ => true
  | .fabric _ _ _ => true
  | .localQueue => false
  | .broadcast _ _ => false
  | .restore _ => false

/-- A big-endian parameter value (R388). -/
def cp (c : Cmd) (off n : Nat) : Nat := rd c.params off n

/-- The checks of the parameter list from offset `off`: reserved bytes 0, pointers multiples of 8 with their data
readable on a queue path, and 0 on an inline path (R9, R388). -/
def fldChecks (c : Cmd) : List Fld → Nat → List Check
  | [], _ => []
  | .v n :: l, off => fldChecks c l (off + n)
  | .r n :: l, off => ckParam (cp c off n == 0) off :: fldChecks c l (off + n)
  | .ptr :: l, off =>
    (if inlinePath c.path then { ok := cp c off 8 == 0, status := stParam, detail := errDetail 0 4 off }
      else { ok := cp c off 8 % 8 == 0, status := stParam, detail := errDetail 0 1 off }) :: fldChecks c l (off + 8)

/-- Offset of the i-th pointer field of a parameter list. -/
def ptrOff : List Fld → Nat → Nat → Nat
  | [], off, _ => off
  | .ptr :: _, off, 0 => off
  | .ptr :: l, off, i + 1 => ptrOff l (off + 8) i
  | x :: l, off, i => ptrOff l (off + x.size) i

/-- A TAG that equals that of a command of the same path without its final reply (R391). Tags are compared on the
queue paths, whose issuer gives them; a fabric path compares keys. -/
def State.dupTag (s : State) (c : Cmd) : Bool :=
  s.cmd.acc.any fun a => a.path == c.path && a.tag == c.tag

/-- OPCODE, issuer, role and packet checks in the order of R397. -/
def baseChecks (o : OpSpec) (c : Cmd) (s : State) : List Check :=
  [ ckStatus (match s.issuerOf c.path with | .fm => o.f | .trayHost => o.t | .hostFw => o.h) stAuth,
    ckStatus ((s.isDie && (o.die || (o.acting && s.sys.acting))) || (s.isTray && o.tray) || (s.isSpine && o.spine))
      stRole,
    { ok := c.plen.toNat == o.plen, status := stParam, detail := errDetail 0 3 0xFF },
    ckParam (c.flagsRsvd == 0) 0xFF,
    ckParam (c.tag != 0) 0xFF,
    { ok := !s.dupTag c, status := stParam, detail := errDetail 0 2 0xFF },
    ckParam (rd c.params o.plen (56 - o.plen) == 0) o.plen,
    { ok := !(inlinePath c.path && c.reads.any Option.isNone), status := stParam, detail := errDetail 0 4 0xFF } ]
    ++ fldChecks c o.flds 0

/-- The data that the i-th pointer of the command reads, or its inline input (R388, R405). -/
def cdata (c : Cmd) (i : Nat) : List Byte :=
  if inlinePath c.path then c.inl else (c.reads.getD i none).getD []

/-- The read through the i-th pointer gave `n` bytes: on a queue path the path reports no failed read, on an inline path
ILEN matches what the opcode reads (R388, R405). -/
def ckData (o : OpSpec) (c : Cmd) (i n : Nat) : Check :=
  if inlinePath c.path then { ok := c.inl.length == n, status := stParam, detail := errDetail 0 4 (ptrOff o.flds 0 i) }
  else { ok := n == 0 || ((c.reads.getD i none).map List.length) == some n, status := stParam,
         detail := errDetail 0 1 (ptrOff o.flds 0 i) }

/-- An inline path brings no input to an opcode that reads none (R405). -/
def ckNoInline (c : Cmd) : Check :=
  { ok := !inlinePath c.path || c.inl.isEmpty, status := stParam, detail := errDetail 0 4 0xFF }

/-- The writes through output pointers do not fail (R388). -/
def ckWrite (o : OpSpec) (c : Cmd) (i : Nat) : Check :=
  { ok := inlinePath c.path || c.writesOk, status := stParam, detail := errDetail 0 1 (ptrOff o.flds 0 i) }

/-- The first check that fails. -/
def firstFail : List Check → Option Check
  | [] => none
  | k :: l => if k.ok then firstFail l else some k

/-- What the effect of a command answers: the new state with DETAIL and RESULT of an OK reply and its output bytes; or
ACCEPTED, with the object its work is about and its final reply where the work is already done; or nothing yet, where the one
reply of a command without an "A:" result comes once its work has ended (R459). -/
inductive Ans where
  | ok (detail : Dword) (result : List Byte) (out : List Byte) (s : State)
  | acc (obj : Nat) (ready : Option Final) (s : State)
  | hold (obj : Nat) (s : State)

/-- The commands of the RESTORE section (Tables 18.9 and 16.23 from offset 4): packet and inline data; a further part of a command
continues the entry before it. `n` bounds them. -/
def parseRestore : Nat → List Byte → List (List Byte × List Byte) → List (List Byte × List Byte)
  | 0, _, acc => acc
  | n + 1, b, acc =>
    if b.length < 76 then acc
    else
      let part := rd b 2 2
      let len := min 1948 (rd b 8 4 - 1948 * part)
      let d := slice b 76 len
      let acc2 := match part, acc.getLast? with
        | 0, _ => acc ++ [(slice b 12 64, d)]
        | _, some e => acc.dropLast ++ [(e.1, e.2 ++ d)]
        | _, none => acc
      parseRestore n (b.drop (76 + len)) acc2

/-- The RESTORE commands in their stored order. -/
def State.restoreEntries (s : State) : List (List Byte × List Byte) :=
  let b := tgetD s.conf.secs 4 []
  parseRestore (b.length / 76) b []

/-- A command is the i-th of the RESTORE section. -/
def State.isRestore (s : State) (op : BitVec 16) (c : Cmd) (i : Nat) : Bool :=
  match s.restoreEntries[i]? with
  | some e => rd e.1 0 2 == op.toNat && rd e.1 2 2 == c.tag.toNat && slice e.1 8 56 == c.params && e.2 == c.inl
  | none => false

/-- The path runs commands: RESTORE commands in their stored order while RESTORE runs, and nothing else before its end (R447). -/
def State.pathOpen (s : State) : Path → Bool
  | .restore i => s.pow.phase == .restoring i && s.ctlUp
  | _ => s.pow.phase == .running && s.ctlUp

/-- A command is in place: its path runs commands, and a RESTORE command is the one that the section holds. -/
def State.pathReady (s : State) (op : BitVec 16) (c : Cmd) : Bool :=
  s.pathOpen c.path && (match c.path with | .restore i => s.isRestore op c i | _ => true)

/-- The output pointer of the command: the last pointer of its list. -/
def outPtr (o : OpSpec) (c : Cmd) : Dword :=
  let n := (o.flds.filter fun x => x == Fld.ptr).length
  BitVec.ofNat 64 (cp c (ptrOff o.flds 0 (n - 1)) 8)

/-- The next RESTORE command is due once this one ran (R447). -/
def State.restoreNext (s : State) : Path → State
  | .restore i => s.modPow fun u => { u with phase := .restoring (i + 1) }
  | _ => s

/-- The checks of a command in the order of R397: the base checks, the parameter and range checks `pr`, the ENG state check of
R482, the state, capacity and work-in-progress checks `rest`, admission (R399), and the room for commands of the fabric (R401). -/
def State.checks (o : OpSpec) (c : Cmd) (pr rest : List Check) (s : State) : List Check :=
  baseChecks o c s ++ pr ++ [{ ok := o.served || s.engUp, status := stState, detail := errDetail 0 5 0xFF }] ++ rest
    ++ (if o.admission then [ckStatus (decide (0 < s.admitDue.hop.admission)) stThrottled] else [])
    ++ [ckStatus (!fabPath c.path || decide ((s.cmd.acc.filter fun a => fabPath a.path).length < 32)) stBusy]

/-- The state in which the effect of a command runs: it is counted, and has its admission token (R399); a token that falls due in the
cycle is added first (R149). -/
def State.begun (o : OpSpec) (s : State) : State :=
  let s0 := s.bump cCmdReceived
  if o.admission then s0.admitDue.modHop fun u => { u with admission := u.admission - 1 } else s0

/-- A command is answered OK with DETAIL, RESULT and output bytes. -/
def State.answered (o : OpSpec) (c : Cmd) (d : Dword) (r out : List Byte) (s : State) : State :=
  (s.reply c.path (outPtr o c) { tag := c.tag, status := stOk, opcode := o.code, final := true, event := false, detail := d,
                                 result := r } out).restoreNext c.path

/-- A command is turned away with an error reply. -/
def State.turnedAway (o : OpSpec) (c : Cmd) (st : BitVec 16) (d : Dword) (s : State) : State :=
  (s.reply c.path 0 { tag := c.tag, status := st, opcode := o.code, final := true, event := false, detail := d,
                      result := [] } []).restoreNext c.path

/-- A command has no final reply yet. -/
def State.keepAcc (o : OpSpec) (c : Cmd) (obj : Nat) (ready : Option Final) (s : State) : State :=
  s.modCmd fun u =>
    { u with acc := u.acc ++ [{ path := c.path, tag := c.tag, opcode := o.code, ptr := outPtr o c, obj := obj, ready := ready }] }

/-- A command is answered ACCEPTED. -/
def State.takenOn (o : OpSpec) (c : Cmd) (obj : Nat) (ready : Option Final) (s : State) : State :=
  ((s.reply c.path 0 { tag := c.tag, status := stAccepted, opcode := o.code, final := false, event := false, detail := 0,
                       result := [] } []).keepAcc o c obj ready).restoreNext c.path

/-- Commands in ACCEPTED state: TRAY.DESIGNATE, which waits for its one reply, is never answered ACCEPTED (R401, R459). -/
def State.acceptedNow (s : State) : Nat := (s.cmd.acc.filter fun a => a.opcode != 0x0107).length

/-- A command is run (R390, R392, R397): the first failing check turns it away with no other effect, else its effect and its reply
follow. A command that meets no running path is left (log entry 5). -/
def runCmd (o : OpSpec) (c : Cmd) (pr rest : List Check) (eff : State → Ans) (s : State) : State :=
  if s.pathReady o.code c then
    match firstFail (s.checks o c pr rest) with
    | some k => (s.bump cCmdReceived).turnedAway o c k.status k.detail
    | none =>
      match eff (s.begun o) with
      | .ok d r out t => t.answered o c d r out
      | .acc obj ready t =>
        if s.acceptedNow < 64 then t.takenOn o c obj ready
        else (s.bump cCmdReceived).turnedAway o c stBusy (errDetail 0 0 0xFF)
      | .hold obj t => (t.keepAcc o c obj none).restoreNext c.path
  else s

/-- A command in ACCEPTED state gets its final reply and is ACCEPTED no longer (R390). That of a broadcast's command goes up to the
fabric manager, with DEST 0 for want of an address of it, and only where it reports an error (R407). -/
def State.finish (a : Acc) (f : Final) (s : State) : State :=
  let s1 := s.modCmd fun c => { c with acc := c.acc.filter fun x => !(x.path == a.path && x.tag == a.tag) }
  let r : Reply := { tag := a.tag, status := f.status, opcode := a.opcode, final := true, event := false, detail := f.detail,
                     result := f.result }
  match a.path with
  | .broadcast _ _ =>
    if f.status = stOk then s1
    else (if f.status.toNat < 0x20 then s1 else s1.bump cCmdRejected).sendReplyTo .up 0 r f.out
  | _ => s1.reply a.path a.ptr r f.out

/-- The work of an accepted command is set as ended: its final reply is written at ASYNC_COMMAND_DONE. -/
def State.setReady (opcode : BitVec 16) (obj : Nat) (f : Final) (s : State) : State :=
  s.modCmd fun c => { c with acc := c.acc.map fun a =>
    if a.opcode == opcode && a.obj == obj && a.ready.isNone then { a with ready := some f } else a }

/-- Every command of an opcode and object in ACCEPTED state ends with a final reply at once. -/
def State.finishAll (opcode : BitVec 16) (obj : Nat) (f : Final) (s : State) : State :=
  (s.cmd.acc.filter fun a => a.opcode == opcode && a.obj == obj).foldl (fun t a => t.finish a f) s

/-- A final reply that reports an error with no data. -/
def finErr (st : BitVec 16) : Final := { status := st, detail := errDetail 0 0 0xFF, result := [], out := [] }

/-- A final OK reply. -/
def finOk (d : Dword) (r out : List Byte) : Final := { status := stOk, detail := d, result := r, out := out }

end Sys2Proof.Machine
end

