-- ==== Sys2Proof/Machine/Xspi.lean ====
section
/-! DEFINITION. Accesses to the flash on the FLASH port (R422, R478): addresses of 4 bytes, erase by sectors of 4 KiB, program by pages of
256 bytes. -/

namespace Sys2Proof.Machine

/-- Several things leave the block, in order. -/
def State.emitAll (l : List Out) (s : State) : State := { s with outs := l.reverse ++ s.outs }

/-- The pages that bytes from an address on fall into, each programmed by itself; `n` bounds them. -/
def pagePrograms : Nat → Nat → List Byte → List Out
  | 0, _, _ => []
  | n + 1, addr, b =>
    if b.isEmpty then []
    else
      let k := 256 - addr % 256
      .xspiProgram (BitVec.ofNat 32 addr) (b.take k) :: pagePrograms n (addr + k) (b.drop k)

/-- Bytes are programmed. -/
def State.programFlash (addr : Nat) (b : List Byte) (s : State) : State := s.emitAll (pagePrograms (b.length + 1) addr b)

/-- The sectors of a region are erased, in ascending order. -/
def State.eraseFlash (addr len : Nat) (s : State) : State :=
  s.emitAll ((List.range (len / 4096)).map fun i => .xspiErase (BitVec.ofNat 32 (addr + 4096 * i)))

/-- Bytes are read. -/
def State.readFlash (addr len : Nat) (s : State) : State := s.emit (.xspiRead (BitVec.ofNat 32 addr) len)

/-- AO reset (R478): the device is reset, and its SFDP table read. -/
def State.xspiStart (s : State) : State := (s.emit .xspiReset).emit .xspiSfdp

/-! ### The layout of Table 18.1 -/

/-- A copy of the slot directory. -/
def dirBase (second : Bool) : Nat := if second then 0x1000 else 0

/-- A copy of the configuration region: A, or B where `b` is true. -/
def cfgBase (b : Bool) : Nat := if b then 0x30000 else 0x10000

/-- The Hallmark area. -/
def hallArea : Nat := 0x50000

/-- The Ingot area: 0 the full slot, 1 and 2 the minimal slots. -/
def ingotBase (slot : Nat) : Nat := if slot = 0 then 0x100000 else if slot = 1 then 0x70000 else 0x71000

/-- Bytes of an Ingot slot. -/
def ingotSize (slot : Nat) : Nat := if slot = 0 then 1048576 else 4096

/-- Bytes that a region of UPDATE.STAGE holds (Table 18.1). -/
def regionSize (kind : Nat) : Nat :=
  if kind = 0 then 8388608
  else if kind = 1 then (if Config.flashSize = 0 then 6 else 26) * 1048576
  else if kind = 2 then (if Config.flashSize = 0 then 86 else 96) * 1048576
  else 131072

/-- Offset of a firmware slot, a model slot, or the scan library. -/
def regionBase (kind slot : Nat) : Nat :=
  if kind = 0 then 0x200000 + slot * 0x800000
  else if kind = 1 then 0x1200000 + slot * regionSize 1
  else 0x1200000 + 4 * regionSize 1

/-! ### Encodings -/

/-- Codes of Table 18.3. -/
def slotCode : SlotSt → Nat
  | .erased => 0
  | .writing => 1
  | .valid => 2
  | .confirmed => 3
  | .trial => 4
  | .failed => 5

/-- A directory entry (Table 18.2); `i` its place. -/
def dirEntBytes (i : Nat) (e : DirEntry) : List Byte :=
  be 1 (slotCode e.st) ++ be 1 (if i < 2 then 0 else if i < 6 then 1 else 2) ++ zeros 2 ++ be 4 e.ver.toNat ++ be 4 e.len ++ zeros 4
    ++ be 8 e.digest ++ be 8 e.tstage

/-- A copy of the directory is written, both CRC fields last (R424). -/
def State.writeDir (second : Bool) (c : DirCopy) (s : State) : State :=
  let h := be 4 0x44495231 ++ be 4 c.gen ++ zeros 20
  let b := (c.ents.mapIdx dirEntBytes).flatten
  let a := dirBase second
  ((((s.eraseFlash a 4096).programFlash a h).programFlash (a + 32) b).programFlash (a + 28) (be 4 (crc32c h))).programFlash (a + 256)
    (be 4 (crc32c b))

/-- A section of the configuration region, padded to a multiple of 8 bytes. -/
def secBytes (e : Nat × List Byte) : List Byte :=
  be 2 e.1 ++ zeros 2 ++ be 4 e.2.length ++ padTo (ceilDiv e.2.length 8 * 8) e.2

/-- A copy of the configuration region is written, HCRC last (R439). -/
def State.writeCfg (b : Bool) (c : CfgCopy) (s : State) : State :=
  let d := (c.secs.map secBytes).flatten
  let h := be 4 0x43464731 ++ be 1 c.cfmt ++ zeros 3 ++ be 4 c.gen ++ be 4 (64 + d.length) ++ be 4 c.wfw.toNat ++ zeros 12
    ++ be 8 (crc64 d) ++ zeros 20
  let a := cfgBase b
  (((s.eraseFlash a 131072).programFlash a h).programFlash (a + 64) d).programFlash (a + 60) (be 4 (crc32c h))

end Sys2Proof.Machine
end

