-- ==== Sys2Proof/Machine/FlashOps.lean ====
section
/-! DEFINITION. The slot directory (R424) and the configuration region (R437 to R439) as every unit uses them. -/

namespace Sys2Proof.Machine

/-- The directory copy in force: the higher GEN among those whose CRC values match (R424). -/
def FlashUnit.useSecond (f : FlashUnit) : Bool := f.dir1.ok && (!f.dir0.ok || decide (f.dir0.gen < f.dir1.gen))

/-- The directory in force. -/
def FlashUnit.dir (f : FlashUnit) : List DirEntry := if f.useSecond then f.dir1.ents else f.dir0.ents

/-- A directory entry: firmware slots 0 and 1, model slots 2 to 5, scan library 6. -/
def State.dirEnt (s : State) (i : Nat) : DirEntry := lget s.flash.dir i dirErased

/-- A directory change goes into the copy with the lower GEN, with GEN one above the other's (R424). -/
def State.modDir (i : Nat) (f : DirEntry → DirEntry) (s : State) : State :=
  let l := lmod s.flash.dir i f
  let old := s.flash.useSecond
  let c : DirCopy := { gen := (if old then s.flash.dir1.gen else s.flash.dir0.gen) + 1, ents := l, ok := true }
  (s.modFlash fun u => if old then { u with dir0 := c } else { u with dir1 := c }).writeDir (!old) c

/-- The directory entry of a KIND and SLOT of UPDATE.STAGE (R426). -/
def dirIndex (kind slot : Nat) : Nat := if kind = 0 then slot else if kind = 1 then 2 + slot else 6

/-- The data of a section in effect, empty where there is none. -/
def State.section' (s : State) (typ : Nat) : List Byte := tgetD s.conf.secs typ []

/-- A parameter of OWNER_FLAGS, a field of 0 selecting the default (R437). -/
def State.ownerParam (s : State) (off dflt unit : Nat) : Nat :=
  let v := rd (s.section' 0x0001) off 2
  if v = 0 then dflt else v * unit

/-- FM_GATEWAY (Table 18.12). -/
def State.fmGateway (s : State) : Bool := bit (rd (s.section' 0x0001) 0 4) 0

/-- CONFIRM_MODE is OWNER (Table 18.12). -/
def State.confirmOwner (s : State) : Bool := bit (rd (s.section' 0x0001) 0 4) 1

/-- HOIST_WIN in chunks. -/
def State.hoistWin (s : State) : Nat := s.ownerParam 4 64 1

/-- HOIST_RTO in nanoseconds. -/
def State.hoistRto (s : State) : Nat := s.ownerParam 6 200000000 10000000

/-- HOIST_WAIT in nanoseconds. -/
def State.hoistWait (s : State) : Nat := s.ownerParam 8 60000000000 1000000000

/-- CONF_MIN in nanoseconds. -/
def State.confMin (s : State) : Nat := s.ownerParam 10 60000000000 10000000000

/-- CMD_RETRY in nanoseconds (R406); its default is that rule's. -/
def State.cmdRetry (s : State) (dflt : Nat) : Nat := s.ownerParam 12 dflt 1000000

/-- The GATEWAYS section (Table 18.9). -/
def State.gateways (s : State) : List Laddr :=
  let b := s.section' 0x0003
  ((List.range 8).filter fun i => decide (4 * i + 4 ≤ b.length)).map fun i => BitVec.ofNat 18 (rd b (4 * i) 4)

/-- AUTH_TOKEN (Table 18.9), 0 where there is none. -/
def State.authToken (s : State) : Nat := rd (s.section' 0x0002) 0 6

/-- CFGVER: CFMT and GEN. -/
def State.cfgVer (s : State) : Nat := s.conf.cfmt * 2 ^ 24 + s.conf.gen % 2 ^ 24

/-- A copy of the configuration region: A, or B where `b` is true. -/
def FlashUnit.cfg (f : FlashUnit) (b : Bool) : Option CfgCopy := if b then f.cfgB else f.cfgA

/-- Replace a copy of the configuration region. -/
def FlashUnit.putCfg (f : FlashUnit) (b : Bool) (c : Option CfgCopy) : FlashUnit :=
  if b then { f with cfgB := c } else { f with cfgA := c }

/-- The copy that the next write rewrites (R439): in a trial never the one that the confirmed image last wrote, else the two
in turn. -/
def State.cfgTarget (s : State) : Bool :=
  if s.hoist.trialAt.isSome then (match s.conf.confirmedCopy with | some c => !c | none => false)
  else match s.conf.copy with | some c => !c | none => false

/-- One whole copy is rewritten with new sections (R439); `cfmt` 0 keeps the format in use. -/
def State.writeConf (secs : List (Nat × List Byte)) (cfmt : Nat) (s : State) : State :=
  let b := s.cfgTarget
  let fm := if cfmt ≠ 0 then cfmt else if s.conf.cfmt ≠ 0 then s.conf.cfmt else s.hoist.hdr.cfgWr
  let c : CfgCopy := { gen := s.conf.gen + 1, cfmt := fm, wfw := s.sys.fwver, secs := secs, ok := true }
  ((s.writeCfg b c).modFlash fun u => u.putCfg b (some c)).modConf fun u =>
    { secs := secs, copy := some b, gen := c.gen, cfmt := fm,
      confirmedCopy := if s.hoist.trialAt.isSome then u.confirmedCopy else some b }

/-- An Ingot slot is erased (R304). -/
def State.clearIngot (slot : Nat) (s : State) : State :=
  (s.eraseFlash (ingotBase slot) (ingotSize slot)).modFlash fun u =>
    if slot = 0 then { u with ingot0 := [] } else if slot = 1 then { u with ingot1 := [] } else { u with ingot2 := [] }

/-- A block section is written (Table 18.9). -/
def State.writeSection (typ : Nat) (data : List Byte) (s : State) : State :=
  s.writeConf (tput s.conf.secs typ data) 0

end Sys2Proof.Machine
end

