-- ==== Sys2Proof/Machine/Assay.lean ====
section
/-! DEFINITION. The Assay partition and its one-way path into AO (spec/14, R364 to R368). -/

namespace Sys2Proof.Machine

/-- TB3 in integer nanoseconds. -/
def MetroUnit.ns (m : MetroUnit) : Nat := m.tb3 / 65536

/-- The calibration in use: the highest written bank (R364). -/
def MetroUnit.cal (m : MetroUnit) : CalBank := m.banks.getLast?.getD Config.uncalibrated

/-- The METRO domain enters its reset: the fuse banks stay (R26, R364). -/
def State.metroOff (s : State) : State :=
  ((s.modMetro fun _ => metroReset s.metro.banks).modPow fun u => { u with pgMetro := false, metroHeld := true })

/-- PG_METRO_ASSERT (R364): Assay starts and samples METRO_CAL_EN. -/
def execPgMetroAssert (calEn : Bool) (s : State) : Host.Outcome State Fault Refusal :=
  if s.metro.up then .next s
  else
    let m := metroReset s.metro.banks
    .next ((s.modMetro fun _ => { m with up := true, calOpen := calEn }).modPow fun u => { u with pgMetro := true, metroHeld := false })

/-- PG_METRO_DEASSERT (R26): METRO is reset by the loss of its own power. -/
def execPgMetroDeassert (s : State) : Host.Outcome State Fault Refusal := .next s.metroOff

/-- ASSAY_CALIBRATION_WRITE (R364): with METRO_CAL_EN high at METRO power-up, the next of four fuse banks is written. The
transaction is 52 bytes: OFF_V, OFF_I (4 each, signed), KE (8), KV, KI (10 each) and the readout key (16); DESIGN CHOICE, log
entry 28. -/
def execAssayCalibrationWrite (data : List Byte) (s : State) : Host.Outcome State Fault Refusal :=
  if s.metro.up && s.metro.calOpen && decide (s.metro.banks.length < 4) && data.length == 52 then
    let b : CalBank := { offV := signed 32 (rd data 0 4), offI := signed 32 (rd data 4 4), ke := rd data 8 8, kv := rd data 16 10,
                         ki := rd data 26 10, key := slice data 36 16 }
    .next (s.modMetro fun m => { m with banks := m.banks ++ [b] })
  else .next s

/-- A product goes into the accumulators (R366). -/
def MetroUnit.accumulate (m : MetroUnit) (p : Int) : MetroUnit :=
  { m with accImp := if 0 < p then (m.accImp + p.toNat) % 2 ^ 128 else m.accImp,
           accExp := if p < 0 then (m.accExp + (-p).toNat) % 2 ^ 128 else m.accExp, 
           pmax := some (match m.pmax with | some q => max q p | none => p) }

/-- A code at either end of its range. -/
def clipped (c : Int) : Bool := c == -8388608 || c == 8388607

/-- ASSAY_SAMPLE_PAIR (R366): a pair within 100 µs of its conversion. -/
def execAssaySamplePair (v i : BitVec 24) (s : State) : Host.Outcome State Fault Refusal :=
  match s.metro.conv with
  | some t =>
    if s.metro.up && decide (s.metro.ns ≤ t + 100000) then
      let cv := signed 24 v.toNat
      let ci := signed 24 i.toNat
      let k := s.metro.cal
      let p := (cv - k.offV) * (ci - k.offI)
      .next (s.modMetro fun m =>
        { m.accumulate p with conv := none, lastP := p, missRun := 0, sense := false, nsamp := m.nsamp + 1,
                              clipV := m.clipV || clipped cv, clipI := m.clipI || clipped ci,
                              sumV := m.sumV + (cv - k.offV), sumI := m.sumI + (ci - k.offI), n := m.n + 1 })
    else .next s
  | none => .next s

/-- A pair has not come. The previous product stands in for 8 pairs; then SENSE_FAULT stops accumulation and the time counts in
GAPMS (R366). -/
def MetroUnit.missPair (m : MetroUnit) : MetroUnit :=
  if m.sense then { m with conv := none, nmiss := satAdd 32 m.nmiss 1, missRun := m.missRun + 1, gapPairs := m.gapPairs + 1 }
  else { m.accumulate m.lastP with conv := none, nmiss := satAdd 32 m.nmiss 1, missRun := m.missRun + 1,
                                   sense := decide (8 ≤ m.missRun + 1) }

/-- ASSAY_PAIR_MISSING (R366, R475): a pair that has not come 100 µs after its conversion. -/
def execAssayPairMissing (s : State) : Host.Outcome State Fault Refusal :=
  match s.metro.conv with
  | some t => if s.metro.up && decide (t + 100000 < s.metro.ns) then .next (s.modMetro MetroUnit.missPair) else .next s
  | none => .next s

/-- ASSAY_CONVERSION (R365): every 125 µs of TB3 a conversion starts; a pair still waited for has then not come. -/
def execAssayConversion (s : State) : Host.Outcome State Fault Refusal :=
  let k := s.metro.ns / 125000
  if s.metro.up && decide (s.metro.convK < k) then
    .next (s.modMetro fun m0 =>
      let m := if m0.conv.isSome then m0.missPair else m0
      { m with convK := k, conv := some m.ns })
  else .next s

/-! ### SipHash-2-4 -/

/-- Rotation of a 64-bit number to the left. -/
def rotl64 (x n : Nat) : Nat := (x * 2 ^ n) % 2 ^ 64 + x % 2 ^ 64 / 2 ^ (64 - n)

/-- The four words of SipHash. -/
structure Sip where
  a : Nat
  b : Nat
  c : Nat
  d : Nat
deriving DecidableEq, Repr

/-- One SipRound. -/
def sipRound (v : Sip) : Sip :=
  let a1 := (v.a + v.b) % 2 ^ 64
  let b1 := rotl64 v.b 13 ^^^ a1
  let a2 := rotl64 a1 32
  let c1 := (v.c + v.d) % 2 ^ 64
  let d1 := rotl64 v.d 16 ^^^ c1
  let a3 := (a2 + d1) % 2 ^ 64
  let d2 := rotl64 d1 21 ^^^ a3
  let c2 := (c1 + b1) % 2 ^ 64
  let b2 := rotl64 b1 17 ^^^ c2
  { a := a3, b := b2, c := rotl64 c2 32, d := d2 }

/-- A little-endian number. -/
def leNat (l : List Byte) : Nat := beNat l.reverse

/-- A message word is taken in. -/
def sipWord (v : Sip) (m : Nat) : Sip :=
  let w := sipRound (sipRound { v with d := v.d ^^^ m })
  { w with a := w.a ^^^ m }

/-- SipHash-2-4 of a message whose length is a multiple of 8, under a 16-byte key. -/
def sipHash (key msg : List Byte) : Nat :=
  let k0 := leNat (slice key 0 8)
  let k1 := leNat (slice key 8 8)
  let v0 : Sip := { a := k0 ^^^ 0x736f6d6570736575, b := k1 ^^^ 0x646f72616e646f6d, c := k0 ^^^ 0x6c7967656e657261,
                    d := k1 ^^^ 0x7465646279746573 }
  let n := msg.length / 8
  let v1 := (List.range n).foldl (fun v i => sipWord v (leNat (slice msg (8 * i) 8))) v0
  let v2 := sipWord v1 (msg.length % 256 * 2 ^ 56)
  let v3 := sipRound (sipRound (sipRound (sipRound { v2 with c := v2.c ^^^ 0xFF })))
  v3.a ^^^ v3.b ^^^ v3.c ^^^ v3.d

/-! ### Readout (R366, R368, Table 14.14) -/

/-- ASTAT of a frame. -/
def MetroUnit.astat (m : MetroUnit) : Nat :=
  b2n m.sense + 2 * b2n m.clipV + 4 * b2n m.clipI + 8 * b2n m.calOpen + 16 * b2n m.pulseDue

/-- Bytes 0 to 79 of a readout frame, with RSEQ `q`. -/
def MetroUnit.frameHead (m : MetroUnit) (q : Nat) : List Byte :=
  let k := m.cal
  be 8 q ++ be 8 m.ns ++ be 8 (m.accImp * k.ke / 2 ^ 64) ++ be 8 (m.accExp * k.ke / 2 ^ 64) ++ be 8 m.tb0P ++ be 8 m.tb3P
    ++ be 8 m.nsamp ++ be 4 m.nmiss ++ be 4 (min (m.gapPairs / 8) (2 ^ 32 - 1)) ++ be 4 (Config.assayMean m.sumV m.n k.kv)
    ++ be 4 (Config.assayMean m.sumI m.n k.ki) ++ be 4 (Config.assayPower (m.pmax.getD 0) k.ke) ++ be 1 m.astat
    ++ be 1 (m.banks.length - 1) ++ zeros 2

/-- The 88 bytes of a readout frame. -/
def MetroUnit.frame (m : MetroUnit) (q : Nat) : List Byte :=
  m.frameHead q ++ be 8 (sipHash m.cal.key (m.frameHead q))

/-- An ASSAY_READOUT record (R368, R493). -/
def assayReq (f : AssayFrame) : Req :=
  { dst := .up, cls := 2, typ := tAssay, unit := uAssay, flags := 0, stamp := none, body := f.bytes }

/-- Frames that have not become records are offered, oldest first (R368, Table 19.7). -/
def State.assaySend (s : State) : State :=
  if s.ctlUp && s.engUp then
    ((s.assay.frames.filter fun f => !f.sent).foldl (fun t f => t.send (assayReq f)) s).modAssay fun a =>
      { a with frames := a.frames.map fun f => { f with sent := true } }
  else s

/-- A frame reaches the AO buffer: ASSAY_RESTART and ASSAY_UNSEALED, and ASSAY_SENSE_FAULT where SENSE_FAULT is new (R368,
R370); a frame that comes while CTL is down is lost to transport. -/
def State.assayTake (bytes : List Byte) (s : State) : State :=
  if s.aoUp then
    let q := rd bytes 0 8
    let st := rd bytes 76 1
    let a := s.assay
    let s1 := if q ≤ a.lastSeq then s.stage 0x0E02 .notice 0 q else s
    let s2 := if bit st 3 && (!bit a.lastStat 3 || decide (q ≤ a.lastSeq)) then s1.stage 0x0E03 .fault (rd bytes 77 1) 0 else s1
    let s3 := if bit st 0 && !bit a.lastStat 0 then s2.stage 0x0E01 .notice 0 (rd bytes 60 4) else s2
    let f : AssayFrame := { bytes := bytes, sent := s.pow.ctlHeld, at0 := s.tb0Ns }
    (s3.modAssay fun u =>
      { frames := (u.frames ++ [f]).drop (u.frames.length + 1 - 4), lastSeq := q, lastStat := st }).assaySend
  else s

/-- ASSAY_READOUT_FRAME (R368): at an epoch pulse, or 1.25 s of TB3 after the last frame. -/
def execAssayReadoutFrame (s : State) : Host.Outcome State Fault Refusal :=
  if s.metro.up && (s.metro.pulseDue || decide (s.metro.lastFrame + 1250000000 ≤ s.metro.ns)) then
    let m := s.metro
    let b := m.frame (m.rseq + 1)
    .next (((s.modMetro fun m =>
      { m with rseq := m.rseq + 1, lastFrame := m.ns, pulseDue := false, clipV := false, clipI := false, sumV := 0, sumI := 0,
               n := 0, pmax := none }).emit (.readout b)).assayTake b)
  else .next s

/-- The epoch pulse at the partition: TB0 and TB3 in the same METRO cycle (R41). -/
def State.metroPulse (s : State) : State :=
  if s.metro.up then s.modMetro fun m => { m with pulseDue := true, tb0P := s.tb0Ns, tb3P := m.ns } else s

def opMetroRead : OpSpec := mkOp 0x0E00 [.v 1, .r 7, .ptr] rDTS wFT true

/-- METRO.READ (R368): up to four buffered frames, oldest first. -/
def execMetroRead (c : Cmd) (s : State) : Host.Outcome State Fault Refusal :=
  let n := cp c 0 1
  .next (runCmd opMetroRead c
    [ckNoInline c, ckWrite opMetroRead c 0, ckRange (decide (n ≤ 4)) 0] []
    (fun t =>
      let fs := t.assay.frames.take n
      .acc 0 (some (finOk 0 (be 1 fs.length) (fs.map (·.bytes)).flatten)) t) s)

end Sys2Proof.Machine
end

