-- ==== Sys2Proof/Machine/Float.lean ====
section
/-! DEFINITION. IEEE 754 arithmetic as the units use it: binary16, binary32 and binary64, every operation rounding to
nearest, ties to even (R61, R91). Values are exact between operations. -/

namespace Sys2Proof.Machine

/-- A binary interchange format: exponent bits and fraction bits. -/
structure Fmt where
  eb : Nat
  mb : Nat
deriving DecidableEq, Repr

def f16 : Fmt := { eb := 5, mb := 10 }
def f32 : Fmt := { eb := 8, mb := 23 }
def f64 : Fmt := { eb := 11, mb := 52 }

/-- Exponent of the least significant bit of a subnormal. -/
def Fmt.emin (f : Fmt) : Int := 2 - 2 ^ (f.eb - 1) - f.mb

/-- A value: a NaN, an infinity, or sign and magnitude m · 2^e. -/
inductive FV where
  | nan
  | inf (neg : Bool)
  | fin (neg : Bool) (m : Nat) (e : Int)
deriving DecidableEq, Repr

/-- The value that the bits of a format spell. -/
def fdec (f : Fmt) (b : Nat) : FV :=
  let neg := bit b (f.eb + f.mb)
  let e := bits b (f.eb + f.mb - 1) f.mb
  let m := b % 2 ^ f.mb
  if e = 2 ^ f.eb - 1 then (if m = 0 then .inf neg else .nan)
  else if e = 0 then .fin neg m f.emin
  else .fin neg (m + 2 ^ f.mb) (f.emin + (e : Int) - 1)

/-- Bits in a number. -/
def bitLen (n : Nat) : Nat := if n = 0 then 0 else Nat.log2 n + 1

/-- `m` shifted right by `d` and rounded to nearest, ties to even; `sticky` says that the value lies a little above. -/
def rneShift (m d : Nat) (sticky : Bool) : Nat :=
  if d = 0 then m
  else
    let q := m / 2 ^ d
    let r := m % 2 ^ d
    let half := 2 ^ (d - 1)
    if half < r || (r == half && (sticky || q % 2 == 1)) then q + 1 else q

/-- The value (m + sticky) · 2^e rounded to a format. With `sticky`, `m` has at least two bits more than the format. -/
def fround (f : Fmt) (neg : Bool) (m : Nat) (e : Int) (sticky : Bool) : FV :=
  if m = 0 then .fin neg 0 f.emin
  else
    let q := max (e + bitLen m - (f.mb + 1)) f.emin
    let m1 := if q ≤ e then m * 2 ^ (e - q).toNat else rneShift m (q - e).toNat sticky
    let m2 := if m1 = 2 ^ (f.mb + 1) then 2 ^ f.mb else m1
    let q2 := if m1 = 2 ^ (f.mb + 1) then q + 1 else q
    if (2 : Int) ^ f.eb - 1 ≤ q2 - f.emin + 1 ∧ 2 ^ f.mb ≤ m2 then .inf neg else .fin neg m2 q2

/-- The bits of a value of the format; a NaN is the quiet NaN with an empty payload. -/
def fenc (f : Fmt) : FV → Nat
  | .nan => (2 ^ f.eb - 1) * 2 ^ f.mb + 2 ^ (f.mb - 1)
  | .inf neg => b2n neg * 2 ^ (f.eb + f.mb) + (2 ^ f.eb - 1) * 2 ^ f.mb
  | .fin neg m e =>
    if m < 2 ^ f.mb then b2n neg * 2 ^ (f.eb + f.mb) + m
    else b2n neg * 2 ^ (f.eb + f.mb) + (e - f.emin + 1).toNat * 2 ^ f.mb + (m - 2 ^ f.mb)

/-- Zero. -/
def fzero (f : Fmt) : FV := .fin false 0 f.emin

/-- A signed integer rounded to a format. -/
def fofInt (f : Fmt) (n : Int) : FV := fround f (decide (n < 0)) n.natAbs 0 false

/-- Negation. -/
def fneg : FV → FV
  | .nan => .nan
  | .inf n => .inf (!n)
  | .fin n m e => .fin (!n) m e

/-- Magnitude. -/
def fabs : FV → FV
  | .nan => .nan
  | .inf _ => .inf false
  | .fin _ m e => .fin false m e

/-- The signed integer of a finite value in units of 2^e. -/
def fint (neg : Bool) (m : Nat) (e u : Int) : Int :=
  let v : Int := (m * 2 ^ (e - u).toNat : Nat)
  if neg then -v else v

/-- Sum, rounded. -/
def fadd (f : Fmt) : FV → FV → FV
  | .nan, _ => .nan
  | _, .nan => .nan
  | .inf a, .inf b => if a = b then .inf a else .nan
  | .inf a, _ => .inf a
  | _, .inf b => .inf b
  | .fin na ma ea, .fin nb mb eb =>
    let u := min ea eb
    let v := fint na ma ea u + fint nb mb eb u
    if v = 0 then .fin (na && nb) 0 f.emin else fround f (decide (v < 0)) v.natAbs u false

/-- Difference, rounded. -/
def fsub (f : Fmt) (a b : FV) : FV := fadd f a (fneg b)

/-- Product, rounded. -/
def fmul (f : Fmt) : FV → FV → FV
  | .nan, _ => .nan
  | _, .nan => .nan
  | .inf a, .inf b => .inf (a != b)
  | .inf a, .fin nb mb _ => if mb = 0 then .nan else .inf (a != nb)
  | .fin na ma _, .inf b => if ma = 0 then .nan else .inf (na != b)
  | .fin na ma ea, .fin nb mb eb => fround f (na != nb) (ma * mb) (ea + eb) false

/-- a · b + c with one rounding. -/
def ffma (f : Fmt) (a b c : FV) : FV :=
  match a, b, c with
  | .fin na ma ea, .fin nb mb eb, .fin nc mc ec =>
    let u := min (ea + eb) ec
    let v := fint (na != nb) (ma * mb) (ea + eb) u + fint nc mc ec u
    if v = 0 then .fin ((na != nb) && nc) 0 f.emin else fround f (decide (v < 0)) v.natAbs u false
  | _, _, .nan => .nan
  | .nan, _, _ => .nan
  | _, .nan, _ => .nan
  | _, _, _ => fadd f (fmul f a b) c

/-- Quotient, rounded. -/
def fdiv (f : Fmt) : FV → FV → FV
  | .nan, _ => .nan
  | _, .nan => .nan
  | .inf _, .inf _ => .nan
  | .inf a, .fin nb _ _ => .inf (a != nb)
  | .fin na _ _, .inf b => .fin (na != b) 0 f.emin
  | .fin na ma ea, .fin nb mb eb =>
    if mb = 0 then (if ma = 0 then .nan else .inf (na != nb))
    else
      let k := f.mb + 4 + bitLen mb
      fround f (na != nb) (ma * 2 ^ k / mb) (ea - eb - k) (ma * 2 ^ k % mb != 0)

/-- The integer square root, bit by bit from 2^(n-1) down: the largest `r + k` whose square is at most `x`, for `k` below 2^n. -/
def isqrtGo (x : Nat) : Nat → Nat → Nat
  | 0, r => r
  | n + 1, r => if (r + 2 ^ n) * (r + 2 ^ n) ≤ x then isqrtGo x n (r + 2 ^ n) else isqrtGo x n r

/-- The integer square root. -/
def isqrt (x : Nat) : Nat := isqrtGo x (Nat.log2 x / 2 + 1) 0

/-- Square root, rounded; the root of a negative value is a NaN. -/
def fsqrt (f : Fmt) : FV → FV
  | .nan => .nan
  | .inf n => if n then .nan else .inf false
  | .fin n m e =>
    if m = 0 then .fin n 0 f.emin
    else if n then .nan
    else
      let k := 2 * (f.mb + 4)
      let odd := e % 2
      let x := m * 2 ^ (k + odd.toNat)
      let r := isqrt x
      fround f false r ((e - odd - k) / 2) (r * r != x)

/-- A value converted to a format. -/
def fcvt (f : Fmt) : FV → FV
  | .nan => .nan
  | .inf n => .inf n
  | .fin n m e => fround f n m e false

/-- Compare two finite or infinite values: -1, 0 or 1; a NaN compares as 0 and is tested before. -/
def fcmp : FV → FV → Int
  | .nan, _ => 0
  | _, .nan => 0
  | .inf a, .inf b => if a = b then 0 else if a then -1 else 1
  | .inf a, _ => if a then -1 else 1
  | _, .inf b => if b then 1 else -1
  | .fin na ma ea, .fin nb mb eb =>
    let u := min ea eb
    let d := fint na ma ea u - fint nb mb eb u
    if d < 0 then -1 else if d = 0 then 0 else 1

/-- A value is a NaN. -/
def FV.isNan : FV → Bool
  | .nan => true
  | _ => false

/-- A value is finite. -/
def FV.isFin : FV → Bool
  | .fin _ _ _ => true
  | _ => false

/-- a < b, false where either is a NaN. -/
def flt (a b : FV) : Bool := !a.isNan && !b.isNan && fcmp a b == -1

/-- The larger of two values, as the comparison orders them. -/
def fmax (a b : FV) : FV := if flt a b then b else a

/-- The smaller of two values. -/
def fmin (a b : FV) : FV := if flt b a then b else a

/-- Floor of a finite value. -/
def ffloor (neg : Bool) (m : Nat) (e : Int) : Int :=
  if 0 ≤ e then fint neg m e 0
  else
    let d := 2 ^ (-e).toNat
    if neg then -((ceilDiv m d : Nat) : Int) else ((m / d : Nat) : Int)

/-- A finite value times 2^k rounded to the nearest integer, ties away from zero. -/
def fnearAway (neg : Bool) (m : Nat) (e : Int) (k : Int) : Int :=
  let e2 := e + k
  let a : Nat := if 0 ≤ e2 then m * 2 ^ e2.toNat else (2 * m + 2 ^ (-e2).toNat) / (2 * 2 ^ (-e2).toNat)
  if neg then -(a : Int) else (a : Int)

end Sys2Proof.Machine
end

