-- ==== Sys2Proof/Machine/Frac.lean ====
section
/-! DEFINITION. Exact fractions, and what R61 takes of a list of values: each result is the exact value rounded once to binary64, since the
spec gives no order of the operations inside line_fit, mad, var and the factorisation (DESIGN CHOICE, log entry 35). -/

namespace Sys2Proof.Machine

/-- A fraction n ÷ d, d above 0. -/
structure Frac where
  n : Int
  d : Nat
deriving DecidableEq, Repr

/-- A whole number. -/
def Frac.ofInt (n : Int) : Frac := { n := n, d := 1 }

def Frac.add (a b : Frac) : Frac := { n := a.n * b.d + b.n * a.d, d := a.d * b.d }

def Frac.neg (a : Frac) : Frac := { a with n := -a.n }

def Frac.sub (a b : Frac) : Frac := a.add b.neg

def Frac.mul (a b : Frac) : Frac := { n := a.n * b.n, d := a.d * b.d }

/-- Quotient; 0 for a divisor of 0, which no caller has. -/
def Frac.div (a b : Frac) : Frac :=
  if b.n = 0 then Frac.ofInt 0 else { n := a.n * b.d * (if b.n < 0 then -1 else 1), d := a.d * b.n.natAbs }

def Frac.abs (a : Frac) : Frac := { a with n := a.n.natAbs }

def Frac.le (a b : Frac) : Bool := decide (a.n * b.d ≤ b.n * a.d)

/-- Sum of a list. -/
def Frac.sum (l : List Frac) : Frac := l.foldl Frac.add (Frac.ofInt 0)

/-- The value of binary64 bits; 0 for an infinity or a NaN. -/
def Frac.of64 (b : Nat) : Frac :=
  match fdec f64 b with
  | .fin neg m e =>
    let v : Int := if neg then -(m : Int) else m
    if 0 ≤ e then { n := v * 2 ^ e.toNat, d := 1 } else { n := v, d := 2 ^ (-e).toNat }
  | _ => Frac.ofInt 0

/-- The binary64 number nearest to a fraction, ties to even. -/
def Frac.to64 (a : Frac) : Nat :=
  let k := f64.mb + 4 + bitLen a.d
  let m := a.n.natAbs * 2 ^ k
  fenc f64 (fround f64 (decide (a.n < 0)) (m / a.d) (-(k : Int)) (m % a.d != 0))

/-- Arithmetic mean; 0 of no values. -/
def Frac.mean (l : List Frac) : Frac := (Frac.sum l).div (Frac.ofInt l.length)

/-- Median: the middle value, or the mean of the two in the middle. -/
def Frac.median (l : List Frac) : Frac :=
  let s := sortLe Frac.le l
  let m := s.length / 2
  let z := Frac.ofInt 0
  if s.length % 2 = 1 then s.getD m z else ((s.getD (m - 1) z).add (s.getD m z)).div (Frac.ofInt 2)

/-- `line_fit` of R61 over pairs (h, t) as binary64 bits: the intercept c and the slope s of the least-squares line h = c + s·t, and the
residual of each pair. Pairs of one single t have slope 0 (log entry 35). -/
def lineFit (l : List (Nat × Nat)) : Nat × Nat × List Nat :=
  let p := l.map fun e => (Frac.of64 e.1, Frac.of64 e.2)
  let n := Frac.ofInt l.length
  let h := Frac.sum (p.map (·.1))
  let t := Frac.sum (p.map (·.2))
  let tt := Frac.sum (p.map fun e => e.2.mul e.2)
  let th := Frac.sum (p.map fun e => e.2.mul e.1)
  let s := ((n.mul th).sub (t.mul h)).div ((n.mul tt).sub (t.mul t))
  let c := (h.sub (s.mul t)).div n
  (c.to64, s.to64, p.map fun e => (e.1.sub (c.add (s.mul e.2))).to64)

/-- `mad` of R61: the median of the absolute deviations from the median (PRESUMED, log entry 35). -/
def mad (l : List Nat) : Nat :=
  let v := l.map Frac.of64
  let m := Frac.median v
  (Frac.median (v.map fun x => (x.sub m).abs)).to64

/-- `var` of R61: the mean of the squared deviations from the mean (PRESUMED, log entry 35). -/
def variance (l : List Nat) : Nat :=
  let v := l.map Frac.of64
  let m := Frac.mean v
  (Frac.mean (v.map fun x => (x.sub m).mul (x.sub m))).to64

/-- Root mean square of residuals (RESID, Table 2.8). -/
def rootMeanSquare (l : List Nat) : Nat :=
  fenc f64 (fsqrt f64 (fdec f64 (Frac.mean (l.map fun x => (Frac.of64 x).mul (Frac.of64 x))).to64))

/-- The solution of a linear system, unknown by unknown: a row that holds the first unknown is taken out and gives it from the others.
An unknown that no row holds is 0. -/
def solveRows : Nat → List (List Frac × Frac) → List Frac
  | 0, _ => []
  | n + 1, rows =>
    let z := Frac.ofInt 0
    match rows.find? fun r => (r.1.headD z).n != 0 with
    | none => z :: solveRows n (rows.map fun r => (r.1.drop 1, r.2))
    | some p =>
      let a := p.1.headD z
      let tail := p.1.drop 1
      let rest := (rows.erase p).map fun r =>
        let q := (r.1.headD z).div a
        ((r.1.drop 1 |>.zip tail).map fun e => e.1.sub (q.mul e.2), r.2.sub (q.mul p.2))
      let xs := solveRows n rest
      ((p.2.sub (Frac.sum ((tail.zip xs).map fun e => e.1.mul e.2))).div a) :: xs

/-- The graph solve of R61 for a matrix by rows and a right side in binary64 bits: the values by position. -/
def solve64 (rows : List (List Nat)) (side : List Nat) : List Nat :=
  (solveRows rows.length ((rows.map fun r => r.map Frac.of64).zip (side.map Frac.of64))).map Frac.to64

end Sys2Proof.Machine
end

