-- ==== Sys2Proof/Machine/Time.lean ====
section
/-! DEFINITION. Invar and Fantail (spec/02): the AO cycle, 1588 discipline, port stamps, received epochs, correction. -/

namespace Sys2Proof.Machine

/-! ### The AO cycle (R39) -/

/-- The servo limit of ADJ: ±200 ppm (R39). -/
def adjLimit : Int := 27487790

/-- One AO cycle of the time bases: 419,430 units in each of the first four cycles of a group, 419,432 and ADJ in the fifth (R39). TB0 of
the two edges before is kept for the discrete inputs (R94). A new ADJ, and the switch back to a reference clock that has returned (R72),
take effect at the group boundary. -/
def TimeUnit.cycle (u : TimeUnit) : TimeUnit :=
  let v := { u with tb0p1 := u.tb0, tb0p2 := u.tb0p1, tb1p1 := u.tb1, monCycles := u.monCycles + 1 }
  if u.phase = 4 then
    { v with tb0 := u.tb0 + BitVec.ofNat 96 (419432 * 2 ^ 16) + BitVec.signExtend 96 u.adj,
             tb1 := u.tb1 + 419432, phase := 0, adj := u.adjNext.getD u.adj, adjNext := none,
             refclk := u.refclk || u.refReturn.isSome, refReturn := none }
  else
    { v with tb0 := u.tb0 + BitVec.ofNat 96 (419430 * 2 ^ 16), tb1 := u.tb1 + 419430, phase := u.phase + 1 }

/-- TB3 in an AO cycle: Assay's own oscillator moves it by a free amount (R41, log entry 4). -/
def State.tb3Tick (s : State) : State :=
  if s.metro.up then
    State.tickFree (s.modMetro fun u => { u with tb3 := u.tb3 + Config.tb3Advance s.time.freeCount })
  else s

/-- What an AO cycle in which no command comes does: the time bases advance while AO is out of reset, TB3 while METRO has
power (log entry 4). The events of the cycle before are no longer new (R12). -/
def State.aoTick (s : State) : State :=
  ((if s.aoUp then s.modTime TimeUnit.cycle else s).modCmd fun u => { u with fresh := [], tailWas := [] }).tb3Tick

/-! ### Grids on TB0 (R83, R84) -/

/-- The last boundary of the grid at or before an instant (R83, R84). -/
def gridAt (p t : Nat) : Nat := if p = 0 then t else t / p * p

/-- W_c in nanoseconds: a new one holds from the next boundary of the old one (R58, R83). -/
def State.wcNs (s : State) : Nat :=
  match s.time.wcNext with
  | some n => if n.2 ≤ s.tb0Ns then n.1 * 1000000 else s.time.cfg.wcMs * 1000000
  | none => s.time.cfg.wcMs * 1000000

/-- W_c once a pending one has taken effect. -/
def State.wcSoon (s : State) : Nat :=
  match s.time.wcNext with | some n => n.1 * 1000000 | none => s.time.cfg.wcMs * 1000000

/-! ### Lock state (R45, R46) -/

/-- A lock state transition: counted runs start again, INT_STATUS LOCK sets, and an epoch record is due on every outgoing
stream (R45). -/
def State.setLock (l : Lock) (s : State) : State :=
  if s.time.lock = l then s
  else ((s.modTime fun u => { u with lock := l, inLock := 0, outLock := 0 }).intSet 6).epochEverywhere

/-- TB0 in units of 2^-16 ns. -/
def State.tb0Frac (s : State) : Nat := s.time.tb0.toNat / 2 ^ 16

/-- A TB0 step of a block, from TB0 nanoseconds `t` on in its new count; the latest 256 are kept (R60). -/
def State.seenStep (a : Laddr) (t : Nat) (s : State) : State :=
  s.modTime fun u => { u with stepLog := (u.stepLog ++ [(a.toNat, t)]).drop (u.stepLog.length + 1 - 256) }

/-- TB0 steps by the whole offset, at this AO cycle boundary; the step count rises and an epoch record is due (R46, R54).
`off` is TB0 minus the time of the source, in 2^-16 ns. -/
def State.stepTb0 (off : Int) (s : State) : State :=
  let s1 := s.modTime fun u => { u with tb0 := u.tb0 - BitVec.ofInt 96 (off * 2 ^ 16), steps := u.steps + 1 }
  ((s1.seenStep s.sys.laddr s1.tb0Ns).bump cTb0Step).epochEverywhere

/-- The servo's answer to an offset: a free ADJ within the limit, taken at the next group (R39, R46). -/
def State.servo (s : State) : State :=
  (s.modTime fun u =>
    { u with adjNext := some (BitVec.ofInt 32 (clampInt adjLimit (Config.servoAdj u.freeCount))) }).tickFree

/-- The judgement of an offset in LOCKED and ACQUIRE (Table 2.4): within ±50 ns on 16 Syncs, beyond ±200 ns on 4. -/
def State.judge (off : Int) (s : State) : State :=
  match s.time.lock with
  | .acquire =>
    if off.natAbs ≤ 50 * 2 ^ 16 then
      if 15 ≤ s.time.inLock then s.setLock .locked else s.modTime fun u => { u with inLock := u.inLock + 1 }
    else s.modTime fun u => { u with inLock := 0 }
  | .locked =>
    if 200 * 2 ^ 16 < off.natAbs then
      if 3 ≤ s.time.outLock then s.setLock .acquire else s.modTime fun u => { u with outLock := u.outLock + 1 }
    else s.modTime fun u => { u with outLock := 0 }
  | _ => s

/-- An offset measured: FREE goes to ACQUIRE; in FREE and ACQUIRE an offset beyond 1,000 ns steps TB0, any other offset
drives the servo; then the judgement of Table 2.4. -/
def State.applyOffset (off : Int) (s : State) : State :=
  let s1 := if s.time.lock = .free then s.setLock .acquire else s
  if 1000 * 2 ^ 16 < off.natAbs ∧ s.time.lock ≠ .locked ∧ s.time.lock ≠ .holdover then
    (s1.stepTb0 off).modTime fun u => { u with inLock := 0, msDiff := none }
  else s1.servo.judge off

/-- PTP time of a timestamp less the fabric origin, in 2^-16 ns (Table 2.2, Timescale). -/
def State.ptp (s : State) (ts : BitVec 80) : Int :=
  let ns := fun (x : BitVec 80) => (x.toNat / 2 ^ 32 * 1000000000 + x.toNat % 2 ^ 32 : Nat)
  ((ns ts : Int) - (ns s.time.cfg.origin : Int)) * 2 ^ 16

/-- The transport and edition of Table 2.2: EtherType 0x88F7, versionPTP 2, minorVersionPTP 0 or 1. -/
def ptpFormat (m : Ptp) : Bool := m.etherType == 0x88F7 && m.version == 2 && decide (m.minor.toNat ≤ 1)

/-- A 1588 message from the configured source and domain while AO runs from the reference clock (R43, R72, R483). -/
def State.ptpOk (s : State) (m : Ptp) : Bool :=
  s.time.refclk && ptpFormat m && s.time.cfg.clkId != 0 && m.clkId == s.time.cfg.clkId && m.domain == s.time.cfg.domain

/-- A discarded 1588 message is counted in PTP_DISCARD (R43). -/
def State.ptpDiscard (s : State) : State := s.bump cPtpDiscard

/-- The time of a Sync is known: `d` is receive time less send time in 2^-16 ns. -/
def State.syncMeasured (d : Int) (s : State) : State :=
  let s1 := s.modTime fun u => { u with msDiff := some d }
  match s1.time.delayNs with
  | some delay => s1.applyOffset (d - delay)
  | none => s1

/-- A Sync is accepted: the 3 s timeout starts again, HOLDOVER goes to ACQUIRE, a Delay_Req is due (R45, Table 2.2). -/
def State.syncAccepted (s : State) : State :=
  let s1 := s.modTime fun u => { u with lastSync := some s.tb1Ns, syncSrc := s.time.cfg.clkId, reqDue := true }
  if s1.time.lock = .holdover then s1.setLock .acquire else s1

/-- SYNC_RECEIVED (R43, R45, R46). A one-step Sync carries its send time, a two-step one waits for its Follow_Up. -/
def execSyncReceived (m : Ptp) (s : State) : Host.Outcome State Fault Refusal :=
  if !s.portUp .time then .next s
  else if s.ptpOk m && decide (-7 ≤ m.interval) && decide (m.interval ≤ 0) then
    let t2 : Int := (s.tb0Frac : Int) - m.corr
    let s1 := s.syncAccepted
    if m.twoStep then .next (s1.modTime fun u => { u with syncTwoStep := some m.seq, syncT2 := t2 })
    else .next ((s1.modTime fun u => { u with syncTwoStep := none }).syncMeasured (t2 - s.ptp m.ts))
  else .next s.ptpDiscard

/-- FOLLOW_UP_RECEIVED (R43): the send time of the two-step Sync of its sequence number, or a discarded message. -/
def execFollowUpReceived (m : Ptp) (s : State) : Host.Outcome State Fault Refusal :=
  if !s.portUp .time then .next s
  else if s.ptpOk m && s.time.syncTwoStep == some m.seq then
    .next ((s.modTime fun u => { u with syncTwoStep := none }).syncMeasured (s.time.syncT2 - (s.ptp m.ts + m.corr)))
  else .next s.ptpDiscard

/-- DELAY_RESP_RECEIVED (R43, R45, R46): the mean of both directions is the delay; with a Sync accepted the offset is
measured anew. DESIGN CHOICE (log entry 81): the spec does not say which Delay_Resp answers the outstanding Delay_Req: any one from the
source does, whatever its sequence number and requester, and one that comes with none outstanding is discarded and counted. -/
def execDelayRespReceived (m : Ptp) (s : State) : Host.Outcome State Fault Refusal :=
  if !s.portUp .time then .next s
  else if s.ptpOk m then
    match s.time.delayReqAt, s.time.msDiff with
    | some t3, some d =>
      let delay := (d + (s.ptp m.ts - m.corr - t3)) / 2
      let s1 := s.modTime fun u => { u with delayNs := some delay, delayReqAt := none }
      .next (if s.time.lock = .free then s1.applyOffset (d - delay) else s1)
    | _, _ => .next s.ptpDiscard
  else .next s.ptpDiscard

/-- ANNOUNCE_RECEIVED (R43): checked against the configured source and domain, else discarded and counted. -/
def execAnnounceReceived (m : Ptp) (s : State) : Host.Outcome State Fault Refusal :=
  if !s.portUp .time then .next s else if s.ptpOk m then .next s else .next s.ptpDiscard

/-- OTHER_1588_MESSAGE (R43): discarded and counted. -/
def execOther1588Message (s : State) : Host.Outcome State Fault Refusal :=
  if s.portUp .time then .next s.ptpDiscard else .next s

/-- The nanoseconds of a signed log2 interval in seconds. -/
def log2Secs (v : BitVec 8) : Nat :=
  let n := v.toInt
  if 0 ≤ n then 1000000000 * 2 ^ n.toNat else 1000000000 / 2 ^ (-n).toNat

/-- The conditions under which Delay_Req is sent (Table 2.2). -/
def State.mayDelayReq (s : State) : Bool :=
  s.portUp .time && s.time.refclk && s.time.cfg.clkId != 0 && s.time.syncSrc == s.time.cfg.clkId
    && (match s.time.lastSync with | some t => decide (s.tb1Ns < t + 3000000000) | none => false)
    && (if s.time.cfg.drq == 0x7F then s.time.reqDue else decide (s.time.drqLast + log2Secs s.time.cfg.drq ≤ s.tb1Ns))

/-- DELAY_REQ (R43, R44): sent per Sync or at the configured interval while Table 2.2 allows, stamped as it leaves. -/
def execDelayReq (s : State) : Host.Outcome State Fault Refusal :=
  if s.mayDelayReq then
    .next ((s.modTime fun u => { u with delayReqAt := some (s.tb0Frac : Int), reqDue := false, drqLast := s.tb1Ns }).emit
      .delayReq)
  else .next s

/-- SYNC_TIMEOUT (R45): no Sync accepted for 3 s moves ACQUIRE to FREE and LOCKED to HOLDOVER. DESIGN CHOICE (log entry 81): the delay
measured before stays complete, so that the next Sync alone moves FREE to ACQUIRE. -/
def execSyncTimeout (s : State) : Host.Outcome State Fault Refusal :=
  match s.time.lastSync with
  | some t =>
    if s.aoUp ∧ t + 3000000000 ≤ s.tb1Ns then
      match s.time.lock with
      | .acquire => .next (s.setLock .free)
      | .locked => .next (s.setLock .holdover)
      | _ => .next s
    else .next s
  | none => .next s

/-- REFCLK_LOSS (R72): AO goes to its internal oscillator, TB0 to FREE, epoch records are due, the loss is counted. An ADJ that waits
for its group is dropped: ADJ does not change until the switch back. -/
def execRefclkLoss (s : State) : Host.Outcome State Fault Refusal :=
  if s.aoUp && s.time.refclk then
    let s1 := s.modTime fun u =>
      { u with refclk := false, refReturn := none, adjNext := none, lastSync := none, delayNs := none, delayReqAt := none, msDiff := none,
               syncTwoStep := none, reqDue := false }
    let s2 := if s.time.lock = .free then s1.epochEverywhere else s1.setLock .free
    .next (s2.bump cRefclkLoss)
  else .next s

/-- REFCLK_RETURN (R72): the reference has been stable for 1 ms; AO switches back at the next group boundary. -/
def execRefclkReturn (s : State) : Host.Outcome State Fault Refusal :=
  if s.aoUp && !s.time.refclk then
    if s.time.phase = 0 then .next (s.modTime fun u => { u with refclk := true, refReturn := none })
    else .next (s.modTime fun u => { u with refReturn := some s.tb1Ns })
  else .next s

/-! ### Port stamp units (R49 to R53, R73) -/

/-- A stamped port at AO reset. -/
def stampPortReset : StampPort := { egress := 0, ingress := 0, fseq := 0, keptAt := none, holdTx := 0, holdRx := 0 }

/-- A stamped port. -/
def State.stampPort (s : State) (p : Nat) : StampPort := tgetD s.time.ports p stampPortReset

/-- Change a stamped port. -/
def State.modPort (p : Nat) (f : StampPort → StampPort) (s : State) : State :=
  s.modTime fun u => { u with ports := tput u.ports p (f (tgetD u.ports p stampPortReset)) }

/-- A port stamp in 0.25 ns: TB0 and the phase within the AO cycle, truncated, plus the calibration latency (R49). `phase`
is in 2^-32 ns. DESIGN CHOICE (log entry 81): a stamp that a negative latency would take below 0 is 0, where the spec is silent. -/
def State.stampQ (s : State) (phase : Nat) (lat : BitVec 16) : Nat :=
  ((((s.time.tb0.toNat + phase) / 2 ^ 30 : Nat) : Int) + lat.toInt).toNat

/-- INSERTION_SLOT (R51, Table 2.5). -/
def execInsertionSlot (port : Fin 64) (phase : Nat) (early : Bool) (s : State) : Host.Outcome State Fault Refusal :=
  if !s.portUp .stamp then .next s
  else
    let p := s.stampPort port.val
    let s1 := if 0 < p.holdTx then s.modPort port.val fun x => { x with holdTx := x.holdTx - 1 } else s
    if early then .next ((s1.bump cSlotLate).emit (.slotFill port.val 0xFFFFFFFFFFFFFFFF))
    else
      let q := s.stampQ phase p.egress
      let v := 1 * 2 ^ 62 + port.val * 2 ^ 56 + p.fseq.toNat * 2 ^ 40 + lockCode s.time.lock * 2 ^ 34
        + q % 2 ^ 34
      .next ((s1.modPort port.val fun x => { x with fseq := x.fseq + 1 }).emit (.slotFill port.val (BitVec.ofNat 64 v)))

/-- The 16 bytes of a stamp pair entry (Table 2.6). -/
def pairBytes (e : StampPair) : List Byte :=
  be 16 (e.peer.toNat * 2 ^ 110 + e.lport.toNat * 2 ^ 104 + e.pport.toNat * 2 ^ 98 + e.fseq.toNat * 2 ^ 82
    + e.txLock.toNat * 2 ^ 80 + e.rxLock.toNat * 2 ^ 78 + e.tx % 2 ^ 34 * 2 ^ 34 + e.rx % 2 ^ 34)

/-- A block that runs a Fantail solve (Table 2.7). -/
def State.solver (s : State) : Bool := s.isMaster || s.isSpine

/-- A wire stamp extended with the most recent epoch record E (R55). -/
def extendWith (e w : Nat) : Int :=
  let d : Nat := (w + 2 ^ 32 - e % 2 ^ 32) % 2 ^ 32
  if 2000000000 ≤ d then (e : Int) + (d : Int) - 4294967296 else (e : Int) + (d : Int)

/-- Key of a (SRC, CLASS) pair. -/
def srcKey (src : Laddr) (cls : Nat) : Nat := src.toNat * 4 + cls

/-- The epoch record of a source and stream against which stamps may be extended: not 2 s old at the receiver's TB0 (R56). -/
def State.liveEpoch (s : State) (src : Laddr) (cls : Nat) : Option Nat :=
  (tget s.time.epochs (srcKey src cls)).bind fun e => if s.tb0Ns < e.e + 2000000000 then some e.e else none

/-- The full TB0 nanoseconds of a received record's wire stamp, where the extension is valid (R55, R56). -/
def State.extend (s : State) (src : Laddr) (cls : Nat) (w : Nat) : Option Nat :=
  (s.liveEpoch src cls).bind fun e => if 0 ≤ extendWith e w then some (extendWith e w).toNat else none

/-- A stamp of 34 bits (nanoseconds, quarter nanoseconds) extended against an epoch, in 0.25 ns. -/
def extendQ (e q : Nat) : Nat := (extendWith e (q / 4)).toNat * 4 + q % 4

/-- The node of a solve that a block belongs to (R63): at a spine-role block the child, of the trees' active children, at or above it, as
a tray is one rigid node; elsewhere the block itself. -/
def State.nodeOf (s : State) (a : Laddr) : Laddr :=
  if s.isSpine then
    match (s.crown.trees.map fun e => e.2.children.filter (·.active)).flatten.find? fun c =>
      c.addr == a || c.gcs.any fun g => g.1 == a with
    | some c => c.addr
    | none => a
  else a

/-- Nodes that a solve runs over, in ascending logical address (Table 2.7, R61, R66): the die-role blocks of a tray, an acting master
among them; else this block and the trays and spine-role blocks below it. -/
def State.solveNodes (s : State) : List Nat :=
  sortNat ((if s.isMaster then
      (if s.isDie then [s.sys.laddr.toNat] else []) ++ s.sys.members.map fun m => m.addr.toNat
    else s.sys.laddr.toNat :: s.treeKids.map fun a => a.toNat).eraseDups)

/-- Both ends of a pair are nodes of the solve here. -/
def State.inSolve (s : State) (p : StampPair) : Bool :=
  s.solveNodes.contains (s.nodeOf p.rxBlk).toNat && s.solveNodes.contains (s.nodeOf p.peer).toNat

/-- The epoch record that extends a stamp of a block: this block's own TB0 for its own, else that of the block, or of the rigid node it
belongs to, on stream 1 (R55, R56, R63). -/
def State.stampEpoch (s : State) (a : Laddr) : Option Nat :=
  if a = s.sys.laddr then some s.tb0Ns else (s.liveEpoch a 1).or (s.liveEpoch (s.nodeOf a) 1)

/-- A pair with its RX stamp extended and its TX stamp as the slot has it goes into the pair store, its TX extended, or, with an end
outside the solve here, waits for its conversion on the way to the fleet solve (R63). One whose TX cannot be extended is not used
(R56). -/
def State.takePair (p : StampPair) (s : State) : State :=
  if s.inSolve p then
    match s.stampEpoch p.peer with
    | some e => s.modTime fun u => { u with pairs := u.pairs ++ [{ p with tx := extendQ e p.tx }] }
    | none => s
  else if s.isMaster || s.time.cfg.troot != some s.sys.laddr then s.modTime fun u => { u with away := u.away ++ [p] }
  else s

/-- The entry of a kept pair, TX as the slot has it. -/
def State.ownPair (s : State) (port : Nat) (slot : Dword) (peer : Laddr) (rx : Nat) : StampPair :=
  let v := slot.toNat
  { rxBlk := s.sys.laddr, peer := peer, lport := BitVec.ofNat 6 port, pport := BitVec.ofNat 6 (bits v 61 56),
    fseq := BitVec.ofNat 16 (bits v 55 40), txLock := BitVec.ofNat 2 (bits v 35 34),
    rxLock := BitVec.ofNat 2 (lockCode s.time.lock), tx := bits v 33 0, rx := rx }

/-- A kept pair goes to the stamp exchange: to the solve of a solver, else as a STAMP_PAIRS record of one
entry to the master (R53, R161, log entry 15). -/
def State.keepPair (e : StampPair) (s : State) : State :=
  if s.solver then s.takePair e
  else s.send { dst := .up, cls := 1, typ := tStampPairs, unit := uInvar, flags := 0, stamp := none,
                body := be 2 1 ++ zeros 14 ++ pairBytes e }

/-- STAMP_PAIR (R53, R73): the first pair after each interval boundary is kept, the others are discarded uncounted. -/
def execStampPair (port : Fin 64) (slot : Dword) (peer : Laddr) (phase : Nat) (s : State) :
    Host.Outcome State Fault Refusal :=
  if !s.portUp .stamp then .next s
  else
    let p := s.stampPort port.val
    if 0 < p.holdRx ∨ 0 < p.holdTx then .next (s.modPort port.val fun x => { x with holdRx := x.holdRx - 1 })
    else if bits slot.toNat 63 62 ≠ 1 then .next s
    else if s.pow.pstate ≠ .run then .next s
    else
      let k := gridAt (s.time.cfg.pairIv * 16000) s.tb0Ns
      if (match p.keptAt with | some j => decide (j < k) | none => true) then
        .next ((s.modPort port.val fun x => { x with keptAt := some k }).keepPair
          (s.ownPair port.val slot peer (s.stampQ phase p.ingress)))
      else .next s

/-- PORT_CLOCK_STOP (R73): no pairs until 16 frames have passed in each direction. -/
def execPortClockStop (port : Fin 64) (s : State) : Host.Outcome State Fault Refusal :=
  if s.portUp .stamp then .next (s.modPort port.val fun x => { x with holdTx := 16, holdRx := 16 }) else .next s

/-- LINK_ERROR_PULSE (R470): counted in FAB_PORT_ERR of its port. -/
def execLinkErrorPulse (port : Fin 64) (s : State) : Host.Outcome State Fault Refusal :=
  if s.portUp .stamp then .next (s.bump (0x80 + port.val)) else .next s

/-! ### Corrected time (R58 to R68) -/

/-- The correction of a node in a table, in 2^-41 ns, at a live stamp L in nanoseconds (R68): OFFSET · 2^-8 +
DRIFT · 2^-40 · (L - t_m), with t_m the window midpoint. -/
def CorrTable.at (t : CorrTable) (node L : Nat) : Option Int :=
  match tget t.entries node with
  | some e =>
    if e.qual = .unaligned then none
    else some (e.offset * 2 ^ 33 + e.drift * (2 * (L : Int) - 2 * (t.wstart : Int) - (t.wc : Int)))
  | none => none

/-- The table whose window contains L; a stamp at a boundary belongs to the later window (R68). -/
def tableFor (l : List CorrTable) (L : Nat) : Option CorrTable :=
  l.find? fun t => decide (t.wstart ≤ L) && decide (L < t.wstart + t.wc)

/-- An offset within the range of OFFSET, ±8,388,608 ns in steps of 2^-8 ns (R67). -/
def offsetOk (v : Int) : Bool := decide (-2 ^ 31 ≤ v) && decide (v < 2 ^ 31)

/-- A node held for `k` more windows: last offset and drift, extrapolated along the drift over W_c; UNALIGNED after 10 windows, or where
the offset is out of range (R64, Table 2.9). DESIGN CHOICE (log entry 81): a node that no solve has included yet has no entry in the spec;
it is UNALIGNED with HOLDN above 10, offset and drift 0. -/
def holdEntry (k : Nat) (old : Option CorrEntry) (wc : Nat) : CorrEntry :=
  let e := old.getD { qual := .unaligned, links := 0, offset := 0, drift := 0, resid := 0, holdn := 10 }
  let n := min 255 (e.holdn + k)
  let move := (e.drift * (wc : Int) * (k : Int) * 2 + 2 ^ 32) / 2 ^ 33
  { qual := if 10 < n || !offsetOk (e.offset + move) then .unaligned else .hold, links := 0, offset := e.offset + move,
    drift := e.drift, resid := 0, holdn := n }

/-- The last table before a window, held on to the window that starts at `w0` (R64). -/
def CorrTable.heldTo (t : CorrTable) (w0 wc : Nat) : CorrTable :=
  { cepoch := w0 / wc, wstart := w0, wc := wc,
    entries := t.entries.map fun e => (e.1, holdEntry ((w0 - t.wstart) / wc) (some e.2) wc) }

/-- The table of a level for an instant: `none` while it may still be published; `some none` where none ever was (every node is
UNALIGNED); the nodes of the last table in HOLD once the deadline of R65 has passed without it (R64, R68, R75). -/
def State.levelTable (s : State) (f : Bool) (L : Nat) : Option (Option CorrTable) :=
  let l := if f then s.time.fleetCorr else s.time.trayCorr
  match tableFor l L with
  | some t => some (some t)
  | none =>
    let w0 := gridAt s.wcNs L
    if w0 + s.wcNs + (if f then 10000000 else 3000000) < s.tb0Ns then
      some (((l.filter fun t => decide (t.wstart + t.wc ≤ w0)).getLast?).map fun t => t.heldTo w0 s.wcNs)
    else none

/-- The nodes of the levels above a node, as this block's members and trees name them: the tray of a die, the spine-role block above a
tray, and this block's parents above itself (R63). -/
def State.nodesOver (s : State) (a : Nat) : List Nat :=
  let kids := (s.crown.trees.map fun e => e.2.children).flatten
  let own := s.sys.laddr.toNat
  let near :=
    if s.sys.members.any fun m => m.addr.toNat == a then [own]
    else match kids.find? fun c => c.gcs.any fun g => g.1.toNat == a with
      | some c => [c.addr.toNat, own]
      | none => if kids.any fun c => c.addr.toNat == a then [own] else []
  let top := if near.contains own || a == own then s.crown.trees.filterMap fun e => e.2.parent.map (·.toNat) else []
  ((near ++ top).eraseDups).filter fun x => x != a

/-- The entries of a fleet table for a node and the nodes above it (R63). -/
def State.fleetEntries (s : State) (t : CorrTable) (a : Nat) : List (Nat × CorrEntry) :=
  (a :: s.nodesOver a).filterMap fun x => (tget t.entries x).map fun e => (x, e)

/-- Whether the tables that the corrected time of an instant needs are settled: published, or their deadline has passed (R68, R75). -/
def State.corrKnown (s : State) (f : Bool) (L : Nat) : Bool :=
  (s.levelTable false L).isSome && (!f || (s.levelTable true L).isSome)

/-- Corrected time of a live stamp of a node in 2^-41 ns; `none` for a node that is UNALIGNED at one of its levels (R68). Tray-corrected
time takes the tray entry; a tray-role block, which is no node of its tray's solve, takes its own live time (DESIGN CHOICE, log entry 81).
Fleet-corrected time takes the entries of every fleet level above, and the tray entry too of a node that is no node of the fleet level
itself (R63). -/
def State.corrected (s : State) (fleet : Bool) (node L : Nat) : Option Int :=
  let base : Int := (L : Int) * 2 ^ 41
  let tray := if s.isTray && node == s.sys.laddr.toNat then some 0 else ((s.levelTable false L).bind id).bind fun t => t.at node L
  if !fleet then tray.map fun c => base - c
  else match (s.levelTable true L).bind id with
    | none => none
    | some t =>
      let es := s.fleetEntries t node
      if es.isEmpty then none
      else
        let below : Option Int := if es.any fun e => e.1 == node then some 0 else tray
        (es.foldl (fun x e => x.bind fun c => (t.at e.1 L).map fun d => c + d) below).map fun c => base - c

/-- A stamp in 0.25 ns with its block's tray entry taken off, and at a spine-role block with the fleet entry of its node too where
`up` (R63); as it is where the block has no such entry. Truncated as every time value that leaves the block (R38). -/
def State.convQ (s : State) (up : Bool) (a : Laddr) (q : Nat) : Nat :=
  let tr := (tableFor s.time.trayCorr (q / 4)).bind fun t => t.at a.toNat (q / 4)
  let fl := if up && s.isSpine then
      (tableFor s.time.fleetCorr (q / 4)).bind fun t => t.at (s.nodeOf a).toNat (q / 4)
    else none
  (((q : Int) * 2 ^ 39 - tr.getD 0 - fl.getD 0) / 2 ^ 39).toNat

/-- A pair as the solve here takes it: at the fleet level between rigid nodes, its stamps converted to tray-corrected time where their
blocks are dies with a tray entry (R63). -/
def State.rigid (s : State) (p : StampPair) : StampPair :=
  if s.isSpine then
    { p with rxBlk := s.nodeOf p.rxBlk, peer := s.nodeOf p.peer, rx := s.convQ false p.rxBlk p.rx, tx := s.convQ false p.peer p.tx }
  else p

/-- Pairs of a window: those whose RX stamp lies in it (R58). -/
def windowPairs (l : List StampPair) (w0 wc : Nat) : List StampPair :=
  l.filter fun p => decide (w0 * 4 ≤ p.rx) && decide (p.rx < (w0 + wc) * 4)

/-- A stamp lies before a TB0 step that its block took within the window, as its epoch records show (R60). -/
def State.beforeStep (s : State) (a : Laddr) (q w0 wc : Nat) : Bool :=
  s.time.stepLog.any fun e => e.1 == a.toNat && decide (w0 ≤ e.2) && decide (e.2 < w0 + wc) && decide (q < e.2 * 4)

/-- A pair of the part of the window that contains its end: neither of its stamps lies before a step of its block (R60). -/
def State.sinceStep (s : State) (w0 wc : Nat) (p : StampPair) : Bool :=
  !s.beforeStep p.rxBlk p.rx w0 wc && !s.beforeStep p.peer p.tx w0 wc

/-- The links of a set of pairs: (lower address, higher address, lower port index), in ascending order (R61). -/
def linksOf (nodes : List Nat) (l : List StampPair) : List (Nat × Nat × Nat) :=
  let key := fun (p : StampPair) =>
    if p.rxBlk.toNat < p.peer.toNat then (p.rxBlk.toNat, p.peer.toNat, p.lport.toNat)
    else (p.peer.toNat, p.rxBlk.toNat, p.pport.toNat)
  sortLe (fun a b => decide (a.1 * 2 ^ 24 + a.2.1 * 64 + a.2.2 ≤ b.1 * 2 ^ 24 + b.2.1 * 64 + b.2.2))
    ((l.map key).filter fun k => nodes.contains k.1 && nodes.contains k.2.1 && k.1 != k.2.1).eraseDups

/-- `n` · 2^-k as binary64 bits. -/
def f64Of (n : Int) (k : Nat) : Nat := fenc f64 (fround f64 (decide (n < 0)) n.natAbs (-(k : Int)) false)

/-- Operations on binary64 bits. -/
def fa64 (a b : Nat) : Nat := fenc f64 (fadd f64 (fdec f64 a) (fdec f64 b))
def fs64 (a b : Nat) : Nat := fenc f64 (fsub f64 (fdec f64 a) (fdec f64 b))
def fm64 (a b : Nat) : Nat := fenc f64 (fmul f64 (fdec f64 a) (fdec f64 b))
def fd64 (a b : Nat) : Nat := fenc f64 (fdiv f64 (fdec f64 a) (fdec f64 b))

/-- Pairs of one direction of a link as (h, t) in binary64 bits: h = RX - TX and t = RX - t_m in ns (R61). Stamps count 0.25 ns and
`tm2` is t_m in 0.125 ns. -/
def dirPairs (l : List StampPair) (src dst port : Nat) (tm2 : Int) : List (Nat × Nat) :=
  (l.filter fun p => p.peer.toNat == src && p.rxBlk.toNat == dst
      && (if src < dst then p.pport.toNat == port else p.lport.toNat == port)).map fun p =>
    (f64Of ((p.rx : Int) - (p.tx : Int)) 2, f64Of (2 * (p.rx : Int) - tm2) 3)

/-- One direction of a link: the fit, the pairs whose residual exceeds 5 · mad dropped, and one refit (R61): the count, c, s and the
residuals that are left. -/
def dirFit (l : List (Nat × Nat)) : Nat × Nat × Nat × List Nat :=
  let r0 := (lineFit l).2.2
  let lim := fm64 (f64Of 5 0) (mad r0)
  let keep := (l.zip r0).filter fun e => !(flt (fdec f64 lim) (fabs (fdec f64 e.2)))
  let m := keep.map (·.1)
  let r := lineFit m
  (m.length, r.1, r.2.1, r.2.2)

/-- What R61 gives of one link: y, z, d and w as binary64 bits and the residuals of both directions. -/
structure LinkFit where
  y : Nat
  z : Nat
  d : Nat
  w : Nat
  res : List Nat
deriving DecidableEq, Repr

/-- The floor 0.0025 of a variance: the binary64 number nearest to it (R61). -/
def varFloor : Nat := fd64 (f64Of 25 0) (f64Of 10000 0)

/-- The fit of one link from its pairs in both directions and its asymmetry in 0.25 ns: `none` where a direction keeps fewer than 8
pairs (R59, R61). -/
def linkFit (F G : List (Nat × Nat)) (asym : Int) : Option LinkFit :=
  let f := dirFit F
  let g := dirFit G
  if f.1 < 8 || g.1 < 8 then none
  else
    let two := f64Of 2 0
    let v := fd64 (fa64 (fd64 (variance f.2.2.2) (f64Of f.1 0)) (fd64 (variance g.2.2.2) (f64Of g.1 0))) (f64Of 4 0)
    some { y := fd64 (fs64 (fs64 f.2.1 g.2.1) (f64Of asym 2)) two, z := fd64 (fs64 f.2.2.1 g.2.2.1) two,
           d := fd64 (fa64 f.2.1 g.2.1) two,
           w := fd64 (f64Of 1 0) (if flt (fdec f64 v) (fdec f64 varFloor) then varFloor else v),
           res := f.2.2.2 ++ g.2.2.2 }

/-- One entry of the weighted Laplacian at row `i`, column `j`, its links visited in order (R61). -/
def lapEntry (links : List (Nat × Nat × LinkFit)) (i j : Nat) : Nat :=
  links.foldl (fun x l =>
    if i = j then (if l.1 == i || l.2.1 == i then fa64 x l.2.2.w else x)
    else if (l.1 == i && l.2.1 == j) || (l.1 == j && l.2.1 == i) then fs64 x l.2.2.w else x) 0

/-- The right side of row `i` for one value of each link (R61). -/
def lapSide (links : List (Nat × Nat × LinkFit)) (val : LinkFit → Nat) (i : Nat) : Nat :=
  links.foldl (fun x l =>
    if l.1 == i then fs64 x (fm64 l.2.2.w (val l.2.2))
    else if l.2.1 == i then fa64 x (fm64 l.2.2.w (val l.2.2)) else x) 0

/-- The graph solve over members in ascending order, with the row of the lowest replaced by the gauge row (R61, R62): the values by
member. -/
def graphSolve (mem : List Nat) (links : List (Nat × Nat × LinkFit)) (val : LinkFit → Nat) : List (Nat × Nat) :=
  let rows := mem.map fun i => if i = mem.headD 0 then mem.map fun _ => f64Of 1 0 else mem.map (lapEntry links i)
  let side := mem.map fun i => if i = mem.headD 0 then 0 else lapSide links val i
  mem.zip (solve64 rows side)

/-- A lock state that a pair may carry: LOCKED or HOLDOVER (R59). -/
def lockUsable (c : BitVec 2) : Bool := c == 2 || c == 3

/-- The asymmetry of a link in 0.25 ns as seen from its lower address: the one set from there, else the one set from the higher address
at its own port, with the sign turned (R61, TIME.ASYM). -/
def State.linkAsym (s : State) (l : List StampPair) (k : Nat × Nat × Nat) : Int :=
  match tget s.time.asym ((k.1 * 64 + k.2.2) * 2 ^ 18 + k.2.1) with
  | some v => v
  | none =>
    let hp := l.head?.map fun p => if p.rxBlk.toNat == k.1 then p.pport.toNat else p.lport.toNat
    0 - (hp.bind fun p => tget s.time.asym ((k.2.1 * 64 + p) * 2 ^ 18 + k.1)).getD 0

/-- One link's part in a solve: `none` where R59 leaves it out. t_m is the midpoint of the whole window, where OFFSET is given (Table 2.8),
also for a part of a window that a step splits (DESIGN CHOICE, log entry 39: R60 names no t_m of a part). -/
def State.linkPart (s : State) (l : List StampPair) (w0 wc : Nat) (k : Nat × Nat × Nat) :
    Option (Nat × Nat × LinkFit) :=
  let own := l.filter fun p =>
    (p.rxBlk.toNat == k.1 && p.peer.toNat == k.2.1 && p.lport.toNat == k.2.2)
      || (p.rxBlk.toNat == k.2.1 && p.peer.toNat == k.1 && p.pport.toNat == k.2.2)
  let tm2 : Int := 8 * (w0 : Int) + 4 * (wc : Int)
  let F := dirPairs own k.1 k.2.1 k.2.2 tm2
  let G := dirPairs own k.2.1 k.1 k.2.2 tm2
  if own.all (fun p => lockUsable p.txLock && lockUsable p.rxLock) then
    (linkFit F G (s.linkAsym own k)).map fun r => (k.1, k.2.1, r)
  else none

/-- Members joined to the lowest one by used links; `n` rounds reach every member. -/
def reach (links : List (Nat × Nat)) : Nat → List Nat → List Nat
  | 0, l => l
  | n + 1, l =>
    reach links n ((l ++ (links.filter fun e => l.contains e.1).map (·.2)
      ++ (links.filter fun e => l.contains e.2).map (·.1)).eraseDups)

/-- A finite binary64 value as an integer multiple of 2^-k, rounded to nearest, ties away from zero (Table 2.8). -/
def f64Fix (b : Nat) (k : Int) : Option Int :=
  match fdec f64 b with
  | .fin n m e => some (fnearAway n m e k)
  | _ => none

/-- The entry of a solved node (Table 2.8): an offset outside the range of OFFSET, or one that is not finite, makes it UNALIGNED for the
window (R67). -/
def solvedEntry (off dr : Option Int) (links resid : Nat) : CorrEntry :=
  { qual := if off.any offsetOk then Qual.solved else .unaligned, links := min links 0xFFF, offset := off.getD 0, drift := dr.getD 0,
    resid := min resid 0xFFFF, holdn := 0 }

/-- The last entry of a node: of a solve that waits for its publication, else the last in force (R64). -/
def State.lastEntry (s : State) (n : Nat) : Option CorrEntry :=
  match s.time.solved.getLast? with
  | some t => (tget t.entries n).or (tget s.time.nodes n)
  | none => tget s.time.nodes n

/-- The links of some pairs and what R59 leaves of them: the parts of the solve, and how many links are left out. -/
def State.linkParts (s : State) (ks : List (Nat × Nat × Nat)) (l : List StampPair) (w0 wc : Nat) :
    List (Nat × Nat × LinkFit) × Nat :=
  let parts := ks.filterMap (s.linkPart l w0 wc)
  (parts, ks.length - parts.length)

/-- One solve of the window that starts at `w0` (R58 to R64, R67), with the number of links left out. Where an end of a link stepped TB0
in the window, its pairs before the step are judged as a sub-window of their own and the entries are those of the part that
contains the window end (R60). -/
def State.solve (w0 wc : Nat) (s : State) : CorrTable × Nat :=
  let nodes := s.solveNodes
  let l := windowPairs s.time.pairs w0 wc
  let early := ((l.filter fun p => !s.sinceStep w0 wc p).map s.rigid)
  let lp := s.linkParts (linksOf nodes (l.map s.rigid)) ((l.filter (s.sinceStep w0 wc)).map s.rigid) w0 wc
  let ep := s.linkParts (linksOf nodes early) early w0 wc
  let parts := lp.1
  let lowest := nodes.foldl min (nodes.headD 0)
  let conn := reach (parts.map fun p => (p.1, p.2.1)) nodes.length [lowest]
  let mem := nodes.filter conn.contains
  let inMem := parts.filter fun p => mem.contains p.1 && mem.contains p.2.1
  let o := graphSolve mem inMem (·.y)
  let dv := graphSolve mem inMem (·.z)
  let entry := fun (n : Nat) =>
    let used := (parts.filter fun p => p.1 == n || p.2.1 == n)
    if mem.contains n && (!used.isEmpty) then
      solvedEntry (f64Fix (tgetD o n 0) 8) (f64Fix (tgetD dv n 0) 40) used.length
        (((f64Fix (rootMeanSquare (used.map fun p => p.2.2.res).flatten) 8).getD 0).natAbs)
    else holdEntry 1 (s.lastEntry n) wc
  ({ cepoch := w0 / wc, wstart := w0, wc := wc, entries := nodes.map fun n => (n, entry n) }, lp.2 + ep.2)

/-- The end in TB0 nanoseconds and the length of the window to be solved: the last one under an old W_c comes before those of the new
(R58, R83). -/
def State.windowDue (s : State) : Nat × Nat :=
  match s.time.wcNext with
  | some n =>
    if n.2 ≤ s.tb0Ns ∧ s.time.windowsDone < n.2 then (n.2, s.time.cfg.wcMs * 1000000) else (gridAt s.wcNs s.tb0Ns, s.wcNs)
  | none => (gridAt s.wcNs s.tb0Ns, s.wcNs)

/-- CORRECTION_WINDOW_END (R58 to R61): the solve of the window that has just ended, once per window; links left out are
counted. The fleet solve needs a root of the time tree (R483). -/
def execCorrectionWindowEnd (s : State) : Host.Outcome State Fault Refusal :=
  let w := s.windowDue
  if s.engUp && s.solver && (s.isMaster || s.time.cfg.troot.isSome) && decide (s.time.windowsDone < w.1) then
    let r := s.solve (w.1 - w.2) w.2
    let s1 := s.bumpN cLinkExcl r.2
    .next (s1.modTime fun u =>
      { u with solved := u.solved ++ [r.1], windowsDone := w.1,
               pairs := u.pairs.filter fun p => decide (w.1 * 4 ≤ p.rx) })
  else .next s

/-- The 16 bytes of a correction entry (Table 2.8). -/
def corrBytes (a : Nat) (e : CorrEntry) : List Byte :=
  be 16 (a * 2 ^ 110 + (match e.qual with | .solved => 0 | .hold => 1 | .unaligned => 2) * 2 ^ 108
    + min e.links 0xFFF * 2 ^ 96 + unsigned 32 e.offset * 2 ^ 64 + unsigned 32 e.drift * 2 ^ 32 + e.resid * 2 ^ 16
    + e.holdn * 2 ^ 8)

/-- The body of a CORRECTION record (Table 4.4); `fw` is the running firmware version. -/
def corrRecBody (t : CorrTable) (fleet : Bool) (fw part npart : Nat) (es : List (Nat × CorrEntry)) : List Byte :=
  be 8 t.cepoch ++ be 8 t.wstart ++ be 4 t.wc ++ be 1 (b2n fleet) ++ zeros 1 ++ be 2 es.length ++ be 4 fw ++ be 2 part
    ++ be 2 npart ++ (es.map fun e => corrBytes e.1 e.2).flatten

/-- A list cut into pieces of `k` elements, at most `n` of them. -/
def piecesOf {α : Type} (k : Nat) : Nat → List α → List (List α)
  | 0, _ => []
  | n + 1, l => if l.isEmpty then [] else l.take k :: piecesOf k n (l.drop k)

/-- The deadline of a solve after its window's end: 3 ms for a tray, 10 ms for the fleet (R65). -/
def State.solveDeadline (s : State) (t : CorrTable) : Nat :=
  t.wstart + t.wc + (if s.isMaster then 3000000 else 10000000)

/-- The correction table as records of class 1 down the time tree and to the fabric manager (R66, Table 4.14): at most 124
entries in a record of 32 cells. -/
def State.publishCorr (t : CorrTable) (fw : Nat) (s : State) : State :=
  let parts := piecesOf 124 16 t.entries
  (List.range parts.length).foldl (fun u i =>
    u.send { dst := .every, cls := 1, typ := tCorrection, unit := uFantail, flags := 0, stamp := none,
             body := corrRecBody t (!u.isMaster) fw i parts.length (parts.getD i []) }) s

/-- Tables that are kept: the newest 64 of a level (DESIGN CHOICE, log entry 45: the spec gives no number). -/
def keepTables (l : List CorrTable) : List CorrTable := l.drop (l.length - 64)

/-- A table takes its place among those of its level: its entries join those of the same epoch, which another part, tray or level of the
fleet gave (R63, R66). -/
def joinTable (l : List CorrTable) (t : CorrTable) : List CorrTable :=
  if l.any fun x => x.cepoch == t.cepoch then
    l.map fun x => if x.cepoch == t.cepoch then { x with entries := t.entries.foldl (fun m e => tput m e.1 e.2) x.entries } else x
  else keepTables (l ++ [t])

/-- A table is in force at its level. -/
def State.holdTable (fleet : Bool) (t : CorrTable) (s : State) : State :=
  if fleet then s.modTime fun u => { u with fleetCorr := joinTable u.fleetCorr t }
  else s.modTime fun u => { u with trayCorr := joinTable u.trayCorr t }

/-- The pairs whose window has its table leave for the fleet solve, RX converted to this level's corrected time (R63). One whose RX was
taken by a node that is UNALIGNED has no corrected time and goes no further (R68). -/
def State.forwardAway (s : State) : State :=
  let l := if s.isMaster then s.time.trayCorr else s.time.fleetCorr
  let ready := s.time.away.filter fun p => (tableFor l (p.rx / 4)).isSome
  let aligned := fun (p : StampPair) =>
    match (tableFor l (p.rx / 4)).bind fun t => tget t.entries (s.nodeOf p.rxBlk).toNat with
    | some e => e.qual != .unaligned
    | none => true
  (ready.filter aligned).foldl (fun t p =>
    t.send { dst := .up, cls := 1, typ := tStampPairs, unit := uFantail, flags := 0, stamp := none,
             body := be 2 1 ++ zeros 14 ++ pairBytes { p with rx := s.convQ true p.rxBlk p.rx } })
    (s.modTime fun u => { u with away := u.away.filter fun p => !(tableFor l (p.rx / 4)).isSome })

/-- The last entries of all nodes with those of one table in their place: a node that a table does not name keeps its last (R64). -/
def joinNodes (l es : List (Nat × CorrEntry)) : List (Nat × CorrEntry) := es.foldl (fun m e => tput m e.1 e.2) l

/-- The oldest solve has missed its deadline: it is not published, its nodes are in HOLD (R64, R65). -/
def State.solveLate (t : CorrTable) (s : State) : State :=
  let held : CorrTable := { t with entries := t.entries.map fun e => (e.1, holdEntry 1 (tget s.time.nodes e.1) t.wc) }
  ((s.modTime fun u => { u with solved := u.solved.drop 1, nodes := joinNodes u.nodes held.entries }).holdTable (!s.isMaster)
    held).forwardAway

/-- The entries of a CORRECTION record (Table 2.8, Table 4.4). -/
def parseCorr (b : List Byte) : List (Nat × CorrEntry) :=
  (List.range (rd b 22 2)).map fun i =>
    let v := rd b (32 + 16 * i) 16
    (bits v 127 110,
      { qual := match bits v 109 108 with | 0 => Qual.solved | 1 => .hold | _ => .unaligned, links := bits v 107 96,
        offset := signed 32 (bits v 95 64), drift := signed 32 (bits v 63 32), resid := bits v 31 16, holdn := bits v 15 8 })

/-- A record whose wire stamp extension is valid, which Fantail, the Verdict unit and Crown may use (R56). -/
def State.inWindow (s : State) (r : Rec) : Bool := (s.extend r.src r.cls.toNat r.stamp.toNat).isSome

/-- A correction table from the time tree: its parts are joined by epoch and level (R63, R66, R163). -/
def State.rxCorrection (r : Rec) (s : State) : State :=
  let b := r.body
  if s.inWindow r then
    s.holdTable (rd b 20 1 == 1) { cepoch := rd b 0 8, wstart := rd b 8 8, wc := rd b 16 4, entries := parseCorr b }
  else s

/-- An entry of a STAMP_PAIRS record, its RX stamp extended against the epoch record of the block that sent it (R55); none where that
cannot be (R56). -/
def State.rxPair (s : State) (src : Laddr) (v : Nat) : Option StampPair :=
  (s.liveEpoch src 1).map fun e =>
    { rxBlk := src, peer := BitVec.ofNat 18 (bits v 127 110), lport := BitVec.ofNat 6 (bits v 109 104),
      pport := BitVec.ofNat 6 (bits v 103 98), fseq := BitVec.ofNat 16 (bits v 97 82), txLock := BitVec.ofNat 2 (bits v 81 80),
      rxLock := BitVec.ofNat 2 (bits v 79 78), tx := bits v 67 34, rx := extendQ e (bits v 33 0) }

/-- STAMP_PAIRS accepted: its entries go straight into the pair store (R161), or onward to the fleet solve (R63). -/
def State.rxStampPairs (r : Rec) (s : State) : State :=
  if s.solver && s.inWindow r then
    (List.range (rd r.body 0 2)).foldl (fun t i =>
      match t.rxPair r.src (rd r.body (16 + 16 * i) 16) with
      | some p => t.takePair p
      | none => t) s
  else s

/-! ### Commands of the TIME group (Table 16.8) -/

/-- Bits 31 to 18 of a 4-byte address field are reserved (R9). -/
def ckAddr (c : Cmd) (off : Nat) : Check := ckParam (decide (cp c off 4 < 2 ^ 18)) off

def opTimeConfig : OpSpec :=
  mkOp 0x0200 [.v 1, .v 1, .r 2, .v 8, .v 10, .v 1, .v 1, .v 2, .r 2, .v 4] rDTS wF true

def opTimeJob : OpSpec := { mkOp 0x0201 [.v 8] rDTS wFT true with admission := true }

/-- TIME.JOB (R40): registration. -/
def execTimeJob (c : Cmd) (s : State) : Host.Outcome State Fault Refusal :=
  .next (runCmd opTimeJob c [ckNoInline c] []
    (fun t => .ok 0 [] [] (t.modTime fun u => { u with jobOrigin := BitVec.ofNat 64 (cp c 0 8) })) s)

def opTimeAsym : OpSpec := mkOp 0x0202 [.v 4, .v 4, .v 1, .r 1, .v 2] rATS wF false

/-- TIME.ASYM (R483): asymmetry of the link from A at port PORT to B in 0.25 ns. -/
def execTimeAsym (c : Cmd) (s : State) : Host.Outcome State Fault Refusal :=
  let key := (cp c 0 4 * 64 + cp c 8 1) * 2 ^ 18 + cp c 4 4
  .next (runCmd opTimeAsym c [ckNoInline c, ckAddr c 0, ckAddr c 4, ckRange (decide (cp c 8 1 < 64)) 8] []
    (fun t => .ok 0 [] [] (t.modTime fun u => { u with asym := tput u.asym key (signed 16 (cp c 10 2)) })) s)

def opTimeCal : OpSpec := mkOp 0x0203 [.v 1, .r 1, .v 2, .v 2] rDTS wFT true

/-- TIME.CAL (R49, R50). -/
def execTimeCal (c : Cmd) (s : State) : Host.Outcome State Fault Refusal :=
  .next (runCmd opTimeCal c [ckNoInline c, ckRange (decide (cp c 0 1 < 64)) 0] []
    (fun t => .ok 0 [] [] (t.modPort (cp c 0 1) fun p =>
      { p with egress := BitVec.ofNat 16 (cp c 2 2), ingress := BitVec.ofNat 16 (cp c 4 2) })) s)

def opTimeStatus : OpSpec := mkOp 0x0204 [] rDTS wFTH false

/-- The latest correction epoch held. -/
def State.lastCorr (s : State) : Nat :=
  ((s.time.trayCorr ++ s.time.fleetCorr).map (·.cepoch)).foldl max 0

/-- TIME.STATUS: LOCK, STEPS, ADJ, CORR. -/
def execTimeStatus (c : Cmd) (s : State) : Host.Outcome State Fault Refusal :=
  .next (runCmd opTimeStatus c [ckNoInline c] []
    (fun t => .ok 0 (be 1 (lockCode t.time.lock) ++ zeros 1 ++ be 2 t.time.steps.toNat ++ be 4 t.time.adj.toNat
      ++ be 8 t.lastCorr) [] t) s)

end Sys2Proof.Machine
end

