-- ==== Sys2Proof/Machine/Coll.lean ====
section
/-! DEFINITION. The collector (spec/03): TAP slots, counters, sample sets, discrete inputs. -/

namespace Sys2Proof.Machine

/-- A sample set. -/
def State.set (s : State) (i : Nat) : SampleSet := lget s.coll.sets i (setReset false)

/-- Change a sample set. -/
def State.modSet (i : Nat) (f : SampleSet → SampleSet) (s : State) : State :=
  s.modColl fun c => { c with sets := lmod c.sets i f }

/-! ### TAP beats (R76 to R81) -/

/-- Bits set in the low `n` bits. -/
def popcount : Nat → Nat → Nat
  | 0, _ => 0
  | n + 1, v => v % 2 + popcount n (v / 2)

/-- A slot whose parity bit gives even parity over the slot and itself (R76). -/
def slotParityOk (t : TapSlot) : Bool := (popcount 32 t.word.toNat + b2n t.par) % 2 == 0

/-- Fields of a slot (Table 3.2). -/
def slotLevel (w : Word) : Nat := bits w.toNat 31 30
def slotCore (w : Word) : Nat := bits w.toNat 29 22
def slotEngine (w : Word) : Nat := bits w.toNat 21 18
def slotEvent (w : Word) : Nat := bits w.toNat 17 12
def slotInc (w : Word) : Nat := bits w.toNat 11 0

/-- CORE and ENGINE are 0 where the level requires it (R77). -/
def slotFieldsOk (w : Word) : Bool :=
  match slotLevel w with
  | 1 => slotEngine w == 0
  | 2 => slotCore w == 0 && slotEngine w == 0
  | _ => true

/-- The light-set counter of a slot (Table 3.5); reserved counters stay at 0. -/
def slotLight (w : Word) : Option Nat :=
  let ev := slotEvent w
  match slotLevel w with
  | 0 => if ev = 0 then some (slotEngine w) else none
  | 1 => if ev < 15 then some (0x10 + ev) else none
  | 2 => if ev < 20 then some (0x20 + ev) else none
  | _ => none

/-- A slot that counts: good parity, not empty, fields in order. -/
def slotGood (t : TapSlot) : Bool := slotParityOk t && slotLevel t.word != 3 && slotFieldsOk t.word

/-- A slot discarded and counted in TAP_PARITY (R76, R77). -/
def slotBad (t : TapSlot) : Bool := !slotParityOk t || (slotLevel t.word != 3 && !slotFieldsOk t.word)

/-- A heavy counter's word matches a slot (Table 3.3, R79). -/
def cfgMatches (c : Word) (w : Word) : Bool :=
  let v := c.toNat
  bit v 31 && bits v 26 25 == slotLevel w && (bit v 28 || bits v 24 17 == slotCore w)
    && (bit v 27 || bits v 16 13 == slotEngine w) && bits v 12 7 == slotEvent w

/-- One heavy counter after a beat (R79, Table 3.4). -/
def heavyBeat (slots : List TapSlot) (cs : List (Nat × Counter)) (e : Nat × Word) : List (Nat × Counter) :=
  let m := slots.filter fun t => cfgMatches e.2 t.word
  if m.isEmpty then cs
  else
    let sum := (m.map fun t => slotInc t.word).sum
    let c := getCounter cs e.1
    match bits e.2.toNat 30 29 with
    | 0 => putCounter cs e.1 (c.add sum)
    | 1 => putCounter cs e.1 { c with val := BitVec.ofNat 48 sum }
    | _ => putCounter cs e.1 { c with val := BitVec.ofNat 48 (max c.val.toNat sum) }

/-- A TAP beat's counting (R76, R79, R80): at most 16 slots; the light set always, the heavy counters while ENG runs. -/
def State.tapCount (slots : List TapSlot) (s : State) : State :=
  let l := slots.take 16
  let s1 := s.bumpN cTapParity (l.filter slotBad).length
  let g := l.filter slotGood
  let s2 := g.foldl (fun t w => match slotLight w.word with | some i => t.bumpN i (slotInc w.word) | none => t) s1
  if s.engUp then s2.modColl fun c => { c with counters := c.cfg.foldl (heavyBeat g) c.counters } else s2

/-! ### Samples (R83 to R88) -/

/-- Counter n belongs to a set: the light set is bank 0; a heavy set's banks are the bits of its list. -/
def inSet (set : Nat) (banks : Dword) (n : Nat) : Bool :=
  if set = 0 then decide (n < 256) else decide (256 ≤ n) && bit banks.toNat (n / 256)

/-- The counters of a set as they stand. -/
def State.setVals (s : State) (i : Nat) (banks : Dword) : List (Nat × Counter) :=
  s.coll.counters.filter fun e => inSet i banks e.1

/-- After a sample, wrap counts are cleared and MAX counters restart from 0 (R78, Table 3.4). -/
def sampledCounters (cfg : List (Nat × Word)) (i : Nat) (banks : Dword) (cs : List (Nat × Counter)) :
    List (Nat × Counter) :=
  (cs.map fun e =>
    if inSet i banks e.1 then
      if 256 ≤ e.1 ∧ bits (tgetD cfg e.1 0).toNat 30 29 = 2 then (e.1, ({ val := 0, wraps := 0 } : Counter))
      else (e.1, { e.2 with wraps := 0 })
    else e).filter fun e => !(e.2.val == 0 && e.2.wraps == 0)

/-- The banks of a set in ascending order. -/
def bankList (set : Nat) (banks : Dword) : List Nat :=
  if set = 0 then [0] else (List.range 64).filter fun b => decide (0 < b) && bit banks.toNat b

/-- Body of a SAMPLE record of one bank (Table 4.4). -/
def sampleBody (set : Nat) (tag : BitVec 16) (nwin start : Nat) (vals : List (Nat × Counter)) (bank : Nat) : List Byte :=
  let cs := (List.range 256).map fun j => getCounter vals (256 * bank + j)
  let mw := cs.any fun c => decide (2 ≤ c.wraps.toNat)
  be 1 (b2n mw * 64 + set) ++ be 1 (min nwin 255) ++ be 2 tag.toNat ++ be 2 256 ++ be 2 (256 * bank)
    ++ be 4 start ++ (cs.map fun c => be 6 c.val.toNat).flatten
    ++ (if mw then (cs.map fun c => be 1 c.wraps.toNat).flatten else [])

/-- Body of an ASLEEP record (R87, Table 4.4). -/
def asleepBody (set : Nat) (tag : BitVec 16) (n start : Nat) : List Byte :=
  be 1 (128 + set) ++ be 1 (min n 255) ++ be 2 tag.toNat ++ be 2 0 ++ be 2 0 ++ be 4 start ++ be 8 n

/-- A SAMPLE record is offered (Table 4.14: class 2). -/
def State.sendSample (stamp : Nat) (flags : BitVec 8) (body : List Byte) (s : State) : State :=
  s.send { dst := .up, cls := 2, typ := tSample, unit := uCollect, flags := flags, stamp := some stamp, body := body }

/-- STRETCH and CLKSTOP of a sample (R71). -/
def setFlags (x : SampleSet) (boundary : Bool) : BitVec 8 :=
  (if x.stretch then fStretch else 0) ||| (if x.stops.isEmpty then 0 else fClkstop) ||| (if boundary then fBoundary else 0)

/-- The oldest staged sample is dropped and its window merged into the next (R457). -/
def dropStaged : List StagedSample → List StagedSample
  | [] => []
  | [_] => []
  | a :: b :: l => { b with start := a.start, nwin := a.nwin + b.nwin } :: l

/-- A light-set sample taken outside RUN is staged in AO; with 32 held the oldest is dropped and counted (R457). -/
def State.stageSample (x : StagedSample) (s : State) : State :=
  if s.coll.stageSamples.length < 32 then s.modColl fun c => { c with stageSamples := c.stageSamples ++ [x] }
  else ((s.modColl fun c => { c with stageSamples := dropStaged (c.stageSamples ++ [x]) }).modSet 0 fun y =>
    { y with nlate := satAdd 32 y.nlate 1 }).bump cSampleLate

/-- A sample of a set, of its counters as they stand at the end of the last cycle, with its records (R85). A counter that an
uncorrectable read restarted in the window has baseline 0 (R89). -/
def State.emitSample (i : Nat) (stamp nwin : Nat) (boundary : Bool) (s : State) : State :=
  let x := s.set i
  let vals := s.setVals i x.banks
  let fl := setFlags x boundary
  let s1 := s.modSet i fun x =>
    { x with prev := { x.cur with vals := x.cur.vals.filter fun e => !x.eccHit.contains e.1 },
             cur := { vals := vals, stamp := stamp, start := x.winStart, mons := x.mons },
             mons := [], stretch := false, stops := [], merged := 0, lastStamp := stamp, winStart := stamp, eccLast := x.eccHit, eccHit := [],
             taken := min 2 (x.taken + 1) }
  let s2 := s1.modColl fun c => { c with counters := sampledCounters c.cfg i x.banks c.counters }
  if i = 0 ∧ (s.pow.pstate ≠ .run ∨ !s.engUp) then
    s2.stageSample { stamp := stamp, start := x.winStart, nwin := nwin, flags := fl, vals := vals }
  else
    (bankList i x.banks).foldl (fun t b => t.sendSample stamp fl (sampleBody i x.tag nwin x.winStart vals b)) s2

/-- A new window length and a new bank list take effect at a boundary of the old grid (R83, R491): the counters of the new list are
copied as previous values with their wrap counts started again (R78), and none is reset. -/
def State.setApply (i : Nat) (s : State) : State :=
  let x := s.set i
  let s1 := s.modSet i fun x => { x with win := x.winNext.getD x.win, winNext := none }
  match x.banksNext with
  | some b =>
    (s1.modSet i fun x =>
      { x with banks := b, banksNext := none,
               cur := { vals := s1.setVals i b, stamp := s.tb0Ns, start := s.tb0Ns, mons := [] }, mons := [],
               winStart := s.tb0Ns, running := b != 0 }).modColl fun c => { c with counters := sampledCounters [] i b c.counters }
  | none => s1

/-- A set takes a baseline at a boundary (R87): its counters as they stand are the previous values, and their wrap counts start
again, so that the next delta is exact (R78). -/
def State.baselineCopy (i : Nat) (s : State) : State :=
  let x := s.set i
  (s.modSet i fun x =>
    { x with cur := { vals := s.setVals i x.banks, stamp := s.tb0Ns, start := s.tb0Ns, mons := [] }, mons := [],
             winStart := s.tb0Ns, running := true, baseline := false, merged := 0, stretch := false, stops := [], eccHit := [] }).modColl fun c =>
    { c with counters := sampledCounters c.cfg i x.banks c.counters }

/-- Windows of a set that have ended since its last boundary: the boundaries of the grid in force that TB0 has passed (R84), the first
of which ends a window shortened by a change of P as one window (R83). None after a backward step. -/
def SampleSet.passed (x : SampleSet) (t : Nat) : Nat := if x.win = 0 then 0 else t / x.win - x.lastK / x.win

/-- A boundary of a set's grid (R83 to R87, R491). `none` where none is due. The second component says whether a sample was
taken: not when the shadow registers are not drained (SAMPLE_LATE, R86), nor at the baseline of a heavy set. -/
def State.boundary (i : Nat) (drained : Bool) (s : State) : Option (State × Bool) :=
  let x := s.set i
  let b := gridAt x.win s.tb0Ns
  if x.lastK < b ∧ s.aoUp ∧ (i = 0 ∨ (s.engUp ∧ s.pow.pstate = .run ∧ s.pow.entry.isNone)) then
    let n := x.passed s.tb0Ns + x.merged
    let s1 := s.modSet i fun x => { x with lastK := b }
    if !x.running then some ((if x.banks = 0 then s1 else s1.baselineCopy i).setApply i, false)
    else if x.baseline then
      some (((s1.sendSample s.tb0Ns 0 (asleepBody i x.tag n x.winStart)).baselineCopy i).setApply i, false)
    else if !drained then
      some ((s1.modSet i fun x => { x with merged := n, nlate := satAdd 32 x.nlate 1 }).bump cSampleLate, false)
    else some ((s1.emitSample i s.tb0Ns n false), true)
  else none

/-- The bank list that an arming command arms: a set newly formed by COLLECT.SET has the list it waits for (R490). -/
def SampleSet.armBanks (x : SampleSet) : Dword := if x.banks = 0 then x.banksNext.getD 0 else x.banks

/-- The reset cycle of an arming command: counters of the set to 0, the tag taken, the window from here on with
baseline 0 (R88, R490). -/
def State.armReset (i : Nat) (tag : BitVec 16) (s : State) : State :=
  let b := (s.set i).armBanks
  (s.modColl fun c => { c with counters := c.counters.filter fun e => !inSet i b e.1 }).modSet i fun x =>
    { x with tag := tag, banks := b, banksNext := if x.banks = 0 then none else x.banksNext, running := b != 0,
             baseline := false, merged := 0, winStart := s.tb0Ns, stretch := false, stops := [], eccHit := [],
             mons := [], lastK := max x.lastK (gridAt x.win s.tb0Ns),
             cur := { vals := [], stamp := s.tb0Ns, start := s.tb0Ns, mons := [] } }

/-- Windows of a set that no sample has covered yet. -/
def State.unsampled (s : State) (i : Nat) : Nat := (s.set i).passed s.tb0Ns + (s.set i).merged

/-- Windows that the boundary sample of an arming command covers: those that ended unsampled, or the one that it cuts short (R88). -/
def State.armWindows (s : State) (i : Nat) : Nat := (s.set i).merged + max 1 ((s.set i).passed s.tb0Ns)

/-- The sample that an arming command sends of the window it ends: a boundary sample of a window in progress (R88), or the report of
the asleep windows still owed (R490). A set changed by COLLECT.SET that has not reached its first boundary takes none (R490). The
second component says whether a boundary sample was taken. -/
def State.armSample (i : Nat) (s : State) : State × Bool :=
  let x := s.set i
  if x.running && !x.baseline && x.banksNext.isNone then (s.emitSample i s.tb0Ns (s.armWindows i) true, true)
  else if x.baseline && decide (0 < s.unsampled i) then
    (s.sendSample s.tb0Ns 0 (asleepBody i x.tag (s.unsampled i) x.winStart), false)
  else (s, false)

/-- A heavy set discards the window in progress and takes its baseline after the return to RUN (R87). -/
def heavySleep (x : SampleSet) : SampleSet := if x.running then { x with baseline := true } else x

/-- On the return to RUN the grid of a heavy set goes on: the windows slept through are kept for the ASLEEP record, and the baseline comes
at the next boundary (R87). -/
def heavyWake (t : Nat) (x : SampleSet) : SampleSet :=
  { x with merged := if x.baseline then x.passed t + x.merged else x.merged, lastK := max x.lastK (gridAt x.win t) }

/-- A change of every heavy set. -/
def State.heavySets (f : SampleSet → SampleSet) (s : State) : State :=
  s.modColl fun c => { c with sets := match c.sets with | x :: l => x :: l.map f | [] => [] }

/-! ### Region clock monitors (R70, R71) -/

/-- The class of a monitor window: stopped with no cycles; stretched where |rho - 1| > TOL (R70). -/
def regionClass (tol nom obs : Nat) : RegionClass :=
  if obs = 0 then .stopped
  else if tol * nom < 1024 * ((obs : Int) - (nom : Int)).natAbs then .stretched
  else .normal

/-- One region's window: its class and count kept, counters and the samples in progress marked (R70, R71). -/
def State.regionWindow (s : State) (r : Nat × Nat) : State :=
  let c := regionClass s.time.cfg.tol (Config.regionNom r.1) r.2
  let s1 := s.modTime fun u => { u with regions := tput u.regions r.1 { cls := c, obs := r.2 } }
  match c with
  | .normal => s1
  | .stretched =>
    (s1.bump cRegionStretch).modColl fun u => { u with sets := u.sets.map fun x => { x with stretch := true } }
  | .stopped =>
    (s1.bump cRegionStop).modColl fun u => { u with sets := u.sets.map fun x => { x with stops := r.1 :: x.stops } }

/-- A monitor window's cycles, kept with the counters of every set for the conversion of R71. -/
def State.keepMon (counts : List (Nat × Nat)) (s : State) : State :=
  s.modColl fun c => { c with sets := ((List.range c.sets.length).zip c.sets).map fun e =>
    { e.2 with mons := e.2.mons ++ [{ obs := counts, vals := s.setVals e.1 e.2.banks }] } }

/-- MONITOR_WINDOW_END (R70): `counts` gives each region's observed cycles in the window of 1,024 AO cycles that has passed. -/
def execMonitorWindowEnd (counts : List (Nat × Nat)) (s : State) : Host.Outcome State Fault Refusal :=
  if s.aoUp && decide (1024 ≤ s.time.monCycles) then
    let cs := counts.filter fun r => decide (r.1 < 272)
    .next (cs.foldl State.regionWindow ((s.keepMon cs).modTime fun u => { u with monCycles := u.monCycles - 1024 }))
  else .next s

/-! ### Discrete inputs (R94 to R97) -/

/-- A discrete input. -/
def State.disc (s : State) (i : Nat) : Disc := lget s.coll.disc i discReset

/-- Change a discrete input. -/
def State.modDisc (i : Nat) (f : Disc → Disc) (s : State) : State :=
  s.modColl fun c => { c with disc := lmod c.disc i f }

/-- A discrete record goes to Hopper in RUN and into the 64-record AO area otherwise, the oldest being dropped and counted
when it is full (R457). -/
def State.sendDisc (q : Req) (s : State) : State :=
  if s.pow.pstate = .run ∧ s.engUp then s.send q
  else if s.coll.stageDisc.length < 64 then s.modColl fun c => { c with stageDisc := c.stageDisc ++ [q] }
  else (s.modColl fun c => { c with stageDisc := c.stageDisc.drop 1 ++ [q] }).bump cDiscStageDrop

/-- A DISC record (Table 4.4): KIND 0 EDGE, 1 CHATTER, 2 STUCK, 3 RELEASE; stamped at `stamp` (R94, R100). -/
def discReq (i kind : Nat) (state : Bool) (count active stamp : Nat) : Req :=
  { dst := .up, cls := 1, typ := tDisc, unit := uCollect, flags := 0, stamp := some stamp,
    body := be 1 i ++ be 1 kind ++ be 1 (b2n state) ++ zeros 1 ++ be 2 count ++ zeros 2 ++ be 8 active }

/-- TB0 of the first of the 3 agreeing AO samples, the last of which is of the present cycle (R94). -/
def State.discStamp (s : State) : Nat := s.time.tb0p2.toNat / 2 ^ 32

/-- A conditioned change of an input (R94 to R97, Table 3.11). After AO reset the first state comes without a record. -/
def State.discChange (i : Nat) (active : Bool) (s : State) : State :=
  let d := s.disc i
  match d.state with
  | none => s.modDisc i fun x => { x with state := some active, activeSince := if active then some s.tb1Ns else none }
  | some old =>
    if old == active then s
    else
      let s1 := if active then s.bump (0xC0 + i) else s
      let s2 := s1.modDisc i fun x =>
        { x with state := some active, count := x.count + 1, activeSince := if active then some s.tb1Ns else none }
      match d.mode with
      | .normal =>
        if d.count + 1 ≤ d.cfg.chatMax then s2.sendDisc (discReq i 0 active 0 0 s.discStamp)
        else s2.modDisc i fun x => { x with mode := .chatter }
      | .chatter => s2
      | .stuck =>
        if active then s2
        else (s2.modDisc i fun x => { x with mode := .normal }).sendDisc
          (discReq i 3 false 0 (s.tb1Ns - d.activeSince.getD s.tb1Ns) s.discStamp)

/-- CHATTER_WINDOW_END (R95, R96): a chattering input gives one record per window and leaves CHATTER at or below
CHAT_EXIT; new parameters take effect at the boundary (R97). A change in the cycle of the boundary counts toward the window that ends
(R96), so the row acts from the next cycle on (log entry 82). -/
def execChatterWindowEnd (input : Fin 32) (s : State) : Host.Outcome State Fault Refusal :=
  let i := input.val
  let d := s.disc i
  let b := gridAt (d.cfg.winMs * 1000000) (s.time.tb0p1.toNat / 2 ^ 32)
  if s.aoUp ∧ d.lastWin < b then
    let s1 := if d.mode = .chatter then
        (s.bump cDiscChatter).sendDisc (discReq i 1 (d.state.getD false) (min d.count 0xFFFF) 0 s.tb0Ns)
      else s
    .next (s1.modDisc i fun x =>
      { x with lastWin := b, count := 0, cfg := x.cfgNext.getD x.cfg, cfgNext := none,
               mode := if x.mode = .chatter ∧ d.count ≤ d.cfg.chatExit then .normal else x.mode })
  else .next s

/-- STUCK_TIMEOUT (R94, R95): the input has been active for STUCK_TO. A change to inactive in the cycle of the expiry wins (R96), so the
row acts from the next cycle on. The spec names no time base for the timer: TB1; nor a stamp for a record that no change causes: TB0 of
the cycle (log entry 84). -/
def execStuckTimeout (input : Fin 32) (s : State) : Host.Outcome State Fault Refusal :=
  let i := input.val
  let d := s.disc i
  match d.activeSince with
  | some t =>
    if s.aoUp ∧ 0 < d.cfg.stuckMs ∧ d.mode ≠ .stuck ∧ s.past1 (t + d.cfg.stuckMs * 1000000) then
      .next ((s.modDisc i fun x => { x with mode := .stuck }).sendDisc (discReq i 2 true 0 0 s.tb0Ns))
    else .next s
  | none => .next s

def opDiscConfig : OpSpec := mkOp 0x0305 [.v 1, .v 1, .v 2, .v 2, .v 2, .v 4] rDTS wFT true

/-- DISC.CONFIG (R94, R97): from the next chatter window boundary, a new STUCK_TO at once. -/
def execDiscConfig (c : Cmd) (s : State) : Host.Outcome State Fault Refusal :=
  let i := cp c 0 1
  let g : DiscCfg := { pol := cp c 1 1 == 1, winMs := cp c 2 2, chatMax := cp c 4 2, chatExit := cp c 6 2, stuckMs := cp c 8 4 }
  .next (runCmd opDiscConfig c
    [ckNoInline c, ckParam (decide (cp c 1 1 ≤ 1)) 1, ckRange (decide (i < 32)) 0,
     ckRange (decide (1 ≤ g.winMs) && decide (g.winMs ≤ 1000)) 2, ckRange (decide (1 ≤ g.chatMax) && decide (g.chatMax ≤ 4095)) 4,
     ckRange (decide (g.chatExit ≤ g.chatMax)) 6, ckRange (decide (g.stuckMs ≤ 3600000)) 8] []
    (fun t => .ok 0 [] [] (t.modDisc i fun x => { x with cfgNext := some g, cfg := { x.cfg with stuckMs := g.stuckMs } })) s)

/-! ### Counter commands -/

def opCollectCounter : OpSpec := mkOp 0x0300 [.v 2, .v 2, .r 4, .ptr] rDTS wFT false

/-- A counter configuration word that Table 3.3 and R9 allow. -/
def counterWordOk (w : Nat) : Bool := bits w 30 29 != 3 && bits w 26 25 != 3 && bits w 6 0 == 0

/-- COLLECT.COUNTER: N words of Table 3.3 for heavy counters FIRST onward. -/
def execCollectCounter (c : Cmd) (s : State) : Host.Outcome State Fault Refusal :=
  let first := cp c 0 2
  let n := cp c 2 2
  let ws := (List.range n).map fun i => rd (cdata c 0) (4 * i) 4
  .next (runCmd opCollectCounter c
    [ckData opCollectCounter c 0 (4 * n), ckParam (decide (256 ≤ first)) 0, ckParam (ws.all counterWordOk) 8,
     ckRange (decide (first + n ≤ 16384)) 2] []
    (fun t => .ok 0 [] [] (t.modColl fun u =>
      { u with cfg := (List.range n).foldl (fun m i => tput m (first + i) (BitVec.ofNat 32 (ws.getD i 0))) u.cfg })) s)

def opCollectRead : OpSpec := mkOp 0x0304 [.v 2, .v 2, .r 4, .ptr] rDTS wFTH false

/-- COLLECT.READ: N values captured in one ENG cycle; accepted, its final reply carries the STAMP of the capture. -/
def execCollectRead (c : Cmd) (s : State) : Host.Outcome State Fault Refusal :=
  let first := cp c 0 2
  let n := cp c 2 2
  .next (runCmd opCollectRead c
    [ckNoInline c, ckWrite opCollectRead c 0, ckRange (decide (first + n ≤ 16384)) 2] []
    (fun t => .acc first (some (finOk 0 (be 8 t.tb0Ns)
      ((List.range n).map fun i => be 8 (getCounter t.coll.counters (first + i)).val.toNat).flatten)) t) s)

/-- COLLECT.STATUS: WIN, NLATE, LAST; SET 1 to 15 is refused while ENG is stopped (Table 16.24). -/
def opCollectStatus (set : Nat) : OpSpec := mkOp 0x0306 [.v 1] rDTS wFTH (set == 0)

def execCollectStatus (c : Cmd) (s : State) : Host.Outcome State Fault Refusal :=
  let i := cp c 0 1
  .next (runCmd (opCollectStatus i) c [ckNoInline c, ckRange (decide (i < 16)) 0] []
    (fun t => .ok 0 (be 4 ((t.set i).win / 1000) ++ be 4 (t.set i).nlate ++ be 8 (t.set i).lastStamp) [] t) s)

end Sys2Proof.Machine
end

