-- ==== Sys2Proof/Machine/Frames.lean ====
section
/-! DEFINITION. Billets and frames (R110 to R118, R486): coding, forming, checking, decoding. -/

namespace Sys2Proof.Machine

/-! ### Billet coding (R111, R112) -/

/-- Tag and payload bytes of one word's difference (R111). -/
def codeDiff (d : Nat) : Nat × Nat :=
  if d = 0 then (0, 0) else if d < 2 ^ 8 then (1, 1) else if d < 2 ^ 32 then (2, 4) else (3, 8)

/-- Code the words from index `i` on: `prev` holds the words before, newest first; `n` counts words of present cells. -/
def codeWords (n : Nat) : Nat → List Nat → List Nat → Nat × List Byte
  | _, _, [] => (0, [])
  | i, prev, w :: ws =>
    let p := if i < 8 then 0 else prev.getD 7 0
    let d := w ^^^ p
    let t := if n ≤ i then (0, 0) else codeDiff d
    let r := codeWords n (i + 1) (w :: prev) ws
    (t.1 * 4 ^ (31 - i) + r.1, be t.2 d ++ r.2)

/-- A coded Billet: cells present, index of the first cell that starts a record (7: none), CLEN, ORIGCRC, TAGS, payload. -/
structure Billet where
  ncell : Nat
  first : Nat
  crc : Nat
  tags : Nat
  payload : List Byte
deriving DecidableEq, Repr

/-- Code up to 4 cells, each marked with whether it starts a record (R111, Table 4.6). -/
def codeBillet (cells : List (Bool × List Byte)) : Billet :=
  let orig := padTo 256 (cells.map (·.2)).flatten
  let r := codeWords (8 * cells.length) 0 [] (dwords 32 orig)
  { ncell := cells.length, first := (cells.findIdx? (·.1)).getD 7, crc := crc64 orig, tags := r.1, payload := r.2 }

/-- Payload bytes that a slot holds: 108 at 2:1, 44 at 4:1 (R111). -/
def room (ratio : Bool) : Nat := if ratio then 44 else 108

/-- Bytes of a slot. -/
def slotSize (ratio : Bool) : Nat := if ratio then 64 else 128

/-- A Billet that needs an overflow chunk. -/
def Billet.over (b : Billet) (ratio : Bool) : Bool := decide (room ratio < b.payload.length)

/-- A Billet slot (Tables 4.6 and 4.7). -/
def slotBytes (ratio : Bool) (ovfId : Nat) (b : Billet) : List Byte :=
  let o := b.over ratio
  be 2 (b2n o * 2 ^ 15 + b2n ratio * 2 ^ 14 + (b.ncell - 1) * 2 ^ 12 + b.first * 2 ^ 9 + b.payload.length)
    ++ be 2 (if o then ovfId else 0) ++ be 8 b.crc ++ be 8 b.tags ++ padTo (room ratio) b.payload

/-- An overflow chunk with its header and padding (R112). -/
def chunkBytes (ratio : Bool) (ovfId : Nat) (b : Billet) : List Byte :=
  let d := b.payload.drop (room ratio)
  let l := be 4 (ovfId * 2 ^ 16 + d.length) ++ d
  padTo (ceilDiv l.length 8 * 8) l

/-- The next overflow identifier: counting from 1, 0 skipped at the wrap (R112). -/
def nextOvf (i : BitVec 16) : BitVec 16 := if i = 0xFFFF then 1 else i + 1

/-- Slots and chunks of a frame's Billets, with the identifier after them and the number of chunks. -/
def codeAll (ratio : Bool) : BitVec 16 → List Billet → List Byte × List Byte × BitVec 16 × Nat
  | id, [] => ([], [], id, 0)
  | id, b :: l =>
    let o := b.over ratio
    let r := codeAll ratio (if o then nextOvf id else id) l
    (slotBytes ratio id.toNat b ++ r.1, (if o then chunkBytes ratio id.toNat b else []) ++ r.2.1, r.2.2.1,
      r.2.2.2 + b2n o)

/-- Cells of a list of records, each with its start mark. -/
def recCells (rs : List Rec) : List (Bool × List Byte) :=
  (rs.map fun r => (chunksOf 64 32 (recBytes r)).mapIdx fun i c => (i == 0, c)).flatten

/-- Lists of up to 4 cells (R110). -/
def billetsOf (rs : List Rec) : List Billet := (piecesOf 4 64 (recCells rs)).map codeBillet

/-- A frame header (Table 4.5). -/
def frameHead (poly : Nat) (ratio ovff fwd : Bool) (cls nslot src dst mask : Nat) : List Byte :=
  be 16 (1 * 2 ^ 124 + poly * 2 ^ 122 + b2n ratio * 2 ^ 121 + b2n ovff * 2 ^ 120 + cls * 2 ^ 118 + b2n fwd * 2 ^ 117
    + nslot * 2 ^ 112 + src * 2 ^ 94 + dst * 2 ^ 76 + mask)

/-- A frame with its hop check right-aligned in the check field (R116). -/
def sealFrame (poly : Nat) (l : List Byte) : List Byte := l ++ be 8 (hopCrc poly l)

/-- A formed frame: data frame, overflow frame (empty for none), identifier after it, chunks. -/
structure Formed where
  data : List Byte
  ovf : List Byte
  ovfId : BitVec 16
  chunks : Nat
deriving DecidableEq, Repr

/-- Form the frame or frame pair of a list of records (R110, R112). -/
def formFrame (g : StreamCfg) (cls src dst mask : Nat) (fwd : Bool) (rs : List Rec) : Formed :=
  let p := g.poly.toNat
  let bs := billetsOf rs
  let r := codeAll g.ratio g.ovfId bs
  { data := sealFrame p (frameHead p g.ratio false fwd cls bs.length src dst mask ++ r.1),
    ovf := if r.2.2.2 = 0 then [] else sealFrame p (frameHead p g.ratio true fwd cls r.2.2.2 src dst mask ++ r.2.1),
    ovfId := r.2.2.1, chunks := r.2.2.2 }

/-- NSLOT allowed: 15 at 2:1, 31 at 4:1; 3 and 7 with CRC-16/CCITT (R110). -/
def maxSlots (g : StreamCfg) : Nat := if g.poly = 3 then (if g.ratio then 7 else 3) else (if g.ratio then 31 else 15)

/-- A list of records fits one frame (R110). -/
def fitsFrame (g : StreamCfg) (rs : List Rec) : Bool :=
  let n := (rs.map fun r => r.cells.toNat).sum
  decide (ceilDiv n 4 ≤ maxSlots g) && (g.poly != 3 || ceilDiv n 4 == 1
    || decide ((formFrame g 0 0 0 0 false rs).ovf.length ≤ 512))

/-- The longest prefix of whole records that fits one frame. It is empty where the first record fits none, as a long record on a stream
whose POLY is CRC-16/CCITT: R110 leaves it queued until R57 has it dropped (DEDUCED, log entry 83). -/
def fillFrame (g : StreamCfg) : List Rec → List Rec → List Rec
  | acc, [] => acc
  | acc, r :: l => if fitsFrame g (acc ++ [r]) then fillFrame g (acc ++ [r]) l else acc

/-! ### Receiving (R113 to R118, R486) -/

/-- The hop check of a frame holds, and its length is that of its header (R116). -/
def frameGood (b : List Byte) : Bool :=
  let h := rd b 0 16
  decide (24 ≤ b.length) && rd b (b.length - 8) 8 == hopCrc (bits h 123 122) (b.take (b.length - 8))
    && (bit h 120 || b.length == 24 + bits h 116 112 * slotSize (bit h 121))

/-- Decode words from TAGS and payload in the order of R111: `none` where the payload ends early; with it the bytes left. -/
def decodeWords (tags : Nat) (n : Nat) : Nat → Nat → List Nat → List Byte → Option (List Nat × List Byte)
  | 0, _, _, l => some ([], l)
  | k + 1, i, prev, l =>
    let p := if i < 8 then 0 else prev.getD 7 0
    let sz := match tags / 4 ^ (31 - i) % 4 with | 0 => 0 | 1 => 1 | 2 => 4 | _ => 8
    if l.length < sz then none
    else
      let w := if n ≤ i then 0 else beNat (l.take sz) ^^^ p
      match decodeWords tags n k (i + 1) (w :: prev) (l.drop sz) with
      | some r => some (w :: r.1, r.2)
      | none => none

/-- The chunk of an identifier in an overflow frame's bytes after the header (R112). -/
def findChunk (id : Nat) : Nat → List Byte → Option (List Byte)
  | 0, _ => none
  | n + 1, l =>
    if l.length < 4 then none
    else
      let len := rd l 2 2 % 512
      if rd l 0 2 = id then some ((l.drop 4).take len) else findChunk id n (l.drop (ceilDiv (4 + len) 8 * 8))

/-- A Billet decoded and checked: FIRST and the cells, or `none` where it is lost (R113, R118, R486). `ovf` is the overflow
frame that followed, where it came and checked good. -/
def decodeBillet (ratio : Bool) (slot : List Byte) (ovf : Option (List Byte)) : Option (Nat × List (List Byte)) :=
  let c := rd slot 0 2
  let o := bit c 15
  let n := bits c 13 12 + 1
  let first := bits c 11 9
  let clen := bits c 8 0
  let id := rd slot 2 2
  if (4 ≤ first ∧ first ≤ 6) ∨ 256 < clen ∨ o = decide (clen ≤ room ratio) ∨ bit c 14 ≠ ratio ∨ (!o ∧ id ≠ 0) then none
  else
    let inSlot := (slot.drop 20).take (min clen (room ratio))
    let chunk := if o then ovf.bind fun f => findChunk id 31 ((f.take (f.length - 8)).drop 16) else some []
    match chunk with
    | none => none
    | some x =>
      if inSlot.length + x.length ≠ clen then none
      else match decodeWords (rd slot 12 8) (8 * n) 32 0 [] (inSlot ++ x) with
        | some (ws, []) =>
          let orig := (ws.map (be 8)).flatten
          if crc64 orig = rd slot 4 8 then some (first, (chunksOf 64 4 orig).take n) else none
        | _ => none

/-- Reading records out of cells (R114): `skip` while cells are discarded after a lost Billet; `need` cells still missing of
the record in `buf`. -/
structure CellSt where
  skip : Bool
  need : Nat
  buf : List Byte
  recs : List (List Byte)
  bad : Nat
deriving DecidableEq, Repr

/-- One cell. -/
def cellStep (t : CellSt) (c : List Byte) : CellSt :=
  if t.skip then t
  else if 0 < t.need then
    if t.need = 1 then { t with need := 0, buf := [], recs := t.recs ++ [t.buf ++ c] }
    else { t with need := t.need - 1, buf := t.buf ++ c }
  else
    let n := rd c 12 1
    if n = 0 ∨ 32 < n then { t with skip := true, bad := t.bad + 1 }
    else if n = 1 then { t with recs := t.recs ++ [c] }
    else { t with need := n - 1, buf := c }

/-- One Billet, decoded or lost. A Billet that is lost only because its overflow chunk is missing is a failed Billet of R118 and counted
with them (DEDUCED: R113 names no counter; log entry 83). -/
def billetStep (t : CellSt) (b : Option (Nat × List (List Byte))) : CellSt :=
  match b with
  | none => { t with skip := true, need := 0, buf := [], bad := t.bad + 1 }
  | some (first, cells) =>
    if t.skip then
      if first = 7 then t
      else (cells.drop first).foldl cellStep { t with skip := false, need := 0, buf := [] }
    else cells.foldl cellStep t

/-- The records that a data frame and the overflow frame after it carry, with the count of failed Billets and cells. -/
def frameRecords (data : List Byte) (ovf : Option (List Byte)) : List (List Byte) × Nat :=
  let h := rd data 0 16
  let ratio := bit h 121
  let slots := chunksOf (slotSize ratio) 31 ((data.take (data.length - 8)).drop 16)
  let t := (slots.map fun x => decodeBillet ratio x ovf).foldl billetStep
    { skip := false, need := 0, buf := [], recs := [], bad := 0 }
  (t.recs, t.bad)

/-- A data frame with a Billet that needs the overflow frame (R113). -/
def needsOverflow (data : List Byte) : Bool :=
  let h := rd data 0 16
  (chunksOf (slotSize (bit h 121)) 31 ((data.take (data.length - 8)).drop 16)).any fun x => bit (rd x 0 2) 15

/-- The record that checked bytes spell: CRC-32C, FMT, CELLS and TYPE good (R98, R99). -/
def parseRec (b : List Byte) : Option Rec :=
  let h := rd b 0 16
  let cells := bits h 31 24
  let typ := BitVec.ofNat 8 (bits h 127 120)
  if cells = 0 ∨ 32 < cells ∨ b.length ≠ 64 * cells ∨ bits h 119 116 ≠ 1 ∨ knownType typ = false
      ∨ crc32c (b.take (b.length - 4)) ≠ rd b (b.length - 4) 4 then none
  else
    some { typ := typ, role := BitVec.ofNat 2 (bits h 115 114), cls := BitVec.ofNat 2 (bits h 113 112),
           src := BitVec.ofNat 18 (bits h 111 94), unit := BitVec.ofNat 6 (bits h 93 88),
           pos := BitVec.ofNat 24 (bits h 87 64), stamp := BitVec.ofNat 32 (bits h 63 32), cells := BitVec.ofNat 8 cells,
           flags := BitVec.ofNat 8 (bits h 23 16), epochLo := BitVec.ofNat 16 (bits h 15 0),
           body := (b.take (b.length - 4)).drop 16 }

end Sys2Proof.Machine
end

