-- ==== Sys2Proof/Machine/Weir.lean ====
section
/-! DEFINITION. Weir and Sluice (spec/05), and the books of Hopper that need no other unit (R119 to R122). -/

namespace Sys2Proof.Machine

/-- Flits of a frame (R127). -/
def flitsOf (len : Nat) : Nat := ceilDiv len 32

/-- Flit period of an interface in picoseconds (R462). -/
def flitPs (i : Nat) : Nat := if i = 0 then Config.fabFlitPs else Config.sideFlitPs

/-- The interface that leads to the tray master or parent (R466). -/
def State.parentIfc (s : State) : Nat := if s.isDie && !s.sys.acting then 1 else 0

/-! ### Time gates (R136, R137) -/

/-- Fields of a gate entry (Table 5.3). -/
def gateValid (e : Dword) : Bool := bit e.toNat 63
def gateOpen (e : Dword) (c : Nat) : Bool := bit e.toNat (56 + c)
def gateStart (e : Dword) : Nat := bits e.toNat 47 24 * 100
def gateLen (e : Dword) : Nat := bits e.toNat 23 0 * 100

/-- Class c is open at an offset of the gate cycle (R136). -/
def openAt (es : List Dword) (c off : Nat) : Bool :=
  let cov := es.filter fun e => gateValid e && decide (gateStart e ≤ off) && decide (off < gateStart e + gateLen e)
  cov.isEmpty || cov.any fun e => gateOpen e c

/-- Offsets of the gate cycle at which the set of covering entries changes. -/
def gateEdges (es : List Dword) (cyc : Nat) : List Nat :=
  sortNat (0 :: ((es.filter gateValid).map fun e => [gateStart e, (gateStart e + gateLen e) % cyc]).flatten).eraseDups

/-- The end of the open interval of class c that contains t, in nanoseconds: the first edge after t at which c is
closed, within two gate cycles; `none` where it never closes. -/
def openEnd (es : List Dword) (cyc c t : Nat) : Option Nat :=
  let base := t / cyc * cyc
  let edges := ((List.range 3).map fun k => (gateEdges es cyc).map fun o => (base + k * cyc + o, o)).flatten
  ((edges.filter fun e => decide (t < e.1)).find? fun e => !openAt es c e.2).map (·.1)

/-- fits(c, t, n) of R137 for the schedule of an interface. -/
def State.gateFits (s : State) (i c n : Nat) : Bool :=
  let f := s.ifc i
  if !(f.gates.any gateValid) then true
  else if !openAt f.gates c (s.tb0Ns % f.gateCyc) then false
  else match openEnd f.gates f.gateCyc c s.tb0Ns with
    | none => true
    | some e => decide (s.tb0Frac * 1000 + n * flitPs i * 2 ^ 16 ≤ e * 1000 * 2 ^ 16)

/-- An accepted schedule takes effect at the next gate cycle boundary (R138). -/
def State.gateRoll (i : Nat) (s : State) : State :=
  s.modIfc i fun f =>
    match f.gateNext with
    | some (cyc, es) =>
      if f.gateLast < s.tb0Ns / f.gateCyc then
        { f with gateCyc := cyc, gates := es, gateNext := none, gateLast := s.tb0Ns / cyc }
      else f
    | none => { f with gateLast := s.tb0Ns / f.gateCyc }

/-! ### Selection (R128 to R131) -/

/-- A pending shaper word takes effect at a selection: fields, and the tokens 0 or BURST (R133, Table 5.2). -/
def ClassQ.applyWord (k : ClassQ) : ClassQ :=
  match k.next with
  | some w =>
    let v := w.toNat
    { k with en := bit v 63, rate := bits v 57 40, burst := bits v 39 16, wOwn := bits v 15 8, wFwd := bits v 7 0,
             tokens := if bit v 62 then bits v 39 16 else 0, next := none }
  | none => k

/-- a is not later than b, by the sign of their difference modulo 2^64 (R135). -/
def tagLe (a b : Dword) : Bool := decide (0 ≤ (b - a).toInt)

/-- Until a die-role block is joined only JOIN records and the EPOCH records that R54 places before them may leave (R17): those of
class 1, the class of JOIN. They pass the records that R17 keeps queued (DEDUCED: R17 against the order of R126; log entry 83). -/
def State.mayLeave (s : State) (q : QRec) : Bool :=
  !s.isMember || s.sys.joined || q.r.typ == tJoin || (q.r.typ == tEpoch && q.r.cls == 1)

/-- The first hop that a queued record owes on an interface. -/
def State.hopOn (s : State) (i : Nat) (q : QRec) : Option Hop := (s.targets q).find? fun h => h.ifc == i

/-- DMASK of a queued record: that of a multicast, 0 for unicast (Table 4.5). -/
def destMask : Dest → Nat
  | .children m _ => m.toNat
  | _ => 0

/-- The records of an OWN queue that may form the next frame: those that go where the head goes (log entry 8). -/
def State.ownCandidates (s : State) (i c : Nat) : List QRec :=
  let l := (s.ownQ i c).filter s.mayLeave
  match l with
  | [] => []
  | q :: _ => l.takeWhile fun x => s.hopOn i x == s.hopOn i q && destMask x.dst == destMask q.dst

/-- A candidate frame of an OWN queue: its two frames, its records, its hop, its DMASK, and whether it is newly formed (R144). -/
structure OwnFrame where
  fr : Formed
  qs : List QRec
  hop : Hop
  mask : Nat
  fresh : Bool
deriving DecidableEq, Repr

/-- The frame that the head of an OWN queue makes: the next copy of a multicast frame in copying (R144), else a new one. -/
def State.ownFrame (s : State) (i c : Nat) (l : List QRec) : OwnFrame :=
  let g := s.scfg c
  let h := ((l.head?).bind (s.hopOn i)).getD { ifc := i, dst := 0 }
  let m := match l.head? with | some q => destMask q.dst | none => 0
  match g.copies.find? fun x => m != 0 && (l.take x.poss.length).map (fun q => q.r.pos.toNat) == x.poss with
  | some x =>
    { fr := { data := x.data, ovf := x.ovf, ovfId := g.ovfId, chunks := 0 }, qs := l.take x.poss.length, hop := h, mask := m,
      fresh := false }
  | none =>
    let rs := fillFrame g [] (l.map (·.r))
    { fr := formFrame g c s.sys.laddr.toNat (if m = 0 then h.dst.toNat else 0x3FFFF) m false rs, qs := l.take rs.length,
      hop := h, mask := m, fresh := true }

/-- A record that R57 does not let leave: its STAMP is more than 2 s older than TB0. -/
def State.stale (s : State) (q : QRec) : Bool := decide (q.full + 2000000000 < s.tb0Ns)

/-- A queued record leaves Hopper: its cells are free, the AO count of queued records falls. -/
def State.leave (c : Nat) (q : QRec) (s : State) : State :=
  let s1 := s.modCfg c fun g => { g with queue := g.queue.filter fun x => x.r.pos != q.r.pos }
  let s2 := s1.modOut c fun o => { o with queued := o.queued - 1 }
  s2.modHop fun u => { u with freeCells := u.freeCells + q.r.cells.toNat }

/-- A stale record is dropped and counted in DROP_STALE (R109, R131). -/
def State.dropStale (c : Nat) (s : State) (q : QRec) : State :=
  (((s.leave c q).modOut c fun o => { o with dropStale := o.dropStale + 1 }).dropMark c)

/-- A copy of a record has left towards a hop; with no copy owed any more the record leaves Hopper. -/
def State.copySent (c : Nat) (h : Hop) (s : State) (q : QRec) : State :=
  let q2 := { q with sent := q.sent ++ [h] }
  if (s.targets q2).isEmpty then s.leave c q
  else s.modCfg c fun g => { g with queue := g.queue.map fun x => if x.r.pos == q.r.pos then q2 else x }

/-- Charge a frame of `len` bytes: shaper tokens, on FAB both Sluice buckets, credits of its flits (R129, R140). Tokens
go down to 0 at most (R130). -/
def State.charge (i c len : Nat) (s : State) : State :=
  let s1 := s.modClass i c fun k => { k with tokens := k.tokens - len }
  let s2 := if i = 0 then
      s1.modHop fun u => { u with sluice := lmod (lmod u.sluice 0 (· - len)) (c + 1) (· - len) }
    else s1
  s2.modIfc i fun f =>
    { f with held := f.held - flitsOf len, outstanding := f.outstanding + flitsOf len,
             credStart := if f.outstanding = 0 then s.tb1Ns else f.credStart }

/-- HOP_CORRUPT spoils the check of the next frames (SYS.INJECT). -/
def spoil (l : List Byte) : List Byte :=
  match l.getLast? with
  | some b => l.dropLast ++ [b ^^^ 0xFF]
  | none => l

/-- The frame leaves on its interface. -/
def State.sendFrame (i : Nat) (l : List Byte) (s : State) : State :=
  if s.sys.injects.any (fun j => j.fault == 3 && decide (0 < j.left)) then
    let js := s.sys.injects.map fun (j : Inject) => if j.fault == 3 then { j with left := j.left - 1 } else j
    State.emit (.frame i (spoil l)) (s.modSys fun u => { u with injects := js })
  else s.emit (.frame i l)

/-- Virtual time moves as a frame of a queue leaves (R135): V takes the start tag, F follows by length over weight, and the
next head starts at the finish tag. -/
def ClassQ.moveV (k : ClassQ) (own : Bool) (len : Nat) (more : Bool) : ClassQ :=
  if own then
    let f := k.sOwn + BitVec.ofNat 64 (len * 2 ^ 16 / k.wOwn)
    { k with v := k.sOwn, fOwn := f, sOwn := if more then f else k.sOwn, heldMark := [], ownActive := more }
  else
    let f := k.sFwd + BitVec.ofNat 64 (len * 2 ^ 16 / k.wFwd)
    { k with v := k.sFwd, fFwd := f, sFwd := if more then f else k.sFwd }

/-- An OWN queue that was empty at the last selection and holds a frame now is newly active: it starts at the virtual time, which
moves at selections only (R135). -/
def State.syncOwn (i : Nat) (s : State) : State :=
  [0, 1, 2, 3].foldl (fun t c =>
    let some1 := !(t.ownQ i c).isEmpty
    t.modClass i c fun k => { k with sOwn := if some1 && !k.ownActive then k.v else k.sOwn, ownActive := some1 }) s

/-- The flits of a frame of `len` bytes are on their way (R129); `recs` records left Hopper with it. -/
def State.leavingNow (i c len recs : Nat) (s : State) : State :=
  s.modIfc i fun f =>
    { f with leaving := some { till := s.time.tb1.toNat * 1000 + flitsOf len * flitPs i * 2 ^ 16, cls := c, recs := recs } }

/-- The frame whose flits are leaving an interface, if any. -/
def State.onTheWay (s : State) (i : Nat) : Option Leaving :=
  match (s.ifc i).leaving with
  | some x => if s.time.tb1.toNat * 1000 < x.till then some x else none
  | none => none

/-- An overrun of the gate is counted (R137). -/
def State.overrun (i : Nat) (late : Bool) (s : State) : State :=
  if late then s.modIfc i fun f => { f with overrun := satAdd 32 f.overrun 1 } else s

/-- Overflow bytes of an overflow frame as the overflow buffer holds them, in cells (R112). -/
def ovfCellsOf (ovf : List Byte) : Nat := ceilDiv (ovf.length - 24) 64

/-- What R128 says of a candidate of class c on interface i, of length L and n flits. -/
inductive Verdict128 where
  | skip
  | sluiceClass
  | sluiceAll
  | wait
  | go
deriving DecidableEq, Repr

/-- Credits and Sluice bytes that R287 holds aside for LAST_GASP. -/
def State.asideCredits (s : State) (i : Nat) : Nat := if s.parentIfc = i then 5 else 0
def State.asideBytes (s : State) (i : Nat) : Nat := if s.parentIfc = i ∧ i = 0 then 152 else 0

/-- The tests of R128 in their order, for a candidate. -/
def State.judge128 (s : State) (i c L n : Nat) : Verdict128 :=
  let k := (s.ifc i).classQ c
  if !s.gateFits i c n then .skip
  else if k.tokens < L then .skip
  else if i = 0 ∧ lget s.hop.sluice (c + 1) 0 < L + (if c = 0 then s.asideBytes i else 0) then .sluiceClass
  else if i = 0 ∧ lget s.hop.sluice 0 0 < L + s.asideBytes i then .sluiceAll
  else if (s.ifc i).held < n + s.asideCredits i then .wait
  else .go

/-- SLUICE_HELD counts a frame once (R128); an OWN frame is named by the positions of its records. -/
def State.markHeld (i c : Nat) (own : Option (List Nat)) (s : State) : State :=
  let k := (s.ifc i).classQ c
  match own with
  | some ps =>
    if ps.any k.heldMark.contains then s else (s.modClass i c fun x => { x with heldMark := ps }).bump cSluiceHeld
  | none =>
    match k.fwd with
    | [] => s
    | f :: l =>
      if f.heldMark then s else (s.modClass i c fun x => { x with fwd := { f with heldMark := true } :: l }).bump cSluiceHeld

/-- The multicast frames in copying after a send: those of which every record is still queued (R144). -/
def keepCopies (q : List QRec) (l : List CopyFrame) : List CopyFrame :=
  l.filter fun x => x.poss.all fun p => q.any fun e => e.r.pos.toNat == p

/-- Send the head of an OWN queue (R128, R129, R144): the copy towards one hop. -/
def State.sendOwn (i c : Nat) (o : OwnFrame) (late : Bool) (s : State) : State :=
  let L := o.fr.data.length + o.fr.ovf.length
  let s1 := (s.charge i c o.fr.data.length).sendFrame i o.fr.data
  let s2 := o.qs.foldl (State.copySent c o.hop) s1
  let cp : CopyFrame := { poss := o.qs.map fun q => q.r.pos.toNat, data := o.fr.data, ovf := o.fr.ovf }
  let s3 := (s2.modCfg c fun g =>
    { g with ovfId := o.fr.ovfId,
             copies := keepCopies g.queue (if o.mask ≠ 0 ∧ o.fresh then g.copies ++ [cp] else g.copies) }).bumpN
    cBilletOverflow o.fr.chunks
  let more := !(s3.ownQ i c).isEmpty
  let s4 := ((s3.modClass i c fun k => k.moveV true L more).overrun i late).leavingNow i c o.fr.data.length
    ((s.out c).queued - (s2.out c).queued)
  if o.fr.ovf.isEmpty then s4
  else (s4.modIfc i fun f => { f with second := some { cls := c, bytes := o.fr.ovf, dst := o.hop.dst } }).modHop fun u =>
    { u with freeCells := u.freeCells - ovfCellsOf o.fr.ovf, ovfCells := u.ovfCells + ovfCellsOf o.fr.ovf }

/-- The overflow frame of a pair leaves (R129, R130): charged as far as the tokens go, its overflow freed (R112). -/
def State.sendSecond (i : Nat) (p : Second) (late : Bool) (s : State) : State :=
  let n := ovfCellsOf p.bytes
  ((((((s.charge i p.cls p.bytes.length).sendFrame i p.bytes).modIfc i fun f => { f with second := none }).overrun i
    late).leavingNow i p.cls p.bytes.length 0).modHop fun u =>
    { u with freeCells := u.freeCells + n, ovfCells := u.ovfCells - n })

/-- An overflow frame that waits to leave is given up: its cells are free. -/
def State.dropSecond (i : Nat) (s : State) : State :=
  match (s.ifc i).second with
  | some p =>
    let n := ovfCellsOf p.bytes
    (s.modIfc i fun f => { f with second := none }).modHop fun u => { u with freeCells := u.freeCells + n, ovfCells := u.ovfCells - n }
  | none => s

/-- Change HOPSRC, HOPDST, DMASK and FWD of a frame, with the new hop check (R117). -/
def rehop (b : List Byte) (src dst mask : Nat) : List Byte :=
  let h := rd b 0 16
  let poly := bits h 123 122
  let h2 := h - bits h 117 117 * 2 ^ 117 + 2 ^ 117 - bits h 111 94 * 2 ^ 94 + src * 2 ^ 94 - bits h 93 76 * 2 ^ 76
    + dst * 2 ^ 76 - bits h 63 0 + mask
  sealFrame poly (be 16 h2 ++ (b.take (b.length - 8)).drop 16)

/-- The head of a FWD queue is gone; the next head starts where R135 says. -/
def ClassQ.fwdDrop (k : ClassQ) : ClassQ :=
  let rest := k.fwd.drop 1
  { k with fwd := rest, sFwd := if rest.isEmpty then k.sFwd else (if tagLe k.v k.fFwd then k.fFwd else k.v) }

/-- Cells of a forwarded frame leave Hopper; the overflow of a pair moves to the overflow buffer until its frame has left. -/
def State.freeFwd (n : Nat) (s : State) : State := s.modHop fun u => { u with freeCells := u.freeCells + n }

/-- A forwarded frame held for more than 2 s (R131). -/
def State.fwdStale (s : State) (f : FwdFrame) : Bool := decide (f.arrived + 2000000000 < s.tb1Ns)

/-- The head of a FWD queue is dropped whole and counted for its stream (R131). -/
def State.dropFwd (i c : Nat) (s : State) : State :=
  match ((s.ifc i).classQ c).fwd with
  | f :: _ => ((s.modClass i c ClassQ.fwdDrop).freeFwd f.cells).bump (0xF4 + c)
  | [] => s

/-- Send the head of a FWD queue, one copy of it. Its DMASK stays: that of a multicast, that of a re-send which names a standby
index (R173), 0 for any other frame (R117). -/
def State.sendFwd (i c : Nat) (f : FwdFrame) (late : Bool) (s : State) : State :=
  let h := f.hops.headD { ifc := i, dst := 0 }
  let L := f.data.length + f.ovf.length
  let dst := if bits (rd f.data 0 16) 93 76 = 0x3FFFF then 0x3FFFF else h.dst.toNat
  let mask := bits (rd f.data 0 16) 63 0
  let s1 := (s.charge i c f.data.length).sendFrame i (rehop f.data s.sys.laddr.toNat dst mask)
  let rest := f.hops.drop 1
  let s2 := s1.modClass i c fun k =>
    let q := if rest.isEmpty then k.fwd.drop 1 else { f with hops := rest, heldMark := false } :: k.fwd.drop 1
    { k with fwd := q }
  let s3 := if rest.isEmpty then s2.freeFwd f.cells else s2
  let more := !((s3.ifc i).classQ c).fwd.isEmpty
  let s4 := ((s3.modClass i c fun k => k.moveV false L more).overrun i late).leavingNow i c f.data.length 0
  if f.ovf.isEmpty then s4
  else (s4.modIfc i fun x =>
    { x with second := some { cls := c, bytes := rehop f.ovf s.sys.laddr.toNat dst mask, dst := h.dst } }).modHop fun u =>
    { u with freeCells := u.freeCells - ovfCellsOf f.ovf, ovfCells := u.ovfCells + ovfCellsOf f.ovf }

/-- The scheduler's pass over the classes (R128), restarting where a stale record or frame was dropped (R131); `fuel` bounds the
restarts by what is queued. -/
def State.selectFrom (i : Nat) (late : Bool) : Nat → List Nat → State → State
  | 0, _, s => s
  | _ + 1, [], s => s
  | fuel + 1, c :: cs, s =>
    let k := (s.ifc i).classQ c
    let l := s.ownCandidates i c
    let o := s.ownFrame i c l
    if o.qs.isEmpty && l.any s.stale then
      State.selectFrom i late fuel [0, 1, 2, 3] ((l.filter s.stale).foldl (State.dropStale c) s)
    else if (o.qs.isEmpty && k.fwd.isEmpty) || !k.en then State.selectFrom i late fuel cs s
    else if k.fwd.isEmpty || (!o.qs.isEmpty && tagLe k.sOwn k.sFwd) then
      let L := o.fr.data.length + o.fr.ovf.length
      let ps := o.qs.map fun q => q.r.pos.toNat
      match s.judge128 i c L (flitsOf o.fr.data.length + flitsOf o.fr.ovf.length) with
      | .skip => State.selectFrom i late fuel cs s
      | .sluiceClass => State.selectFrom i late fuel cs (s.markHeld i c (some ps))
      | .sluiceAll => s.markHeld i c (some ps)
      | .wait => s
      | .go =>
        let old := o.qs.filter s.stale
        if old.isEmpty then s.sendOwn i c o late
        else State.selectFrom i late fuel [0, 1, 2, 3] (old.foldl (State.dropStale c) s)
    else match k.fwd with
      | [] => State.selectFrom i late fuel cs s
      | f :: _ =>
        let L := f.data.length + f.ovf.length
        match s.judge128 i c L (flitsOf f.data.length + flitsOf f.ovf.length) with
        | .skip => State.selectFrom i late fuel cs s
        | .sluiceClass => State.selectFrom i late fuel cs (s.markHeld i c none)
        | .sluiceAll => s.markHeld i c none
        | .wait => s
        | .go =>
          if s.fwdStale f then State.selectFrom i late fuel [0, 1, 2, 3] (s.dropFwd i c) else s.sendFwd i c f late

/-! ### Refills (R132, R145) -/

/-- Every refill of shapers and Sluice buckets that is due (R132, R145): one for each k with TB1 ≥ k × 1,000 ns since the last; those
that fall while ENG does not run are not made up for. -/
def State.refill (s : State) : State :=
  let k := s.tb1Ns / 1000
  let n := k - s.hop.shaperK
  let m := k - s.hop.sluiceK
  if s.engUp then
    let d := sluiceDepth s.sys.strap
    let rates := sluiceAll s.sys.strap :: sluiceRate s.sys.strap
    s.modHop fun u => { u with
      shaperK := k, sluiceK := k,
      ifcs := u.ifcs.map fun f =>
        { f with cls := f.cls.map fun q => { q with tokens := min q.burst (q.tokens + n * q.rate) } },
      sluice := (u.sluice.zip rates).map fun b => min d (b.1 + m * b.2) }
  else s.modHop fun u => { u with shaperK := k, sluiceK := k }

/-- What holds at a selection of an interface before a candidate is judged: due refills (R149), pending shaper words (R133), the gate
schedule (R138), queues newly active (R135). -/
def State.beforeSelection (i : Nat) (s : State) : State :=
  (((s.refill).modIfc i fun f => { f with cls := f.cls.map ClassQ.applyWord }).gateRoll i).syncOwn i

/-- FRAME_SELECTION (R126 to R131, R133, R144, R149): the second frame of a pair leaves directly after the first; else the scheduler
selects. `late` says that the frame ran past the end of its open interval. -/
def execFrameSelection (ifc : Iface) (late : Bool) (s : State) : Host.Outcome State Fault Refusal :=
  let i := ifc.val
  if s.engUp && s.linkOk i && s.pow.phase == .running then
    let t := s.beforeSelection i
    match (t.ifc i).second with
    | some p => .next (t.sendSecond i p late)
    | none =>
      .next (t.selectFrom i late (5 * (1 + ((t.hop.cfg.map fun g => g.queue.length).sum)
        + (((t.ifc i).cls.map fun k => k.fwd.length).sum))) [0, 1, 2, 3])
  else .next s

/-- FWD_FRAME_STALE (R131): the head of a FWD queue held for more than 2 s is dropped whole. -/
def execFwdFrameStale (ifc : Iface) (cls : Fin 4) (s : State) : Host.Outcome State Fault Refusal :=
  match ((s.ifc ifc.val).classQ cls.val).fwd with
  | f :: _ => if s.engUp && s.fwdStale f then .next (s.dropFwd ifc.val cls.val) else .next s
  | [] => .next s

/-- SHAPER_REFILL (R132): in the first AO cycle with TB1 ≥ k × 1,000 ns every shaper adds RATE bytes up to BURST. -/
def execShaperRefill (s : State) : Host.Outcome State Fault Refusal := .next (if s.aoUp then s.refill else s)

/-- SLUICE_REFILL (R145): the five buckets of FAB at their fused rates and depth. -/
def execSluiceRefill (s : State) : Host.Outcome State Fault Refusal := .next (if s.aoUp then s.refill else s)

/-- ADMISSION_REFILL (R147). -/
def execAdmissionRefill (s : State) : Host.Outcome State Fault Refusal := .next (if s.aoUp then s.admitDue else s)

/-! ### Credits and links (R139 to R142, R466) -/

/-- CREDIT_RETURN (R142, Table 20.7): returned credits are usable again and restart the timer; void while the link is down. -/
def execCreditReturn (ifc : Iface) (n : BitVec 4) (s : State) : Host.Outcome State Fault Refusal :=
  if s.linkOk ifc.val then
    .next (s.modIfc ifc.val fun f =>
      let k := min n.toNat f.outstanding
      { f with held := f.held + k, outstanding := f.outstanding - k, credStart := s.tb1Ns })
  else .next s

/-- ARGB of an interface: 0 FAB, 1 to 16 SIDE link s + 1 (Table 13.2). -/
def ifcArg (i : Nat) : Nat := i

/-- CREDIT_TIMER_EXPIRY (R142, R149): every outstanding credit is reclaimed, counted and reported. -/
def execCreditTimerExpiry (ifc : Iface) (s : State) : Host.Outcome State Fault Refusal :=
  let f := s.ifc ifc.val
  if s.linkOk ifc.val ∧ 0 < f.outstanding ∧ s.past1 (f.credStart + f.credTo * 1000000) then
    .next ((s.modIfc ifc.val fun f =>
      { f with held := f.held + f.outstanding, outstanding := 0, reclaimed := satAdd 32 f.reclaimed f.outstanding }).stage
        0x0402 .notice (ifcArg ifc.val) f.outstanding)
  else .next s

/-- Credits that an interface must be granted: 278 on the one that leads to the parent, 273 elsewhere (R139, R287, R466). -/
def State.minCredits (s : State) (i : Nat) : Nat := if s.parentIfc = i then 278 else 273

/-- A link initialisation: LINK_UP is high and the PORT domain is out of reset (R139, R141). -/
def State.linkInit (i : Nat) (init : Nat) (s : State) : State :=
  let short := decide (init < s.minCredits i)
  let s1 := s.modIfc i fun f =>
    { f with held := init, granted := init, outstanding := 0, short := short, downAt := none }
  if short then s1.stage 0x0401 .notice (ifcArg i) init else s1

/-- FORWARDER events for the books: sources whose frames came by a hop (R122). -/
def State.forwarderEvent (via : Laddr) (s : State) : State :=
  let hit := fun (k : Nat) (x : Consumer) => x.via == via && k / 4 != via.toNat
  let s1 := (s.modHop fun u => { u with consumers := tmap u.consumers (fun k x =>
      if hit k x then { x with fwdEvent := true } else x) })
  (s1.modCrown fun u => { u with fwdLast :=
      (s.hop.consumers.filter fun e => hit e.1 e.2).foldl (fun t e => tput t (e.1 / 4) s.tb0Ns) s.crown.fwdLast })

/-! ### Consumer books (R105, R106, R122) -/

/-- A consumer's state for a stream that is new. -/
def consumerNew : Consumer :=
  { last := 0, base := none, deliv := 0, gap := 0, dup := 0, lostLink := 0, lostFwd := 0, restarts := 0, fwdEvent := false,
    dirty := false, reconAt := 0, via := 0 }

/-- RESTART of an EPOCH record's LSTATE (Table 4.4). -/
def isRestart (r : Rec) : Bool := r.typ == tEpoch && bit (rd r.body 8 1) 7

/-- The settlement of R122 for an accepted RECONCILE record of KIND 0, before the record itself is counted. -/
def settle (b : List Byte) (x : Consumer) : Consumer :=
  let left : Int := (rd b 4 8 : Int) - (rd b 20 8 : Int) - (rd b 28 8 : Int) - (rd b 36 8 : Int)
  let base := x.base.getD (left - 1 - (x.deliv : Int))
  let miss := left - 1 - base - (x.deliv : Int)
  let new := miss - (x.lostLink : Int) - (x.lostFwd : Int)
  let y := { x with base := some base, fwdEvent := false }
  if 0 < new then
    if x.fwdEvent then { y with lostFwd := x.lostFwd + new.toNat, dirty := true }
    else { y with lostLink := x.lostLink + new.toNat, dirty := true }
  else y

/-- The acceptance rule of R105 for a record that passed its checks; `via` is the hop it came from. The second component
says whether the record is accepted. -/
def State.acceptBooks (via : Laddr) (r : Rec) (s : State) : State × Bool :=
  let k := srcKey r.src r.cls.toNat
  let put := fun (x : Consumer) (t : State) =>
    t.modHop fun u => { u with consumers := tput u.consumers k { x with via := via } }
  let isRecon := r.typ == tReconcile && rd r.body 1 1 == 0
  let book := fun (x : Consumer) =>
    let y := if isRecon then { settle r.body x with reconAt := s.tb0Ns } else x
    { y with deliv := y.deliv + 1 }
  match tget s.hop.consumers k with
  | none =>
    let new := { consumerNew with last := r.pos, reconAt := s.tb0Ns }
    if 16384 ≤ s.hop.consumers.length then (s, true)
    else if isRestart r then (put { new with restarts := 1, base := some 0, deliv := 1 } s, true)
    else (put (book new) s, true)
  | some x =>
    if isRestart r then
      (put { x with last := r.pos, restarts := x.restarts + 1, base := some 0, deliv := 1, lostLink := 0, lostFwd := 0,
                    dup := 0, reconAt := s.tb0Ns } s, true)
    else
      let diff := (r.pos - x.last - 1).toNat
      if diff = 0 then (put (book { x with last := r.pos }) s, true)
      else if diff < 2 ^ 23 then
        (put (book { x with last := r.pos, gap := x.gap + diff }) (s.bump cRecSeqGap), true)
      else (put { x with dup := x.dup + 1 } s, false)

/-- BLK_PERIOD after a boundary `k` of the block beat grid: a new one holds from the next boundary of the old one (R83). -/
def BrakeUnit.blkP (b : BrakeUnit) (k : Nat) : Nat :=
  match b.blkNext with
  | some n => if n.2 ≤ k then n.1 else b.cfg.blkPeriod
  | none => b.cfg.blkPeriod

/-- A block beat of a member (R278); the watch over a member starts with its first record. -/
def State.blockBeat (a : Laddr) (s : State) : State :=
  if s.isMaster && s.sys.members.any (fun m => m.addr == a) then
    if s.brake.blocks.any fun b => b.addr == a then
      s.modBrake fun u => { u with blocks := u.blocks.map fun b => if b.addr == a then { b with beaten := true } else b }
    else
      (s.modBrake fun u => { u with blocks := u.blocks ++
          [{ addr := a, miss := 0, beaten := true, closed := false,
             k := gridAt (s.brake.blkP (gridAt s.brake.cfg.blkPeriod s.tb0Ns)) s.tb0Ns, steps := s.time.steps }] })
  else s

/-- A record that passed its checks is taken into the books; an accepted one is a block beat of its source, and one whose wire stamp
extension is not valid is counted (R56). A LAST_GASP record carries its instant whole and needs no extension (R484). -/
def State.acceptRec (via : Laddr) (r : Rec) (s : State) : State × Bool :=
  let p := s.acceptBooks via r
  if p.2 then
    let t := p.1.blockBeat r.src
    (if r.typ == tEpoch || r.typ == tLastGasp || t.inWindow r then t else t.bump cWireExtFail, true)
  else p

/-- An accepted EPOCH record refreshes the stamp extension of its source and stream (R54, R55). -/
def State.rxEpoch (r : Rec) (s : State) : State :=
  let e : RxEpoch :=
    { e := rd r.body 0 8, lock := BitVec.ofNat 2 (rd r.body 8 1), steps := BitVec.ofNat 16 (rd r.body 10 2),
      arrived := s.tb0Ns }
  s.modTime fun u => { u with epochs := tput u.epochs (srcKey r.src r.cls.toNat) e }

/-- A RECONCILE record of KIND 1 for one consumer (R122, Table 4.13). -/
def kind1Req (k : Nat) (x : Consumer) : Req :=
  { dst := .up, cls := 1, typ := tReconcile, unit := uHopper, flags := 0, stamp := none,
    body := be 1 (k % 4) ++ be 1 1 ++ zeros 2 ++ be 8 x.deliv ++ be 8 x.lostLink ++ be 8 x.lostFwd ++ be 8 x.dup
      ++ be 8 (k / 4) }

/-- RECONCILE records of KIND 1 for every stream whose LOST_LINK or LOST_FWD changed (R122). -/
def State.consumerRecons (s : State) : State :=
  let l := s.hop.consumers.filter fun e => e.2.dirty
  let s1 := l.foldl (fun t e => (State.recount t).send (kind1Req e.1 e.2)) s
  s1.modHop fun u => { u with consumers := tmap u.consumers (fun _ x => { x with dirty := false }) }

/-- RECONCILE_PERIOD (R119, R121, R122): at a boundary of the stream's reconciliation period. The records of KIND 1 leave on stream 1
and go out at the boundaries of its period (DESIGN CHOICE: R122 does not say of which stream's period; log entry 83). -/
def execReconcilePeriod (stream : Fin 8) (s : State) : Host.Outcome State Fault Refusal :=
  let c := stream.val
  let g := s.scfg c
  let b := gridAt (g.reconMs * 1000000) s.tb0Ns
  if s.engUp ∧ g.reconLast < b then
    let s1 := s.modCfg c fun x => { x with reconLast := b, reconMs := x.reconNext.getD x.reconMs, reconNext := none }
    if h : c < 4 then
      let s2 := if (s.out c).carried then
          let t := s1.settleEpoch ⟨c, h⟩ .every false
          if (t.out c).carried then t.putRecon ⟨c, h⟩ else t
        else s1
      .next (if c = 1 then s2.consumerRecons else s2)
    else .next s1
  else .next s

/-- EPOCH_RECORD_INTERVAL (R54): 999 ms of TB1 since the stream's last epoch record; owed while ENG is stopped. -/
def execEpochRecordInterval (stream : Fin 4) (s : State) : Host.Outcome State Fault Refusal :=
  let o := s.out stream.val
  if s.aoUp ∧ o.lastEpoch + 999000000 ≤ s.tb1Ns ∧ s.pow.phase = .running then
    if s.engUp then .next (s.putEpoch stream)
    else .next (s.modOut stream.val fun x => { x with epochOwed := true })
  else .next s

/-- The class 1 OWN queue of every interface is empty (R148). -/
def State.class1Empty (s : State) : Bool := (List.range 17).all fun i => (s.ownQ i 1).isEmpty

/-- TEARDOWN_FLUSH (R148): the flush records of the oldest deferred teardown are made and offered once class 1 is empty
everywhere, or 2 s after the command. -/
def execTeardownFlush (s : State) : Host.Outcome State Fault Refusal :=
  match s.hop.flushes with
  | f :: rest =>
    if s.engUp ∧ (s.class1Empty ∨ f.2.1 + 2000000000 ≤ s.tb1Ns) then
      .next (f.2.2.foldl (fun t q => t.send q) (s.modHop fun u => { u with flushes := rest }))
    else .next s
  | [] => .next s

/-! ### Commands of the STREAM group (Table 16.10) -/

def opStreamConfig : OpSpec := mkOp 0x0400 [.v 1, .v 1, .v 1, .r 1, .v 4, .v 2, .r 2] rDTS wFT false

/-- The quotas of the other streams (R107). -/
def State.otherQuotas (s : State) (c : Nat) : Nat :=
  ((List.range 8).map fun i => if i = c then 0 else (s.scfg i).quota).sum

/-- STREAM.CONFIG (R107, R110, R121): from the next frame formed, a new period from the next boundary of the old one (R83). -/
def execStreamConfig (c : Cmd) (s : State) : Host.Outcome State Fault Refusal :=
  let i := cp c 0 1
  let q := cp c 4 4
  let r := cp c 8 2
  .next (runCmd opStreamConfig c
    [ckNoInline c, ckParam (decide (cp c 1 1 ≤ 1)) 1, ckParam (decide (cp c 2 1 ≤ 3)) 2, ckRange (decide (i < 8)) 0,
     ckRange (decide (128 ≤ q) && decide (q ≤ 245760) && q % 64 == 0) 4, ckRange (decide (1 ≤ r) && decide (r ≤ 1000)) 8]
    [ckCap (decide (s.otherQuotas i + q ≤ 245760)) (245760 - s.otherQuotas i)]
    (fun t => .ok 0 [] [] (t.modCfg i fun g =>
      { g with quota := q, ratio := cp c 1 1 == 1, poly := BitVec.ofNat 2 (cp c 2 1), reconNext := some r })) s)

def opStreamShaper : OpSpec := mkOp 0x0401 [.v 1, .v 1, .r 6, .v 8] rDTS wFT false

/-- The RATE limit of an interface and class: the Sluice class ceiling on FAB, 262,143 MB/s on SIDE (Table 5.2). -/
def State.rateMax (s : State) (i c : Nat) : Nat := if i = 0 then lget (sluiceRate s.sys.strap) c 0 else 262143

/-- STREAM.SHAPER (Table 5.2, R30, R133): from the next selection of the interface. -/
def execStreamShaper (c : Cmd) (s : State) : Host.Outcome State Fault Refusal :=
  let i := cp c 0 1
  let k := cp c 1 1
  let w := cp c 8 8
  .next (runCmd opStreamShaper c
    [ckNoInline c, ckParam (bits w 61 58 == 0) 8, ckParam (bits w 57 40 != 0) 8,
     ckParam (decide (16384 ≤ bits w 39 16) && decide (bits w 39 16 ≤ 8388608)) 8,
     ckParam (bits w 15 8 != 0 && bits w 7 0 != 0) 8, ckRange (decide (i ≤ 16)) 0, ckRange (decide (k < 4)) 1,
     ckRange (decide (bits w 57 40 ≤ s.rateMax i k)) 8] []
    (fun t => .ok 0 [] [] (t.modClass i k fun x => { x with next := some (BitVec.ofNat 64 w) })) s)

def opStreamGate : OpSpec := mkOp 0x0402 [.v 1, .v 1, .r 2, .v 4, .ptr] rDTS wFT false

/-- A gate entry's reserved bits are 0 (R9, Table 5.3). -/
def gateRsvdOk (w : Nat) : Bool := bits w 62 60 == 0 && bits w 55 48 == 0

/-- Two valid entries overlap (R138). -/
def gatesOverlap : List Dword → Bool
  | [] => false
  | e :: l => (l.any fun f => decide (gateStart e < gateStart f + gateLen f) && decide (gateStart f < gateStart e + gateLen e))
      || gatesOverlap l

/-- Every open interval of a class that an entry opens is at least 273 flits long: seen from each edge at which the class
opens (R138). -/
def gatesLong (es : List Dword) (cyc ps c : Nat) : Bool :=
  !(es.any fun e => gateOpen e c) ||
    (gateEdges es cyc).all fun o =>
      !openAt es c o || openAt es c ((o + cyc - 1) % cyc) ||
        match openEnd es cyc c (cyc + o) with
        | none => true
        | some e => decide (273 * ps ≤ (e - (cyc + o)) * 1000)

/-- STREAM.GATE (R136, R138): an accepted schedule takes effect at the next gate cycle boundary. -/
def execStreamGate (c : Cmd) (s : State) : Host.Outcome State Fault Refusal :=
  let i := cp c 0 1
  let n := cp c 1 1
  let cyc := cp c 4 4 * 100
  let es := (List.range n).map fun j => BitVec.ofNat 64 (rd (cdata c 0) (8 * j) 8)
  let vs := es.filter gateValid
  .next (runCmd opStreamGate c
    [ckData opStreamGate c 0 (8 * n), ckParam (es.all fun e => gateRsvdOk e.toNat) 8, ckParam (decide (n ≤ 8)) 1,
     ckParam (!gatesOverlap vs) 8, ckParam (vs.all fun e => decide (gateStart e + gateLen e ≤ cyc)) 8,
     ckParam ([0, 1, 2, 3].all fun k => gatesLong vs cyc (flitPs i) k) 8, ckRange (decide (i ≤ 16)) 0,
     ckRange (decide (10000 ≤ cyc) && decide (cyc ≤ 1000000000)) 4] []
    (fun t => .ok 0 [] [] ((t.gateRoll i).modIfc i fun f =>
      { f with gateNext := some (cyc, es), gateLast := t.tb0Ns / f.gateCyc })) s)

def opStreamLink : OpSpec := mkOp 0x0403 [.v 1, .r 1, .v 2] rDTS wFT false

/-- STREAM.LINK (R142). -/
def execStreamLink (c : Cmd) (s : State) : Host.Outcome State Fault Refusal :=
  .next (runCmd opStreamLink c
    [ckNoInline c, ckRange (decide (cp c 0 1 ≤ 16)) 0, ckRange (decide (1 ≤ cp c 2 2) && decide (cp c 2 2 ≤ 1000)) 2] []
    (fun t => .ok 0 [] [] (t.modIfc (cp c 0 1) fun f => { f with credTo := cp c 2 2 })) s)

def opStreamStatus : OpSpec := mkOp 0x0404 [.v 1, .v 1] rDTS wFTH false

/-- Frames that a list of records makes; `n` bounds them. -/
def countFrames (g : StreamCfg) : Nat → List Rec → Nat
  | 0, _ => 0
  | n + 1, l => if l.isEmpty then 0 else 1 + countFrames g n (l.drop (max 1 (fillFrame g [] l).length))

/-- Frames queued for an interface in a class: those that its OWN records make, and its FWD queue. -/
def State.framesQueued (s : State) (i c : Nat) : Nat :=
  countFrames (s.scfg c) (s.ownQ i c).length ((s.ownQ i c).map (·.r)) + ((s.ifc i).classQ c).fwd.length

/-- STREAM.STATUS: TOKENS, QUEUED, OVERRUN, RECLAIM. -/
def execStreamStatus (c : Cmd) (s : State) : Host.Outcome State Fault Refusal :=
  let i := cp c 0 1
  let k := cp c 1 1
  .next (runCmd opStreamStatus c [ckNoInline c, ckRange (decide (i ≤ 16)) 0, ckRange (decide (k < 4)) 1] []
    (fun t => .ok 0 (be 4 ((t.ifc i).classQ k).tokens ++ be 4 (t.framesQueued i k) ++ be 4 (t.ifc i).overrun
      ++ be 4 (t.ifc i).reclaimed) [] t) s)

end Sys2Proof.Machine
end

