-- ==== Sys2Proof/Machine/CrownOps.lean ====
section
/-! DEFINITION. Crown's arithmetic (R153 to R160) and the operations on its levels, operands and trees. -/

namespace Sys2Proof.Machine

/-! ### Elements -/

/-- The bits of a binary64 value in the order of R156: larger keys are larger values. -/
def f64Key (b : Nat) : Nat := if 2 ^ 63 ≤ b then 2 ^ 64 - 1 - b else b + 2 ^ 63

/-- A NaN of binary64. -/
def f64Nan (b : Nat) : Bool := (fdec f64 b).isNan

/-- Bytes of an element in state (Table 6.3). -/
def Redn.elSize (d : Redn) : Nat :=
  match d.op with
  | 1 => 16
  | 2 => 16
  | 6 => 8 * (d.nb + 3)
  | 7 => 16 + 8 * d.cap
  | _ => 8

/-- Elements of a whole segment (R159). -/
def Redn.perSeg (d : Redn) : Nat := 1048576 / d.elSize

/-- Segments of a reduction (R159). -/
def Redn.segs (d : Redn) : Nat := ceilDiv d.nelem d.perSeg

/-- Elements of segment k (R159). -/
def Redn.segLen (d : Redn) (k : Nat) : Nat := min ((k + 1) * d.perSeg) d.nelem - k * d.perSeg

/-- The identity of the operator (Table 6.3). -/
def Redn.identity (d : Redn) : El :=
  match d.op with
  | 4 => .num (match d.etype with | 0 => 0 | 1 => -2 ^ 63 | _ => 0xFFF0000000000000)
  | 5 => .num (match d.etype with | 0 => 2 ^ 64 - 1 | 1 => 2 ^ 63 - 1 | _ => 0x7FF0000000000000)
  | 6 => .hist (List.replicate (d.nb + 3) 0)
  | 7 => .sk 0 []
  | _ => .num 0

/-- a is below b in the element type: integer order, or IEEE 754 comparison (R157). -/
def ltType (etype : Nat) (a b : Int) : Bool :=
  if etype = 2 then flt (fdec f64 a.toNat) (fdec f64 b.toNat) else decide (a < b)

/-- An edge in the element type. -/
def edgeVal (etype e : Nat) : Int := if etype = 1 then signed 64 e else (e : Int)

/-- The bin of a value (R157): the number of edges at or below it. -/
def Redn.bin (d : Redn) (v : Int) : Nat :=
  if d.etype = 2 && f64Nan v.toNat then d.nb + 2
  else (d.edges.filter fun e => !ltType d.etype v (edgeVal d.etype e)).length

/-- The key of a value in a sketch (R158). -/
def sketchKey (m b : Nat) : Nat :=
  let k := (b % 2 ^ 63) / 2 ^ (52 - m)
  if b < 2 ^ 63 then 0x80000000 + k else 0x7FFFFFFF - k

/-- A leaf value as an element in state, and whether a NaN was left out (R155 to R158). -/
def Redn.leafEl (d : Redn) (v : Int) : El × Bool :=
  let nan := d.etype == 2 && f64Nan v.toNat
  match d.op with
  | 6 => (.hist ((List.range (d.nb + 3)).map fun i => b2n (i == d.bin v)), false)
  | 7 => if nan then (.sk 0 [], true) else (.sk 1 [(sketchKey d.m v.toNat, 1)], false)
  | _ => if nan then (d.identity, true) else (.num v, false)

/-- Counts of equal keys added, buckets in ascending key order; saturation is reported (R158). -/
def mergeBuckets (a b : List (Nat × Nat)) : List (Nat × Nat) × Bool :=
  b.foldl (fun t e =>
    let n := tgetD t.1 e.1 0 + e.2
    (tput t.1 e.1 (min n (2 ^ 32 - 1)), t.2 || decide (2 ^ 32 - 1 < n))) (a, false)

/-- More than CAP buckets: the lowest are added into the (n - CAP + 1)-th lowest (R158). -/
def collapse (cap : Nat) (l : List (Nat × Nat)) : List (Nat × Nat) × Bool :=
  let k := l.length - cap
  match l.drop k with
  | [] => (l, false)
  | e :: rest =>
    let n := e.2 + ((l.take k).map (·.2)).sum
    ((e.1, min n (2 ^ 32 - 1)) :: rest, decide (2 ^ 32 - 1 < n))

/-- Binary64 addition as R155 has it: a NaN is the one quiet NaN. -/
def sumF (a b : Nat) : Nat :=
  let r := fadd f64 (fdec f64 a) (fdec f64 b)
  if r.isNan then 0x7FF8000000000000 else fenc f64 r

/-- One operand's element combined into a fold (R153 to R158), and whether a count saturated. -/
def Redn.combine (d : Redn) (a b : El) : El × Bool :=
  match d.op, a, b with
  | 3, .num x, .num y => (.num (sumF x.toNat y.toNat), false)
  | 4, .num x, .num y =>
    (.num (if d.etype = 2 then (if f64Key x.toNat < f64Key y.toNat then y else x) else max x y), false)
  | 5, .num x, .num y =>
    (.num (if d.etype = 2 then (if f64Key y.toNat < f64Key x.toNat then y else x) else min x y), false)
  | _, .num x, .num y => (.num (x + y), false)
  | _, .hist x, .hist y =>
    let l := x.zip y
    (.hist (l.map fun e => min (e.1 + e.2) (2 ^ 64 - 1)), l.any fun e => decide (2 ^ 64 - 1 < e.1 + e.2))
  | _, .sk n x, .sk k y =>
    let r := mergeBuckets x y
    if d.cap < r.1.length then
      let c := collapse d.cap r.1
      (.sk (n + k) c.1, r.2 || c.2)
    else (.sk (n + k) r.1, r.2)
  | _, x, _ => (x, false)

/-- Bytes of an element in state (R153, R158). The header of a sketch element is its bucket count, M and total
(DESIGN CHOICE: 4, 1, 3 reserved and 8 bytes; log entry 20). -/
def Redn.elBytes (d : Redn) : El → List Byte
  | .num v => if d.op ≤ 2 then be 16 (unsigned 128 v) else be 8 (unsigned 64 v)
  | .hist cs => (cs.map (be 8)).flatten
  | .sk n bs => padTo d.elSize (be 4 bs.length ++ be 1 d.m ++ zeros 3 ++ be 8 n
      ++ (bs.map fun e => be 4 e.1 ++ be 4 e.2).flatten)

/-- An element read from bytes. -/
def Redn.elParse (d : Redn) (b : List Byte) : El :=
  match d.op with
  | 1 => .num (rd b 0 16)
  | 2 => .num (signed 128 (rd b 0 16))
  | 6 => .hist ((List.range (d.nb + 3)).map fun i => rd b (8 * i) 8)
  | 7 => .sk (rd b 8 8) ((List.range (rd b 0 4)).map fun i => (rd b (16 + 8 * i) 4, rd b (20 + 8 * i) 4))
  | _ => .num (if d.etype = 1 then signed 64 (rd b 0 8) else (rd b 0 8 : Int))

/-- A leaf's element from its bytes: U64 and S64 values come as 64-bit integers (R153), F64 values as binary64; HIST and
SKETCH leaves as elements in state. -/
def Redn.leafSize (d : Redn) : Nat := if d.op = 6 ∨ d.op = 7 then d.elSize else 8

/-- Bytes of a leaf's element. -/
def Redn.leafBytes (d : Redn) : El → List Byte
  | .num v => be 8 (unsigned 64 v)
  | e => d.elBytes e

/-- An element of a leaf read from bytes. -/
def Redn.leafParse (d : Redn) (b : List Byte) : El :=
  match d.op with
  | 6 => d.elParse b
  | 7 => d.elParse b
  | _ => .num (if d.etype = 1 then signed 64 (rd b 0 8) else (rd b 0 8 : Int))

/-! ### Levels -/

/-- A level of cuts: tray, or fleet where `f` is true. -/
def State.level (s : State) (f : Bool) : CutLevel := if f then s.crown.fleet else s.crown.tray

/-- Change a level. -/
def State.modLevel (f : Bool) (g : CutLevel → CutLevel) (s : State) : State :=
  s.modCrown fun _ => if f then { s.crown with fleet := g s.crown.fleet } else { s.crown with tray := g s.crown.tray }

/-- The cut period of a level in nanoseconds (R162). -/
def State.cutP (s : State) (f : Bool) : Nat := if f then s.crown.fleetP else s.crown.trayP

/-- The reductions of a level once every pending change has taken effect. -/
def applyDefs (l : List Redn) (next : List (Nat × Option Redn)) : List Redn :=
  next.foldl (fun t e =>
    let u := t.filter fun d => d.rid != e.1
    match e.2 with
    | some d => sortLe (fun a b => decide (a.rid ≤ b.rid)) (u ++ [d])
    | none => u) l

/-- A tree of this node. -/
def State.tree (s : State) (i : Nat) : Option Tree := tget s.crown.trees i

/-- Height of a node with these trees: 1 for a tray master, one more than its highest child for a spine (R160). -/
def heightWith (spine : Bool) (ts : List (Nat × Tree)) : Nat :=
  if spine then 1 + ts.foldl (fun m t => t.2.children.foldl (fun k c => max k c.height) m) 1 else 1

/-- Height of this node (R160). -/
def State.nodeHeight (s : State) : Nat := heightWith s.isSpine s.crown.trees

/-- The trees of this node once every pending installation has taken effect. -/
def State.treesSoon (s : State) : List (Nat × Tree) := s.crown.treesNext.foldl (fun t e => tput t e.1 e.2) s.crown.trees

/-- Q of a level (R160): W_c + 3 ms for tray, W_c + 10 ms for fleet. -/
def corrWaitOf (f : Bool) (wc : Nat) : Nat := wc + (if f then 10000000 else 3000000)

/-- Q of a level at the W_c in force. -/
def State.corrWait (s : State) (f : Bool) : Nat := corrWaitOf f s.wcNs

/-- What the number of cut banks of a level rests on (R160): W_c, the node's height, SETTLE_HOP, the period and the reductions. -/
structure BankNeed where
  f : Bool
  wc : Nat
  height : Nat
  settle : Nat
  period : Nat
  defs : List Redn
deriving DecidableEq, Repr

/-- D × segments of a level: D = ⌈C ÷ P⌉ + 2 with C = Q + h × SETTLE_HOP (R160). -/
def BankNeed.banks (b : BankNeed) : Nat :=
  (ceilDiv (corrWaitOf b.f b.wc + b.height * b.settle) b.period + 2) * (b.defs.map Redn.segs).sum

/-- What a level will need once all that is pending has taken effect. -/
def State.bankNeed (s : State) (f : Bool) : BankNeed :=
  { f := f, wc := s.wcSoon, height := heightWith s.isSpine s.treesSoon, settle := (s.level f).settle,
    period := (s.level f).periodNext.getD (s.cutP f), defs := applyDefs (s.level f).defs (s.level f).defsNext }

/-- The cut banks of both levels are within the 30 of Crown's memory (R160). -/
def banksFit (a b : BankNeed) : Bool := decide (a.banks + b.banks ≤ 30)

/-! ### The grid of cuts (R162) -/

/-- The boundary at which a pending period takes effect, with that period: the next one at which the old period ends and that is a
multiple of the new one. -/
def CutLevel.turn (p : Nat) (l : CutLevel) : Option (Nat × Nat) :=
  l.periodNext.map fun q => ((l.lastT / Nat.lcm p q + 1) * Nat.lcm p q, q)

/-- The period of the grid at an instant. -/
def CutLevel.periodAt (p : Nat) (l : CutLevel) (t : Nat) : Nat :=
  match l.turn p, l.oldP with
  | some (b, q), _ => if b ≤ t then q else match l.oldP with | some (o, c) => if t < c then o else p | none => p
  | none, some (o, c) => if t < c then o else p
  | none, none => p

/-- The interval of the cut that contains an instant: that of a cut that waits, else that of the grid. -/
def CutLevel.spanAt (p : Nat) (l : CutLevel) (t : Nat) : Nat × Nat :=
  match l.closing.find? fun c => decide (c.t0 ≤ t) && decide (t < c.t1) with
  | some c => (c.t0, c.t1)
  | none => let q := l.periodAt p t; (t / q * q, (t / q + 1) * q)

/-- Distance of two instants. -/
def apart (a b : Nat) : Nat := max a b - min a b

/-- The end of the cut that an epoch number names: that of a cut that waits; else, of the grids around a change of the period, the one
nearest to the present. -/
def CutLevel.endOf (p now : Nat) (l : CutLevel) (n : Nat) : Nat :=
  match l.closing.find? fun c => c.n == n with
  | some c => c.t1
  | none =>
    let old := match l.oldP with | some (q, c) => if n * q ≤ c then [n * q] else [] | none => []
    let next := match l.turn p with | some (b, q) => if b < n * q then [n * q] else [] | none => []
    (old ++ next).foldl (fun a b => if apart now b < apart now a then b else a) (n * p)

/-! ### Contributors -/

/-- A role bit of RMASK (Table 16.12) for a node of height h: 0 die, 1 tray, more spine. -/
def maskHas (rmask h : Nat) : Bool := bit rmask (min h 2)

/-- RMASK names a role that is found at or below height h. -/
def maskUpTo (rmask h : Nat) : Bool := (List.range (min h 2 + 1)).any (bit rmask)

/-- RMASK bit of this block itself. -/
def State.ownInMask (s : State) (rmask : Nat) : Bool :=
  bit rmask (match s.sys.strap with | .die => 0 | .tray => 1 | .spine => 2 | .invalid => 3)

/-- The contributors that the tree configuration places at and under a child (R165). A child entry names its own children and none
below them, which stand for the contributors deeper in the tree (log entry 25). -/
def childContribs (rmask : Nat) (c : Child) : List Nat :=
  let l := (if maskHas rmask c.height then [c.addr.toNat] else [])
    ++ (if 0 < c.height && maskUpTo rmask (c.height - 1) then c.gcs.map fun g => g.1.toNat else [])
  if l.isEmpty then [c.addr.toNat] else l

/-- What a node expects for a reduction (R164): its own leaf, a leaf or a partial of each active child. Each entry is the
sender, its span key, whether it sends a partial, and the contributors it covers. -/
structure Expect where
  src : Nat
  span : Nat
  partial1 : Bool
  covers : List Nat
deriving DecidableEq, Repr

/-- The expected operands of a reduction in ascending span key (R153, R164), for the trees of its cut. -/
def State.expects (s : State) (ts : List (Nat × Tree)) (d : Redn) : List Expect :=
  let own := if s.ownInMask d.rmask then
      [{ src := s.sys.laddr.toNat, span := s.sys.laddr.toNat, partial1 := false, covers := [s.sys.laddr.toNat] }] else []
  let kids := match tget ts d.tree with
    | some t => (t.children.filter fun c => c.active && maskUpTo d.rmask c.height).map fun c =>
        let l := childContribs d.rmask c
        ({ src := c.addr.toNat, span := l.foldl min (l.headD 0), partial1 := decide (0 < c.height), covers := l } : Expect)
    | none => []
  sortLe (fun a b => decide (a.span ≤ b.span)) (own ++ kids)

/-! ### What the fabric tells Crown of its contributors (R165) -/

/-- A restart of a contributor at an instant of TB0 nanoseconds; the latest 8 are kept. -/
def State.seenReset (a : Laddr) (t : Nat) (s : State) : State :=
  s.modCrown fun c =>
    let l := tgetD c.resets a.toNat []
    { c with resets := tput c.resets a.toNat ((l ++ [t]).drop ((l.length + 1) - 8)) }

/-- A contributor is shown not in RUN from an instant on, or in RUN again; the latest 16 changes are kept in order of time. -/
def State.seenPower (a : Laddr) (t : Nat) (asleep : Bool) (s : State) : State :=
  s.modCrown fun c =>
    let l := tgetD c.asleep a.toNat []
    let m := sortLe (fun x y => decide (x.1 ≤ y.1)) (l ++ [(t, asleep)])
    { c with asleep := tput c.asleep a.toNat (m.drop (m.length - 16)) }

/-- The contributor was not in RUN at an instant. -/
def State.asleepAt (s : State) (a t : Nat) : Bool :=
  match ((tgetD s.crown.asleep a []).filter fun e => decide (e.1 ≤ t)).getLast? with
  | some e => e.2
  | none => false

/-! ### Leaf values (R151, Table 16.12) -/

/-- One value combined into a window's aggregate: 0 LAST, 1 SUM, 2 MAX, 3 MIN. A sum of integers stays in 64 bits. -/
def aggregate (d : Redn) (old : Option Int) (v : Int) : Int :=
  match old with
  | none => v
  | some o =>
    match d.agg with
    | 0 => v
    | 1 => if d.etype = 2 then sumF o.toNat v.toNat
           else if d.etype = 1 then signed 64 (unsigned 64 (o + v)) else ((unsigned 64 (o + v) : Nat) : Int)
    | 2 => if d.etype = 2 then (if f64Key o.toNat < f64Key v.toNat then v else o) else max o v
    | _ => if d.etype = 2 then (if f64Key v.toNat < f64Key o.toNat then v else o) else min o v

/-- A sample of a leaf source, stamped at `t`: source kind, SEL and SUB, and its value by source index. -/
def CutLevel.leafSample (p kind sel sub t : Nat) (val : Nat → Option Int) (l : CutLevel) : CutLevel :=
  let q := l.periodAt p t
  let till := (t / q + 1) * q
  { l with leaves := (l.defs.filter fun d => d.lkind == kind && d.sel == sel && d.sub == sub).foldl (fun ls d =>
      let old := ls.find? fun a => a.rid == d.rid && a.till == till
      let vals := (List.range d.nelem).map fun i =>
        let o := (old.bind fun a => a.vals.getD i none)
        match val (d.base + i) with
        | some v => some (aggregate d o v)
        | none => o
      (ls.filter fun a => !(a.rid == d.rid && a.till == till)) ++ [{ rid := d.rid, till := till, vals := vals }]) l.leaves }

/-- A sample of a leaf source for both levels. -/
def State.leafSample (kind sel sub t : Nat) (val : Nat → Option Int) (s : State) : State :=
  (s.modLevel false (CutLevel.leafSample s.crown.trayP kind sel sub t val)).modLevel true
    (CutLevel.leafSample s.crown.fleetP kind sel sub t val)

/-! ### Operands -/

/-- An operand whose every record has come (R152). -/
def Operand.whole (o : Operand) : Bool := o.parts.length == o.npart

/-- The DATA bytes that a CUT_CONTRIB record of a segment carries: NELEM elements, or a run of a long element. -/
def contribData (d : Redn) (b : List Byte) : List Byte :=
  let size := if rd b 11 1 = 1 then d.elSize else d.leafSize
  let nm := rd b 36 4
  if size ≤ 1980 then slice b 48 (rd b 28 4 * size)
  else if nm = 0 then slice b 48 (min 1980 (d.segLen (rd b 10 1) * size - rd b 20 2 * 1980)) else []

/-- The missing entries that a CUT_CONTRIB record carries, after its DATA. -/
def contribMiss (d : Redn) (b : List Byte) : List Nat :=
  (List.range (rd b 36 4)).map fun i => rd b (48 + (contribData d b).length + 4 * i) 4

/-- The bodies of an operand in PART order. -/
def Operand.sorted (o : Operand) : List (List Byte) :=
  (sortLe (fun (a b : Nat × List Byte) => decide (a.1 ≤ b.1)) o.parts).map (·.2)

/-- An element that a leaf sends: a NaN among the inputs of SUM_F, MAX or MIN is left out (R155, R156); the second component says so. -/
def Redn.leafIn (d : Redn) (e : El) : El × Bool :=
  match e with
  | .num v => if d.etype = 2 && f64Nan v.toNat then (d.identity, true) else (.num v, false)
  | _ => (e, false)

/-- The elements of a whole operand, and the NaN values of a leaf that are left out of them. -/
def Operand.els (d : Redn) (o : Operand) : List El × Nat :=
  let bytes := (o.sorted.map (contribData d)).flatten
  let n := if o.key.partial1 then d.elSize else d.leafSize
  let l := (List.range (d.segLen o.key.seg)).map fun i =>
    if o.key.partial1 then (d.elParse (slice bytes (i * n) n), false) else d.leafIn (d.leafParse (slice bytes (i * n) n))
  (l.map (·.1), (l.filter (·.2)).length)

/-- The missing entries that a partial brings (R165). -/
def Operand.missing (d : Redn) (o : Operand) : List Nat := (o.sorted.map (contribMiss d)).flatten

/-- The data pieces of an operand: whole elements where one fits a record, else runs of 1,980 bytes (log entry 20). -/
def dataPieces (size : Nat) (bytes : List Byte) : List (List Byte) :=
  let k := if size ≤ 1980 then 1980 / size * size else 1980
  chunksOf k (bytes.length / k + 1) bytes

/-- The bodies of an operand's records (Table 6.2): elements first, then missing entries. -/
def operandBodies (d : Redn) (epoch seg : Nat) (part1 : Bool) (start : Nat) (npres nans : Nat) (bytes : List Byte)
    (miss : List Nat) : List (List Byte) :=
  let size := if part1 then d.elSize else d.leafSize
  let ps := (dataPieces size bytes).map fun b => (b, ([] : List Nat))
  let ms := (piecesOf 495 600 miss).map fun m => (([] : List Byte), m)
  let all := if (ps ++ ms).isEmpty then [([], [])] else ps ++ ms
  let first := if size ≤ 1980 then 1980 / size else 1
  (List.range all.length).map fun i =>
    let e := all.getD i ([], [])
    let nel := if size ≤ 1980 then e.1.length / size
      else (i + 1) * 1980 / size - i * 1980 / size
    be 8 epoch ++ be 2 d.rid ++ be 1 seg ++ be 1 (b2n part1) ++ be 4 start ++ be 4 d.defver ++ be 2 i
      ++ be 2 all.length ++ be 4 (seg * d.perSeg + (if size ≤ 1980 then i * first else i * 1980 / size)) ++ be 4 nel
      ++ be 4 npres ++ be 4 e.2.length ++ be 8 nans ++ e.1 ++ (e.2.map (be 4)).flatten

/-- The records of an operand with their bodies, in the class of the reduction (R151). -/
def operandReqs (d : Redn) (dst : Dest) (stamp : Nat) (bodies : List (List Byte)) : List Req :=
  bodies.map fun b =>
    { dst := dst, cls := Fin.ofNat 4 d.cls, typ := tCutContrib, unit := uCrown, flags := 0, stamp := some stamp, body := b }

/-- The operand that a CUT_CONTRIB body of a sender belongs to, for the window of a leaf. -/
def operandOf (src : Nat) (win : Option (Nat × Nat)) (flaw : Option Nat) (b : List Byte) : Operand :=
  { key := { rid := rd b 8 2, seg := rd b 10 1, cep := rd b 0 8, src := src, partial1 := rd b 11 1 == 1 }, win := win, cut := none,
    defver := rd b 16 4, npart := rd b 22 2, npres := rd b 32 4, nans := rd b 40 8, flaw := flaw, parts := [(rd b 20 2, b)] }

/-- A leaf's elements put together as bytes, and the NaN inputs left out. -/
def leafData (d : Redn) (vals : List Int) : List Byte × Nat :=
  let es := vals.map d.leafEl
  ((es.map fun e => d.leafBytes e.1).flatten, (es.filter (·.2)).length)

/-- This node assigns and combines contributions of its own: a tray master or a spine-role block (Table 6.1). -/
def State.combines (s : State) : Bool := s.isMaster || s.isSpine

/-- Causes of Table 6.5. -/
def causeLost : Nat := 1
def causeForwarder : Nat := 2
def causeReset : Nat := 3
def causeAsleep : Nat := 4
def causeExcluded : Nat := 5

/-- The cut that an operand belongs to (R163): its interval, and whether a leaf is not used. `none` while a correction table that the
window needs may still come (R74). A partial is in the cut that its CEPOCH names; so is a leaf without a corrected time, which is not
used. -/
def State.findCut (s : State) (f : Bool) (o : Operand) : Option (Nat × Nat × Bool) :=
  let l := s.level f
  let p := s.cutP f
  let named := fun (bad : Bool) =>
    let t := l.endOf p s.tb0Ns o.key.cep
    some ((l.spanAt p (t - 1)).1, t, bad)
  match o.win with
  | none => named false
  | some (w0, w1) =>
    if !(s.corrKnown f w0 && s.corrKnown f w1) then none
    else match s.corrected f o.key.src w0, s.corrected f o.key.src w1 with
      | some a, some b =>
        let c := l.spanAt p ((a + b) / 2 / 2 ^ 41).toNat
        let lo : Int := (c.1 : Int) - (l.guard : Int)
        let hi : Int := ((c.2 + l.guard : Nat) : Int)
        some (c.1, c.2, decide (a < lo * 2 ^ 41) || decide (hi * 2 ^ 41 < b))
      | _, _ => named true

/-- The end of the last cut of a reduction that has closed, and the TB0 nanoseconds of that close. -/
def CutLevel.closedOf (l : CutLevel) (rid : Nat) : Nat × Nat := tgetD l.closed rid (0, 0)

/-- An operand that comes after the close of its cut is discarded and counted, once for all its records (R166). -/
def State.lateOp (f : Bool) (k : OpKey) (s : State) : State :=
  s.modLevel f fun l =>
    { l with operands := l.operands.filter fun o => o.key != k,
             late := if l.lateOps.contains k then l.late else satAdd 32 l.late 1,
             lateOps := if l.lateOps.contains k then l.lateOps else (l.lateOps ++ [k]).drop ((l.lateOps.length + 1) - 1024) }

/-- An operand is assigned to its cut where that can be told now; a leaf whose CEPOCH names another cut is counted (R163), one of a cut
that has closed is late. -/
def State.assignOp (f : Bool) (s : State) (o : Operand) : State :=
  if o.cut.isSome then s
  else match s.findCut f o with
    | none => s
    | some (t0, t1, bad) =>
      if t1 ≤ ((s.level f).closedOf o.key.rid).1 then s.lateOp f o.key
      else s.modLevel f fun l =>
        { l with
          operands := l.operands.map fun x =>
            if x.key == o.key then { x with cut := some t1, flaw := if bad then some causeExcluded else x.flaw } else x,
          reassigned := if o.win.isSome && t1 / max 1 (t1 - t0) != o.key.cep then satAdd 32 l.reassigned 1 else l.reassigned }

/-- Every operand that waits for its assignment. -/
def State.assignOps (f : Bool) (s : State) : State := (s.level f).operands.foldl (State.assignOp f) s

end Sys2Proof.Machine
end

