-- ==== Sys2Proof/Machine/Rates.lean ====
section
/-! DEFINITION. The declared rates of Quern and Millrace and their admission limits (R194, R196, R215, R221), which several
groups of commands ask for. -/

namespace Sys2Proof.Machine

/-- The shorter of the window lengths that a set has and is about to have. -/
def State.setWin (s : State) (i : Nat) : Nat := min (s.set i).win ((s.set i).winNext.getD (s.set i).win)

/-- The shorter of the cut periods that a level has and is about to have. -/
def State.cutPNext (s : State) (f : Bool) : Nat := min (s.cutP f) ((s.level f).periodNext.getD (s.cutP f))

/-- The nodes that the tree configuration places below this one, pending installations included: the children and grandchildren of its
trees, and the members of a tray master. -/
def State.below (s : State) : List Nat :=
  (((s.treesSoon.map fun e => (e.2.children.map fun c => c.addr.toNat :: c.gcs.map fun g => g.1.toNat).flatten).flatten)
    ++ (if s.sys.acting then s.sys.actMembers.map (·.toNat)
        else if s.isMaster then s.sys.members.map fun m => m.addr.toNat else [])).eraseDups

/-- Leaf slot width W (Table 7.2). -/
def QModel.w (m : QModel) : Nat := 64 * 2 ^ m.wcode

/-- Bytes of a tree slot, W × (8 + 2·K_r). -/
def slotBytesQ (w k : Nat) : Nat := w * (8 + 2 * (4 * ceilDiv k 4))

/-- Comparator passes of a model. -/
def QModel.passes (m : QModel) : Nat := ceilDiv m.trees.length (32768 / m.w)

/-- A model's declared vectors in 10^9 ns, as a fraction: numerator over denominator (R196). -/
def State.qRate (s : State) (m : QModel) : Nat × Nat :=
  match m.inmode with
  | 0 => (1000000000, s.setWin m.set)
  | 1 => (s.below.length * 1000000000, s.setWin m.set)
  | _ => (1000000000, s.cutPNext s.isSpine)

/-- The exact sum of fractions a/b times a weight, as numerator and denominator in lowest terms. -/
def rateSum (l : List (Nat × Nat × Nat)) : Nat × Nat :=
  l.foldl (fun t e =>
    let n := t.1 * max 1 e.2.1 + e.1 * e.2.2 * t.2
    let d := t.2 * max 1 e.2.1
    let g := max 1 (Nat.gcd n d)
    (n / g, d / g)) (0, 1)

/-- A sum of fractions is at most a limit. -/
def rateLe (l : List (Nat × Nat × Nat)) (limit : Nat) : Bool := decide ((rateSum l).1 ≤ limit * (rateSum l).2)

/-- The models of ACTIVE handles, with one handle taken as active. -/
def State.activeModels (s : State) (plus : Option Nat) : List QModel :=
  ((List.range 16).zip s.model.quern).filterMap fun e =>
    if e.2.h.st = .active ∨ plus = some e.1 then e.2.model else none

/-- R196 over the ACTIVE models. -/
def State.quernAdmits (s : State) (ms : List QModel) : Bool :=
  rateLe (ms.map fun m => ((s.qRate m).1, (s.qRate m).2, m.passes)) 1440000000
    && rateLe (ms.map fun m => ((s.qRate m).1, (s.qRate m).2, m.trees.length + 8)) 92160000000

/-- Block dot products of a step (R215). -/
def MModel.cost (m : MModel) : Nat := m.n + m.r * m.n / 32 + (if 0 < m.r then m.n else 0) + m.n / 32

/-- A channel's declared rate as a fraction (R215). -/
def State.chRate (s : State) (c : Channel) : Nat × Nat :=
  match c.kind with
  | 0 => (1000000000, s.setWin c.set)
  | 1 => (1000000000, c.rate)
  | _ => (c.rate, 1)

/-- The handles that a channel is bound to: its own, and those it is about to move to. -/
def Channel.handles (c : Channel) : List Nat := c.handle :: c.moves.map (·.1)

/-- R215 over open channels whose model is ACTIVE; `alt` says which model a handle stands for. A channel that is about to move counts
with the greatest cost of its models. -/
def State.millAdmits (s : State) (chs : List Channel) (alt : Nat → Option MModel) : Bool :=
  rateLe (chs.map fun c =>
    ((s.chRate c).1, (s.chRate c).2, (c.handles.map fun h => match alt h with | some m => m.cost | none => 0).foldl max 0)) 460800000000

/-- The model of an ACTIVE Millrace handle. -/
def State.millActive (s : State) (h : Nat) : Option MModel :=
  match s.model.mill[h]? with
  | some x => if x.h.st = .active then x.model else none
  | none => none

/-- Both admission limits hold in a state as a command would leave it (R196, R215). -/
def State.ratesOk (s : State) : Bool :=
  s.quernAdmits (s.activeModels none) && s.millAdmits (s.model.chans.map (·.2)) s.millActive

/-- R194: trees and bytes of a list of (trees, W, K). -/
def quernFits (l : List (Nat × Nat × Nat)) : Bool :=
  decide ((l.map (·.1)).sum ≤ 8192) && decide ((l.map fun e => e.1 * slotBytesQ e.2.1 e.2.2).sum ≤ 25165824)

/-- Bytes of Millrace's memory in use (R221): images, and 4 × N + 192 for each channel, N the greatest of the models it is bound to. -/
def State.millBytes (s : State) : Nat :=
  (s.model.mill.map fun h => match h.model with | some m => m.len | none => if h.h.st = .loading then h.h.len else 0).sum
    + (s.model.chans.map fun c => 192 + 4 * (c.2.handles.map fun h =>
        match (s.model.mill[h]?).bind (·.model) with | some m => m.n | none => 0).foldl max 0).sum

end Sys2Proof.Machine
end

