-- ==== Sys2Proof/Machine/Crown.lean ====
section
/-! DEFINITION. Crown (spec/06): windows, operands, the close and publication of cuts, their readers, congestion maps, and
the commands of the REDUCE group that need no other unit. -/

namespace Sys2Proof.Machine

/-! ### Windows (R151, R162) -/

/-- A leaf contribution for a window that has ended (R151): the bodies of its records, every segment of one reduction. -/
def State.leafBodies (f : Bool) (w0 w1 : Nat) (s : State) (d : Redn) : List (List Byte) :=
  match (s.level f).leaves.find? fun a => a.rid == d.rid && a.till == w1 with
  | some a =>
    if s.ownInMask d.rmask && a.vals.all Option.isSome then
      let vals := a.vals.map fun v => v.getD 0
      ((List.range d.segs).map fun k =>
        let x := leafData d ((vals.drop (k * d.perSeg)).take (d.segLen k))
        operandBodies d (w1 / max 1 (w1 - w0)) k false (w0 % 2 ^ 32) 1 x.2 x.1 []).flatten
    else []
  | none => []

/-- Pending tree installations take effect; the trees before them serve what still comes in the same cycle (R175, R177). -/
def State.treesApply (s : State) : State :=
  s.modCrown fun c =>
    { c with trees := s.treesSoon, treesNext := [],
             oldTrees := if c.treesNext.isEmpty then c.oldTrees else (c.trees, s.time.tb1.toNat) }

/-- A tray-role master that has answered takes over from the acting one at a tray cut boundary (R22). -/
def State.masterTurn (s : State) : State :=
  match s.sys.masterNext with
  | some a => (s.modSys fun u => { u with master := some a, masterNext := none })
  | none => s

/-- A cut of a level is formed here (Table 6.1): fleet cuts at a spine-role block; at a tray-role block tray cuts from the boundary at
which it became master, with the fleet cuts that end after it (R22); at an acting master cuts from ACTING on up to its last (R22, R23,
Table 19.8). -/
def State.formsCut (s : State) (f : Bool) (t0 t1 : Nat) : Bool :=
  if s.isSpine then f
  else if s.isTray then
    match s.sys.masterFrom with
    | some m => if f then decide (m < t1) else decide (m ≤ t0)
    | none => false
  else s.sys.acting && decide (s.sys.actingAt ≤ t0) && (match s.crown.lastCut with | some t => decide (t1 ≤ t) | none => true)

/-- An operand that no record of is held yet is taken up, or is late (R152, R163, R166). -/
def State.newOperand (f : Bool) (o : Operand) (s : State) : State :=
  (s.modLevel f fun l => { l with operands := l.operands ++ [o] }).assignOps f

/-- The end of a level's window at boundary `t1` of its grid: the cut waits for its close, leaves leave unless the block was not in RUN,
pending definitions and periods take effect. -/
def State.windowEnd (f : Bool) (t1 : Nat) (s : State) : State :=
  let p := s.cutP f
  let l := s.level f
  let t0 := t1 - p
  let s1 := if s.formsCut f t0 t1 then
      s.modLevel f fun l =>
        { l with closing := l.closing ++
            [{ n := t1 / p, t0 := t0, t1 := t1, defs := l.defs, trees := s.crown.trees, missed := false, done := [] }] }
    else s
  let s2 := if s.asleepAt s.sys.laddr.toNat t1 then s1
    else l.defs.foldl (fun t d =>
      let bs := t.leafBodies f t0 t1 d
      if t.combines then
        bs.foldl (fun u b =>
          let o := operandOf u.sys.laddr.toNat (some (t0, t1)) none b
          match (u.level f).operands.find? fun x => x.key == o.key with
          | some _ => u.modLevel f fun l => { l with operands := l.operands.map fun x =>
              if x.key == o.key then { x with parts := x.parts ++ o.parts } else x }
          | none => u.newOperand f o) t
      else (operandReqs d .up t1 bs).foldl (fun u q => u.send q) t) s1
  let p2 := match l.turn p with | some (b, q) => if b ≤ t1 then q else p | none => p
  let s3 := s2.modLevel f fun l =>
    { l with lastT := t1, leaves := l.leaves.filter (fun a => decide (t1 < a.till)),
             defs := applyDefs l.defs l.defsNext, defsNext := [],
             periodNext := if p2 = p then l.periodNext else none, oldP := if p2 = p then l.oldP else some (p, t1) }
  let s4 := s3.modCrown fun c => if f then { c with fleetP := p2 } else { c with trayP := p2 }
  if f then s4.treesApply else s4.masterTurn

/-- The boundaries of a level that have passed, one after another; `k` bounds their number. -/
def State.windowsTo (f : Bool) : Nat → State → State
  | 0, s => s
  | k + 1, s =>
    let t1 := ((s.level f).lastT / s.cutP f + 1) * s.cutP f
    if t1 ≤ s.tb0Ns then (s.windowEnd f t1).windowsTo f k else s

/-- TB0 has no time of its surroundings yet: the boundaries that its steps pass over are no windows (DESIGN CHOICE, log entry 25). -/
def State.skipWindows (f : Bool) (s : State) : State :=
  if s.time.lock = .free ∨ s.time.lock = .acquire ∨ (s.level f).lastT = 0 then
    s.modLevel f fun l => { l with lastT := max l.lastT (gridAt (s.cutP f) s.tb0Ns - s.cutP f) }
  else s

/-! ### The close (R164, R165) -/

/-- An entry of Table 6.4. -/
def missEntry (cause a : Nat) : Nat := cause * 2 ^ 29 + a

/-- The operand of an expected sender in a segment of a cut. -/
def CutLevel.operandFor (l : CutLevel) (t1 rid seg : Nat) (e : Expect) : Option Operand :=
  l.operands.find? fun o =>
    o.cut == some t1 && o.key.rid == rid && o.key.seg == seg && o.key.src == e.src && o.key.partial1 == e.partial1

/-- A running source that is booked LOST because no RECONCILE record came for two in-flight windows (R123): the time that it was not in
RUN does not count. -/
def State.silentSource (s : State) (a cls : Nat) : Bool :=
  match tget s.hop.consumers (a * 4 + cls) with
  | some x =>
    let wake := ((tgetD s.crown.asleep a []).filter fun e => !e.2).foldl (fun m e => max m e.1) 0
    !s.asleepAt a s.tb0Ns && decide (max x.reconAt wake + 2 * ((s.scfg cls).reconMs * 1000000 + 2000000000) < s.tb0Ns)
  | none => false

/-- A contributor of a cut is UNALIGNED, so that no contribution of it can have a corrected time (R68): told where its leaf is
expected. -/
def State.unalignedIn (s : State) (f : Bool) (c : Cut) (e : Expect) (a : Nat) : Bool :=
  !e.partial1 && s.corrKnown f c.t1 && (s.corrected f a c.t1).isNone

/-- A forwarder event since the close of the cut before, on the path of a block (R122, R165). -/
def State.fwdSince (s : State) (f : Bool) (rid a : Nat) : Bool :=
  match tget s.crown.fwdLast a with
  | some t => decide (((s.level f).closedOf rid).2 ≤ t)
  | none => false

/-- The cause of a missing contributor of a cut, tested in the order of Table 6.5. `o` is what came of its sender. `final` says that the
cut closes, so that a partial that has not come is missing. -/
def State.causeOf (s : State) (f : Bool) (c : Cut) (d : Redn) (o : Option Operand) (e : Expect) (a : Nat) (final : Bool) : Nat :=
  let bad := match o with | some x => x.flaw == some causeExcluded || x.defver != d.defver | none => false
  let lost := match o with | some x => x.flaw == some causeLost | none => false
  if c.missed then (if a = s.sys.laddr.toNat then causeReset else causeForwarder)
  else if bad || s.crown.expelled.contains a || s.unalignedIn f c e a then causeExcluded
  else if (tgetD s.crown.resets a []).any fun t => decide (c.t0 ≤ t) then causeReset
  else if s.asleepAt a c.t1 then causeAsleep
  else if s.fwdSince f d.rid a || s.fwdSince f d.rid e.src || (final && e.partial1 && !lost) then causeForwarder
  else causeLost

/-- An operand that is used: whole, of the cut's definition, without a flaw, its source not expelled or booked as lost. -/
def State.usable (s : State) (c : Cut) (d : Redn) (e : Expect) (o : Option Operand) : Option Operand :=
  match o with
  | some x =>
    if !c.missed && x.whole && x.flaw.isNone && x.defver == d.defver && !s.crown.expelled.contains e.src
        && (e.src == s.sys.laddr.toNat || !s.silentSource e.src d.cls) then some x else none
  | none => none

/-- Every expected operand of a reduction in a cut is present or has a cause (R164). -/
def State.allKnown (s : State) (f : Bool) (c : Cut) (d : Redn) : Bool :=
  (List.range d.segs).all fun k => (s.expects c.trees d).all fun e =>
    let o := (s.level f).operandFor c.t1 d.rid k e
    (s.usable c d e o).isSome || e.covers.all fun a => s.causeOf f c d o e a false != causeLost

/-- This block assigns contributions to cuts of a reduction (Table 6.1): a tray master all of them, a spine-role block its own. -/
def State.assigns (s : State) (d : Redn) : Bool := s.isMaster || s.ownInMask d.rmask

/-- The first condition of R164: T_N + G has come, and at an assigning node the correction epoch whose window contains T_N is
published, or its deadline has passed. -/
def State.closeReady (s : State) (f : Bool) (c : Cut) (assign : Bool) : Bool :=
  decide (c.t1 + (s.level f).guard ≤ s.tb0Ns) && (!assign || (s.levelTable f c.t1).isSome)

/-- The instant from which a cut closes whatever is missing: T_N + Q + h × SETTLE_HOP (R164). -/
def State.settleAt (s : State) (f : Bool) (c : Cut) : Nat :=
  c.t1 + s.corrWait f + heightWith s.isSpine c.trees * (s.level f).settle

/-- The cuts of a reduction before one have closed (R164). -/
def CutLevel.inTurn (l : CutLevel) (t1 rid : Nat) : Bool :=
  l.closing.all fun c => decide (t1 ≤ c.t1) || (tget c.done rid).isSome || !(c.defs.any fun d => d.rid == rid)

/-- A reduction of a cut closes at this instant (R164); `due` is the test of an instant for the settle deadline. -/
def State.closes (s : State) (f : Bool) (due : Nat → Bool) (c : Cut) (d : Redn) : Bool :=
  (tget c.done d.rid).isNone && (s.level f).inTurn c.t1 d.rid && s.closeReady f c (s.assigns d)
    && (c.missed || s.allKnown f c d || due (s.settleAt f c))

/-- A cut's record comes no later than its close: an operand of a reduction that closes at this instant is late, be the close yet to
be made (R166, R177). -/
def State.closeNow (s : State) (f : Bool) (o : Operand) : Bool :=
  match o.cut with
  | some t => (s.level f).closing.any fun c => c.t1 == t && c.defs.any fun d =>
      d.rid == o.key.rid && s.closes f (fun x => decide (x ≤ s.tb0Ns)) c d
  | none => false

/-- One record of an operand is taken in (R152, R163, R166): a record of a cut that has closed, or closes in this cycle, comes late. -/
def State.takePart (f : Bool) (o : Operand) (s : State) : State :=
  match (s.level f).operands.find? fun x => x.key == o.key with
  | some x =>
    if x.parts.any fun q => o.parts.any fun r => q.1 == r.1 then s
    else if s.closeNow f x then s.lateOp f o.key
    else s.modLevel f fun l => { l with operands := l.operands.map fun y =>
      if y.key == o.key then { y with parts := y.parts ++ o.parts, flaw := if y.flaw.isNone then o.flaw else y.flaw } else y }
  | none =>
    let t := s.newOperand f o
    match (t.level f).operands.find? fun x => x.key == o.key with
    | some x => if s.closeNow f x then t.lateOp f o.key else t
    | none => t

/-- A level has a reduction, or a cut that waits with it. -/
def CutLevel.defines (l : CutLevel) (rid : Nat) : Bool :=
  l.defs.any (fun d => d.rid == rid) || l.closing.any fun c => c.defs.any fun d => d.rid == rid

/-- The levels that a contribution belongs to: those that define its reduction; of two, that whose period a leaf's window has, and for a
partial the fleet level. -/
def State.contribLevels (s : State) (rid : Nat) (part1 : Bool) (win : Option (Nat × Nat)) : List Bool :=
  let l := [false, true].filter fun f => (s.level f).defines rid
  if l.length < 2 then l
  else if part1 then [true]
  else match win with
    | some (w0, w1) => l.filter fun f => (s.level f).periodAt (s.cutP f) w0 == w1 - w0
    | none => l

/-- A CUT_CONTRIB record that Hopper accepted (R152, R163). A contribution to a reduction not defined here is not used. -/
def State.rxContrib (r : Rec) (s : State) : State :=
  let b := r.body
  let part1 := rd b 11 1 == 1
  let win := if part1 then none
    else match s.extend r.src r.cls.toNat r.stamp.toNat, s.extend r.src r.cls.toNat (rd b 12 4) with
      | some w1, some w0 => some (w0, w1)
      | _, _ => none
  let flaw := if (if part1 then s.inWindow r else win.isSome) then none else some causeLost
  if s.combines then
    (s.contribLevels (rd b 8 2) part1 win).foldl (fun t f => t.takePart f (operandOf r.src.toNat win flaw b)) s
  else s

/-- The correction of a contributor at the end of a cut is HOLD at one of the levels that the cut's time takes (R64, Table 6.6). -/
def State.holdAt (s : State) (f : Bool) (a t : Nat) : Bool :=
  let hold := fun (e : CorrEntry) => e.qual == .hold
  let tray := match ((s.levelTable false t).bind id).bind fun x => tget x.entries a with | some e => hold e | none => false
  let fleet := match (s.levelTable true t).bind id with | some x => (s.fleetEntries x a).any fun e => hold e.2 | none => false
  tray || (f && fleet)

/-- The left fold of R153 over the operands of a segment in ascending span key, with the causes of R165. -/
def State.closeSeg (s : State) (f : Bool) (c : Cut) (d : Redn) (seg : Nat) : SegResult :=
  let init : SegResult :=
    { els := List.replicate (d.segLen seg) d.identity, sat := false, npres := 0, miss := [], nans := 0, hold := false }
  let r := (s.expects c.trees d).foldl (fun (t : SegResult) e =>
    let o := (s.level f).operandFor c.t1 d.rid seg e
    match s.usable c d e o with
    | some x =>
      let v := x.els d
      let z := (t.els.zip v.1).map fun p => d.combine p.1 p.2
      let gone := (x.missing d).map fun m => m % 2 ^ 18
      { els := z.map (·.1), sat := t.sat || z.any (·.2), npres := t.npres + x.npres, miss := t.miss ++ x.missing d,
        nans := t.nans + x.nans + v.2, hold := t.hold || e.covers.any fun a => !gone.contains a && s.holdAt f a c.t1 }
    | none => { t with miss := t.miss ++ e.covers.map fun a => missEntry (s.causeOf f c d o e a true) a }) init
  { r with miss := sortLe (fun a b => decide (a % 2 ^ 18 ≤ b % 2 ^ 18)) r.miss }

/-- This node publishes a reduction of a cut: tray cuts at a tray master, fleet cuts of the trees it roots (R18, Table 6.1). -/
def State.publishes (s : State) (f : Bool) (c : Cut) (d : Redn) : Bool :=
  if f then s.isSpine && (match tget c.trees d.tree with | some t => t.parent.isNone | none => false) else s.isMaster

/-- This node publishes the cuts of a level: as a tray master, or as the root of a tree. -/
def State.publisher (s : State) (f : Bool) (ts : List (Nat × Tree)) : Bool :=
  if f then s.isSpine && ts.any fun t => t.2.parent.isNone else s.isMaster

/-- A partial of a reduction that is published elsewhere goes up to the parent of its tree (R167). -/
def State.sendPartial (f : Bool) (c : Cut) (d : Redn) (rs : List SegResult) (s : State) : State :=
  match (tget c.trees d.tree).bind (·.parent) with
  | some p =>
    if s.publishes f c d then s
    else ((List.range rs.length).zip rs).foldl (fun t e =>
      (operandReqs d (.block p) s.tb0Ns
        (operandBodies d c.n e.1 true 0 e.2.npres e.2.nans (e.2.els.map d.elBytes).flatten e.2.miss)).foldl
        (fun u q => u.send q) t) s
  | none => s

/-- A reduction of a cut closes (R164 to R167): its results stand, its operands go, a partial leaves. -/
def State.closeRed (f : Bool) (c : Cut) (d : Redn) (s : State) : State :=
  let rs := (List.range d.segs).map (s.closeSeg f c d)
  (s.modLevel f fun l =>
    { l with
      closing := l.closing.map fun x => if x.t1 == c.t1 then { x with done := tput x.done d.rid rs } else x,
      closed := tput l.closed d.rid (c.t1, s.tb0Ns),
      operands := l.operands.filter fun o =>
        !(o.key.rid == d.rid && match o.cut with | some t => decide (t ≤ c.t1) | none => false) }).sendPartial f c d rs

/-- A reduction of a waiting cut closes once R164 has it so. The settle deadline acts from the cycle after its instant, so that a
correction epoch, a forwarder event and a record of its cycle are seen as Table 6.10 has them. -/
def State.closeOne (f : Bool) (t1 : Nat) (d : Redn) (s : State) : State :=
  match (s.level f).closing.find? fun c => c.t1 == t1 with
  | some c => if s.closes f s.past0 c d then s.closeRed f c d else s
  | none => s

/-- Every reduction that closes now, cut by cut in ascending order. -/
def State.closeAll (f : Bool) (s : State) : State :=
  ((s.level f).closing).foldl (fun t c => c.defs.foldl (fun u d => u.closeOne f c.t1 d) t) (s.assignOps f)

/-- Every reduction of a cut has closed; one without reductions closes as soon as the first condition of R164 holds. -/
def State.cutDone (s : State) (f : Bool) (c : Cut) : Bool :=
  (c.defs.all fun d => (tget c.done d.rid).isSome)
    && (!c.defs.isEmpty || s.closeReady f c s.isMaster)

/-- A section of a cut image (Table 6.7). -/
def sectionBytes (d : Redn) (seg : Nat) (r : SegResult) : List Byte :=
  let data := (r.els.map d.elBytes).flatten ++ (r.miss.map (be 4)).flatten
  be 2 d.rid ++ be 1 d.op ++ be 1 d.etype ++ be 1 seg ++ be 1 (b2n r.sat + 2 * b2n (!r.miss.isEmpty)) ++ zeros 2
    ++ be 4 d.defver ++ be 4 r.els.length ++ be 4 r.npres ++ be 4 r.miss.length ++ be 8 r.nans
    ++ padTo (ceilDiv data.length 8 * 8) data

/-- The reductions of a cut that are published here, with their results (Tables 6.6 and 6.7). -/
def State.cutSections (s : State) (f : Bool) (c : Cut) : List (Redn × Nat × SegResult) :=
  ((c.defs.filter (s.publishes f c)).map fun d =>
    let rs := tgetD c.done d.rid []
    ((List.range rs.length).zip rs).map fun e => (d, e.1, e.2)).flatten

/-- Bytes 0 to 55 of a cut descriptor (Table 6.6). -/
def State.descHead (s : State) (f : Bool) (c : Cut) (hold : Bool) (modelver nsect len digest : Nat) : List Byte :=
  let gen := match c.defs.filter (s.publishes f c) with
    | d :: _ => (match tget c.trees d.tree with | some t => t.gen.toNat | none => 0)
    | [] => 0
  be 8 c.n ++ be 8 c.t1 ++ be 8 (c.t1 / s.wcNs) ++ be 1 (b2n f) ++ be 1 (b2n hold)
    ++ be 2 nsect ++ be 4 s.sys.fwver.toNat ++ be 4 modelver ++ be 1 1 ++ zeros 3 ++ be 4 gen ++ be 4 len ++ be 8 digest

/-- The image of a published cut (Tables 6.6 and 6.7). -/
def State.cutImage (s : State) (f : Bool) (c : Cut) (modelver : Nat) : List Byte :=
  let secs := s.cutSections f c
  let body := (secs.map fun e => sectionBytes e.1 e.2.1 e.2.2).flatten
  s.descHead f c (secs.any fun e => e.2.2.hold) modelver secs.length (64 + body.length) (crc64 body) ++ be 8 c.n ++ body

/-- An event goes to the path a command came by (R395). -/
def State.eventTo (p : Path) (code : BitVec 16) (data : List Byte) (s : State) : State :=
  let slots := eventSlots code data
  match p with
  | .localQueue => s.event code data
  | .fabricQueue _ _ => s.putEvent true slots (be 4 s.sys.laddr.toNat ++ be 4 0)
  | .fabric src _ _ => slots.foldl (fun t r => t.sendReplyRecs src r []) s
  | .broadcast root _ => slots.foldl (fun t r => t.sendReplyRecs root r []) s
  | .restore _ => s

/-- The memory behind a path: true for the fabric queue pair's. -/
def pathFab : Path → Bool
  | .localQueue => false
  | _ => true

/-- A published cut is written into a half: VALID 0 first, the descriptor and the sections, VALID last; then a completion
is posted (R168). -/
def State.writeHalf (f : Bool) (n : Nat) (img : List Byte) (half1 : Bool) (s : State) : State :=
  match (s.level f).reader with
  | none => s
  | some r =>
    let base := if half1 then r.h1 else r.h0
    let fab := pathFab r.path
    let s1 := s.emit (.memory fab (base + 56) (be 8 0))
    let s2 := s1.emit (.memory fab base (img.take 56))
    let s3 := s2.emit (.memory fab (base + 64) (img.drop 64))
    let s4 := s3.emit (.memory fab (base + 56) (be 8 n))
    let r2 : Reader := { r with held0 := r.held0 || !half1, held1 := r.held1 || half1, owed := false }
    let s5 := s4.modLevel f fun l => { l with reader := some r2 }
    s5.eventTo r.path 0x05E0
      (be 1 (b2n f) ++ be 1 (b2n half1) ++ zeros 6 ++ be 8 n ++ be 4 img.length)

/-- A newly published cut reaches its zero-copy reader, or is counted as not delivered (R168). -/
def State.deliverCut (f : Bool) (s : State) : State :=
  match (s.level f).reader, (s.level f).published with
  | some r, some (n, img) =>
    if r.hlen < img.length ∨ (r.held0 ∧ r.held1) then
      s.modLevel f fun l =>
        { l with reader := some { r with missed := satAdd 32 r.missed 1, missedAt := s.time.tb1.toNat, owed := true } }
    else s.writeHalf f n img r.held0
  | _, _ => s

/-- What a CUT.READ answers from a published cut, for the MAX of the command (R161, Table 16.11). -/
def cutReadFinal (n : Nat) (img : List Byte) (most : Nat) : Final :=
  if img.length ≤ most then finOk 0 (be 8 n ++ be 4 img.length) img else finErr stCapacity

/-- A CUT.READ that arrived in the cycle of the bank switch is served from the new bank (R177). Its object names level, MAX and TB1. -/
def State.readsTurn (f : Bool) (n : Nat) (img : List Byte) (s : State) : State :=
  s.modCmd fun u => { u with acc := u.acc.map fun a =>
    if a.opcode == 0x0503 && a.obj % 2 == b2n f && a.obj / 2 ^ 33 == s.time.tb1.toNat then
      { a with ready := some (cutReadFinal n img (a.obj / 2 % 2 ^ 32)) }
    else a }

/-- Publication of a closed cut (R167): the bank switch, the CUT_PUBLISH record, the zero-copy delivery. -/
def State.publishCut (f : Bool) (c : Cut) (modelver : Nat) (s : State) : State :=
  let img := s.cutImage f c modelver
  let s1 := (s.modLevel f fun l => { l with published := some (c.n, img), pubEpoch := c.n }).readsTurn f c.n img
  let s2 := s1.send { dst := .up, cls := 1, typ := tCutPublish, unit := uCrown, flags := 0, stamp := none,
                      body := padTo 108 (img.take 64) }
  s2.deliverCut f

/-- The contributors of a cut that are missing with any cause (R189). -/
def Cut.missing (c : Cut) : List Nat :=
  ((c.done.map fun e => (e.2.map (·.miss)).flatten).flatten.map fun m => m % 2 ^ 18).eraseDups

/-- A level whose Crown memory loses its contents, at an ENG reset or with its power (R460, Table 11.6). -/
def levelOff (l : CutLevel) : CutLevel :=
  { l with defs := [], defsNext := [], closing := [], operands := [], leaves := [], published := none, reader := none }

/-- An acting tray master whose last tray cut has been published, and that has no fleet cut left to send up, hands over: ACTING clears
and Crown's memory loses its power (R22, R460). -/
def State.handOver (s : State) : State :=
  match s.crown.lastCut with
  | some t =>
    if t ≤ s.crown.tray.lastT ∧ s.crown.tray.closing.isEmpty ∧ s.crown.fleet.closing.isEmpty then
      (s.modSys fun u => { u with acting := false, actMembers := [], members := [] }).modCrown fun u =>
        { u with lastCut := none, tray := levelOff u.tray, fleet := levelOff u.fleet }
    else s
  | none => s

/-- A cut leaves the list of those that wait: it is published where this node is its publisher. -/
def State.finishCut (f : Bool) (c : Cut) (modelver : Nat) (s : State) : State :=
  let s1 := if s.publisher f c.trees then s.publishCut f c modelver else s
  (s1.modLevel f fun l => { l with closing := l.closing.filter fun x => x.t1 != c.t1 }).handOver

/-- CUT_WINDOW_END (R151, R162): TB0 has reached cut boundaries of the level that have not been taken. -/
def execCutWindowEnd (fleet : Bool) (s : State) : Host.Outcome State Fault Refusal :=
  if s.engUp && s.pow.phase == .running then
    let s1 := s.skipWindows fleet
    .next (s1.windowsTo fleet ((s.tb0Ns - (s1.level fleet).lastT) / 1000000 + 1)).handOver
  else .next s

/-- After an ENG reset every epoch after the last published one up to the current one waits to be published as missed, for the
reductions and trees that the block has or is to have (R285). -/
def State.missedCuts (f : Bool) (s : State) : State :=
  let l := s.level f
  let p := s.cutP f
  let n := s.tb0Ns / p
  let s1 := s.modLevel f fun l => { l with lastT := n * p }
  if s.publisher f s.treesSoon && decide (0 < l.pubEpoch) then
    s1.modLevel f fun l =>
      { l with closing := (List.range (n - l.pubEpoch)).map fun i =>
                 { n := l.pubEpoch + 1 + i, t0 := (l.pubEpoch + i) * p, t1 := (l.pubEpoch + 1 + i) * p,
                   defs := applyDefs l.defs l.defsNext, trees := s.treesSoon, missed := true, done := [] } }
  else s1

/-! ### Congestion maps (R169, R170) -/

/-- The delta of a counter over a window (R78). -/
def deltaOf (x : SampleSet) (i : Nat) : Nat :=
  let a := getCounter x.cur.vals i
  let b := getCounter x.prev.vals i
  a.val.toNat + 2 ^ 48 * a.wraps.toNat - b.val.toNat

/-- An entry of Table 6.8. The tap clock runs at 1 GHz, so a period of MP nanoseconds has MP tap cycles. -/
def congEntry (mp : Nat) (m : MapCfg) (x : SampleSet) (e : MapEnt) : Nat :=
  let maxd := min (getCounter x.cur.vals e.maxc).val.toNat 0xFFFF
  let lvl := if maxd < m.th1 then 0 else if maxd < m.th2 then 1 else if maxd < m.th3 then 2 else 3
  e.port * 2 ^ 58 + e.queue * 2 ^ 55 + lvl * 2 ^ 53 + maxd * 2 ^ 32 + min (deltaOf x e.sumc / mp) 0xFFFF * 2 ^ 16
    + min (deltaOf x e.dropc) 0xFFFF

/-- The congestion map of a sample of one window (R169, R170); none where windows were merged. -/
def State.sendMap (set nwin start : Nat) (s : State) : State :=
  match s.crown.map with
  | some m =>
    if m.set = set ∧ nwin = 1 ∧ s.isSpine ∧ !m.ents.isEmpty then
      let x := s.set set
      let es := sortLe (fun a b => decide (a.port * 8 + a.queue ≤ b.port * 8 + b.queue)) m.ents
      let ps := piecesOf 249 4 (es.map (congEntry s.crown.mp m x))
      (List.range ps.length).foldl (fun t i =>
        let p := ps.getD i []
        t.send { dst := .up, cls := 2, typ := tCongestion, unit := uCrown, flags := 0, stamp := none,
                 body := be 8 start ++ be 4 s.crown.mp ++ be 2 p.length ++ be 1 i ++ be 1 ps.length
                   ++ (p.map (be 8)).flatten }) s
    else s
  | none => s

/-! ### Commands (Table 16.11) -/

/-- REDUCE.DEFINE; an issuer T only for LEVEL 0. -/
def opReduceDefine (level : Nat) : OpSpec :=
  mkOp 0x0500 [.v 2, .v 1, .v 1, .v 1, .v 1, .r 2, .v 4, .v 4, .ptr, .v 4] rATS (if level = 0 then wFT else wF) false

/-- The definition that a REDUCE.DEFINE spells (Tables 16.11 and 16.12). -/
def parseRedn (c : Cmd) : Redn :=
  let b := cdata c 0
  { rid := cp c 0 2, op := cp c 3 1, etype := cp c 4 1, cls := cp c 5 1, nelem := cp c 8 4, defver := cp c 12 4,
    tree := rd b 0 1, rmask := rd b 1 1, lkind := rd b 2 1, agg := rd b 3 1, sel := rd b 4 1, sub := rd b 5 1,
    base := rd b 8 4, nb := rd b 12 2, cap := rd b 14 2, m := rd b 16 1,
    edges := (List.range ((rd b 12 2) + 1)).map fun i => rd b (24 + 8 * i) 8 }

/-- Edges strictly ascending and free of NaN (R157). -/
def edgesOk (etype : Nat) : List Nat → Bool
  | [] => true
  | [e] => !(etype == 2 && f64Nan e)
  | a :: b :: l => ltType etype (edgeVal etype a) (edgeVal etype b) && edgesOk etype (b :: l)

/-- Operator and element type fit (Table 6.3), and the leaf source fits the type (Table 16.12). -/
def Redn.typesOk (d : Redn) : Bool :=
  (match d.op with
    | 1 => d.etype == 0 | 2 => d.etype == 1 | 3 => d.etype == 2
    | 4 => decide (d.etype ≤ 2) | 5 => decide (d.etype ≤ 2) | 6 => decide (d.etype ≤ 2) | 7 => d.etype == 2 | _ => false)
  && (if d.lkind = 2 then d.etype == 2 else d.etype != 2)

/-- Unused fields are 0, sources and aggregates exist, sizes of HIST and SKETCH are in range (Table 16.12). -/
def Redn.fieldsOk (d : Redn) : Bool :=
  decide (d.lkind ≤ 4) && decide (d.agg ≤ 3) && decide (d.rmask < 8) && decide (d.tree < 16) && decide (d.cls < 4)
    && (decide (d.lkind ≤ 2) || d.sel == 0) && (decide (3 ≤ d.lkind) || d.sub == 0)
    && (if d.op = 6 then decide (1 ≤ d.nb) && decide (d.nb ≤ 1021) else d.nb == 0)
    && (if d.op = 7 then decide (64 ≤ d.cap) && decide (d.cap ≤ 4096) && decide (2 ≤ d.m) && decide (d.m ≤ 10)
        else d.cap == 0 && d.m == 0)

/-- The period that a level has or will have. -/
def State.nextP (s : State) (f : Bool) : Nat := (s.level f).periodNext.getD (s.cutP f)

/-- REDUCE.DEFINE (R151, R153 to R160): from the next cut boundary. -/
def execReduceDefine (c : Cmd) (s : State) : Host.Outcome State Fault Refusal :=
  let d := parseRedn c
  let lv := cp c 2 1
  let f := lv == 1
  let dlen := cp c 24 4
  let b := cdata c 0
  let o := opReduceDefine lv
  let l := applyDefs (applyDefs (s.level f).defs (s.level f).defsNext) [(d.rid, some d)]
  .next (runCmd o c
    [ckData o c 0 dlen, ckParam (decide (lv ≤ 1)) 2, ckParam (decide (1 ≤ d.op) && decide (d.op ≤ 7)) 3,
     ckParam d.typesOk 4, ckParam (decide (d.cls < 4)) 5, ckParam (decide (1 ≤ d.nelem)) 8,
     ckParam (dlen == (if d.op = 6 then 24 + 8 * (d.nb + 1) else 24)) 24,
     ckParam (d.fieldsOk && rd b 6 2 == 0 && rd b 17 7 == 0) 16,
     ckParam (d.op != 6 || edgesOk d.etype d.edges) 16]
    [ckCap (decide (l.length ≤ 256)) (256 - (s.level f).defs.length),
     ckCap (banksFit { s.bankNeed f with defs := l } (s.bankNeed (!f))) 0]
    (fun t => .ok 0 [] [] (t.modLevel f fun x => { x with defsNext := x.defsNext ++ [(d.rid, some d)] })) s)

def opReduceDelete : OpSpec := mkOp 0x0501 [.v 2, .v 1] rATS wFT false

/-- REDUCE.DELETE: at the next cut boundary. -/
def execReduceDelete (c : Cmd) (s : State) : Host.Outcome State Fault Refusal :=
  let rid := cp c 0 2
  let lv := cp c 2 1
  let f := lv == 1
  .next (runCmd opReduceDelete c [ckNoInline c, ckParam (decide (lv ≤ 1)) 2]
    [ckState ((applyDefs (s.level f).defs (s.level f).defsNext).any fun d => d.rid == rid)]
    (fun t => .ok 0 [] [] (t.modLevel f fun x => { x with defsNext := x.defsNext ++ [(rid, none)] })) s)

def opCutConfig : OpSpec := mkOp 0x0502 [.v 1, .r 3, .v 4, .v 4, .v 2] rATS wF false

/-- CUT.CONFIG (R160, R162, R163, R196): period at a cut boundary that both periods share; guard and SETTLE_HOP at once. -/
def execCutConfig (c : Cmd) (s : State) : Host.Outcome State Fault Refusal :=
  let lv := cp c 0 1
  let f := lv == 1
  let p := cp c 4 4 * 1000000
  let g := cp c 8 4 * 100
  let h := cp c 12 2 * 100000
  let other := s.nextP (!f)
  .next (runCmd opCutConfig c
    [ckNoInline c, ckParam (decide (lv ≤ 1)) 0, ckParam (if f then p % other == 0 else other % max p 1 == 0) 4,
     ckRange (decide (1 ≤ cp c 4 4) && decide (cp c 4 4 ≤ 10000)) 4,
     ckRange (decide (100 ≤ g) && decide (4 * g ≤ p)) 8, ckRange (decide (1 ≤ cp c 12 2) && decide (cp c 12 2 ≤ 1000)) 12]
    [ckCap (banksFit { s.bankNeed f with period := p, settle := h } (s.bankNeed (!f))) 0,
     ckCap (s.modLevel f fun x => { x with periodNext := some p }).ratesOk 0]
    (fun t => .ok 0 [] [] (t.modLevel f fun x =>
      { x with periodNext := if p = t.cutP f then none else some p, guard := g, settle := h })) s)

def opCutRead : OpSpec := mkOp 0x0503 [.v 1, .r 3, .v 4, .ptr] rATS wFT false

/-- CUT.READ (R161, R167): the published cut through the reduction buffer to the pointer. -/
def execCutRead (c : Cmd) (s : State) : Host.Outcome State Fault Refusal :=
  let lv := cp c 0 1
  let most := cp c 4 4
  let pub := (s.level (lv == 1)).published
  let len := match pub with | some x => x.2.length | none => 0
  .next (runCmd opCutRead c [ckNoInline c, ckWrite opCutRead c 0, ckParam (decide (lv ≤ 1)) 0]
    [ckState pub.isSome, ckCap (decide (len ≤ most)) most]
    (fun t =>
      let obj := t.time.tb1.toNat * 2 ^ 33 + most * 2 + lv
      match pub with
      | some (n, img) => .acc obj (some (cutReadFinal n img most)) t
      | none => .acc obj none t) s)

def opCutRegister : OpSpec := mkOp 0x0504 [.v 1, .r 3, .v 4, .v 8, .v 8] rATS wF false

/-- CUT.REGISTER (R168): two halves in the memory behind the registering path; both count as released. -/
def execCutRegister (c : Cmd) (s : State) : Host.Outcome State Fault Refusal :=
  let lv := cp c 0 1
  .next (runCmd opCutRegister c
    [ckNoInline c, ckParam (decide (lv ≤ 1)) 0, ckParam (cp c 8 8 % 8 == 0) 8, ckParam (cp c 16 8 % 8 == 0) 16] []
    (fun t => .ok 0 [] [] (t.modLevel (lv == 1) fun l =>
      { l with reader := some { path := c.path, tag := c.tag, hlen := cp c 4 4, h0 := BitVec.ofNat 64 (cp c 8 8),
                                h1 := BitVec.ofNat 64 (cp c 16 8), held0 := false, held1 := false, missed := 0,
                                missedAt := 0, owed := false } })) s)

def opCutRelease : OpSpec := mkOp 0x0505 [.v 1, .v 1] rATS wF false

/-- CUT.RELEASE (R168, R177): the half is released; a reader that missed a cut receives the newest published one. A release in the
cycle of the publication comes before it, so that the cut was not missed. -/
def execCutRelease (c : Cmd) (s : State) : Host.Outcome State Fault Refusal :=
  let lv := cp c 0 1
  let h := cp c 1 1
  let f := lv == 1
  .next (runCmd opCutRelease c [ckNoInline c, ckParam (decide (lv ≤ 1)) 0, ckParam (decide (h ≤ 1)) 1]
    [ckState (s.level f).reader.isSome]
    (fun t =>
      let t1 := t.modLevel f fun l => { l with reader := l.reader.map fun r =>
        { r with held0 := r.held0 && h != 0, held1 := r.held1 && h != 1,
                 missed := if r.owed && r.missedAt == t.time.tb1.toNat && decide (0 < r.missed) then r.missed - 1 else r.missed } }
      match (t1.level f).reader, (t1.level f).published with
      | some r, some (n, img) =>
        if r.owed ∧ img.length ≤ r.hlen then .ok 0 [] [] (t1.writeHalf f n img (h == 1)) else .ok 0 [] [] t1
      | _, _ => .ok 0 [] [] t1) s)

def opMapConfig : OpSpec := mkOp 0x0508 [.v 2, .v 1, .r 1, .v 2, .v 2, .v 2, .v 2, .r 4, .ptr] rS wF false

/-- An entry of MAP.CONFIG at a byte offset. -/
def parseMapEnt (b : List Byte) (o : Nat) : MapEnt :=
  { port := rd b o 1, queue := rd b (o + 1) 1, maxc := rd b (o + 2) 2, sumc := rd b (o + 4) 2, dropc := rd b (o + 6) 2 }

/-- MAP.CONFIG (R169, R170): a MAX counter of depth and COUNT counters of summed depth and drops, of one heavy set with window MP; N = 0
stops maps. -/
def execMapConfig (c : Cmd) (s : State) : Host.Outcome State Fault Refusal :=
  let mp := cp c 0 2 * 100000
  let set := cp c 2 1
  let n := cp c 4 2
  let es := (List.range n).map fun i => parseMapEnt (cdata c 0) (8 * i)
  let x := s.set set
  let own := fun (k mode : Nat) => inSet set (x.banksNext.getD x.banks) k && bits (tgetD s.coll.cfg k 0).toNat 30 29 == mode
  .next (runCmd opMapConfig c
    [ckData opMapConfig c 0 (8 * n),
     ckParam (n == 0 || (decide (cp c 6 2 < cp c 8 2) && decide (cp c 8 2 < cp c 10 2))) 6,
     ckParam (es.all fun e => decide (e.port < 64) && decide (e.queue < 8)) 16,
     ckParam (es.all fun e => own e.maxc 2 && own e.sumc 0 && own e.dropc 0) 16,
     ckParam (n == 0 || decide (16 ≤ set) || x.winNext.getD x.win == mp) 0,
     ckRange (decide (1 ≤ cp c 0 2) && decide (cp c 0 2 ≤ 1000)) 0, ckRange (decide (1 ≤ set) && decide (set < 16)) 2,
     ckRange (decide (n ≤ 512)) 4] []
    (fun t => .ok 0 [] [] (t.modCrown fun u =>
      { u with mp := mp, map := if n = 0 then none
        else some { set := set, ents := es, th1 := cp c 6 2, th2 := cp c 8 2, th3 := cp c 10 2 } })) s)

def opReduceStatus : OpSpec := mkOp 0x0509 [.v 1] rATS wFTH false

/-- REDUCE.STATUS: last published epoch and late operands. -/
def execReduceStatus (c : Cmd) (s : State) : Host.Outcome State Fault Refusal :=
  let lv := cp c 0 1
  .next (runCmd opReduceStatus c [ckNoInline c, ckParam (decide (lv ≤ 1)) 0] []
    (fun t => .ok 0 (be 8 (t.level (lv == 1)).pubEpoch ++ be 4 (t.level (lv == 1)).late) [] t) s)

/-! ### TIME.CONFIG, whose W_c the cut banks rest on -/

/-- TIME.CONFIG (R483, Table 2.2, R53, R58, R70, R160); a new W_c from the next boundary of the old one (R83). -/
def execTimeConfig (c : Cmd) (s : State) : Host.Outcome State Fault Refusal :=
  let drq := BitVec.ofNat 8 (cp c 1 1)
  .next (runCmd opTimeConfig c
    [ckNoInline c, ckAddr c 28, ckRange (decide (cp c 0 1 ≤ 127)) 0,
     ckRange (drq == 0x7F || (decide (-7 ≤ drq.toInt) && decide (drq.toInt ≤ 0))) 1,
     ckRange (decide (1 ≤ cp c 22 1) && decide (cp c 22 1 ≤ 64)) 22,
     ckRange (decide (1 ≤ cp c 23 1) && decide (cp c 23 1 ≤ 100)) 23,
     ckRange (decide (1 ≤ cp c 24 2) && decide (cp c 24 2 ≤ 1000)) 24]
    [ckCap (banksFit { s.bankNeed false with wc := cp c 23 1 * 1000000 } { s.bankNeed true with wc := cp c 23 1 * 1000000 }) 0]
    (fun t => .ok 0 [] [] (t.modTime fun u =>
      { u with wcNext := some (cp c 23 1, gridAt t.wcNs t.tb0Ns + t.wcNs), cfg :=
        { domain := BitVec.ofNat 8 (cp c 0 1), drq := drq, clkId := BitVec.ofNat 64 (cp c 4 8),
          origin := BitVec.ofNat 80 (cp c 12 10), tol := cp c 22 1, wcMs := t.wcNs / 1000000, pairIv := cp c 24 2,
          troot := some (BitVec.ofNat 18 (cp c 28 4)) } })) s)

end Sys2Proof.Machine
end

