-- ==== Sys2Proof/Machine/Bcast.lean ====
section
/-! DEFINITION. Trees and broadcasts (R171 to R175, R403): relays, acknowledgements, timers and re-sends. What a broadcast
of a KIND does at a node stands where that unit's commands stand. -/

namespace Sys2Proof.Machine

/-! ### Forwarding -/

/-- Cells of the records that a data frame carries: NCELL of its Billets (Table 4.7). -/
def frameCells (data : List Byte) : Nat :=
  let h := rd data 0 16
  ((chunksOf (slotSize (bit h 121)) 31 ((data.take (data.length - 8)).drop 16)).map fun x => bits (rd x 0 2) 13 12 + 1).sum

/-- A frame carries only records for which the last cells of a quota are reserved (R107). -/
def frameBooks (data ovf : List Byte) : Bool :=
  ((frameRecords data (if ovf.isEmpty then none else some ovf)).1).all fun b => bookType (BitVec.ofNat 8 (rd b 0 1))

/-- Cells of stream 4 + c: those of the frames in the FWD queues of class c. -/
def State.fwdCells (s : State) (c : Nat) : Nat := (s.hop.ifcs.map fun f => ((f.classQ c).fwd.map (·.cells)).sum).sum

/-- A frame goes into the FWD queue of an interface and class (R126); a queue that was empty starts at the virtual time (R135). A frame
that does not fit in the quota of its stream 4 + c is dropped whole and counted for it (R107, R108). -/
def State.pushFwd (i c : Nat) (data ovf : List Byte) (hops : List Hop) (s : State) : State :=
  let n := frameCells data
  let g := s.scfg (4 + c)
  if s.fwdCells c + n ≤ (if frameBooks data ovf then g.quota else g.quota - 64) then
    let x : FwdFrame := { data := data, ovf := ovf, hops := hops, arrived := s.tb1Ns, heldMark := false, cells := n }
    (s.modClass i c fun k =>
      { k with fwd := k.fwd ++ [x], sFwd := if k.fwd.isEmpty then k.v else k.sFwd }).modHop fun u =>
      { u with freeCells := u.freeCells - n }
  else s.bump (0xF4 + c)

/-- The interface that leads to a block. -/
def State.ifcTo (s : State) (a : Laddr) : Nat := (s.blockHop false a).ifc

/-- A record that is passed on unchanged in a frame of this hop (R99, R117), formed on stream 4 + c (R110, R112), with FWD set, to a
list of hops. `mask` is DMASK; a multicast names HOPDST 0x3_FFFF. A record too long for any frame of the stream is dropped and
counted for it. -/
def State.passOn (r : Rec) (multi : Bool) (mask : Nat) (addrs : List Laddr) (s : State) : State :=
  let c := r.cls.toNat
  let g := s.scfg (4 + c)
  if fitsFrame g [r] then
    let fr := formFrame g c s.sys.laddr.toNat (if multi then 0x3FFFF else ((addrs.headD 0).toNat)) mask true [r]
    ((addrs.map s.ifcTo).eraseDups).foldl (fun t i =>
      t.pushFwd i c fr.data fr.ovf ((addrs.filter fun a => t.ifcTo a == i).map fun a => ({ ifc := i, dst := a } : Hop)))
      ((s.modCfg (4 + c) fun g => { g with ovfId := fr.ovfId }).bumpN cBilletOverflow fr.chunks)
  else s.bump (0xF4 + c)

/-! ### Bodies (Table 6.9) -/

/-- Fields of a BROADCAST body. -/
def bcBid (b : List Byte) : Word := BitVec.ofNat 32 (rd b 0 4)
def bcGen (b : List Byte) : Word := BitVec.ofNat 32 (rd b 4 4)
def bcTree (b : List Byte) : Nat := rd b 8 1
def bcKind (b : List Byte) : Nat := rd b 9 1
def bcChunk (b : List Byte) : Nat := rd b 12 4
def bcNchunk (b : List Byte) : Nat := rd b 16 4
def bcPayload (b : List Byte) : List Byte := slice b 24 (min (rd b 20 4) 1988)

/-- MISS reasons of Table 6.9. -/
def missGap : Nat := 1
def missTimeout : Nat := 2
def missUnreached : Nat := 3

/-- A MISS entry. -/
def missWord (reason : Nat) (a : Laddr) : Word := BitVec.ofNat 32 (reason * 2 ^ 29 + a.toNat)

/-- DMASK of the children of a tree that a test keeps: child index i is bit i (R403). -/
def childMask (t : Tree) (p : Child → Bool) : Nat :=
  ((List.range t.children.length).map fun i =>
    match t.children[i]? with | some c => if p c then 2 ^ i else 0 | none => 0).sum

/-- The waits of a broadcast for a tree's active children. -/
def treeWaits (t : Tree) (since : Nat) : List Wait :=
  ((List.range t.children.length).zip t.children).filterMap fun e =>
    if e.2.active then
      some { addr := e.2.addr, index := e.1, height := e.2.height, resent := false, done := false, since := since,
             reached := 0, miss := [], parts := 0 }
    else none

/-- Change a broadcast in progress. -/
def State.modBcast (src : Laddr) (bid : Word) (g : Bcast → Bcast) (s : State) : State :=
  s.modCrown fun c => { c with bcasts := c.bcasts.map fun x => if x.src == src && x.bid == bid then g x else x }

/-- A broadcast in progress. -/
def State.bcast (s : State) (src : Laddr) (bid : Word) : Option Bcast :=
  s.crown.bcasts.find? fun x => x.src == src && x.bid == bid

/-- This node holds every chunk. -/
def Bcast.holdsAll (b : Bcast) : Bool := !b.gap && b.got == b.nchunk

/-- The last chunk has been accepted. -/
def Bcast.ended (b : Bcast) : Bool := b.got == b.nchunk

/-- MISS entries of the subtree with this node's own. -/
def Bcast.misses (b : Bcast) (own : Laddr) : List Word :=
  (if b.holdsAll then [] else [missWord missGap own]) ++ (b.waits.map (·.miss)).flatten

/-- Nodes reached in the subtree, this one with them. -/
def Bcast.reach (b : Bcast) : Nat := b2n b.holdsAll + (b.waits.map (·.reached)).sum

/-- The records of an acknowledgement (R172, Table 6.9), class 1. -/
def ackReqs (b : Bcast) (own dst : Laddr) : List Req :=
  let m := b.misses own
  let ps := if m.isEmpty then [[]] else piecesOf 502 600 m
  (List.range ps.length).map fun i =>
    let p := ps.getD i []
    { dst := .block dst, cls := 1, typ := tBroadcastAck, unit := uCrown, flags := 0, stamp := none,
      body := be 4 b.bid.toNat ++ be 4 b.gen.toNat ++ be 1 (b2n (!m.isEmpty)) ++ zeros 1 ++ be 2 p.length
        ++ be 4 b.reach ++ be 2 i ++ be 2 ps.length ++ (p.map fun w => be 4 w.toNat).flatten }

/-- Replies counted for a broadcast (R407). -/
def State.nfailOf (s : State) (bid : Word) : Nat :=
  match s.crown.nfail.find? fun e => e.1 == bid with | some e => e.2 | none => 0

/-- The final reply of BCAST.SEND (Table 16.11); MISS entries to MPTR, at most MMAX, which `acc` keeps with the command. -/
def bcastFinal (b : Bcast) (own : Laddr) (nfail mmax : Nat) : Final :=
  let m := b.misses own
  { status := 0x0000, detail := BitVec.ofNat 64 nfail,
    result := be 4 b.bid.toNat ++ be 1 (b2n (!m.isEmpty)) ++ zeros 3 ++ be 4 b.reach ++ be 4 m.length,
    out := ((m.take mmax).map fun w => be 4 w.toNat).flatten }

/-- An acknowledgement leaves for the nodes that a broadcast came from. -/
def State.sendAcks (b : Bcast) (dsts : List Laddr) (s : State) : State :=
  dsts.foldl (fun t a => (ackReqs b s.sys.laddr a).foldl (fun u q => u.send q) t) s

/-- A broadcast whose last chunk is accepted and whose children have all answered or been resolved is acknowledged to the
node it came from and to the alternate parents that have re-sent it, or ends at the root (R172, R173). The newest 16 are kept for a
re-send that comes later (DESIGN CHOICE, log entry 21). -/
def State.bcastSettle (src : Laddr) (bid : Word) (s : State) : State :=
  match s.bcast src bid with
  | some b =>
    if b.ended && b.waits.all (·.done) then
      let s1 := s.modCrown fun c => { c with bcasts := c.bcasts.filter fun x => !(x.src == src && x.bid == bid) }
      match b.upTo with
      | some up => (s1.sendAcks b (up :: b.also)).modCrown fun c =>
          { c with bcDone := (c.bcDone ++ [{ b with recs := [] }]).drop ((c.bcDone.length + 1) - 16) }
      | none =>
        let mm := match s.cmd.acc.find? fun a => a.opcode == 0x0507 && a.obj % 2 ^ 32 == bid.toNat with
          | some a => a.obj / 2 ^ 32
          | none => 0
        (s1.setReady 0x0507 (mm * 2 ^ 32 + bid.toNat) (bcastFinal b s.sys.laddr (s.nfailOf bid) mm)).modCrown fun c =>
          { c with nfail := c.nfail.filter fun e => e.1 != bid }
    else s
  | none => s

/-- The tree under which a BROADCAST record runs: that of the broadcast in progress, else the installed one of the same generation, or
in the cycle of its change the one before it (R171, R175, R177). -/
def State.bcTreeOf (s : State) (src : Laddr) (b : List Byte) : Option Tree :=
  match s.bcast src (bcBid b) with
  | some x => if x.gen == bcGen b then x.held else none
  | none =>
    let old := if s.crown.oldTrees.2 = s.time.tb1.toNat then tget s.crown.oldTrees.1 (bcTree b) else none
    ((s.tree (bcTree b)).filter fun t => t.gen == bcGen b).or (old.filter fun t => t.gen == bcGen b)

/-- The state of a broadcast that a node begins to take from another. -/
def bcastNew (src hop : Laddr) (t : Tree) (b : List Byte) : Bcast :=
  { src := src, bid := bcBid b, tree := bcTree b, gen := bcGen b, kind := bcKind b, nchunk := bcNchunk b, upTo := some hop, also := [],
    got := 0, gap := false, recs := [], waits := treeWaits t 0, held := some t }

/-- Broadcasts that this node relays. -/
def State.relays (s : State) : Nat := (s.crown.bcasts.filter fun x => x.upTo.isSome).length

/-- A broadcast beyond the 8 that a relay node may have in progress is refused (R175): its issuer is told with its last chunk that this
node and the nodes below it lack its chunks. -/
def State.refuseBcast (hop : Laddr) (t : Tree) (r : Rec) (s : State) : State :=
  let b := r.body
  if bcChunk b + 1 = bcNchunk b then
    let waits := (treeWaits t s.tb1Ns).map fun w => { w with done := true, miss := [missWord missUnreached w.addr] }
    s.sendAcks { bcastNew r.src hop t b with gap := true, waits := waits } [hop]
  else s

/-- A BROADCAST record that was accepted (R171, R174, R175): relayed to the active children and entered in the broadcast's
state. `hop` is the node it came from. The second component is the broadcast where this record is its last chunk. -/
def State.rxBroadcast (hop : Laddr) (r : Rec) (s : State) : State × Option Bcast :=
  let b := r.body
  let drop := (s.modCrown fun c => { c with bcDrop := satAdd 32 c.bcDrop 1 }, (none : Option Bcast))
  match s.bcTreeOf r.src b with
  | none => drop
  | some t =>
    let known := (s.bcast r.src (bcBid b)).isSome
    if !known && decide (8 ≤ s.relays) then (s.refuseBcast hop t r, none)
    else
      let kids := (t.children.filter (·.active)).map (·.addr)
      let s1 := if kids.isEmpty then s else s.passOn r true (childMask t (·.active)) kids
      let s2 := if known then s1 else s1.modCrown fun c =>
        { c with bcasts := c.bcasts ++ [bcastNew r.src hop t b] }
      let last := bcChunk b + 1 == bcNchunk b
      let s3 := s2.modBcast r.src (bcBid b) fun x =>
        { x with gap := x.gap || x.got != bcChunk b, got := bcChunk b + 1, recs := x.recs ++ [r],
                 waits := if last then x.waits.map fun w => { w with since := s.tb1Ns } else x.waits }
      (s3, if last then s3.bcast r.src (bcBid b) else none)

/-- A re-sent record that this node discards under R105 (R173, R174): it holds the chunk already, or lacks it for good where a later
position of the stream came first. Its alternate parent is acknowledged to as well; with the last chunk the broadcast is known to have
ended. -/
def State.rxRepeat (hop : Laddr) (r : Rec) (s : State) : State :=
  let b := r.body
  let last := bcChunk b + 1 == bcNchunk b
  match s.crown.bcDone.find? fun x => x.src == r.src && x.bid == bcBid b with
  | some x => if last && x.gen == bcGen b then s.sendAcks x [hop] else s
  | none =>
    match s.bcTreeOf r.src b with
    | none => s.modCrown fun c => { c with bcDrop := satAdd 32 c.bcDrop 1 }
    | some t =>
      let known := (s.bcast r.src (bcBid b)).isSome
      if !known && decide (8 ≤ s.relays) then s.refuseBcast hop t r
      else
        let s1 := if known then s else s.modCrown fun c => { c with bcasts := c.bcasts ++ [bcastNew r.src hop t b] }
        (s1.modBcast r.src (bcBid b) fun x =>
          { x with gap := x.gap || decide (x.got ≤ bcChunk b), got := if last then x.nchunk else x.got,
                   also := if x.upTo == some hop || x.also.contains hop then x.also else x.also ++ [hop],
                   waits := if last && !x.ended then x.waits.map fun w => { w with since := s.tb1Ns } else x.waits }).bcastSettle
          r.src (bcBid b)

/-- A re-sent record for a standby child: relayed to it alone, and its acknowledgement noted to be passed back (R173). -/
def State.relayStandby (hop : Laddr) (mask : Nat) (r : Rec) (s : State) : State :=
  let b := r.body
  match s.bcTreeOf r.src b with
  | none => s.modCrown fun c => { c with bcDrop := satAdd 32 c.bcDrop 1 }
  | some t =>
    (((List.range t.children.length).zip t.children).filter fun e => bit mask e.1 && !e.2.active).foldl (fun u e =>
      let u1 := u.passOn r false 0 [e.2.addr]
      let p : Pass := { bid := bcBid b, target := e.2.addr, back := hop }
      u1.modCrown fun c => { c with passes := (c.passes.filter fun x => x != p) ++ [p] }) s

/-- BROADCAST_ACK accepted (R172, R173): passed back by an alternate parent, else entered for the child that sent it. -/
def State.rxAck (r : Rec) (s : State) : State :=
  let b := r.body
  let bid := bcBid b
  match s.crown.passes.find? fun p => p.bid == bid && p.target == r.src with
  | some p =>
    let s1 := s.passOn r false 0 [p.back]
    if rd b 16 2 + 1 = rd b 18 2 then s1.modCrown fun c => { c with passes := c.passes.filter fun x => x != p } else s1
  | none =>
    match s.crown.bcasts.find? fun x => x.bid == bid && x.gen == bcGen b && x.waits.any fun w => w.addr == r.src && !w.done with
    | some x =>
      let ms := (List.range (rd b 10 2)).map fun i => BitVec.ofNat 32 (rd b (20 + 4 * i) 4)
      let s1 := s.modBcast x.src x.bid fun y =>
        { y with waits := y.waits.map fun w =>
            if w.addr == r.src && !w.done then
              { w with parts := w.parts + 1, miss := w.miss ++ ms, reached := rd b 12 4,
                       done := decide (rd b 18 2 ≤ w.parts + 1) }
            else w }
      s1.bcastSettle x.src x.bid
    | none => s

/-- A target of a re-send: the node, its height, its alternate parent and standby index there. -/
structure Target where
  addr : Laddr
  height : Nat
  alt : Laddr
  altIdx : Nat
deriving DecidableEq, Repr

/-- The targets for a silent child: itself and each of its children (R173). -/
def targetsOf (c : Child) : List Target :=
  { addr := c.addr, height := c.height, alt := c.alt, altIdx := c.altIdx.toNat }
    :: c.gcs.map fun g => { addr := g.1, height := c.height - 1, alt := g.2.1, altIdx := g.2.2.toNat }

/-- ACK_TIMER_EXPIRY (R173): the child has been silent for ACK_TO × (h + 1) since its last chunk left; the broadcast goes
once more to it and to each of its children through their alternate parents. -/
def execAckTimerExpiry (bid : Word) (child : Fin 64) (s : State) : Host.Outcome State Fault Refusal :=
  match s.crown.bcasts.find? fun x => x.bid == bid && x.waits.any fun w => w.index == child.val && !w.done && !w.resent with
  | some x =>
    match x.held, x.waits.find? fun w => w.index == child.val with
    | some t, some w =>
      match t.children[child.val]? with
      | some c =>
        if s.engUp && x.ended && s.past1 (w.since + t.ackTo * (w.height + 1)) then
          let ts := targetsOf c
          let s1 := ts.foldl (fun u g =>
            if g.alt = 0 then u
            else x.recs.foldl (fun v r => v.passOn r false (2 ^ g.altIdx) [g.alt]) u) s
          let ws : List Wait := ((List.range ts.length).zip ts).map fun (e : Nat × Target) =>
            { addr := e.2.addr, index := if e.1 = 0 then child.val else 64 + e.1, height := e.2.height, resent := true,
              done := e.2.alt == 0, since := s.tb1Ns, reached := 0,
              miss := if e.2.alt = 0 then [missWord missUnreached e.2.addr] else [], parts := 0 }
          .next ((s1.modBcast x.src bid fun y =>
            { y with waits := (y.waits.filter fun v => v.index != child.val) ++ ws }).bcastSettle x.src bid)
        else .next s
      | none => .next s
    | _, _ => .next s
  | none => .next s

/-- RESEND_ACK_TIMER_EXPIRY (R173): a target of a re-send has been silent for ACK_TO × (h + 2). A silent child whose own
children acknowledged is listed TIMEOUT, any other silent target UNREACHED. The nodes of a silent child's subtree that this node's child
entry names are targets of their own, and each is listed by its own wait. -/
def execResendAckTimerExpiry (bid : Word) (target : Laddr) (s : State) : Host.Outcome State Fault Refusal :=
  match s.crown.bcasts.find? fun x => x.bid == bid && x.waits.any fun w => w.addr == target && w.resent && !w.done with
  | some x =>
    match x.held, x.waits.find? fun w => w.addr == target && w.resent && !w.done with
    | some t, some w =>
      if s.engUp && s.past1 (w.since + t.ackTo * (w.height + 2)) then
        let gcs := match t.children[w.index]? with | some c => c.gcs.map (fun (g : Laddr × Laddr × BitVec 6) => g.1) | none => []
        let answered := !gcs.isEmpty && gcs.all fun g =>
          x.waits.any fun v => v.addr == g && v.done && !v.miss.contains (missWord missUnreached g)
        let reason := if answered then missTimeout else missUnreached
        .next ((s.modBcast x.src bid fun y =>
          { y with waits := y.waits.map fun v =>
              if v.addr == target && v.resent && !v.done then { v with done := true, miss := [missWord reason target] }
              else v }).bcastSettle x.src bid)
      else .next s
    | _, _ => .next s
  | none => .next s

/-! ### Commands -/

def opTreeInstall : OpSpec := mkOp 0x0506 [.v 1, .r 3, .v 4, .v 4, .v 1, .r 3, .ptr, .v 4, .v 4] rDTS wF false

/-- An address field: bits [17:0], the standby index in [29:24] (R403). -/
def fldAddr (v : Nat) : Laddr := BitVec.ofNat 18 v

/-- Reserved bits of an ADDR field are 0 (R9, R403). -/
def addrOk (v : Nat) : Bool := decide (v < 2 ^ 18)

/-- Reserved bits of an ALT field, [31:30] and [23:18], are 0 (R9, R403). -/
def altOk (v : Nat) : Bool := bits v 31 30 == 0 && bits v 23 18 == 0

def fldIdx (v : Nat) : BitVec 6 := BitVec.ofNat 6 (v / 2 ^ 24)

/-- The child entries of a TREE.INSTALL, `n` at most (R403): the entries, the bytes they take, and whether they are well
formed. -/
def parseChildren : Nat → List Byte → List Child × Nat × Bool
  | 0, _ => ([], 0, true)
  | n + 1, b =>
    let k := rd b 10 1
    let c : Child :=
      { addr := fldAddr (rd b 0 4), alt := fldAddr (rd b 4 4), altIdx := fldIdx (rd b 4 4), height := rd b 8 1,
        active := bit (rd b 9 1) 0,
        gcs := (List.range k).map fun i =>
          (fldAddr (rd b (16 + 8 * i) 4), fldAddr (rd b (20 + 8 * i) 4), fldIdx (rd b (20 + 8 * i) 4)) }
    let ok := addrOk (rd b 0 4) && altOk (rd b 4 4) && decide (rd b 9 1 ≤ 1) && rd b 11 5 == 0 && (c.active || k == 0)
      && (List.range k).all fun i => addrOk (rd b (16 + 8 * i) 4) && altOk (rd b (20 + 8 * i) 4)
    let rest := parseChildren n (b.drop (16 + 8 * k))
    (c :: rest.1, 16 + 8 * k + rest.2.1, ok && rest.2.2)

/-- Consumer state for the blocks below fits in the 16,384 pairs (R106): what is held, and 4 streams of each block below. -/
def State.pairsFit (s : State) (below : List Nat) : Bool :=
  let held : List Nat := s.hop.consumers.map fun (e : Nat × Consumer) => e.1
  let more : List Nat := (below.map fun a => (List.range 4).map fun c => a * 4 + c).flatten
  decide ((held ++ more).eraseDups.length ≤ 16384)

/-- TREE.INSTALL (R18, R106, R160, R173, R175, R196, R403): from the next cut boundary of the node's highest level. At a spine-role
block a PARENT of 0, or its own address, makes the node the root; in another role it is E_PARAM (DESIGN CHOICE, log entry 21). -/
def execTreeInstall (c : Cmd) (s : State) : Host.Outcome State Fault Refusal :=
  let n := cp c 12 1
  let dlen := cp c 24 4
  let p := parseChildren n (cdata c 0)
  let par := cp c 8 4
  let ack := cp c 28 4
  let x : Tree :=
    { gen := BitVec.ofNat 32 (cp c 4 4), parent := if par = 0 ∨ par = s.sys.laddr.toNat then none else some (fldAddr par),
      ackTo := if ack = 0 then 20000000 else ack * 100000, children := p.1 }
  let root := par == 0 || par == s.sys.laddr.toNat
  let t := s.modCrown fun u => { u with treesNext := tput u.treesNext (cp c 0 1) x }
  .next (runCmd opTreeInstall c
    [ckData opTreeInstall c 0 dlen, ckAddr c 8, ckParam (s.isSpine || !root) 8, ckParam (p.2.1 == dlen) 24, ckParam p.2.2 16,
      ckRange (decide (cp c 0 1 < 16)) 0,
     ckRange (decide (n ≤ 64)) 12, ckRange (decide (ack ≤ 100000)) 28]
    [ckCap (t.pairsFit t.below) 0, ckCap (banksFit (t.bankNeed false) (t.bankNeed true)) 0, ckCap t.ratesOk 0]
    (fun t => .ok 0 [] [] (t.modCrown fun u => { u with treesNext := tput u.treesNext (cp c 0 1) x })) s)

def opBcastSend : OpSpec := mkOp 0x0507 [.v 1, .v 1, .r 2, .v 4, .ptr, .ptr, .v 4] rS wF false

/-- The class of a broadcast's records: models and configuration 2, the rest 1 (R171). -/
def bcClass (kind : Nat) : Fin 4 := if kind = 1 ∨ kind = 2 then 2 else 1

/-- The root starts a broadcast (R171): its chunks of up to 1,988 bytes are offered as multicast records, and the broadcast
waits for its active children. -/
def State.bcastStart (tree : Nat) (t : Tree) (kind : Nat) (payload : List Byte) (s : State) : State :=
  let bid := s.crown.bidNext
  let ps := if payload.isEmpty then [[]] else chunksOf 1988 (payload.length / 1988 + 1) payload
  let kids := (t.children.filter (·.active)).map (·.addr)
  let mask := BitVec.ofNat 64 (childMask t (·.active))
  let x : Bcast :=
    { src := s.sys.laddr, bid := bid, tree := tree, gen := t.gen, kind := kind, nchunk := ps.length, upTo := none,
      also := [], got := ps.length, gap := false, recs := [], waits := treeWaits t s.tb1Ns, held := some t }
  let s1 := s.modCrown fun c => { c with bidNext := c.bidNext + 1, bcasts := c.bcasts ++ [x] }
  (List.range ps.length).foldl (fun u i =>
    let p := ps.getD i []
    let o := u.offer
      { dst := .children mask kids, cls := bcClass kind, typ := tBroadcast, unit := uCrown, flags := 0, stamp := none,
        body := be 4 bid.toNat ++ be 4 t.gen.toNat ++ be 1 tree ++ be 1 kind ++ zeros 2 ++ be 4 i ++ be 4 ps.length
          ++ be 4 p.length ++ p }
    if o.2 then
      match ((o.1.scfg (bcClass kind).val).queue.getLast?) with
      | some q => o.1.modBcast s.sys.laddr bid fun y => { y with recs := y.recs ++ [q.r] }
      | none => o.1
    else o.1) s1

/-- The checks of BCAST.SEND beyond the base ones (R171, R175, R407). -/
def bcastChecks (c : Cmd) (s : State) : List Check × List Check :=
  let kind := cp c 1 1
  let len := cp c 4 4
  let t := s.tree (cp c 0 1)
  ([ckData opBcastSend c 0 len, ckWrite opBcastSend c 1, ckParam (decide (kind ≤ 4) && kind != 3) 1,
    ckParam (kind != 4 || (decide (64 ≤ len) && decide (len ≤ 1988))) 4, ckRange (decide (cp c 0 1 < 16)) 0],
   [ckState (match t with | some x => x.parent.isNone | none => false),
    ckStatus (decide ((s.crown.bcasts.filter fun x => x.upTo.isNone).length < 4)) stBusy])

end Sys2Proof.Machine
end

