-- ==== Sys2Proof/Machine/FieldTest.lean ====
section
/-! DEFINITION. In-field test (spec/15): the library, due cores and requests, windows, results. -/

namespace Sys2Proof.Machine

/-- A core of in-field test. -/
def State.tcore (s : State) (c : Nat) : TestCore := tgetD s.test.cores c testCoreReset

/-- Change a core of in-field test. -/
def State.modTcore (c : Nat) (f : TestCore → TestCore) (s : State) : State :=
  s.modTest fun t => { t with cores := tput t.cores c (f (tgetD t.cores c testCoreReset)) }

/-! ### The library (Tables 15.2 and 15.3, R373, R374, R436) -/

/-- Offsets and IDs of the items of a library from an offset on; a header that is none ends the list. -/
def libScan (lib : List Byte) : Nat → Nat → List (Nat × Word)
  | 0, _ => []
  | fuel + 1, off =>
    if lib.length < off + 64 ∨ rd lib off 4 ≠ 0x54534C31 ∨ rd lib (off + 12) 4 < 64 then []
    else (off, BitVec.ofNat 32 (rd lib (off + 8) 4)) :: libScan lib fuel (ceilDiv (off + rd lib (off + 12) 4) 8 * 8)

/-- The bytes of an item of the library. -/
def findItem (lib : List Byte) (id : Word) : Option (List Byte) :=
  ((libScan lib (lib.length / 64) 64).find? fun e => e.2 == id).map fun e => slice lib e.1 (rd lib (e.1 + 12) 4)

/-- A list of operation words that ends with END and holds no reserved OP or field (Table 15.3). -/
def opsOk (b : List Byte) : Nat → Nat → Bool
  | 0, _ => false
  | fuel + 1, off =>
    if b.length < off + 8 then false
    else
      let w := rd b off 8
      let arg := bits w 31 0
      if bits w 59 32 ≠ 0 then false
      else match bits w 63 60 with
        | 1 => opsOk b fuel (off + 8)
        | 2 => decide (1 ≤ arg) && decide (arg ≤ 2 ^ 24) && opsOk b fuel (off + 8 + 24 * ceilDiv arg 64)
        | 3 => opsOk b fuel (off + 8)
        | 4 => arg == 0
        | _ => false

/-- Segment i of an item: offset, length, EST_US. -/
def itemSeg (b : List Byte) (i : Nat) : Nat × Nat × Nat :=
  (rd b (64 + 16 * i) 4, rd b (68 + 16 * i) 4, rd b (72 + 16 * i) 4)

/-- Segments of an item. -/
def itemSegs (b : List Byte) : Nat := rd b 7 1

/-- An item that passes the checks of R374. -/
def itemGood (b : List Byte) : Bool :=
  let kind := rd b 6 1
  let n := itemSegs b
  let lists := if kind = 1 then rd b 40 4 :: (List.range n).map fun i => (itemSeg b i).1 else []
  rd b 60 4 == crc32c (b.take 60) && rd b 32 8 == crc64 (b.drop 64) && rd b 4 2 == 1 && decide (kind ≤ 1) && rd b 8 4 != 0
    && decide (1 ≤ n) && decide (n ≤ if kind = 0 then 1 else 64) && rd b 44 16 == 0
    && (List.range n).all (fun i => rd b (76 + 16 * i) 4 == 0)
    && (kind == 0 || (rd b 16 8 == 0 && rd b 24 8 == 0)) && (kind == 1 || rd b 40 4 == 0)
    && lists.all fun o => opsOk b (b.length / 8) o

/-- An item of the library in flash. -/
def State.item (s : State) (id : Word) : Option (List Byte) := findItem s.flash.lib id

/-- An item that the sequencer finds bad, the whole library counting as bad above TLIB_MAX (R374, R436). -/
def State.itemBad (s : State) (id : Word) : Bool :=
  match s.item id with
  | some b => !itemGood b || decide (s.hoist.hdr.tlib < rd s.flash.lib 4 2)
  | none => true

/-! ### Due cores (R375, R376, R379) -/

/-- A host core that the mask enables. -/
def State.testCore (s : State) (c : Nat) : Bool :=
  bit (beNat (padTo 32 s.test.mask)) c && !decide (Config.coresM1.toNat < c)

/-- The instant at which a core is due: TEST_INT after its last completed pass, at once after TEST.CLEAR, at the
installation of the plan where no pass is recorded. -/
def State.dueAt (s : State) (c : Nat) : Option Nat :=
  match (s.tcore c).dueAt with
  | some t => some t
  | none =>
    match tget s.test.done c with
    | some t => some (t + s.test.tint * 3600000000000)
    | none => s.test.planAt

/-- The next plan step of a pass from 64 × index + segment on, bad and absent items left out. -/
def State.planStep (s : State) : Nat → Nat → Option (Nat × Word × Nat)
  | 0, _ => none
  | fuel + 1, pos =>
    match s.test.plan[pos / 64]? with
    | none => none
    | some id =>
      match s.item id with
      | some b =>
        if s.test.bad.contains id ∨ itemSegs b ≤ pos % 64 then s.planStep fuel ((pos / 64 + 1) * 64)
        else some (pos, id, pos % 64)
      | none => s.planStep fuel ((pos / 64 + 1) * 64)

/-- The next plan step of a core. -/
def State.nextStep (s : State) (c : Nat) : Option (Nat × Word × Nat) := s.planStep 66 (s.tcore c).pos

/-- The core that the block asks for (R376, R382): one that waits for a retest first, then the earliest due, then the lowest
index. -/
def State.pickCore (s : State) : Option Nat :=
  let due := (List.range 256).filter fun c =>
    s.testCore c && !(s.tcore c).failed && (s.nextStep c).isSome
      && match s.dueAt c with | some t => decide (t ≤ s.tb0Ns) | none => false
  let key := fun (c : Nat) => ((if (s.tcore c).failed1 then 0 else 1) * 2 ^ 70 + (s.dueAt c).getD 0) * 256 + c
  due.foldl (fun m c => match m with
    | none => some c
    | some x => if key c < key x then some c else some x) none

/-- The library may be used: it is not being rewritten (R427). -/
def State.libReady (s : State) : Bool := (s.dirEnt 6).st != .writing

/-- The TEST_REQUEST event of a request (Table 16.6). -/
def State.postRequest (q : TestReq) (s : State) : State :=
  (s.modTest fun t => { t with req := some { q with asked := s.tb1Ns } }).event 0x0FE0
    (be 1 q.core ++ be 1 q.seg ++ zeros 2 ++ be 4 q.item.toNat ++ be 4 q.est ++ be 1 (b2n (s.tcore q.core).overdue))

/-- A plan that waits takes effect with the next request (R385), which comes in RUN and with no window open: every pass starts anew,
and a core with no recorded pass is due from there (R376). -/
def State.planApply (s : State) : State :=
  match s.test.planNext with
  | some p =>
    if s.pow.pstate == .run && s.test.win.isNone then
      s.modTest fun t =>
        { t with plan := p, planNext := none, planAt := some s.tb0Ns,
                 cores := tmap t.cores fun _ c => { c with pos := 0, attempts := 0, failed1 := false } }
    else s
  | none => s

/-- The block asks for the next due core (R376, R377): in RUN, with no request and no window open. -/
def State.askNext (s0 : State) : State :=
  let s := s0.planApply
  if s.isDie && s.pow.pstate == .run && s.ctlUp && s.test.req.isNone && s.test.win.isNone && s.libReady then
    match s.pickCore with
    | some c =>
      match s.nextStep c with
      | some (pos, id, seg) =>
        let est := match s.item id with | some b => (itemSeg b seg).2.2 | none => 0
        (s.modTcore c fun x => { x with pos := pos }).postRequest { core := c, item := id, seg := seg, est := est, asked := 0 }
      | none => s
    | none => s
  else s

/-- TEST_DUE (R376, R377): a core is due and the block asks for the one that comes first. -/
def execTestDue (core : BitVec 8) (s : State) : Host.Outcome State Fault Refusal :=
  if s.planApply.pickCore == some core.toNat then .next s.askNext else .next s

/-- REASK_EXPIRY (R377): the request is posted again. -/
def execReaskExpiry (s : State) : Host.Outcome State Fault Refusal :=
  match s.test.req with
  | some q =>
    if s.ctlUp && s.libReady && decide (q.asked + s.test.reask * 60000000000 ≤ s.tb1Ns) then .next (s.postRequest q) else .next s
  | none => .next s

/-- TEST_OVERDUE (R379): counted and staged once per due instant, and the request is posted again at once. -/
def execTestOverdue (core : BitVec 8) (s : State) : Host.Outcome State Fault Refusal :=
  let c := core.toNat
  let x := s.tcore c
  match s.dueAt c with
  | some d =>
    if s.isDie && s.aoUp && s.testCore c && !x.failed && !x.overdue && !s.test.plan.isEmpty
        && s.past0 (d + s.test.maxdef * 3600000000000) then
      let s1 := ((s.bump cTestOverdue).stage 0x1201 .notice c d).modTcore c fun y => { y with overdue := true }
      .next (match s1.test.req with
        | some q => if s1.ctlUp && s1.libReady then s1.postRequest q else s1
        | none => s1.askNext)
    else .next s
  | none => .next s

/-! ### Windows and results (R378, R380 to R383) -/

/-- The TEST_RESULT record of a closed window (Table 15.6), stamped with the close (R383). -/
def testReq (w : TestWindow) (close result dur failop nmism attempt : Nat) (passDone overdue : Bool) : Req :=
  { dst := .up, cls := 2, typ := tTestResult, unit := uTest, flags := 0, stamp := some close,
    body := be 1 w.core ++ be 1 w.kind ++ be 1 result ++ be 1 w.seg ++ be 4 w.item.toNat ++ be 8 w.step.toNat ++ be 8 w.topen
      ++ be 4 (min dur (2 ^ 32 - 1)) ++ be 4 failop ++ be 4 (min nmism (2 ^ 32 - 1)) ++ be 2 (min attempt 65535)
      ++ be 1 (b2n passDone + 2 * b2n overdue) ++ zeros 1 }

/-- The completion instants as the TEST_DONE section holds them (Table 18.9). -/
def testDoneBytes (done : List (Nat × Nat)) : List Byte := ((List.range 256).map fun c => be 8 (tgetD done c 0)).flatten

/-- A window closes with a result of Table 15.7: what it means for the core, the record, the completion, and the next
request. Result 1 stands for a failure that is a first one or a confirmed one (R382). -/
def State.closeWindow (result failop nmism : Nat) (s : State) : State :=
  match s.test.win with
  | none => s
  | some w =>
    let x := s.tcore w.core
    let failing := result == 1 || result == 7
    let passing := result == 0
    let confirmed := failing && x.failed1
    let code := if confirmed then 2 else if passing && x.failed1 then 3 else result
    let moved := passing || result == 8
    let s1 := if result = 8 then
        (s.modTest fun t => { t with bad := t.bad ++ [w.item] }).stage 0x1204 .notice 0 w.item.toNat
      else s
    let s2 := if confirmed then s1.stage 0x1202 .fault w.core (w.item.toNat * 2 ^ 32 + w.seg) else s1
    let s3 := if code = 3 then s2.stage 0x1203 .notice w.core (w.item.toNat * 2 ^ 32 + w.seg) else s2
    let s4 := (s3.modTest fun t => { t with win := none }).modTcore w.core fun y =>
      { y with last := code, failed := y.failed || confirmed, failed1 := if confirmed || moved then false else y.failed1 || failing,
               pos := if result = 8 then (y.pos / 64 + 1) * 64 else if moved then y.pos + 1 else y.pos,
               attempts := if moved then 0 else y.attempts }
    let passDone := moved && (s4.nextStep w.core).isNone
    let s5 := if passDone then
        let t := (s4.modTest fun t => { t with done := tput t.done w.core s.tb0Ns }).modTcore w.core fun y =>
          { y with pos := 0, overdue := false, dueAt := none }
        t.writeSection 0x0100 (testDoneBytes t.test.done)
      else if confirmed then s4.modTcore w.core fun y => { y with overdue := false }
      else s4
    let s6 := s5.sendOwed (testReq w s.tb0Ns code ((s.tb1Ns - w.open1) / 1000) failop nmism x.attempts passDone x.overdue)
    (s6.event 0x0FE2 (be 1 w.core ++ be 1 code)).askNext

/-- The sequencer leaves the content of a SCAN window for its exit sequence, with what the window will close with (R381). -/
def State.leaveWindow (result failop nmism : Nat) (s : State) : State :=
  s.modTest fun t => { t with win := t.win.map fun w => if w.leaving.isSome then w else { w with leaving := some (result, failop, nmism) } }

/-- A window is aborted or times out: a KERNEL window closes at once, a SCAN window after its exit sequence (R380, R381). -/
def State.endWindow (result : Nat) (s : State) : State :=
  match s.test.win with
  | some w => if w.kind = 0 then s.closeWindow result 0xFFFFFFFF 0 else s.leaveWindow result 0xFFFFFFFF 0
  | none => s

/-- A reset of the host, of ENG or of CTL: ABORTED_RESET, with no exit sequence (R381). -/
def State.testReset (s : State) : State := s.closeWindow 5 0xFFFFFFFF 0

/-- A CORE_ACTIVE slot of a core (R377, R378): noted, and with a count it aborts the window on that core. -/
def State.coreActive (c inc : Nat) (s : State) : State :=
  if s.isDie then
    let s1 := s.modTcore c fun x => { x with activeAt := some s.tb1Ns }
    match s1.test.win with
    | some w => if w.core = c ∧ 0 < inc then s1.endWindow 4 else s1
    | none => s1
  else s

/-- WIN_US_EXPIRY (R380): the window's time is over. -/
def execWinUsExpiry (s : State) : Host.Outcome State Fault Refusal :=
  match s.test.win with
  | some w => if s.aoUp && s.past1 (w.open1 + w.winUs * 1000) && w.leaving.isNone then .next (s.endWindow 7) else .next s
  | none => .next s

/-- SEL_ACK_TIMEOUT (Table 20.4): a SELECT not acknowledged within 1 ms ends the window with TIMEOUT. -/
def execSelAckTimeout (s : State) : Host.Outcome State Fault Refusal :=
  match s.test.win with
  | some w => if s.aoUp && w.kind == 1 && w.leaving.isNone then .next (s.endWindow 7) else .next s
  | none => .next s

/-- SCAN_SEGMENT_END (R373, R380, R382): the segment ran to its END, or found compared bits that differ. -/
def execScanSegmentEnd (res : ScanEnd) (s : State) : Host.Outcome State Fault Refusal :=
  match s.test.win with
  | some w =>
    if s.aoUp && w.kind == 1 && w.leaving.isNone then
      .next (match res with
        | .pass => s.leaveWindow 0 0xFFFFFFFF 0
        | .fail op n => s.leaveWindow 1 op.toNat n.toNat)
    else .next s
  | none => .next s

/-- EXIT_SEQUENCE_DONE (R381): the TEST port is released and the window closes. -/
def execExitSequenceDone (s : State) : Host.Outcome State Fault Refusal :=
  match s.test.win with
  | some w =>
    match w.leaving with
    | some (r, f, n) => if s.aoUp then .next (s.closeWindow r f n) else .next s
    | none => .next s
  | none => .next s

/-! ### Commands of Table 16.20 -/

def opTestConfig : OpSpec := mkOp 0x0F00 [.v 2, .v 2, .v 2, .v 1, .r 1, .ptr, .ptr] rD wFT true

/-- The two inputs of TEST.CONFIG: 32 bytes of mask, then the item IDs; inline they follow each other. -/
def testInputs (c : Cmd) (n : Nat) : List Byte × List Byte :=
  if inlinePath c.path then (c.inl.take 32, c.inl.drop 32)
  else ((c.reads.getD 0 none).getD [], (c.reads.getD 1 none).getD [] |>.take (4 * n))

/-- TEST.CONFIG (R375, R376, Table 15.4). -/
def execTestConfig (c : Cmd) (s : State) : Host.Outcome State Fault Refusal :=
  let n := cp c 6 1
  let d := testInputs c n
  let ids := (List.range n).map fun i => BitVec.ofNat 32 (rd d.2 (4 * i) 4)
  let reads := if inlinePath c.path then [ckData opTestConfig c 0 (32 + 4 * n)]
    else [ckData opTestConfig c 0 32, ckData opTestConfig c 1 (4 * n)]
  .next (runCmd opTestConfig c
    (reads ++ [ckParam (ids.all fun i => (s.item i).isSome) 16, ckRange (decide (1 ≤ cp c 0 2) && decide (cp c 0 2 ≤ 2160)) 0,
      ckRange (decide (1 ≤ cp c 2 2) && decide (cp c 2 2 ≤ 720)) 2, ckRange (decide (1 ≤ cp c 4 2) && decide (cp c 4 2 ≤ 1440)) 4,
      ckRange (decide (n ≤ 64)) 6]) []
    (fun t =>
      let t1 := t.modTest fun u =>
        { u with tint := cp c 0 2, maxdef := cp c 2 2, reask := cp c 4 2, mask := d.1, planNext := some ids,
                 req := if u.win.isNone then none else u.req }
      .ok 0 [] [] t1.askNext) s)

def opTestGrant : OpSpec := mkOp 0x0F01 [.v 1, .r 3, .v 4, .v 8] rD wH true

/-- A window opens (R374, R380): a bad item closes it at once with CONTENT_BAD, and a power-state entry aborts it (R385). -/
def State.openWindow (q : TestReq) (winUs : Nat) (step : Dword) (s : State) : State :=
  let b := (s.item q.item).getD []
  let kind := rd b 6 1
  let w : TestWindow :=
    { core := q.core, item := q.item, seg := q.seg, kind := kind, step := step, topen := s.tb0Ns, open1 := s.tb1Ns, winUs := winUs,
      ksig := BitVec.ofNat 64 (rd b 16 8), leaving := none }
  let s1 := (s.modTest fun t => { t with req := none, win := some w }).modTcore q.core fun x => { x with attempts := x.attempts + 1 }
  if s.itemBad q.item then s1.closeWindow 8 0xFFFFFFFF 0
  else
    let s2 := if kind = 0 then s1.event 0x0FE1 (be 1 q.core ++ zeros 3 ++ be 4 (rd b 24 4) ++ be 4 (rd b 28 4))
      else s1.emit (.test q.core q.item.toNat q.seg)
    if s.pow.entry.isSome then s2.endWindow 6 else s2

/-- TEST.GRANT (R377, R385); 16 AO cycles are 102.4 ns. -/
def execTestGrant (c : Cmd) (s : State) : Host.Outcome State Fault Refusal :=
  let core := cp c 0 1
  let win := cp c 4 4
  let q := s.test.req
  let quiet := match (s.tcore core).activeAt with | some t => decide (t + 103 < s.tb1Ns) | none => true
  .next (runCmd opTestGrant c
    [ckNoInline c, ckRange (match q with | some r => r.core == core | none => false) 0,
     ckRange (decide (1000 ≤ win) && decide (win ≤ 10000000) && match q with | some r => decide (r.est ≤ win) | none => true) 4]
    [ckState quiet]
    (fun t => .ok 0 [] [] (match q with | some r => t.openWindow r win (BitVec.ofNat 64 (cp c 8 8)) | none => t)) s)

def opTestDefer : OpSpec := mkOp 0x0F02 [.v 1] rD wH true

/-- TEST.DEFER (R377): the request stays pending. -/
def execTestDefer (c : Cmd) (s : State) : Host.Outcome State Fault Refusal :=
  .next (runCmd opTestDefer c [ckNoInline c]
    [ckState (match s.test.req with | some r => r.core == cp c 0 1 | none => false)] (fun t => .ok 0 [] [] t) s)

def opTestDone : OpSpec := mkOp 0x0F03 [.v 1, .r 7, .v 8] rD wH true

/-- Bits set in a 64-bit word. -/
def popcount64 (v : Nat) : Nat := ((List.range 64).filter fun i => bit v i).length

/-- TEST.DONE (R380, R382): the signature is compared with KSIG. -/
def execTestDone (c : Cmd) (s : State) : Host.Outcome State Fault Refusal :=
  let sig := cp c 8 8
  .next (runCmd opTestDone c [ckNoInline c]
    [ckState (match s.test.win with | some w => w.kind == 0 && w.core == cp c 0 1 | none => false)]
    (fun t =>
      let k := match t.test.win with | some w => w.ksig.toNat | none => 0
      .ok 0 [] [] (if sig = k then t.closeWindow 0 0xFFFFFFFF 0 else t.closeWindow 1 0xFFFFFFFF (popcount64 (sig ^^^ k)))) s)

def opTestClear : OpSpec := mkOp 0x0F04 [.v 1] rD wFT true

/-- TEST.CLEAR (R382, R385): a FAILED core may be asked for again, and is due at once. -/
def execTestClear (c : Cmd) (s : State) : Host.Outcome State Fault Refusal :=
  .next (runCmd opTestClear c [ckNoInline c] []
    (fun t => .ok 0 [] [] (t.modTcore (cp c 0 1) fun x =>
      { x with failed := false, failed1 := false, overdue := false, dueAt := some t.tb0Ns }).askNext) s)

def opTestStatus : OpSpec := mkOp 0x0F05 [.v 1] rD wFTH true

/-- TEST.STATUS. -/
def execTestStatus (c : Cmd) (s : State) : Host.Outcome State Fault Refusal :=
  let k := cp c 0 1
  .next (runCmd opTestStatus c [ckNoInline c] []
    (fun t =>
      let x := t.tcore k
      let st := if (match t.test.win with | some w => w.core == k | none => false) then 2
        else if x.failed then 3
        else if (match t.test.req with | some r => r.core == k | none => false) then 1 else 0
      .ok 0 (be 1 st ++ be 1 x.last ++ be 1 (x.pos % 64) ++ zeros 5 ++ be 8 ((t.dueAt k).getD 0)) [] t) s)

end Sys2Proof.Machine
end

