-- ==== Sys2Proof/Machine/Governor.lean ====
section
/-! DEFINITION. The Governor (spec/14, R345 to R359): agent and clamp, arbiter, grant records, PMBus, plans. -/

namespace Sys2Proof.Machine

/-- A die index of the arbiter. -/
def State.mem (s : State) (i : Nat) : GovMember := lget s.gov.members i govMemberReset

/-- Change a die index of the arbiter. -/
def State.modMem (i : Nat) (f : GovMember → GovMember) (s : State) : State :=
  s.modGov fun g => { g with members := lmod g.members i f }

/-! ### Messages (R347, Tables 14.2 to 14.5) -/

/-- A message from its bits [63:16]. -/
def govWord (hi : Nat) : Nat := hi * 65536 + crc16 (be 6 hi)

/-- A message that a receiver takes: good CRC and no reserved MTYPE. -/
def govOk (w : Nat) : Bool :=
  crc16 (be 6 (w / 65536)) == w % 65536 && decide (1 ≤ bits w 63 60) && decide (bits w 63 60 ≤ 4)

/-- A message leaves on a link. -/
def State.govSend (link hi : Nat) (s : State) : State := s.emit (.governor link (be 8 (govWord hi)))

/-- An offset as a byte. -/
def offByte (o : Int) : Nat := unsigned 8 o

/-! ### Agent and clamp (R348 to R350) -/

/-- THERMAL_TRIP, discrete input 0, is conditioned active. -/
def State.trip (s : State) : Bool := (s.disc 0).state == some true

/-- The fallback grant FB. -/
def State.fb (s : State) : Nat := min s.gov.static s.gov.floorR

/-- The effective grant G_eff. -/
def State.geff (s : State) : Nat :=
  if s.trip then 0 else if s.gov.fallback then s.fb else s.gov.g

/-- LIMIT: G_eff in die role, the fused DIE_FB or 0 under an INVALID strap (R349, R446). -/
def State.limit (s : State) : Nat :=
  if s.isDie then s.geff else if s.trip then 0 else Config.dieFb.toNat

/-- CLAMP after any event that REQ or G_eff depends on; each rising edge is counted in GOV_CLAMP (R349). -/
def State.clampSettle (s : State) : State :=
  if s.isDie || s.sys.strap == .invalid then
    let c := decide (s.limit < s.gov.req)
    let s1 := s.modGov fun g => { g with clamp := c }
    if c && !s.gov.clamp then s1.bump cGovClamp
    else if !c && s.gov.clamp then
      s1.modVerd fun u => { u with hints := { u.hints with belowEnd := some s.tb1Ns } }
    else s1
  else s

/-- FLOOR_R returns to 2,047 (R21, R349). -/
def State.floorReset (s : State) : State := (s.modGov fun g => { g with floorR := 2047 }).clampSettle

/-- The agent sends a REPORT (Table 14.4). -/
def State.agentReport (s : State) : State :=
  s.govSend 0 (2 * 2 ^ 44 + s.gov.ackSeq.toNat * 2 ^ 40 + min s.gov.req 2047 * 2 ^ 29 + s.geff * 2 ^ 18 + s.fb * 2 ^ 7
    + b2n s.gov.clamp * 64 + b2n s.trip * 32)

/-- The agent sends a PLAN (Table 14.5). -/
def State.agentPlan (off : Int) (s : State) : State :=
  s.govSend 0 (3 * 2 ^ 44 + offByte off * 2 ^ 36 + Config.vnom.toNat * 2 ^ 24)

/-- PWR_REQ_CHANGE (R348): two agreeing samples give a new REQ. -/
def execPwrReqChange (req : BitVec 11) (s : State) : Host.Outcome State Fault Refusal :=
  if s.aoUp then .next (s.modGov fun g => { g with req := req.toNat }).clampSettle else .next s

/-- GRANT_MESSAGE (R349, R350): the agent applies G and FLOOR_R, and reports with the SEQ. -/
def execGrantMessage (m : GovMsg) (s : State) : Host.Outcome State Fault Refusal :=
  let w := m.word.toNat
  if s.isDie && s.portUp .pwr then
    if !govOk w then .next (s.modGov fun g => { g with err := satAdd 16 g.err 1 })
    else if bits w 63 60 = 1 then
      .next ((s.modGov fun g =>
        { g with g := bits w 55 45, floorR := bits w 44 34, ackSeq := BitVec.ofNat 4 (bits w 59 56),
                 lastGrant := some s.tb1Ns, fallback := false }).clampSettle).agentReport
    else .next s
  else .next s

/-- GL_TO_EXPIRY (R349): no valid GRANT for GL_TO. -/
def execGlToExpiry (s : State) : Host.Outcome State Fault Refusal :=
  if s.isDie && s.aoUp && !s.gov.fallback && s.past1 (s.gov.lastGrant.getD 0 + s.gov.glTo) then
    .next (s.modGov fun g => { g with fallback := true }).clampSettle
  else .next s

/-- REPORT_INTERVAL (R350): at a boundary of the 20 µs grid before which no GRANT came, the agent reports. -/
def execReportInterval (s : State) : Host.Outcome State Fault Refusal :=
  let b := gridAt 20000 s.tb1Ns
  if s.isDie && s.portUp .pwr && decide (s.gov.lastRep < b) then
    let s1 := s.modGov fun g => { g with lastRep := b }
    .next (if (match s.gov.lastGrant with | some t => decide (t + 20000 ≤ b) | none => true) then s1.agentReport else s1)
  else .next s

/-! ### The arbiter (R345, R346, R352 to R355) -/

/-- The sum of the accounts. -/
def GovUnit.sumA (g : GovUnit) : Nat := (g.members.map (·.acct)).sum

/-- The sum of the floors, as the pending entries will have them, `i` taken with another floor. -/
def GovUnit.sumFloor (g : GovUnit) (i : Nat) (floor : Nat) : Nat :=
  (((List.range 16).zip g.members).map fun e =>
    if e.1 = i then floor
    else match e.2.cfgNext, e.2.cfg with
      | some c, _ => c.floor
      | none, some c => c.floor
      | none, none => 0).sum

/-- A lowered budget becomes BOUND once Σ A is at or below it (R353). -/
def State.boundSettle (s : State) : State :=
  if s.gov.budget < s.gov.bound ∧ s.gov.sumA ≤ s.gov.budget then
    s.modGov fun g => { g with bound := g.budget, changed := true }
  else s

/-- A member in the computation of R352: die index, weight, what it still wants, target. -/
structure Want where
  i : Nat
  w : Nat
  want : Nat
  t : Nat
deriving DecidableEq, Repr

/-- One round of R352 in ascending die index; `l0` and `w0` are L and W. -/
def shareRound (l0 w0 : Nat) : List Want → Nat → List Want × Nat
  | [], left => ([], left)
  | m :: l, left =>
    let g := min (min (l0 * m.w / w0) m.want) left
    let r := shareRound l0 w0 l (left - g)
    ({ m with t := m.t + g, want := m.want - g } :: r.1, r.2)

/-- A round in which every share is 0 gives one unit each while any is left (R352). -/
def shareOnes : List Want → Nat → List Want × Nat
  | [], left => ([], left)
  | m :: l, left =>
    if left = 0 ∨ m.want = 0 then let r := shareOnes l left; (m :: r.1, r.2)
    else let r := shareOnes l (left - 1); ({ m with t := m.t + 1, want := m.want - 1 } :: r.1, r.2)

/-- The rounds of R352: each gives out at least one unit, so `fuel` beyond `left` changes nothing. -/
def shareAll : Nat → List Want → Nat → List Want
  | 0, l, _ => l
  | fuel + 1, l, left =>
    let ws := ((l.filter fun m => decide (0 < m.want)).map (·.w)).sum
    if left = 0 ∨ ws = 0 then l
    else
      let r := shareRound left ws l left
      if r.2 = left then
        let q := shareOnes l left
        shareAll fuel q.1 q.2
      else shareAll fuel r.1 r.2

/-- The start of a member in R352: its target so far, and what it wants. -/
def GovMember.want0 (m : GovMember) (i : Nat) : Option Want :=
  m.cfg.map fun c =>
    let r := m.frozen.getD { ackSeq := 0, req := 0, held := 0, fb := 0, clamped := false, trip := false }
    if r.trip && !m.silent then { i := i, w := c.weight, want := 0, t := 0 }
    else if m.silent then { i := i, w := c.weight, want := 0, t := if r.trip then 0 else r.fb }
    else { i := i, w := c.weight, want := min (max r.req c.floor) c.ceil - c.floor, t := c.floor }

/-- The targets of R352. -/
def GovUnit.targets (g : GovUnit) : List Want :=
  let l := ((List.range 16).zip g.members).filterMap fun e => e.2.want0 e.1
  let left := g.budget - (l.map (·.t)).sum
  shareAll 2048 l left

/-- The body of a GRANT record as the books stand (Tables 14.7 and 14.8), filled to 3 cells. -/
def GovUnit.recBody (g : GovUnit) : List Byte :=
  let ents := g.members.filterMap fun m => m.cfg.map fun c =>
    let r := m.frozen.getD { ackSeq := 0, req := 0, held := 0, fb := 0, clamped := false, trip := false }
    let l := m.last.getD r
    be 8 (c.addr.toNat * 2 ^ 46 + m.acct * 2 ^ 35 + r.req * 2 ^ 24 + m.tgt * 2 ^ 13 + b2n l.clamped * 4096
      + b2n l.trip * 2048 + b2n m.silent * 1024)
  padTo 144 (be 8 g.period ++ be 2 g.budget ++ be 2 g.bound ++ be 2 g.sumA ++ be 1 ents.length ++ zeros 1 ++ ents.flatten)

/-- A GRANT record is offered (R356). -/
def State.sendGrantRec (body : List Byte) (s : State) : State :=
  s.send { dst := .up, cls := 2, typ := tGrant, unit := uGovernor, flags := 0, stamp := none, body := body }

/-- A GRANT message to a member (Table 14.3). -/
def State.grantTo (i g : Nat) (s : State) : State :=
  let m := s.mem i
  let q := m.seq + 1
  let fl := match m.cfg with | some c => c.floor | none => 0
  (s.modMem i fun m => { m with seq := q, sentAt := s.tb1Ns }).govSend i
    (1 * 2 ^ 44 + q.toNat * 2 ^ 40 + g * 2 ^ 29 + fl * 2 ^ 18)

/-- What a period start makes of a member: a pending entry takes effect; a silent member that reported again comes back with
A_i at the HELD of its report; the latest report is frozen (R346, R352, R354). -/
def GovMember.periodStart (m : GovMember) (now glTo : Nat) : GovMember :=
  let fresh := m.cfg.isNone && m.cfgNext.isSome
  let heard := m.last.isSome && decide (now < m.lastAt + glTo)
  let m1 := { m with cfg := m.cfgNext.orElse fun _ => m.cfg, cfgNext := none }
  let m2 := if (fresh && heard) || (m.silent && m.back) then
      { m1 with silent := false, back := false, released := false,
                acct := match m.last with | some r => r.held | none => 0 }
    else if fresh then { m1 with silent := true, released := true, back := false, acct := 0 } else m1
  { m2 with frozen := m.last }

/-- The new budget of a period start (R353). -/
def GovUnit.budgetStart (g : GovUnit) : GovUnit :=
  match g.budgetNext with
  | some b => { g with budget := b, budgetNext := none, bound := if g.bound ≤ b then b else g.bound,
                       changed := b != g.budget || (decide (g.bound < b)) }
  | none => { g with changed := false }

/-- Phase 1: a reduced member that is not silent gets its target (R353). -/
def State.phase1 (s : State) (w : Want) : State :=
  let s1 := s.modMem w.i fun m => { m with tgt := w.t }
  let m := s1.mem w.i
  if !m.silent && decide (w.t < m.acct) then
    (s1.grantTo w.i w.t).modMem w.i fun m => { m with waitAck := some (m.seq, w.t) }
  else s1

/-- GRANT_PERIOD_START (R352, R353, R356): the ended period's record where BUDGET or BOUND changed in it; then entries, budget,
frozen reports, targets, phase 1. -/
def execGrantPeriodStart (s : State) : Host.Outcome State Fault Refusal :=
  let k := s.tb1Ns / 20000
  if s.isTray && s.aoUp && decide (s.gov.period < k) then
    let body := s.gov.recBody
    let s1 := if s.gov.changed then s.sendGrantRec body else s
    let s2 := s1.modGov fun g =>
      let g1 := g.budgetStart
      { g1 with members := g.members.map fun m => m.periodStart s.tb1Ns g.glTo, period := k, phase := 1, endBody := body }
    let s3 := s2.boundSettle
    .next (s3.gov.targets.foldl State.phase1 s3)
  else .next s

/-- A member got its phase 1 grant in the period in progress. -/
def State.inPhase1 (s : State) (m : GovMember) : Bool := decide (s.gov.period * 20000 ≤ m.sentAt) && decide (0 < m.sentAt)

/-- Phase 2: a member that got no phase 1 grant gets its raise within BOUND (R353). -/
def State.phase2 (s : State) (i : Nat) : State :=
  let m := s.mem i
  if m.cfg.isSome && !m.silent && !s.inPhase1 m then
    let g := min m.tgt (m.acct + s.gov.bound - s.gov.sumA)
    (s.modMem i fun m => { m with acct := g, waitAck := none }).grantTo i g
  else s

/-- PHASE_2_START (R353): every phase 1 grant is acknowledged, or 12 µs have passed. -/
def execPhase2Start (s : State) : Host.Outcome State Fault Refusal :=
  let open1 := s.gov.members.any fun m => m.waitAck.isSome && s.inPhase1 m && !m.silent
  if s.isTray && s.aoUp && s.gov.phase == 1 && (!open1 || s.past1 (s.gov.period * 20000 + 12000)) then
    .next ((List.range 16).foldl State.phase2 s |>.modGov fun g => { g with phase := 2 })
  else .next s

/-- A REPORT as it came (Table 14.4). -/
def parseReport (w : Nat) : GovReport :=
  { ackSeq := bits w 59 56, req := bits w 55 45, held := bits w 44 34, fb := bits w 33 23, clamped := bit w 22, trip := bit w 21 }

/-- A member's link gave a message that is discarded (R347). -/
def State.linkErr (i : Nat) (s : State) : State := s.modMem i fun m => { m with err := satAdd 16 m.err 1 }

/-- REPORT_MESSAGE (R353, R354): the latest report; a phase 1 grant it acknowledges is booked; a trip that it shows first is
staged as TRIP_CLAMP. -/
def execReportMessage (link : Fin 16) (m : GovMsg) (s : State) : Host.Outcome State Fault Refusal :=
  let i := link.val
  let w := m.word.toNat
  if s.isTray && s.portUp .pwr then
    if !govOk w then .next (s.linkErr i)
    else if bits w 63 60 = 2 then
      let r := parseReport w
      let old := s.mem i
      let s1 := s.modMem i fun x =>
        { x with last := some r, lastAt := s.tb1Ns, back := x.silent,
                 acct := match x.waitAck with | some (q, t) => if q.toNat = r.ackSeq then t else x.acct | none => x.acct,
                 waitAck := match x.waitAck with
                   | some (q, t) => if q.toNat = r.ackSeq then none else some (q, t)
                   | none => none }
      let s2 := s1.boundSettle
      .next (if r.trip && !(match old.last with | some o => o.trip | none => false) then s2.stage 0x0D03 .fault i 0 else s2)
    else .next s
  else .next s

/-- MEMBER_SILENT (R354): no valid REPORT for GL_TO. -/
def execMemberSilent (link : Fin 16) (s : State) : Host.Outcome State Fault Refusal :=
  let i := link.val
  let m := s.mem i
  match m.cfg with
  | some c =>
    if s.isTray && s.aoUp && !m.silent && s.past1 (m.lastAt + s.gov.glTo) then
      .next ((s.modMem i fun x => { x with silent := true, back := false, released := false, waitAck := none }).stage 0x0D02
        .notice i c.addr.toNat)
    else .next s
  | none => .next s

/-- SILENT_ACCOUNT_RELEASE (R354): GL_TO + 3 µs after the last GRANT, A_i becomes the FB of the last report. -/
def execSilentAccountRelease (link : Fin 16) (s : State) : Host.Outcome State Fault Refusal :=
  let i := link.val
  let m := s.mem i
  if s.isTray && s.aoUp && m.cfg.isSome && m.silent && !m.released && decide (m.sentAt + s.gov.glTo + 3000 ≤ s.tb1Ns) then
    .next (s.modMem i fun x =>
      { x with released := true, acct := match x.last with | some r => r.fb | none => 0 }).boundSettle
  else .next s

/-- GRANT_REC_BOUNDARY (R356): the record of the period's end state. -/
def execGrantRecBoundary (s : State) : Host.Outcome State Fault Refusal :=
  let b := gridAt (s.gov.grantRec * 1000000) s.tb1Ns
  if s.isTray && s.aoUp && decide (s.gov.lastRec < b) then
    let body := if s.gov.period * 20000 < b then s.gov.recBody else s.gov.endBody
    .next ((s.sendGrantRec body).modGov fun g => { g with lastRec := b })
  else .next s

/-- The value of the GRANT feature (R357): `b` 0 or 1. -/
def State.grantValue (s : State) (b : Nat) : Nat :=
  if s.isDie then (if b = 0 then s.geff else s.gov.req)
  else if s.isTray then
    if b = 0 then s.gov.sumA
    else ((s.gov.members.filter fun m => m.cfg.isSome && !m.silent).map fun m => match m.last with
      | some r => r.req
      | none => 0).sum
  else 0

/-! ### PMBus and plans (R358, R359, R362, R363) -/

/-- Six hours in nanoseconds. -/
def sixHours : Nat := 21600000000000

/-- VOUT_COMMAND in ULINEAR16: V ÷ 2^N to nearest, ties away from zero (R363). -/
def voutCommand (vnom : Nat) (off : Int) (mode : Nat) : Nat :=
  let a := (2 * (vnom : Int) + 5 * off).toNat
  let n := signed 5 mode
  let num := if n < 0 then a * 2 ^ (-n).toNat else a
  let den := if n < 0 then 2000 else 2000 * 2 ^ n.toNat
  (2 * num + den) / (2 * den)

/-- A PMBus transaction. -/
def State.pmb (addr cmd data : Nat) (s : State) : State := s.emit (.pmbus addr cmd data)

/-- A paged command: PAGE selects the page before it (Table 14.9). -/
def State.paged (addr page cmd data : Nat) (s : State) : State := (s.pmb addr 0x00 page).pmb addr cmd data

/-- A plan is written to a regulator page; the answer is the RESULT of PLAN_ACK. `who` is the die index, or 0xFF. -/
def State.writeVout (who addr page vnom : Nat) (off : Int) (w : PmbWrite) (s : State) : State × Nat :=
  let s1 := s.paged addr page 0x20 0
  match w.mode with
  | none => (s1.stage 0x0D04 .notice who 0xFFFF, 3)
  | some md =>
    if bits md.toNat 7 5 ≠ 0 then (s1, 3)
    else
      let v := voutCommand vnom off md.toNat % 65536
      let s2 := (s1.paged addr page 0x21 v).paged addr page 0x8B 0
      if w.ok then (s2.stage 0x0D05 .info who (offByte off * 2 ^ 40 + v), 0)
      else (s2.stage 0x0D04 .notice who 0xFFFF, 3)

/-- A PLAN_ACK to a member (Table 14.5). -/
def State.planAck (i result : Nat) (s : State) : State :=
  s.govSend i (4 * 2 ^ 44 + offByte (s.mem i).offset * 2 ^ 36 + result * 2 ^ 16)

/-- A member's plan is applied (R362, R363). -/
def State.applyPlan (i : Nat) (c : MemberCfg) (off : Int) (vnom : Nat) (w : PmbWrite) (s : State) : State :=
  let p := s.writeVout i c.pmaddr c.page vnom off w
  let s1 := if p.2 = 0 then p.1.modMem i fun m => { m with offset := off, offsetAt := s.tb1Ns, held := none }
    else p.1.modMem i fun m => { m with held := none }
  s1.planAck i p.2

/-- A plan that names the offset already applied, as a die sends it at its start, is written again and is no change (R362). -/
def State.rewritePlan (i : Nat) (c : MemberCfg) (off : Int) (vnom : Nat) (w : PmbWrite) (s : State) : State :=
  let p := s.writeVout i c.pmaddr c.page vnom off w
  (p.1.modMem i fun m => { m with held := none }).planAck i p.2

/-- An offset held within the voltage window (R362); a value outside is a clamp under R30, row 3 of Table 1.8. -/
def State.windowClamp (off : Int) (s : State) : State × Int :=
  if off < -10 then (s.clampEvent 3, -10) else if 16 < off then (s.clampEvent 3, 16) else (s, off)

/-- PLAN (R362, R363): the arbiter clamps a die's plan to the window, holds it within 6 h of the last change, or applies it, and
answers. -/
def execPlan (link : Fin 16) (m : GovMsg) (w : PmbWrite) (s : State) : Host.Outcome State Fault Refusal :=
  let i := link.val
  let x := m.word.toNat
  if s.isTray && s.portUp .pwr then
    if !govOk x then .next (s.linkErr i)
    else if bits x 63 60 = 3 then
      let p := s.windowClamp (signed 8 (bits x 59 52))
      let vnom := bits x 51 40
      match (s.mem i).cfg with
      | none => .next (p.1.planAck i 2)
      | some c =>
        if p.2 = (s.mem i).offset then .next (p.1.rewritePlan i c p.2 vnom w)
        else if s.tb1Ns < (s.mem i).offsetAt + sixHours then
          .next ((p.1.modMem i fun y => { y with held := some (p.2, vnom) }).planAck i 1)
        else .next (p.1.applyPlan i c p.2 vnom w)
    else .next s
  else .next s

/-- The applied offset of this block changes: TEMPER_APPLIED, and the TEMPER section (R362). -/
def State.ownApplied (new : Int) (s : State) : State :=
  let old := s.gov.off
  let s1 := s.modGov fun g => { g with off := new, offAt := s.tb1Ns, offTb0 := s.tb0Ns, heldPlan := none }
  (s1.stage 0x0F01 .info 0 (offByte old * 256 + offByte new)).writeSection 0x0101 (be 1 (offByte new) ++ be 8 s.tb0Ns)

/-- This block's own plan goes where Table 14.11 says: to the arbiter, to the tray chip's own page, or nowhere. -/
def State.ownPlan (off : Int) (w : PmbWrite) (s : State) : State :=
  if s.isDie then (s.modGov fun g => { g with heldPlan := none, startPlan := false }).agentPlan off
  else if s.isTray then
    let p := s.writeVout 0xFF Config.ownPmbus.1 Config.ownPmbus.2 Config.vnom.toNat off w
    if p.2 = 0 then p.1.ownApplied off else p.1.modGov fun g => { g with heldPlan := none }
  else s

/-- PLAN_ACK (R363): the agent passes the outcome on. -/
def execPlanAck (m : GovMsg) (s : State) : Host.Outcome State Fault Refusal :=
  let w := m.word.toNat
  if s.isDie && s.portUp .pwr then
    if !govOk w then .next (s.modGov fun g => { g with err := satAdd 16 g.err 1 })
    else if bits w 63 60 = 4 ∧ bits w 39 32 = 0 then
      .next (if s.gov.startPlan then s.modGov fun g => { g with startPlan := false } else s.ownApplied (signed 8 (bits w 59 52)))
    else .next s
  else .next s

/-- PLAN_HOLD_RELEASE (R362): 6 h after the last change the held plan is applied; links 0 to 15 are the members', 16 this
block's own plan. -/
def execPlanHoldRelease (link : Fin 17) (w : PmbWrite) (s : State) : Host.Outcome State Fault Refusal :=
  let i := link.val
  if i = 16 then
    match s.gov.heldPlan with
    | some o => if s.aoUp && decide (s.gov.offAt + sixHours ≤ s.tb1Ns) then .next (s.ownPlan o w) else .next s
    | none => .next s
  else
    match (s.mem i).held, (s.mem i).cfg with
    | some (o, v), some c =>
      if s.isTray && s.aoUp && decide ((s.mem i).offsetAt + sixHours ≤ s.tb1Ns) then .next (s.applyPlan i c o v w) else .next s
    | _, _ => .next s

/-- A STATUS_WORD that shows a fault: PMBUS_FAULT, then CLEAR_FAULTS (R359). -/
def State.pmbStatus (i : Nat) (c : MemberCfg) (st : BitVec 16) (s : State) : State :=
  if st = 0 then s else (s.stage 0x0D04 .notice i st.toNat).paged c.pmaddr c.page 0x03 0

/-- The configured regulator pages, in ascending die index. -/
def State.pages (s : State) : List (Nat × MemberCfg) :=
  ((List.range 16).zip s.gov.members).filterMap fun e => e.2.cfg.map fun c => (e.1, c)

/-- A page whose transaction failed twice: PMBUS_FAULT with the status set to 0xFFFF (R359). -/
def State.pageFailed (i : Nat) (s : State) : State :=
  (s.modMem i fun m => { m with read := { m.read with status := 0xFFFF } }).stage 0x0D04 .notice i 0xFFFF

/-- One page polled (R359); one that gives no answer is asked once more. -/
def State.pollOne (readings : List PmbReading) (s : State) (p : Nat × MemberCfg) : State :=
  let c := p.2
  let ask := fun (t : State) => [0x79, 0x88, 0x8B, 0x8C, 0x8D].foldl (fun u k => u.paged c.pmaddr c.page k 0) t
  match readings.find? fun r => r.idx.val == p.1 && r.ok with
  | some r =>
    ((ask s).modMem p.1 fun m => { m with read := { iout := r.iout, vout := r.vout, temp := r.temp, status := r.status } }).pmbStatus
      p.1 c r.status
  | none => (ask (ask s)).pageFailed p.1

/-- PMB_POLL (R359): every configured page; `readings` holds what each page answered. -/
def execPmbPoll (readings : List PmbReading) (s : State) : Host.Outcome State Fault Refusal :=
  if s.isTray && s.portUp .pwr && decide (s.gov.lastPoll + s.gov.poll * 1000000 ≤ s.tb1Ns) then
    .next (s.pages.foldl (State.pollOne readings) (s.modGov fun g => { g with lastPoll := s.tb1Ns }))
  else .next s

/-- SMBALERT (R359): STATUS_WORD of every configured page, in ascending die index; `status` lists the answers. -/
def execSmbalert (status : List (BitVec 16)) (s : State) : Host.Outcome State Fault Refusal :=
  if s.isTray && s.portUp .pwr then
    .next (((List.range s.pages.length).zip s.pages).foldl (fun t e =>
      let i := e.2.1
      let c := e.2.2
      let u := t.paged c.pmaddr c.page 0x79 0
      match status[e.1]? with
      | some w => (u.modMem i fun m => { m with read := { m.read with status := w } }).pmbStatus i c w
      | none => (u.paged c.pmaddr c.page 0x79 0).pageFailed i) s)
  else .next s

/-- What the PMBus master reads at start (Table 14.9): PMBUS_REVISION and VOUT_MODE, of its own page and of every configured one. -/
def State.pmbStart (s : State) : State :=
  if s.isTray && s.portUp .pwr then
    (Config.ownPmbus :: s.pages.map fun p => (p.2.pmaddr, p.2.page)).foldl
      (fun t a => (t.pmb a.1 0x98 0).paged a.1 a.2 0x20 0) s
  else s

/-! ### Commands of Table 16.19 -/

def opPowerBudget : OpSpec := mkOp 0x0D00 [.v 2] rT wFT true

/-- POWER.BUDGET (R353): from the next period start. -/
def execPowerBudget (c : Cmd) (s : State) : Host.Outcome State Fault Refusal :=
  let b := cp c 0 2
  .next (runCmd opPowerBudget c
    [ckNoInline c, ckParam (decide (s.gov.sumFloor 16 0 ≤ b)) 0, ckRange (decide (b ≤ 1920)) 0] []
    (fun t => .ok 0 [] [] ((t.modGov fun g => { g with budgetNext := some b }).stage 0x0D01 .notice 0
      (t.gov.budgetNext.getD t.gov.budget * 2 ^ 32 + b))) s)

def opPowerMember : OpSpec := mkOp 0x0D01 [.v 1, .r 3, .v 4, .v 2, .v 2, .v 1, .v 1, .v 1, .r 1] rT wFT true

/-- POWER.MEMBER (R346): from the next grant period. -/
def execPowerMember (c : Cmd) (s : State) : Host.Outcome State Fault Refusal :=
  let i := cp c 0 1
  let m : MemberCfg := { addr := BitVec.ofNat 18 (cp c 4 4), floor := cp c 8 2, ceil := cp c 10 2, weight := cp c 12 1,
                         pmaddr := cp c 13 1, page := cp c 14 1 }
  .next (runCmd opPowerMember c
    [ckNoInline c, ckParam (decide (cp c 4 4 < 2 ^ 18)) 4,
     ckParam (decide (s.gov.sumFloor i m.floor ≤ s.gov.budgetNext.getD s.gov.budget)) 8, ckRange (decide (i < 16)) 0,
     ckRange (decide (m.floor ≤ 1920)) 8, ckRange (decide (m.floor ≤ m.ceil) && decide (m.ceil ≤ 1920)) 10,
     ckRange (decide (1 ≤ m.weight)) 12, ckRange (decide (m.pmaddr < 128)) 13] []
    (fun t => .ok 0 [] [] (t.modMem i fun x => { x with cfgNext := some m })) s)

def opPowerStatic : OpSpec := mkOp 0x0D02 [.v 2] rD wF true

/-- POWER.STATIC (R349): STATIC, and FLOOR_R back to 2,047. -/
def execPowerStatic (c : Cmd) (s : State) : Host.Outcome State Fault Refusal :=
  .next (runCmd opPowerStatic c [ckNoInline c, ckRange (decide (cp c 0 2 ≤ 1920)) 0] []
    (fun t => .ok 0 [] [] (t.modGov fun g => { g with static := cp c 0 2 }).floorReset) s)

def opPowerConfig : OpSpec := mkOp 0x0D03 [.v 2, .v 2, .v 2, .v 1] rDT wFT true

/-- POWER.CONFIG: GL_TO, and in tray role GRANT_REC, PMB_POLL and the PMBus speed. -/
def execPowerConfig (c : Cmd) (s : State) : Host.Outcome State Fault Refusal :=
  let gl := cp c 0 2
  let tray := s.isTray
  .next (runCmd opPowerConfig c
    [ckNoInline c, ckRange (decide (5 ≤ gl) && decide (gl ≤ 500)) 0,
     ckRange (!tray || (decide (1 ≤ cp c 2 2) && decide (cp c 2 2 ≤ 10000))) 2,
     ckRange (!tray || (decide (1 ≤ cp c 4 2) && decide (cp c 4 2 ≤ 10000))) 4, ckRange (!tray || decide (cp c 6 1 ≤ 2)) 6] []
    (fun t => .ok 0 [] [] (t.modGov fun g =>
      if tray then { g with glTo := gl * 20000, grantRec := cp c 2 2, poll := cp c 4 2, speed := cp c 6 1 }
      else { g with glTo := gl * 20000 })) s)

def opPowerStatus : OpSpec := mkOp 0x0D04 [.v 1] rDT wFTH true

/-- POWER.STATUS (R355). -/
def execPowerStatus (c : Cmd) (s : State) : Host.Outcome State Fault Refusal :=
  let i := cp c 0 1
  .next (runCmd opPowerStatus c [ckNoInline c, ckRange (s.isDie || decide (i < 16)) 0] []
    (fun t =>
      let m := t.mem i
      let req := match m.last with | some r => r.req | none => 0
      .ok 0 (if t.isTray then
          be 2 m.acct ++ be 2 m.tgt ++ be 2 req ++ be 2 m.err ++ be 2 m.read.iout.toNat ++ be 2 m.read.vout.toNat
            ++ be 2 m.read.temp.toNat ++ zeros 2
        else be 2 t.geff ++ be 2 t.gov.req ++ be 2 t.fb ++ be 2 t.gov.static ++ be 1 (offByte t.gov.off) ++ zeros 7) [] t) s)

end Sys2Proof.Machine
end

