-- ==== Sys2Proof/Machine/F32.lean ====
section
/-! DEFINITION. IEEE 754 binary32 arithmetic on bit patterns, round to nearest, ties to even, subnormals kept; every NaN is
0x7FC0_0000 (R91, R184, R205, R229). -/

namespace Sys2Proof.Machine

/-- The bits of a value, with the one NaN of R205. -/
def f32Bits (v : FV) : Nat := if v.isNan then 0x7FC00000 else fenc f32 v

/-- Sum, difference, product, quotient, square root. -/
def fa32 (a b : Nat) : Nat := f32Bits (fadd f32 (fdec f32 a) (fdec f32 b))
def fs32 (a b : Nat) : Nat := f32Bits (fsub f32 (fdec f32 a) (fdec f32 b))
def fm32 (a b : Nat) : Nat := f32Bits (fmul f32 (fdec f32 a) (fdec f32 b))
def fd32 (a b : Nat) : Nat := f32Bits (fdiv f32 (fdec f32 a) (fdec f32 b))
def fq32 (a : Nat) : Nat := f32Bits (fsqrt f32 (fdec f32 a))

/-- An integer rounded to binary32. -/
def fi32 (n : Int) : Nat := f32Bits (fofInt f32 n)

/-- a below b; false where either is a NaN. -/
def flt32 (a b : Nat) : Bool := flt (fdec f32 a) (fdec f32 b)

/-- A NaN. -/
def fnan32 (a : Nat) : Bool := (fdec f32 a).isNan

/-- A finite value. -/
def ffin32 (a : Nat) : Bool := (fdec f32 a).isFin

/-- The value 2^-k, k from 0 to 126. -/
def fpow32 (k : Nat) : Nat := (127 - k) * 2 ^ 23

/-- A value held within -2^20 .. 2^20; the infinities saturate (R229). -/
def fclamp20 (a : Nat) : Nat :=
  if flt32 a 0xC9800000 then 0xC9800000 else if flt32 0x49800000 a then 0x49800000 else a

/-- The floor of a finite value; an infinity is `none`, as is a NaN. -/
def ffloor32 (a : Nat) : Option Int :=
  match fdec f32 a with
  | .fin n m e => some (ffloor n m e)
  | _ => none

/-- Negative, by the sign bit. -/
def fneg32 (a : Nat) : Bool := bit a 31

/-- floor(a) plus an offset, clamped to 0 to 0xFFFE; the infinities saturate. A NaN gives 0xFFFF. -/
def fcode32 (a : Nat) (off : Int) : Nat :=
  if fnan32 a then 0xFFFF
  else match ffloor32 a with
    | some v => (max 0 (min 0xFFFE (v + off))).toNat
    | none => if fneg32 a then 0 else 0xFFFE

end Sys2Proof.Machine
end

