-- ==== Sys2Proof/Machine/Verdict.lean ====
section
/-! DEFINITION. The Verdict unit (spec/09): scores and their verdicts, the expulsion budget, stragglers, drills, disagreement
about liveness, and the VERDICT group of commands but JOB.END. -/

namespace Sys2Proof.Machine

/-! ### Drills (R246) -/

/-- A subject is under drill at an instant: from the start of a drill's span, not at its end (R249). -/
def State.underDrill (s : State) (a : Laddr) (t : Nat) : Bool :=
  s.verd.drills.any fun e => decide (e.2.start ≤ t) && decide (t < e.2.stop) && e.2.subjects.contains a

/-- A drill covered a subject at any instant of an interval (R241). -/
def State.drillIn (s : State) (a : Laddr) (t0 t1 : Nat) : Bool :=
  s.verd.drills.any fun e => decide (e.2.start ≤ t1) && decide (t0 < e.2.stop) && e.2.subjects.contains a

/-! ### Records (R235) -/

/-- Bits of VFLAGS (Table 9.7). -/
def vfRaised : Nat := 0x80
def vfDrill : Nat := 0x40
def vfTray : Nat := 0x20
def vfFleet : Nat := 0x10
def vfDemoted : Nat := 0x08
def vfReleased : Nat := 0x04

/-- The 44 bytes of a VERDICT body (Table 9.8). -/
def vrecBytes (v : VRec) : List Byte :=
  be 4 v.vid.toNat ++ be 4 v.subj.toNat ++ be 1 v.kind ++ be 1 v.cls ++ be 1 v.prevs ++ be 1 v.state ++ be 1 v.vflags
    ++ be 1 v.score ++ be 1 (min v.hold 255) ++ be 1 (min v.age 255) ++ be 4 v.h ++ be 4 v.modelver.toNat
    ++ be 4 v.orig.toNat ++ be 8 v.raiseT ++ be 8 v.step.toNat

/-- A VERDICT body read; reserved bits are ignored (R9). -/
def parseVRec (b : List Byte) : VRec :=
  { vid := BitVec.ofNat 32 (rd b 0 4), subj := BitVec.ofNat 18 (rd b 4 4), kind := rd b 8 1, cls := rd b 9 1 % 4,
    prevs := rd b 10 1 % 4, state := rd b 11 1, vflags := rd b 12 1 / 4 * 4, score := rd b 13 1, hold := rd b 14 1,
    age := rd b 15 1, h := rd b 16 4, modelver := BitVec.ofNat 32 (rd b 20 4), orig := BitVec.ofNat 18 (rd b 24 4),
    raiseT := rd b 28 8, step := BitVec.ofNat 64 (rd b 36 8) }

/-- A VERDICT record: class 0, one cell, PROV exactly when STATE is 0 (R235). -/
def State.sendVerdict (dst : Dest) (stamp : Nat) (v : VRec) (s : State) : State :=
  s.sendOwed { dst := dst, cls := 0, typ := tVerdict, unit := uVerdict, flags := if v.state = 0 then fProv else 0,
               stamp := some stamp, body := vrecBytes v }

/-- WITHDRAWAL reasons of Table 9.8. -/
def wdGone : Nat := 0
def wdTimeout : Nat := 1
def wdOwner : Nat := 2
def wdSuperseded : Nat := 3
def wdReset : Nat := 4

/-- A WITHDRAWAL record (Table 9.8). -/
def State.sendWithdrawal (stamp : Nat) (vid : Word) (subj : Laddr) (kind cls reason score age raiseT : Nat) (s : State) :
    State :=
  s.sendOwed { dst := .up, cls := 0, typ := tWithdrawal, unit := uVerdict, flags := 0, stamp := some stamp,
               body := be 4 vid.toNat ++ be 4 subj.toNat ++ be 1 kind ++ be 1 cls ++ be 1 reason ++ zeros 2 ++ be 1 score
                 ++ zeros 1 ++ be 1 (min age 255) ++ zeros 12 ++ be 8 raiseT }

/-- Verdict IDs: the next value of the 32-bit counter (R232). -/
def State.nextVid (s : State) : State × Word :=
  (s.modVerd fun u => { u with vidNext := u.vidNext + 1 }, s.verd.vidNext)

/-! ### Hallmark records of confirmations (Table 9.9) -/

/-- Severity of a confirmed verdict. -/
def confSev (kind cls : Nat) (drill : Bool) : Sev :=
  if kind = 2 then .fault
  else if cls = 3 then (if drill then .notice else .fault)
  else if cls = 2 then (if kind = 3 then .fault else .notice)
  else .info

/-- ARGB and ARG of VERDICT_CONFIRMED and its like (Table 13.2). -/
def verdArgb (kind cls : Nat) : Nat := kind * 4 + cls
def verdArg (vid : Word) (subj : Laddr) : Nat := vid.toNat * 2 ^ 32 + subj.toNat

/-- The Hallmark record of a confirmation; a drill's record carries the drill mark (R37). -/
def State.stageConfirmed (kind cls : Nat) (vid : Word) (subj : Laddr) (drill : Bool) (s : State) : State :=
  s.stageDrill 0x0801 (confSev kind cls drill) (verdArgb kind cls) (verdArg vid subj) drill

/-! ### Expulsion budget (R238 to R240) -/

/-- A holder: tray, or fleet where `f` is true. -/
def State.holder (s : State) (f : Bool) : Holder := if f then s.verd.fleet else s.verd.tray

/-- Change a holder. -/
def State.modHolder (f : Bool) (g : Holder → Holder) (s : State) : State :=
  s.modVerd fun u => if f then { u with fleet := g u.fleet } else { u with tray := g u.tray }

/-- This block is the root of the verdict tree. -/
def State.verdRoot (s : State) : Bool :=
  s.isSpine && match s.verd.vtree with
    | some i => (match s.tree i with | some t => t.parent.isNone | none => false)
    | none => false

/-- A subject of this block's own tray (or this block). -/
def State.ownTray (s : State) (a : Laddr) : Bool :=
  a == s.sys.laddr || s.sys.members.any fun m => m.addr == a

/-- The hop of the chain after this block: the parent in the verdict tree, else the fabric manager. -/
def State.chainUp (s : State) : Dest :=
  match s.verd.vtree with
  | some i =>
    match s.tree i with
    | some t => (match t.parent with | some p => .block p | none => .up)
    | none => .up
  | none => .up

/-- A demoted entry, the oldest removed and reported where 256 are held (R240). -/
def State.demote (f : Bool) (v : VRec) (s : State) : State :=
  let l := (s.holder f).demoted
  let s1 := if l.length < 256 then s
    else match l with
      | o :: _ => (s.modHolder f fun h => { h with demoted := h.demoted.drop 1, overflow := satAdd 32 h.overflow 1 }).stage
          0x0803 .notice (verdArgb o.kind o.cls) (verdArg o.vid o.subj)
      | [] => s
  s1.modHolder f fun h => { h with demoted := h.demoted ++ [v] }

/-- The refill that is due gives RATE tokens (R238). -/
def State.expelRefill (f : Bool) (s : State) : State :=
  let h := s.holder f
  if s.aoUp ∧ (h.k + 1) * 1000000000 ≤ s.tb1Ns then
    s.modHolder f fun h => { h with k := h.k + 1, tokens := min (h.depth * 3600000) (h.tokens + h.rate) }
  else s

/-- A holder takes a confirmed EXPEL (R239), after a refill of the same cycle (Table 9.16): DRILL passes uncharged, a whole token passes
it with the holder's flag, else it is demoted to WATCH and reported. `stamp` is that of what caused the record (R235). -/
def State.takeExpel (f : Bool) (stamp : Nat) (v : VRec) (s0 : State) : State :=
  let s := s0.expelRefill f
  let next := if f then Dest.up else s.chainUp
  let flag := if f then vfFleet else vfTray
  if bit v.vflags 6 then
    s.sendVerdict next stamp { v with vflags := v.vflags - v.vflags / 16 % 4 * 16 }
  else if 3600000 ≤ (s.holder f).tokens then
    (s.modHolder f fun h => { h with tokens := h.tokens - 3600000 }).sendVerdict next stamp
      { v with vflags := if v.vflags / flag % 2 = 1 then v.vflags else v.vflags + flag }
  else
    let s1 := s.sendVerdict .up stamp
      { v with cls := 1, state := 1, vflags := if v.vflags / 8 % 2 = 1 then v.vflags else v.vflags + vfDemoted }
    (s1.stage 0x0802 .notice (verdArgb v.kind v.cls) (verdArg v.vid v.subj)).demote f v

/-- The tray budget holder of a subject below this node (R239), as the tree configuration shows it: a child that is a tray master or the
one that a die-role grandchild stands under, a grandchild that is one itself. `none` for a subject of spine role, and for one below the
grandchildren. -/
def State.trayHolder (s : State) (a : Laddr) : Option Laddr :=
  let kids := (s.crown.trees.map fun t => t.2.children).flatten
  match kids.find? fun c => (c.addr == a && c.height == 1) || (c.height ≤ 2 && c.gcs.any fun g => g.1 == a) with
  | some c => some (if c.height = 1 then c.addr else a)
  | none => none

/-- A confirmed EXPEL of a HEALTH verdict goes to the first holder of its subject's chain (R239); a subject of spine role has the fleet
holder alone. -/
def State.routeExpel (stamp : Nat) (v : VRec) (s : State) : State :=
  if s.isMaster && s.ownTray v.subj then s.takeExpel false stamp v
  else if s.isDie then s.sendVerdict .up stamp v
  else match s.trayHolder v.subj with
    | some a => s.sendVerdict (.block a) stamp v
    | none => if s.verdRoot then s.takeExpel true stamp v else s.sendVerdict s.chainUp stamp v

/-- A VERDICT record that Hopper accepted: a confirmed EXPEL of HEALTH for a holder (R239), a confirmed verdict of lower
class that clears a demoted entry (R240), a confirmed HANG of a die (R247). -/
def State.rxVerdict (r : Rec) (s : State) : State :=
  let v := parseVRec r.body
  let s1 := if v.state = 1 ∧ v.cls < 3 then
      let clr := fun (h : Holder) =>
        { h with demoted := h.demoted.filter fun e => !(e.kind == v.kind && e.orig == v.orig && e.score == v.score && e.subj == v.subj) }
      (s.modHolder false clr).modHolder true clr
    else s
  let s2 := if v.kind = 2 ∧ v.state = 1 then
      s1.modVerd fun u => { u with dies := tmod u.dies v.subj.toNat fun d => { d with hangConf := true } }
    else s1
  if !s.inWindow r then s
  else if v.state = 1 ∧ v.cls = 3 ∧ v.kind = 0 then
    if s.isMaster then s2.takeExpel false s.tb0Ns v
    else if s.verdRoot then s2.takeExpel true s.tb0Ns v
    else if s.isSpine then s2.sendVerdict s.chainUp s.tb0Ns v
    else s2
  else s2

/-- The oldest demoted entry is taken again once the bucket holds a whole token (R240), not in the cycle of a refill, which an arriving
EXPEL uses first (Table 9.16). -/
def State.expelServe (f : Bool) (s : State) : State :=
  let h := s.holder f
  match h.demoted with
  | v :: rest =>
    if s.engUp ∧ 3600000 ≤ h.tokens ∧ s.past1 (h.k * 1000000000) then
      (s.modHolder f fun h => { h with demoted := rest }).takeExpel f s.tb0Ns
        { v with vflags := if v.vflags / 4 % 2 = 1 then v.vflags else v.vflags + vfReleased }
    else s
  | [] => s

/-- EXPEL_BUCKET_REFILL (R238, R240): RATE tokens in the first AO cycle with TB1 ≥ k × 10^9 ns, and the release of a demoted entry. -/
def execExpelBucketRefill (fleet : Bool) (s : State) : Host.Outcome State Fault Refusal :=
  .next ((s.expelRefill fleet).expelServe fleet)

/-! ### Scores (R229 to R233) -/

/-- An output set of Quern (R190). -/
structure OutSet where
  handle : Nat
  modelId : Word
  modelVer : Word
  src : Laddr
  stamp : Nat
  flags : BitVec 8
  missing : Bool
  nmissf : Nat
  results : List Nat
deriving DecidableEq, Repr

/-- The subject has a test request past its maximum deferral (TESTOD of Table 9.5). -/
def State.testOverdue (s : State) : Bool := s.test.cores.any fun c => c.2.overdue && !c.2.failed

/-- Value of a term, as binary32 bits (Table 9.5). -/
def State.termValue (s : State) (o : OutSet) (strag : Nat) (t : Term) : Nat :=
  match t.typ with
  | 1 => o.results.getD t.k 0
  | 2 => fi32 strag
  | 3 => if s.testOverdue then 0x3F800000 else 0
  | 4 => 0x3F800000
  | 5 => fi32 o.nmissf
  | _ => 0

/-- Threshold of class j: 1 WATCH, 2 SUSPECT, 3 EXPEL. -/
def ScoreDesc.th (d : ScoreDesc) (j : Nat) : Nat := if j = 1 then d.thW else if j = 2 then d.thS else d.thE

/-- The class that h gives, with hysteresis towards the previous class (R229). -/
def ScoreDesc.classOf (d : ScoreDesc) (h cp : Nat) : Nat :=
  let c := [1, 2, 3].foldl (fun c j =>
    let th := if j ≤ cp then fs32 (d.th j) d.hyst else fs32 (d.th j) 0
    if flt32 h th then c else j) 0
  if d.drift && c == 3 then 2 else c

/-- The new h of an update (R229). -/
def State.scoreH (s : State) (d : ScoreDesc) (o : OutSet) (p : Pair) : Nat :=
  let sum := d.terms.foldl (fun a t => fa32 a (fm32 t.weight (fclamp20 (s.termValue o p.strag t)))) 0
  fa32 p.h (fm32 (fpow32 d.ssh) (fs32 (fclamp20 sum) p.h))

/-- The record of a score's verdict. -/
def State.pairRec (s : State) (d : ScoreDesc) (o : OutSet) (p : Pair) (v : OpenV) (state vflags : Nat) : VRec :=
  { vid := v.vid, subj := p.subj, kind := b2n d.drift, cls := v.v, prevs := p.s, state := state,
    vflags := vflags + (if v.drill then vfDrill else 0), score := p.score, hold := v.hold, age := v.age, h := p.h,
    modelver := o.modelVer, orig := s.sys.laddr, raiseT := v.raiseT, step := 0 }

/-- Put the state of a pair. -/
def State.putPair (p : Pair) (s : State) : State :=
  s.modVerd fun u => { u with pairs := u.pairs.map fun x => if x.score == p.score && x.subj == p.subj then p else x }

/-- The region list is fixed while a HANG verdict or LIST_INGOT of a score stands (R233, R298). -/
def State.fixRegions (s : State) : State :=
  s.modBrake fun b => { b with fixed := match b.fixed with | some l => some l | none => some b.regions }

/-- The region list is free again when neither stands. -/
def State.unfix (s : State) : State :=
  if (s.verd.own.any fun v => v.kind == 2) || s.verd.prep.any (fun e => e.2.1 == s.sys.laddr && bit e.2.2 0) then s
  else s.modBrake fun b => { b with fixed := none }

/-- Preparations of a score for a subject (R233): in force, or released. -/
def State.setPrep (score : Nat) (subj : Laddr) (bits : Nat) (on : Bool) (s : State) : State :=
  let s1 := s.modVerd fun u =>
    let l := u.prep.filter fun e => !(e.1 == score && e.2.1 == subj)
    { u with prep := if on && decide (0 < bits) then l ++ [(score, subj, bits)] else l }
  if on && subj == s.sys.laddr && bit bits 0 then s1.fixRegions else s1.unfix

/-- A provisional verdict is withdrawn (R231). -/
def State.withdrawPair (d : ScoreDesc) (p : Pair) (v : OpenV) (reason stamp : Nat) (s : State) : State :=
  (((s.putPair { p with v := none }).sendWithdrawal stamp v.vid p.subj (b2n d.drift) v.v reason p.score v.age
    v.raiseT).bump cVerdictWithdrawn).setPrep p.score p.subj d.prep false

/-- A provisional verdict is confirmed (R231): S = V, record with PROV 0, Hallmark record, and for EXPEL the budget chain. -/
def State.confirmPair (d : ScoreDesc) (o : OutSet) (p : Pair) (v : OpenV) (s : State) : State :=
  let rec0 := s.pairRec d o p v 1 0
  let s1 := ((s.putPair { p with s := v.v, v := none }).bump cVerdictConf).stageConfirmed rec0.kind v.v v.vid p.subj v.drill
  if v.v = 3 ∧ !d.drift then s1.routeExpel o.stamp rec0 else s1.sendVerdict .up o.stamp rec0

/-- Table 9.6 at an update whose class is c. `p` is the pair with its new h and cp. -/
def State.table96 (d : ScoreDesc) (o : OutSet) (c : Nat) (p : Pair) (s : State) : State :=
  match p.v with
  | none =>
    if c = p.s then s.putPair p
    else
      let w := s.nextVid
      let v : OpenV := { vid := w.2, v := c, hold := 1, age := 1, raiseT := s.tb0Ns, drill := s.underDrill p.subj s.tb0Ns }
      let s1 := ((w.1.putPair { p with v := some v }).bump cVerdictProv).sendVerdict .up o.stamp (s.pairRec d o p v 0 0)
      if 2 ≤ c then s1.setPrep p.score p.subj d.prep true else s1
  | some v0 =>
    let v := { v0 with age := v0.age + 1 }
    let up := decide (p.s < v.v)
    if c = p.s then s.withdrawPair d p v wdGone o.stamp
    else if decide (p.s < c) != up then s.withdrawPair d p v wdSuperseded o.stamp
    else
      let holds := if up then decide (v.v ≤ c) else decide (c ≤ v.v)
      if holds && c == v.v then
        let v2 := { v with hold := v.hold + 1 }
        if d.confWin ≤ v2.hold then s.confirmPair d o p v2
        else if d.wdWin ≤ v2.age then s.withdrawPair d p v2 wdTimeout o.stamp
        else s.putPair { p with v := some v2 }
      else if holds then
        let v2 := { v with v := c, hold := 1 }
        let s1 := (s.putPair { p with v := some v2 }).sendVerdict .up o.stamp (s.pairRec d o p v2 0 vfRaised)
        let s2 := if 2 ≤ c then s1.setPrep p.score p.subj d.prep true else s1
        if d.wdWin ≤ v2.age then s2.withdrawPair d p v2 wdTimeout o.stamp else s2
      else
        let v2 := { v with hold := 0 }
        if d.wdWin ≤ v2.age then s.withdrawPair d p v2 wdTimeout o.stamp else s.putPair { p with v := some v2 }

/-- A MISSING output set ages an open verdict (R229, R231). It is an update too, from which STRAG counts anew (Table 9.5). -/
def State.missingSet (d : ScoreDesc) (o : OutSet) (p0 : Pair) (s : State) : State :=
  let p := { p0 with strag := 0 }
  match p.v with
  | some v0 =>
    let v := { v0 with age := v0.age + 1 }
    if d.wdWin ≤ v.age then s.withdrawPair d p v wdTimeout o.stamp else s.putPair { p with v := some v }
  | none => s.putPair p

/-- A subject's state at its start (R230). -/
def pairNew (score : Nat) (subj : Laddr) : Pair :=
  { score := score, subj := subj, h := 0, cp := 0, s := 0, v := none, strag := 0 }

/-- One score takes one output set (R228 to R231). -/
def State.scoreUpdate (i : Nat) (d : ScoreDesc) (o : OutSet) (s : State) : State :=
  match s.verd.pairs.find? fun p => p.score == i && p.subj == o.src with
  | some p =>
    if o.missing then s.missingSet d o p
    else
      let h := s.scoreH d o p
      let c := d.classOf h p.cp
      s.table96 d o c { p with h := h, cp := c, strag := 0 }
  | none =>
    if 65536 ≤ s.verd.pairs.length then
      let s1 := s.modVerd fun u =>
        { u with unscored := satAdd 32 u.unscored 1, full := if u.full.contains i then u.full else u.full ++ [i] }
      if s.verd.full.contains i then s1 else s1.stage 0x0804 .notice i 0
    else
      let p := pairNew i o.src
      let s1 := s.modVerd fun u => { u with pairs := u.pairs ++ [p] }
      if o.missing then s1
      else
        let h := s.scoreH d o p
        let c := d.classOf h p.cp
        s1.table96 d o c { p with h := h, cp := c }

/-- An output set reaches every score that a handle drives, in ascending index (R190, R229): its own handle, or the one that replaced
it (R230). -/
def State.takeOutSet (h : Nat) (o : OutSet) (s : State) : State :=
  (s.verd.scores.filter fun e => e.2.handle == h).foldl (fun t e => t.scoreUpdate e.1 e.2 o) s

/-- Scores bound to a replaced handle are bound to the new one (R230). -/
def State.rebindScores (old new : Nat) (s : State) : State :=
  s.modVerd fun u => { u with scores := u.scores.map fun e =>
    if e.2.handle == old then (e.1, { e.2 with handle := new }) else e }

/-! ### HANG and STEP verdicts (R234) -/

/-- The record of a verdict that Brake or Touchstone owns. -/
def State.ownRec (s : State) (v : OwnV) (cls state vflags : Nat) : VRec :=
  { vid := v.vid, subj := v.subj, kind := v.kind, cls := cls, prevs := 0, state := state,
    vflags := vflags + (if v.drill then vfDrill else 0), score := 0, hold := 0, age := 0, h := 0, modelver := 0,
    orig := s.sys.laddr, raiseT := v.raiseT, step := v.step }

/-- A HANG or STEP verdict is raised PROVISIONAL. -/
def State.raiseOwn (kind : Nat) (subj : Laddr) (source engine : Nat) (step : Dword) (cls : Nat) (s : State) : State :=
  let w := s.nextVid
  let v : OwnV := { kind := kind, vid := w.2, subj := subj, source := source, engine := engine, step := step,
                    raiseT := s.tb0Ns, drill := s.underDrill subj s.tb0Ns }
  ((w.1.modVerd fun u => { u with own := u.own ++ [v] }).bump cVerdictProv).sendVerdict .up s.tb0Ns (s.ownRec v cls 0 0)

/-- A HANG or STEP verdict is confirmed with a class. -/
def State.confirmOwn (v : OwnV) (cls : Nat) (s : State) : State :=
  (((s.modVerd fun u => { u with own := u.own.filter fun x => x != v }).bump cVerdictConf).stageConfirmed v.kind cls v.vid
    v.subj v.drill).sendVerdict .up s.tb0Ns (s.ownRec v cls 1 0)

/-- A HANG or STEP verdict is withdrawn. -/
def State.withdrawOwn (v : OwnV) (cls reason : Nat) (s : State) : State :=
  ((s.modVerd fun u => { u with own := u.own.filter fun x => x != v }).bump cVerdictWithdrawn).sendWithdrawal s.tb0Ns v.vid
    v.subj v.kind cls reason 0 0 v.raiseT

/-- The open verdict of a kind, subject, source and engine. -/
def State.ownOpen (s : State) (kind : Nat) (subj : Laddr) (source engine : Nat) : Option OwnV :=
  s.verd.own.find? fun v => v.kind == kind && v.subj == subj && v.source == source && v.engine == engine

/-! ### Stragglers (R241 to R245) -/

/-- A job view. -/
def State.job (s : State) (j : Word) : Option JobView := tget s.verd.jobs j.toNat

/-- Members expected in a collective: LIVE with the group's mask bit (R243). -/
def JobView.expected (v : JobView) (coll : BitVec 16) : List JobMember :=
  v.members.filter fun m => !m.gone && bit m.gmask.toNat (coll.toNat % 64)

/-- A job whose members lie in several trays: its arrivals are judged in fleet-corrected time (R63). -/
def State.crossTray (s : State) (j : Word) : Bool :=
  match s.job j with | some v => v.members.any fun m => !m.gone && !s.ownTray m.addr | none => false

/-- A member's corrected arrival at the judge, in 2^-41 ns: `none` where its node is UNALIGNED (R68). An arrival that a tray has
converted takes the fleet correction of the tray's node (R63, R242). -/
def State.arrivalTime (s : State) (cross : Bool) (a : Arrival) : Option Int :=
  match a.via with
  | none => s.corrected cross a.addr.toNat a.t
  | some tray =>
    if a.qual = 2 then none
    else (s.corrected true tray.toNat (a.t / 256)).map fun c =>
      (a.t : Int) * 2 ^ 33 - (((a.t / 256 : Nat) : Int) * 2 ^ 41 - c)

/-- Attribution by hints (Table 9.14): DRILL, THROTTLE, PREEMPT, LINK, else FAULT. -/
def attrOf (hints : Nat) : Nat :=
  if bit hints 3 then 4 else if bit hints 0 then 1 else if bit hints 1 then 2 else if bit hints 2 then 3 else 0

/-- The lower median of a sorted list. -/
def lowerMedian (l : List Int) : Int := l.getD ((l.length - 1) / 2) 0

/-- An entry of Table 9.13. -/
def judgeEntry (addr : Laddr) (attr : Nat) (absent unal : Bool) (late : Nat) : Nat :=
  addr.toNat * 2 ^ 46 + attr * 2 ^ 43 + b2n absent * 2 ^ 42 + b2n unal * 2 ^ 41 + min late (2 ^ 40 - 1)

/-- The judgement of one cohort (R244): MED, MAD, THR, WAITUS, NPRES, NLATE, WATTR, entries, and its fault stragglers. -/
structure Judged where
  med : Int
  mad : Nat
  thr : Nat
  waitus : Nat
  npres : Nat
  nlate : Nat
  wattr : Nat
  ents : List Nat
  faults : List Laddr
deriving DecidableEq, Repr

/-- R244 over the expected members of one phase role. -/
def State.judgeCohort (s : State) (i : Inst) (ms : List JobMember) : Judged :=
  let addrs := (sortNat (ms.map fun m => m.addr.toNat)).map (BitVec.ofNat 18)
  let arr := fun (a : Laddr) => i.arrivals.find? fun x => x.addr == a
  let absent := addrs.filter fun a => (arr a).isNone
  let at' := s.arrivalTime (s.crossTray i.job)
  let unal := addrs.filter fun a => match arr a with | some x => (at' x).isNone | none => false
  let js := addrs.filterMap fun a => (arr a).bind fun x => (at' x).map fun t => (t / 2 ^ 41, a, x.hints)
  let sorted := sortLe (fun x y => decide (x.1 < y.1) || (x.1 == y.1 && decide (x.2.1.toNat ≤ y.2.1.toNat))) js
  let low := (addrs.filter fun a => absent.contains a || unal.contains a).map fun a =>
    judgeEntry a 0 (absent.contains a) (unal.contains a) 0
  let med := lowerMedian (sorted.map (·.1))
  let mad := (lowerMedian (sortLe (fun a b => decide (a ≤ b)) (sorted.map fun x => (((x.1 - med).natAbs : Nat) : Int)))).toNat
  if js.length < s.verd.cohortMin then
    { med := med, mad := mad, thr := 0, waitus := 0, npres := js.length, nlate := absent.length, wattr := 0, ents := low,
      faults := [] }
  else
    let thr := min (max s.verd.lateMin (s.verd.lateMult * mad)) (2 ^ 32 - 1)
    let late := sorted.filter fun x => decide (0 < x.1 - med) && decide ((thr : Int) ≤ x.1 - med)
    let ord := sortLe (fun x y => decide (y.1 < x.1) || (x.1 == y.1 && decide (x.2.1.toNat ≤ y.2.1.toNat))) late
    let lastA := match sorted.getLast? with | some x => x.1 | none => 0
    let wattr := match sorted.getLast? with | some x => attrOf x.2.2 | none => 0
    { med := med, mad := mad, thr := thr, waitus := ((sorted.map fun x => lastA - x.1).sum / 1000).toNat,
      npres := js.length, nlate := absent.length + late.length, wattr := wattr,
      ents := low ++ ord.map fun x => judgeEntry x.2.1 (attrOf x.2.2) false false (x.1 - med).toNat,
      faults := (late.filter fun x => attrOf x.2.2 == 0).map fun x => x.2.1 }

/-- The JUDGEMENT record of a cohort (Table 9.11). -/
def judgeReq (i : Inst) (prole : Nat) (j : Judged) : Req :=
  let es := j.ents.take 248
  { dst := .up, cls := 2, typ := tLateness, unit := uVerdict, flags := 0, stamp := none,
    body := be 4 i.job.toNat ++ be 2 i.coll.toNat ++ be 1 2 ++ be 1 prole ++ be 8 i.step.toNat ++ be 8 (unsigned 64 j.med)
      ++ be 4 (min j.mad (2 ^ 32 - 1)) ++ be 4 j.thr ++ be 4 (min j.waitus (2 ^ 32 - 1)) ++ be 2 (min j.npres 0xFFFF)
      ++ be 2 (min j.nlate 0xFFFF) ++ be 2 es.length ++ be 1 j.wattr ++ zeros 1 ++ (es.map (be 8)).flatten }

/-- The instance of a key. -/
def sameInst (job : Word) (coll : BitVec 16) (step : Dword) (i : Inst) : Bool :=
  i.job == job && i.coll == coll && i.step == step

/-- The judge closes an instance (R244, R245): one JUDGEMENT per cohort, fault stragglers fed to STRAG terms. -/
def State.closeInst (i : Inst) (s : State) : State :=
  let ms := match s.job i.job with | some v => v.expected i.coll | none => []
  let roles := (sortNat (ms.map (·.prole))).eraseDups
  let s1 := roles.foldl (fun t p =>
    let j := t.judgeCohort i (ms.filter fun m => m.prole == p)
    (t.send (judgeReq i p j)).modVerd fun u =>
      { u with pairs := u.pairs.map fun x => if j.faults.contains x.subj then { x with strag := x.strag + 1 } else x }) s
  s1.modVerd fun u =>
    { u with insts := u.insts.filter fun x => !sameInst i.job i.coll i.step x,
             closedInsts := (u.closedInsts ++ [(i.job, i.coll, i.step)]).drop ((u.closedInsts.length + 1) - 1024) }

/-- This block judges a job. -/
def State.judges (s : State) (j : Word) : Bool :=
  match s.job j with | some v => v.judge == s.sys.laddr | none => false

/-- The corrections of every arrival are published or past their deadlines (R243). -/
def State.arrivalsReady (s : State) (i : Inst) : Bool :=
  i.arrivals.all fun a =>
    match a.via with
    | none => s.corrKnown (s.crossTray i.job) a.t
    | some _ => (s.levelTable true (a.t / 256)).isSome

/-- An instance whose every expected member has arrived, with corrections, closes (R243). -/
def State.closeIfDone (i : Inst) (s : State) : State :=
  let ms := match s.job i.job with | some v => v.expected i.coll | none => []
  if (ms.all fun m => i.arrivals.any fun a => a.addr == m.addr) && s.arrivalsReady i then s.closeInst i else s

/-- The members of a job that lie in this tray. -/
def State.trayExpected (s : State) (i : Inst) : List JobMember :=
  match s.job i.job with
  | some v => (v.expected i.coll).filter fun m => s.ownTray m.addr
  | none => []

/-- A BATCH entry (Table 9.12). -/
def State.batchEntry (s : State) (a : Arrival) : Nat :=
  let c := s.corrected false a.addr.toNat a.t
  let q := match (s.levelTable false a.t).bind id with
    | some t => (match tget t.entries a.addr.toNat with
        | some e => (match e.qual with | .solved => 0 | .hold => 1 | .unaligned => 2)
        | none => 2)
    | none => 2
  let fx := ((c.getD ((a.t : Int) * 2 ^ 41)) / 2 ^ 33).toNat
  a.addr.toNat * 2 ^ 110 + a.hints * 2 ^ 106 + q * 2 ^ 104 + fx / 256 % 2 ^ 64 * 2 ^ 32 + fx % 256 * 2 ^ 24

/-- The arrivals of an instance that have not left go to the judge in BATCH records (R242). -/
def State.sendBatch (i : Inst) (s : State) : State :=
  let rest := sortLe (fun a b => decide (a.addr.toNat ≤ b.addr.toNat)) (i.arrivals.filter fun a => !i.sent.contains a.addr)
  let dst := match s.job i.job with | some v => Dest.block v.judge | none => Dest.up
  let s1 := (piecesOf 124 2048 rest).foldl (fun t p =>
    t.send { dst := dst, cls := 1, typ := tLateness, unit := uVerdict, flags := 0, stamp := none,
             body := be 4 i.job.toNat ++ be 2 i.coll.toNat ++ be 1 1 ++ be 1 0 ++ be 8 i.step.toNat ++ be 2 p.length
               ++ zeros 6 ++ (p.map fun a => be 16 (s.batchEntry a)).flatten }) s
  let mark := fun (x : Inst) =>
    if sameInst i.job i.coll i.step x then { x with sent := x.sent ++ rest.map (·.addr) } else x
  s1.modVerd fun u => { u with insts := u.insts.map mark }

/-- A tray master that is not the judge sends once every expected member of its tray has arrived, or for an arrival after
its batch, with the corrections published or past their deadlines (R242). -/
def State.batchIfDone (i : Inst) (s : State) : State :=
  let all := (s.trayExpected i).all fun m => i.arrivals.any fun a => a.addr == m.addr
  if (all || !i.sent.isEmpty) && s.arrivalsReady i && i.arrivals.any (fun a => !i.sent.contains a.addr) then s.sendBatch i
  else s

/-- Room for one more instance: with 1,024 open the oldest that this block judges closes (R243). The spec bounds no instances that it
gathers for another judge; as many are kept, and the oldest leaves as it stands (log entry 58). -/
def State.roomInst (judge : Bool) (s : State) : State :=
  match s.verd.insts.filter fun i => s.judges i.job == judge with
  | o :: l =>
    if l.length < 1023 then s
    else if judge then s.closeInst o
    else (s.sendBatch o).modVerd fun u => { u with insts := u.insts.filter fun x => !sameInst o.job o.coll o.step x }
  | [] => s

/-- An arrival joins its instance; the oldest instance of a judge closes where 1,024 are open; an arrival for a closed
instance is discarded and counted (R243). -/
def State.arrive (job : Word) (coll : BitVec 16) (step : Dword) (a : Arrival) (s : State) : State :=
  if s.verd.closedInsts.contains (job, coll, step) then s.modVerd fun u => { u with lateArr := satAdd 32 u.lateArr 1 }
  else
    let s1 := match s.verd.insts.find? (sameInst job coll step) with
      | some _ => s
      | none => (s.roomInst (s.judges job)).modVerd fun u => { u with insts := u.insts ++
          [({ job := job, coll := coll, step := step, opened := s.tb0Ns, arrivals := [], sent := [] } : Inst)] }
    let join := fun (x : Inst) =>
      if sameInst job coll step x && !(x.arrivals.any fun b => b.addr == a.addr) then { x with arrivals := x.arrivals ++ [a] }
      else x
    s1.modVerd fun u => { u with insts := u.insts.map join }

/-- What the arrivals of an instance call for now. -/
def State.settleInst (job : Word) (coll : BitVec 16) (step : Dword) (s : State) : State :=
  match s.verd.insts.find? (sameInst job coll step) with
  | some i => if s.judges job then s.closeIfDone i else s.batchIfDone i
  | none => s

/-- Every instance is looked at again: a correction has been published (R242, R243). -/
def State.settleInsts (s : State) : State :=
  s.verd.insts.foldl (fun t i => t.settleInst i.job i.coll i.step) s

/-- An ARRIVAL record that Hopper accepted (R242, R243). -/
def State.rxArrival (r : Rec) (s : State) : State :=
  let b := r.body
  let job := BitVec.ofNat 32 (rd b 0 4)
  let coll := BitVec.ofNat 16 (rd b 4 2)
  let step := BitVec.ofNat 64 (rd b 8 8)
  if s.combines && (s.job job).isSome then
    match s.extend r.src r.cls.toNat r.stamp.toNat with
    | some t =>
      (s.arrive job coll step { addr := r.src, hints := rd b 16 1 % 16, qual := 0, via := none, t := t }).settleInst job
        coll step
    | none => s
  else s

/-- A BATCH record that Hopper accepted: the judge takes its entries (R242). -/
def State.rxBatch (r : Rec) (s : State) : State :=
  let b := r.body
  let job := BitVec.ofNat 32 (rd b 0 4)
  let coll := BitVec.ofNat 16 (rd b 4 2)
  let step := BitVec.ofNat 64 (rd b 8 8)
  if s.judges job && s.inWindow r then
    ((List.range (rd b 16 2)).foldl (fun t k =>
      let e := rd b (24 + 16 * k) 16
      t.arrive job coll step
        { addr := BitVec.ofNat 18 (bits e 127 110), hints := bits e 109 106, qual := bits e 105 104, via := some r.src,
          t := bits e 95 32 * 256 + bits e 31 24 }) s).settleInst job coll step
  else s

/-- ARR_WAIT_EXPIRY (R243): live TB0 has reached the first arrival plus ARR_WAIT. An arrival in the cycle of the expiry is used
(Table 9.16), so the row acts from the next cycle on (log entry 82). -/
def execArrWaitExpiry (job : Word) (coll : BitVec 16) (step : Dword) (s : State) : Host.Outcome State Fault Refusal :=
  match s.verd.insts.find? (sameInst job coll step) with
  | some i =>
    if s.engUp && s.judges job && s.past0 (i.opened + s.verd.arrWait) then .next (s.closeInst i) else .next s
  | none => .next s

/-- BATCH_WAIT_EXPIRY (R242): BATCH_WAIT, a quarter of ARR_WAIT, has passed since the first arrival, and the correction of
the latest arrival is published or past its deadline. -/
def execBatchWaitExpiry (job : Word) (coll : BitVec 16) (step : Dword) (s : State) : Host.Outcome State Fault Refusal :=
  match s.verd.insts.find? (sameInst job coll step) with
  | some i =>
    if s.engUp && !s.judges job && decide (i.opened + s.verd.arrWait / 4 ≤ s.tb0Ns) && s.arrivalsReady i
        && i.arrivals.any (fun a => !i.sent.contains a.addr) then .next (s.sendBatch i)
    else .next s
  | none => .next s

/-! ### Disagreement about liveness (R247, R248) -/

/-- What a tray master holds of a die that it hears of for the first time. -/
def dieNew (t : Nat) : DieView := { hangConf := false, gasp := false, lastRec := t, lastFab := t, dis := [] }

/-- The grounds for DEAD (BASIS of Table 9.15); 0 while the block view is LIVE. -/
def State.deadBasis (s : State) (a : Laddr) : Nat :=
  match tget s.verd.dies a.toNat with
  | some d =>
    let i := match s.sys.members.find? fun m => m.addr == a with | some m => m.ifc | none => 0
    b2n d.hangConf + 2 * b2n d.gasp + 4 * b2n (decide (d.lastRec + s.verd.silentTo ≤ s.tb1Ns))
      + 8 * b2n (decide (0 < i) && !s.linkOk i && decide (d.lastFab + s.verd.silentTo ≤ s.tb1Ns))
  | none => 0

/-- A DISAGREE record (Table 9.15). -/
def State.sendDisagree (a : Laddr) (x : Dis) (jobGone : Bool) (dead resolved : Bool) (basis : Nat) (s : State) : State :=
  s.send { dst := .up, cls := 1, typ := tDisagree, unit := uVerdict, flags := 0, stamp := none,
           body := be 4 a.toNat ++ be 4 x.job.toNat ++ be 1 (b2n jobGone) ++ be 1 (b2n dead) ++ be 1 (b2n resolved)
             ++ be 1 basis ++ zeros 4 ++ be 8 x.since ++ be 8 (if resolved then s.tb0Ns else 0) }

/-- The views of a die are compared for every job that holds it: a difference starts, or ends with its RESOLVED record. -/
def State.reviewDie (a : Laddr) (s : State) : State :=
  match tget s.verd.dies a.toNat with
  | none => s
  | some d =>
    if !s.isMaster then s
    else
      let dead := s.deadBasis a != 0
      let views := s.verd.jobs.filterMap fun e => (e.2.members.find? fun m => m.addr == a).map fun m => (e.2.job, m.gone)
      let differ := fun (j : Word) => views.any fun v => v.1 == j && v.2 != dead
      let fresh := (views.filter fun v => v.2 != dead && !(d.dis.any fun x => x.job == v.1)).map fun v =>
        ({ job := v.1, since := s.tb0Ns, since1 := s.tb1Ns, onset := false } : Dis)
      let ended := d.dis.filter fun x => !differ x.job
      let s1 := (ended.filter (·.onset)).foldl (fun t x =>
        t.sendDisagree a x ((views.find? fun v => v.1 == x.job).map (·.2) |>.getD true) dead true 0) s
      let d2 : DieView := { d with dis := (d.dis.filter fun x => differ x.job) ++ fresh }
      s1.modVerd fun u => { u with dies := tput u.dies a.toNat d2 }

/-- A record from a die arrived; `fab` says that it came over FAB. -/
def State.heardDie (a : Laddr) (fab : Bool) (s : State) : State :=
  if s.isMaster && s.ownTray a then
    let d := tgetD s.verd.dies a.toNat (dieNew s.tb1Ns)
    let d2 : DieView := { d with lastRec := s.tb1Ns, lastFab := if fab then s.tb1Ns else d.lastFab }
    (s.modVerd fun u => { u with dies := tput u.dies a.toNat d2 }).reviewDie a
  else s

/-- A die's LAST_GASP, or its restart (R247). -/
def State.markDie (a : Laddr) (gasp : Bool) (s : State) : State :=
  (s.modVerd fun u => { u with dies := tmod u.dies a.toNat fun d =>
    { d with gasp := gasp, hangConf := d.hangConf && gasp } }).reviewDie a

/-- SILENT_TO_EXPIRY (R247): no record from the die for SILENT_TO. -/
def execSilentToExpiry (die : Laddr) (s : State) : Host.Outcome State Fault Refusal :=
  if s.engUp then .next (s.reviewDie die) else .next s

/-- DIS_HOLD_EXPIRY (R247): the views have differed without a break for DIS_HOLD; each disagreement yields one ONSET. Views that agree
again in the cycle of the expiry send nothing (Table 9.16), so the row acts from the next cycle on (log entry 82). -/
def execDisHoldExpiry (die : Laddr) (s : State) : Host.Outcome State Fault Refusal :=
  if s.engUp && s.isMaster then
    let s1 := s.reviewDie die
    match tget s1.verd.dies die.toNat with
    | some d =>
      let due := d.dis.filter fun x => !x.onset && s.past1 (x.since1 + s.verd.disHold)
      let dead := s1.deadBasis die != 0
      let s2 := due.foldl (fun t x => t.sendDisagree die x (!dead) dead false (s1.deadBasis die)) s1
      .next (s2.modVerd fun u => { u with dies := tmod u.dies die.toNat fun v =>
        { v with dis := v.dis.map fun x => if due.contains x then { x with onset := true } else x } })
    | none => .next s1
  else .next s

/-! ### Commands (Table 16.14) -/

def opScoreSet : OpSpec := mkOp 0x0700 [.ptr] rDTS wFT false

/-- The descriptor that SCORE.SET brings (Table 9.4). -/
def parseScore (b : List Byte) : ScoreDesc :=
  { drift := rd b 1 1 == 1, handle := rd b 2 1, ssh := rd b 3 1, confWin := rd b 4 1, wdWin := rd b 5 1, prep := rd b 6 1,
    thW := rd b 8 4, thS := rd b 12 4, thE := rd b 16 4, hyst := rd b 20 4,
    terms := (List.range (rd b 7 1)).map fun t =>
      { typ := rd b (24 + 8 * t) 1, k := rd b (25 + 8 * t) 1, weight := rd b (28 + 8 * t) 4 } }

/-- The handle's model. -/
def State.qModel (s : State) (h : Nat) : Option QModel :=
  match s.model.quern[h]? with
  | some q => if q.h.st = .loaded ∨ q.h.st = .active then q.model else none
  | none => none

/-- R227's conditions on a descriptor's own values; values out of range are E_RANGE (Table 16.5). -/
def scoreOk (b : List Byte) (d : ScoreDesc) : Bool :=
  let n := rd b 7 1
  decide (rd b 1 1 ≤ 1) && decide (d.prep < 4)
    && (List.range n).all (fun t => decide (rd b (24 + 8 * t) 1 ≤ 5) && rd b (26 + 8 * t) 2 == 0)
    && rd b (24 + 8 * n) (64 - 8 * n) == 0
    && [d.thW, d.thS, d.hyst].all ffin32 && (d.drift || ffin32 d.thE) && d.terms.all (fun t => ffin32 t.weight)
    && flt32 d.thW d.thS && (d.drift || flt32 d.thS d.thE) && !flt32 d.hyst 0
    && flt32 d.hyst (fs32 d.thS d.thW) && (d.drift || flt32 d.hyst (fs32 d.thE d.thS))

/-- Every subject of a score restarts, open verdicts being withdrawn with reason OWNER (R227, R230). -/
def State.restartScore (i : Nat) (s : State) : State :=
  let d0 := tgetD s.verd.scores i (parseScore [])
  let s1 := (s.verd.pairs.filter fun p => p.score == i).foldl (fun t p =>
    match p.v with | some v => t.withdrawPair d0 p v wdOwner t.tb0Ns | none => t) s
  s1.modVerd fun u => { u with pairs := u.pairs.filter fun p => p.score != i, full := u.full.filter (· != i) }

/-- SCORE.SET (R227). -/
def execScoreSet (c : Cmd) (s : State) : Host.Outcome State Fault Refusal :=
  let b := cdata c 0
  let i := rd b 0 1
  let d := parseScore b
  let m := s.qModel d.handle
  let fits := match m with
    | some q => d.terms.all fun t => (t.typ != 1 || decide (t.k < q.k)) && (t.typ != 3 || (q.inmode == 0 && s.isDie))
    | none => d.terms.all fun t => t.typ != 3 || s.isDie
  .next (runCmd opScoreSet c
    [ckData opScoreSet c 0 88, ckParam (scoreOk b d) 0, ckParam fits 0, ckRange (decide (d.ssh ≤ 8)) 0,
     ckRange (decide (2 ≤ d.confWin) && decide (d.confWin ≤ 16)) 0, ckRange (decide (d.confWin ≤ d.wdWin) && decide (d.wdWin ≤ 64)) 0,
     ckRange (decide (1 ≤ rd b 7 1) && decide (rd b 7 1 ≤ 8)) 0] [ckState m.isSome]
    (fun t =>
      let t1 := match tget t.verd.scores i with
        | some o =>
          if o.handle != d.handle || o.drift != d.drift || o.thW != d.thW || o.thS != d.thS || o.thE != d.thE then
            t.restartScore i
          else t
        | none => t
      .ok 0 [] [] (t1.modVerd fun u => { u with scores := tput u.scores i d })) s)

def opScoreClear : OpSpec := mkOp 0x0701 [.v 1] rDTS wFT false

/-- SCORE.CLEAR. -/
def execScoreClear (c : Cmd) (s : State) : Host.Outcome State Fault Refusal :=
  let i := cp c 0 1
  .next (runCmd opScoreClear c [ckNoInline c] [ckState (tget s.verd.scores i).isSome]
    (fun t => .ok 0 [] [] ((t.restartScore i).modVerd fun u => { u with scores := tdel u.scores i })) s)

def opVerdictWithdraw : OpSpec := mkOp 0x0702 [.v 4, .v 4] rDTS wFT false

/-- The open score verdict of a VID and subject. -/
def State.openPair (s : State) (vid : Word) (subj : Laddr) : Option Pair :=
  s.verd.pairs.find? fun p => p.subj == subj && match p.v with | some v => v.vid == vid | none => false

def opVerdictConfig : OpSpec := mkOp 0x0703 [.v 1] rTS wF false

/-- VERDICT.CONFIG: names the verdict tree. -/
def execVerdictConfig (c : Cmd) (s : State) : Host.Outcome State Fault Refusal :=
  .next (runCmd opVerdictConfig c [ckNoInline c, ckRange (decide (cp c 0 1 < 16)) 0] []
    (fun t => .ok 0 [] [] (t.modVerd fun u => { u with vtree := some (cp c 0 1) })) s)

def opVerdictBudget : OpSpec := mkOp 0x0704 [.v 1, .r 3, .v 4, .v 2] rATS wF true

/-- VERDICT.BUDGET (R238): tokens are kept, limited to the new depth. -/
def execVerdictBudget (c : Cmd) (s : State) : Host.Outcome State Fault Refusal :=
  let rate := cp c 4 4
  let depth := cp c 8 2
  .next (runCmd opVerdictBudget c
    [ckNoInline c, ckParam (decide (cp c 0 1 ≤ 1)) 0, ckRange (decide (rate ≤ 1000000)) 4,
     ckRange (decide (1 ≤ depth) && decide (depth ≤ 4096)) 8] []
    (fun t => .ok 0 [] [] (t.modHolder (cp c 0 1 == 1) fun h =>
      { h with rate := rate, depth := depth, tokens := min h.tokens (depth * 3600000) })) s)

def opVerdictDrill : OpSpec := mkOp 0x0705 [.v 4, .v 4, .v 8, .v 8, .ptr] rDTS wF false

/-- VERDICT.DRILL (R246): N = 0 removes the drill. -/
def execVerdictDrill (c : Cmd) (s : State) : Host.Outcome State Fault Refusal :=
  let id := cp c 0 4
  let n := cp c 4 4
  let subs := (List.range n).map fun i => BitVec.ofNat 18 (rd (cdata c 0) (4 * i) 4)
  .next (runCmd opVerdictDrill c
    [ckData opVerdictDrill c 0 (4 * n), ckParam ((List.range n).all fun i => decide (rd (cdata c 0) (4 * i) 4 < 2 ^ 18)) 24,
     ckParam (n == 0 || decide (cp c 8 8 < cp c 16 8)) 16]
    [ckCap (n == 0 || (tget s.verd.drills id).isSome || decide (s.verd.drills.length < 16)) (16 - s.verd.drills.length)]
    (fun t => .ok 0 [] [] (t.modVerd fun u =>
      { u with drills := if n = 0 then tdel u.drills id
        else tput u.drills id ⟨BitVec.ofNat 32 id, cp c 8 8, cp c 16 8, subs⟩ })) s)

def opJobMembers : OpSpec := { mkOp 0x0706 [.v 4, .v 4, .v 4, .v 1, .r 3, .ptr] rDTS wF false with admission := true }

/-- A member entry of JOB.MEMBERS. -/
def parseMember (b : List Byte) (o : Nat) : JobMember :=
  { addr := BitVec.ofNat 18 (rd b o 4), prole := rd b (o + 4) 1, gone := rd b (o + 5) 1 == 1,
    gmask := BitVec.ofNat 64 (rd b (o + 8) 8) }

def opVerdictParam : OpSpec := mkOp 0x0708 [.v 4, .v 4, .v 4, .v 4, .v 2, .v 1, .v 1] rDTS wFT false

/-- VERDICT.PARAM (R241, R243, R244, R247). -/
def execVerdictParam (c : Cmd) (s : State) : Host.Outcome State Fault Refusal :=
  let rng := fun (o n lo hi : Nat) => ckRange (decide (lo ≤ cp c o n) && decide (cp c o n ≤ hi)) o
  .next (runCmd opVerdictParam c
    [ckNoInline c, rng 0 4 1 10000, rng 4 4 1 1000000, rng 8 4 10 10000, rng 12 4 1 6000, rng 16 2 1 65535, rng 18 1 3 64,
     rng 19 1 1 64] []
    (fun t => .ok 0 [] [] (t.modVerd fun u =>
      { u with arrWait := cp c 0 4 * 1000000, lateMin := cp c 4 4 * 1000, silentTo := cp c 8 4 * 1000000,
               disHold := cp c 12 4 * 10000000, repMin := cp c 16 2, cohortMin := cp c 18 1, lateMult := cp c 19 1 })) s)

def opVerdictStatus : OpSpec := mkOp 0x0709 [.v 4, .v 1] rDTS wFTH false

/-- VERDICT.STATUS: state of a (score, subject); a pair that does not exist reads as its start. -/
def execVerdictStatus (c : Cmd) (s : State) : Host.Outcome State Fault Refusal :=
  let subj : Laddr := BitVec.ofNat 18 (cp c 0 4)
  let i := cp c 4 1
  let p := (s.verd.pairs.find? fun x => x.score == i && x.subj == subj).getD (pairNew i subj)
  let v := p.v.getD { vid := 0, v := 0, hold := 0, age := 0, raiseT := 0, drill := false }
  .next (runCmd opVerdictStatus c [ckNoInline c, ckAddr c 0] []
    (fun t => .ok 0 (be 4 p.h ++ be 1 p.s ++ be 1 v.v ++ be 1 (b2n p.v.isSome) ++ be 1 v.hold ++ be 1 v.age ++ zeros 3
      ++ be 4 v.vid.toNat) [] t) s)

end Sys2Proof.Machine
end

