-- ==== Sys2Proof/Machine/Quern.lean ====
section
/-! DEFINITION. Quern (spec/07): its image, the load checks, evaluation, inputs, and the handle operations that both engines
share. -/

namespace Sys2Proof.Machine

/-! ### The image (R178 to R180, Table 7.3) -/

/-- A node word read (Table 7.5); `none` for one that is neither valid nor all zero. -/
def parseNode (v : Nat) : Option (Option QNode) :=
  if v = 0 then some none
  else if bit v 63 && bits v 19 0 == 0 then
    some (some { defLeft := bit v 62, feat := bits v 61 52, thresh := bits v 51 36, lo := bits v 35 28, hi := bits v 27 20 })
  else none

/-- check(a, b, depth) of R180 with `fuel` = 8 - depth: the nodes it uses, or failure. -/
def treeCheck (ns : List QNode) : Nat → Nat → Nat → Option (List QNode)
  | 0, a, b => if a = b then some [] else none
  | fuel + 1, a, b =>
    if a = b then some []
    else
      match (sortLe (fun x y => decide (y.hi ≤ x.hi)) (ns.filter fun n => n.lo == a && decide (n.hi + 1 ≤ b))) with
      | [] => none
      | n :: _ =>
        match treeCheck ns fuel a n.hi, treeCheck ns fuel (n.hi + 1) b with
        | some l, some r => some (n :: (l ++ r))
        | _, _ => none

/-- A tree's checks of R180. -/
def treeOk (nfeat : Nat) (t : QTree) : Bool :=
  t.nodes.length + 1 == t.nleaf
    && t.nodes.all (fun n => decide (n.lo ≤ n.hi) && decide (n.hi + 2 ≤ t.nleaf) && decide (n.feat < nfeat)
      && decide (n.thresh ≤ 0xFFFE))
    && match treeCheck t.nodes 8 0 (t.nleaf - 1) with
      | some used => used.length == t.nodes.length && used.eraseDups.length == used.length
      | none => false

/-- A tree slot read: W node words, then W leaf rows (Table 7.4 and what follows it). `none` for a slot that breaks its
format. -/
def parseTree (w k : Nat) (b : List Byte) : Option QTree :=
  let h := rd b 0 8
  let ws := (List.range (w - 1)).map fun i => parseNode (rd b (8 * (i + 1)) 8)
  let kr := 4 * ceilDiv k 4
  let row := fun j => slice b (8 * w + 2 * kr * j) (2 * kr)
  let l := bits h 63 56 + 1
  let okHead := bits h 55 0 == 0 && decide (l ≤ w) && ws.all Option.isSome
  let pad := (List.range w).all fun j => (row j).drop (if j < l then 2 * k else 0) |>.all (· == 0)
  let leaves := (List.range l).map fun j => (List.range k).map fun i => rd (row j) (2 * i) 2
  let fin := leaves.all fun r => r.all fun v => (fdec f16 v).isFin
  if okHead && pad && fin then some { nleaf := l, nodes := ws.filterMap fun x => x.getD none, leaves := leaves } else none

/-- Bytes of the gather table, padded (Table 7.3). -/
def gatherLen (inmode nfeat : Nat) : Nat := if inmode = 2 then ceilDiv (4 * nfeat) 8 * 8 else 0

/-- Trees, W and K as a Quern image's header gives them (R194); `none` where the header fails its own checks, which the load then
reports (R178, R179). -/
def quernShape (b : List Byte) : Option (Nat × Nat × Nat) :=
  let wcode := rd b 6 1
  let k := rd b 7 1
  let ntree := rd b 16 2
  let w := 64 * 2 ^ (wcode % 4)
  if 64 ≤ b.length ∧ rd b 0 4 = 0x514E4D31 ∧ rd b 4 2 = 1 ∧ rd b 60 4 = crc32c (b.take 60) ∧ wcode ≤ 2 ∧ 1 ≤ k ∧ k ≤ 16 ∧ 1 ≤ ntree
      ∧ ntree ≤ 8192 ∧ rd b 24 4 = 128 + gatherLen (rd b 20 1) (rd b 18 2) + ntree * slotBytesQ w k then some (ntree, w, k)
  else none

/-- The resident Quern models as `quernFits` counts them: in every state but EMPTY, so that a load counts from its header on (R194). -/
def State.quernResident (s : State) : List (Nat × Nat × Nat) :=
  s.model.quern.filterMap fun q => match q.model with
    | some m => some (m.trees.length, m.w, m.k)
    | none => if q.h.st = .loading then quernShape (if q.h.lsrc = 0 then lget s.flash.models q.h.slot [] else q.h.image) else none

/-- The status that checking a Quern image gives, with the model where it is OK: format and length first, then the check
values, then the model's limits (R178, R179, R180). -/
def checkQuern (b : List Byte) : BitVec 16 × Option QModel :=
  let wcode := rd b 6 1
  let k := rd b 7 1
  let ntree := rd b 16 2
  let nfeat := rd b 18 2
  let inmode := rd b 20 1
  let len := rd b 24 4
  let g := gatherLen inmode nfeat
  let w := 64 * 2 ^ (wcode % 4)
  let sz := slotBytesQ w k
  if rd b 0 4 ≠ 0x514E4D31 ∨ rd b 4 2 ≠ 1 ∨ len ≠ 128 + g + ntree * sz ∨ b.length < len then (stParam, none)
  else if rd b 60 4 ≠ crc32c (b.take 60) ∨ rd b 32 8 ≠ crc64 ((b.take len).drop 64) then (stCheck, none)
  else
    let bias := (List.range 16).map fun i => rd b (64 + 4 * i) 4
    let trees := (List.range ntree).map fun i => parseTree w k (slice b (128 + g + i * sz) sz)
    let gs := if inmode = 2 then (List.range nfeat).map fun i =>
        let v := rd b (128 + 4 * i) 4
        (bits v 31 14, bits v 13 10, bits v 9 0) else []
    let ok := decide (wcode ≤ 2) && decide (1 ≤ k) && decide (k ≤ 16) && decide (1 ≤ ntree) && decide (ntree ≤ 8192)
      && decide (1 ≤ nfeat) && decide (nfeat ≤ 1024) && decide (inmode ≤ 2) && decide (rd b 21 1 < 16)
      && (inmode != 2 || rd b 21 1 == 0) && rd b 22 2 == 0 && rd b 28 4 == 0 && rd b 40 20 == 0
      && ((bias.take k).all ffin32) && (bias.drop k).all (· == 0)
      && (inmode != 2 || rd b (128 + 4 * nfeat) (g - 4 * nfeat) == 0)
      && trees.all fun t => match t with | some x => treeOk nfeat x | none => false
    if ok then
      (stOk, some { wcode := wcode, k := k, modelId := BitVec.ofNat 32 (rd b 8 4), modelVer := BitVec.ofNat 32 (rd b 12 4),
                    nfeat := nfeat, inmode := inmode, set := rd b 21 1, len := len, bias := bias.take k, gather := gs,
                    trees := trees.filterMap id })
    else (stParam, none)

/-! ### Evaluation (R181 to R185) -/

/-- A node sends the vector left (R181). -/
def goesLeft (codes : List Nat) (n : QNode) : Bool :=
  let x := codes.getD n.feat 0xFFFF
  if x = 0xFFFF then n.defLeft else decide (x ≤ n.thresh)

/-- The exit leaf: the lowest one that no comparison clears (R182). -/
def exitLeaf (codes : List Nat) (t : QTree) : Nat :=
  let right := t.nodes.filter fun n => !goesLeft codes n
  ((List.range t.nleaf).find? fun j => !(right.any fun n => decide (n.lo ≤ j) && decide (j ≤ n.hi))).getD 0

/-- The K results of a model on a vector: bias, then each tree's leaf in ascending tree index, in binary32 (R184). -/
def QModel.eval (m : QModel) (codes : List Nat) : List Nat :=
  m.trees.foldl (fun acc t =>
    let row := t.leaves.getD (exitLeaf codes t) []
    (List.range m.k).map fun i => fa32 (acc.getD i 0) (f32Bits (fcvt f32 (fdec f16 (row.getD i 0))))) m.bias

/-! ### Handles -/

/-- A Quern handle. -/
def State.qh (s : State) (i : Nat) : QHandle :=
  lget s.model.quern i { h := handleReset, model := none, pend := [], run := [], skip := 0, late := 0 }

/-- A Millrace handle. -/
def State.mh (s : State) (i : Nat) : MHandle := lget s.model.mill i { h := handleReset, model := none }

/-- Change a Quern handle. -/
def State.modQ (i : Nat) (f : QHandle → QHandle) (s : State) : State :=
  s.modModel fun u => { u with quern := lmod u.quern i f }

/-- Change a Millrace handle. -/
def State.modM (i : Nat) (f : MHandle → MHandle) (s : State) : State :=
  s.modModel fun u => { u with mill := lmod u.mill i f }

/-- A handle of an engine: Quern, or Millrace where `mill` is true. -/
def State.hnd (s : State) (mill : Bool) (i : Nat) : Handle := if mill then (s.mh i).h else (s.qh i).h

/-- Change a handle of an engine. -/
def State.modHnd (mill : Bool) (i : Nat) (f : Handle → Handle) (s : State) : State :=
  if mill then s.modM i fun x => { x with h := f x.h } else s.modQ i fun x => { x with h := f x.h }

/-- The number under which an engine's handle stands as the object of a command. -/
def hndObj (mill : Bool) (i : Nat) : Nat := b2n mill * 16 + i

/-- An empty handle. -/
def emptyQ : QHandle := { h := handleReset, model := none, pend := [], run := [], skip := 0, late := 0 }

/-- The handle whose scores take a handle's output sets: itself, or the one that has replaced it (R230). -/
def State.scoreHandle (s : State) (i : Nat) : Nat :=
  match ((List.range 16).zip s.model.quern).find? fun e =>
      e.2.h.st == .active && e.2.h.repl == some i && (s.qh i).h.til.isSome with
  | some e => e.1
  | none => i

/-- An output set goes to the Verdict unit and to the reductions over model outputs (R190). -/
def State.deliver (i : Nat) (v : QVec) (missing : Bool) (results : List Nat) (nmissf : Nat) (s : State) : State :=
  let id : Word × Word := match (s.qh i).model with | some m => (m.modelId, m.modelVer) | none => (0, 0)
  let o : OutSet := { handle := i, modelId := id.1, modelVer := id.2, src := v.src, stamp := v.stamp, flags := v.flags,
                      missing := missing, nmissf := nmissf, results := results }
  let s1 := s.takeOutSet (s.scoreHandle i) o
  if missing then s1
  else s1.leafSample 2 i 0 v.stamp fun k =>
    if k < results.length then some ((fenc f64 (fcvt f64 (fdec f32 (results.getD k 0))) : Nat) : Int) else none

/-- MISSING output sets for a list of vectors. -/
def State.deliverMissing (i : Nat) (l : List QVec) (s : State) : State :=
  l.foldl (fun t v => t.deliver i v true [] 0) s

/-- Every cut of a level with T_N up to an instant has closed. -/
def State.cutsClosed (s : State) (f : Bool) (t : Nat) : Bool :=
  let l := s.level f
  !(l.closing.any fun c => decide (c.t1 ≤ t)) && decide (t < (l.spanAt (s.cutP f) l.lastT).2)

/-- Inputs of a replaced model that can still come (R192): a vector that is held for residuals or in assembly; records of a vector
stamped before the switch as long as R56 extends their stamps; cuts up to the switch that have not closed. -/
def State.inputsLeft (s : State) (m : QModel) (i t : Nat) : Bool :=
  match m.inmode with
  | 0 => s.model.held.any fun v => v.set == m.set && decide (v.stamp < t)
  | 1 => decide (s.tb0Ns < t + 2000000000)
    || s.model.remote.any fun a => a.set == m.set && decide (a.stamp < t) && !a.started.contains i && s.below.contains a.src.toNat
  | _ => !s.cutsClosed s.isSpine t

/-- No handle counts as the replacement of another one any longer. -/
def ModelUnit.forget (mill : Bool) (i : Nat) (u : ModelUnit) : ModelUnit :=
  let f := fun (h : Handle) => if h.repl = some i then { h with repl := none } else h
  if mill then { u with mill := u.mill.map fun x => { x with h := f x.h } }
  else { u with quern := u.quern.map fun x => { x with h := f x.h } }

/-- A replaced handle whose last evaluation has finished goes to LOADED (R192). -/
def State.quernSettle (i : Nat) (s : State) : State :=
  let q := s.qh i
  match q.h.til, q.model with
  | some t, some m =>
    if q.h.st = .active ∧ q.pend.isEmpty ∧ q.run.isEmpty ∧ t ≤ s.tb0Ns ∧ !s.inputsLeft m i t then
      (s.modQ i fun x => { x with h := { x.h with st := .loaded, til := none } }).modModel (ModelUnit.forget false i)
    else s
  | _, _ => s

/-- A handle takes a vector: a fifth pending one of a source drops the oldest (R198); a STOPPED model answers MISSING
(R199). -/
def State.pushVec (i : Nat) (v : QVec) (s : State) : State :=
  let q := s.qh i
  if q.h.st = .stopped then s.deliver i v true [] 0
  else
    let same := q.pend.filter fun x => x.src == v.src
    match same with
    | o :: _ :: _ :: _ :: _ =>
      (s.modQ i fun x => { x with pend := (dropFirst (fun y => y == o) x.pend) ++ [v], skip := satAdd 32 x.skip 1 }).deliver i o
        true [] 0
    | _ => s.modQ i fun x => { x with pend := x.pend ++ [v] }

/-- A vector's stamp belongs to a handle under the switch rules of R192. `cut` is true for a GATHER cut with T_N as stamp,
where the replaced model keeps T_N equal to ACT_AT. -/
def Handle.owns (h : Handle) (stamp : Nat) (cut : Bool) : Bool :=
  if cut then (h.since == 0 || decide (h.since < stamp)) && (match h.til with | some t => decide (stamp ≤ t) | none => true)
  else decide (h.since ≤ stamp) && (match h.til with | some t => decide (stamp < t) | none => true)

/-- The handles that take a vector of a mode and set. -/
def State.takers (s : State) (mode set stamp : Nat) : List Nat :=
  ((List.range 16).zip s.model.quern).filterMap fun e =>
    match e.2.model with
    | some m =>
      if (e.2.h.st = .active ∨ e.2.h.st = .stopped) ∧ m.inmode = mode ∧ m.set = set ∧ e.2.h.owns stamp (mode == 2) then some e.1
      else none
    | none => none

/-- A local feature vector reaches the LOCAL models of its set (Table 7.7); positions beyond the map are missing. -/
def State.quernLocal (set stamp : Nat) (flags : BitVec 8) (codes : List Nat) (s : State) : State :=
  (s.takers 0 set stamp).foldl (fun t i =>
    match (t.qh i).model with
    | some m => t.pushVec i
        { src := t.sys.laddr, stamp := stamp, flags := flags, codes := (List.range m.nfeat).map fun j => codes.getD j 0xFFFF }
    | none => t) s

/-- The code of a position of an assembled vector. -/
def Asm.code (a : Asm) (j : Nat) : Nat := tgetD a.codes j 0xFFFF

/-- An assembled vector starts its evaluation on a handle (R188). -/
def State.startEach (i : Nat) (a : Asm) (s : State) : State :=
  match (s.qh i).model with
  | some m =>
    let mark := fun (x : Asm) => if x.src == a.src && x.set == a.set && x.stamp == a.stamp then { x with started := x.started ++ [i] } else x
    (s.modModel fun u => { u with remote := u.remote.map mark }).pushVec i
      { src := a.src, stamp := a.stamp, flags := a.flags, codes := (List.range m.nfeat).map a.code }
  | none => s

/-- Every position that a handle's model reads has arrived. -/
def State.eachWhole (s : State) (i : Nat) (a : Asm) : Bool :=
  match (s.qh i).model with
  | some m => (List.range m.nfeat).all fun j => (tget a.codes j).isSome
  | none => false

/-- QUERN_EVAL_START (R197): evaluations start in ascending order of stamp, handle and source, each when one of the 64 accumulator
units is free. -/
def execQuernEvalStart (handle : Fin 16) (s : State) : Host.Outcome State Fault Refusal :=
  let key := fun (i : Nat) (v : QVec) => (v.stamp * 16 + i) * 2 ^ 18 + v.src.toNat
  let all := (((List.range 16).zip s.model.quern).map fun e => if e.2.h.st = .active then e.2.pend.map fun v => (e.1, v) else []).flatten
  let least := all.foldl (fun m e => match m with
    | none => some e
    | some x => if key e.1 e.2 < key x.1 x.2 then some e else some x) (none : Option (Nat × QVec))
  match least with
  | some (i, v) =>
    if s.engUp && i == handle.val && decide ((s.model.quern.map fun q => q.run.length).sum < 64) then
      .next (s.modQ i fun x => { x with pend := dropFirst (fun y => y == v) x.pend, run := x.run ++ [v] })
    else .next s
  | none => .next s

/-- An unload that waited for the last evaluation ends (R193). -/
def State.unloadSettle (i : Nat) (s : State) : State :=
  let q := s.qh i
  if q.h.unloading && q.run.isEmpty then
    (s.modQ i fun _ => emptyQ).setReady 0x0603 (hndObj false i) (finOk 0 [] [])
  else s

/-- The oldest evaluation of a handle ends and delivers its output set (R184, R190). -/
def State.evalDone (i : Nat) (s : State) : State :=
  let q := s.qh i
  match q.run, q.model with
  | v :: rest, some m =>
    let s1 := s.modQ i fun x => { x with run := rest }
    if q.h.st = .stopped then s1.deliver i v true [] 0
    else s1.deliver i v false (m.eval v.codes) ((v.codes.filter (· == 0xFFFF)).length)
  | _, _ => s

/-- Replaced handles settle, one by one (R192). -/
def State.quernSettleAll (s : State) : State := (List.range 16).foldl (fun t i => t.quernSettle i) s

/-- QUERN_EVAL_COMPLETE (R184, R190): the oldest evaluation of the handle delivers its output set. -/
def execQuernEvalComplete (handle : Fin 16) (s : State) : Host.Outcome State Fault Refusal :=
  if s.engUp then .next ((s.evalDone handle.val).quernSettleAll.unloadSettle handle.val) else .next s

/-- The latest usable vector of a gather entry in a cut's interval (R189). -/
def State.gatherVec (s : State) (f : Bool) (t0 t1 : Nat) (src set : Nat) : Option Asm :=
  (s.model.remote.filter fun a => a.src.toNat == src && a.set == set &&
    match s.corrected f src a.stamp with
    | some c => decide (((t0 : Nat) : Int) * 2 ^ 41 ≤ c) && decide (c < (t1 : Int) * 2 ^ 41)
    | none => false).foldl (fun m a => match m with
      | none => some a
      | some x => if x.stamp < a.stamp then some a else some x) none

/-- GATHER models evaluate at the close of a cut (R189); `gone` are the sources missing from it. The level is the tray for a
tray master, the fleet for a spine, which takes the cuts of the trees it roots (Table 7.1). -/
def State.quernGather (f : Bool) (c : Cut) (gone : List Nat) (s : State) : State :=
  if f != s.isSpine || (f && !(c.trees.any fun t => t.2.parent.isNone)) then s
  else (s.takers 2 0 c.t1).foldl (fun t i =>
    match (t.qh i).model with
    | some m =>
      let vs := m.gather.map fun g => if gone.contains g.1 then none else t.gatherVec f c.t0 c.t1 g.1 g.2.1
      let codes := (List.range m.nfeat).map fun j =>
        match vs.getD j none, m.gather[j]? with
        | some a, some g => a.code g.2.2
        | _, _ => 0xFFFF
      let fl := vs.foldl (fun x v => match v with | some a => x ||| a.flags | none => x) (0 : BitVec 8)
      t.pushVec i { src := t.sys.laddr, stamp := c.t1, flags := fl &&& (fStretch ||| fClkstop ||| fBoundary), codes := codes }
    | none => t) s

end Sys2Proof.Machine
end

