-- ==== Sys2Proof/Machine/Millrace.lean ====
section
/-! DEFINITION. Millrace (spec/08): MX arithmetic, the step, codes, channels, rollouts, and the image. -/

namespace Sys2Proof.Machine

/-! ### MX arithmetic (R203, R204, Table 8.2) -/

/-- m × 2^k rounded to an integer, to nearest with ties to even. -/
def rneScale (m : Nat) (k : Int) : Nat := if 0 ≤ k then m * 2 ^ k.toNat else rneShift m (-k).toNat false

/-- ⌊log2(m × 2^e)⌋ for m > 0. -/
def ilog2 (m : Nat) (e : Int) : Int := (bitLen m : Int) - 1 + e

/-- The E4M3 code of a magnitude m × 2^e, to nearest even, saturated to 448. -/
def e4m3Mag (m : Nat) (e : Int) : Nat :=
  if m = 0 then 0
  else
    let l := ilog2 m e
    if l < -6 then rneScale m (e + 9)
    else
      let n := rneScale m (e - l + 3)
      let l2 := if n = 16 then l + 1 else l
      let n2 := if n = 16 then 8 else n
      if 8 < l2 ∨ (l2 = 8 ∧ 14 < n2) then 0x7E else (l2 + 7).toNat * 8 + (n2 - 8)

/-- An element byte of type 0 E4M3 or 1 INT8 for v × 2^-X. -/
def mxElem (atype : Nat) (x : Int) (v : Nat) : Nat :=
  match fdec f32 v with
  | .fin neg m e =>
    if atype = 0 then e4m3Mag m (e - x) + (if neg ∧ e4m3Mag m (e - x) ≠ 0 then 128 else if neg then 128 else 0)
    else
      let n := min 127 (rneScale m (e - x + 6))
      if neg then (256 - n) % 256 else n
  | _ => 0

/-- A block of up to 32 binary32 values quantised (R203); a short block is padded with +0.0. -/
def mxBlock (atype : Nat) (vs : List Nat) : MxBlock :=
  let l := vs ++ List.replicate (32 - vs.length) 0
  if l.any fun v => !ffin32 v then { scale := 0xFF, els := List.replicate 32 0 }
  else
    let amax := l.foldl (fun a v => max a (v % 2 ^ 31)) 0
    let x0 : Int := if amax = 0 then -127
      else match fdec f32 amax with
        | .fin _ m e => ilog2 m e - (if atype = 0 then 8 else 0)
        | _ => -127
    let x := max (-127) (min 127 x0)
    { scale := (x + 127).toNat, els := l.map (mxElem atype x) }

/-- The blocks of a vector. -/
def mxVec (atype : Nat) (vs : List Nat) : List MxBlock :=
  (piecesOf 32 (vs.length / 32 + 1) vs).map (mxBlock atype)

/-- An element's value as an integer multiple of 2^-9 (E4M3) or 2^-6 (INT8). -/
def mxInt (typ : Nat) (c : Nat) : Int :=
  if typ = 0 then
    let m := if c / 8 % 16 = 0 then c % 8 else (8 + c % 8) * 2 ^ (c / 8 % 16 - 1)
    if 128 ≤ c then -((m : Nat) : Int) else ((m : Nat) : Int)
  else signed 8 c

/-- The unit of `mxInt`. -/
def mxUnit (typ : Nat) : Int := if typ = 0 then -9 else -6

/-- The block dot product (R204): exact, rounded once to binary32. -/
def mxDot (wt at1 : Nat) (a b : MxBlock) : Nat :=
  if a.scale = 0xFF ∨ b.scale = 0xFF then 0x7FC00000
  else
    let n := ((a.els.zip b.els).map fun e => mxInt wt e.1 * mxInt at1 e.2).sum
    let e : Int := mxUnit wt + mxUnit at1 + ((a.scale : Int) - 127) + ((b.scale : Int) - 127)
    f32Bits (fround f32 (decide (n < 0)) n.natAbs e false)

/-! ### The image (R202, R224, Tables 8.6 and 8.7) -/

/-- A length padded to a multiple of 8. -/
def pad8 (n : Nat) : Nat := ceilDiv n 8 * 8

/-- `n` MX blocks read. -/
def parseBlocks (b : List Byte) (off n : Nat) : List MxBlock :=
  (List.range n).map fun i =>
    { scale := rd b (off + 33 * i) 1, els := (List.range 32).map fun j => rd b (off + 33 * i + 1 + j) 1 }

/-- A block that R202 allows: scale not 0xFF, no NaN element, elements from `used` on 0. -/
def mxOk (typ used : Nat) (x : MxBlock) : Bool :=
  x.scale != 0xFF && (x.els.drop used).all (· == 0) && (typ != 0 || x.els.all fun e => e % 128 != 127)

/-- A finite, positive, normal binary32 value. -/
def posNormal (v : Nat) : Bool := ffin32 v && !fneg32 v && decide (2 ^ 23 ≤ v)

/-- LEN of a Millrace image of N, R and DIN (R224). -/
def millTotal (n r din : Nat) : Nat :=
  64 + pad8 (4 * n) + pad8 (8 * din) + pad8 (33 * n) + pad8 (33 * (r * n / 32)) + (if 0 < r then pad8 (33 * n) else 0)
    + pad8 (33 * (n / 32))

/-- LEN as a Millrace image's header gives it; `none` where the header fails its own checks, which the load then reports (R224). -/
def millLen (b : List Byte) : Option Nat :=
  if 64 ≤ b.length ∧ rd b 0 4 = 0x4D524D31 ∧ rd b 4 2 = 1 ∧ rd b 60 4 = crc32c (b.take 60) ∧ rd b 16 2 ≤ 256 ∧ rd b 18 1 ≤ 32
      ∧ rd b 19 1 ≤ 32 ∧ rd b 24 4 = millTotal (rd b 16 2) (rd b 18 1) (rd b 19 1) then some (rd b 24 4)
  else none

/-- The status that checking a Millrace image gives, with the model where it is OK. -/
def checkMill (b : List Byte) : BitVec 16 × Option MModel :=
  let n := rd b 16 2
  let r := rd b 18 1
  let din := rd b 19 1
  let len := rd b 24 4
  let oD := 64 + pad8 (4 * n)
  let oB := oD + pad8 (8 * din)
  let oQ := oB + pad8 (33 * n)
  let oP := oQ + pad8 (33 * (r * n / 32))
  let oC := oP + (if 0 < r then pad8 (33 * n) else 0)
  if rd b 0 4 ≠ 0x4D524D31 ∨ rd b 4 2 ≠ 1 ∨ len ≠ millTotal n r din ∨ b.length < len then (stParam, none)
  else if rd b 60 4 ≠ crc32c (b.take 60) ∨ rd b 32 8 ≠ crc64 ((b.take len).drop 64) then (stCheck, none)
  else
    let m : MModel :=
      { wtype := rd b 6 1, atype := rd b 7 1, modelId := BitVec.ofNat 32 (rd b 8 4), modelVer := BitVec.ofNat 32 (rd b 12 4),
        n := n, r := r, din := din, target := rd b 20 1, ash := rd b 21 1, warm := rd b 22 2, len := len, vinit := rd b 28 4,
        vfloor := rd b 40 4, c0 := rd b 44 4, lambda := (List.range n).map fun i => rd b (64 + 4 * i) 4,
        iz := (List.range din).map fun j => rd b (oD + 8 * j) 4, is := (List.range din).map fun j => rd b (oD + 8 * j + 4) 4,
        b := parseBlocks b oB n, q := parseBlocks b oQ (r * n / 32), p := if 0 < r then parseBlocks b oP n else [],
        c := parseBlocks b oC (n / 32) }
    let ok := decide (m.wtype ≤ 1) && decide (m.atype ≤ 1) && n % 32 == 0 && decide (32 ≤ n) && decide (n ≤ 256)
      && decide (r ≤ 32) && decide (1 ≤ din) && decide (din ≤ 32) && decide (m.target < din) && decide (1 ≤ m.ash)
      && decide (m.ash ≤ 16) && rd b 48 12 == 0
      && m.lambda.all (fun v => ffin32 v && decide (v % 2 ^ 31 ≤ 0x3F800000)) && ffin32 m.c0 && posNormal m.vinit
      && posNormal m.vfloor && m.iz.all ffin32 && m.is.all (fun v => ffin32 v && v % 2 ^ 31 != 0)
      && m.b.all (mxOk m.wtype din) && m.q.all (mxOk m.wtype 32) && m.p.all (mxOk m.wtype r) && m.c.all (mxOk m.wtype 32)
      && rd b (64 + 4 * n) (pad8 (4 * n) - 4 * n) == 0 && rd b (oB + 33 * n) (pad8 (33 * n) - 33 * n) == 0
      && rd b (oQ + 33 * (r * n / 32)) (pad8 (33 * (r * n / 32)) - 33 * (r * n / 32)) == 0
      && (r == 0 || rd b (oP + 33 * n) (pad8 (33 * n) - 33 * n) == 0)
      && rd b (oC + 33 * (n / 32)) (pad8 (33 * (n / 32)) - 33 * (n / 32)) == 0
    if ok then (stOk, some m) else (stParam, none)

/-! ### The step (R206) -/

/-- A sum from +0.0 in list order. -/
def fsum32 (l : List Nat) : Nat := l.foldl fa32 0

/-- The state stage: x and the forecast after an input u. -/
def stateStage (m : MModel) (x u : List Nat) : List Nat × Nat :=
  let nb := m.n / 32
  let mu := mxBlock m.atype u
  let mxs := mxVec m.atype x
  let z : MxBlock := { scale := 0, els := [] }
  let q := (List.range m.r).map fun k =>
    fsum32 ((List.range nb).map fun b => mxDot m.wtype m.atype (m.q.getD (k * nb + b) z) (mxs.getD b z))
  let mq := mxBlock m.atype q
  let x2 := (List.range m.n).map fun i =>
    let t := fm32 (m.lambda.getD i 0) (x.getD i 0)
    let t2 := if 0 < m.r then fa32 t (mxDot m.wtype m.atype (m.p.getD i z) mq) else t
    fa32 t2 (mxDot m.wtype m.atype (m.b.getD i z) mu)
  let mxn := mxVec m.atype x2
  (x2, (List.range nb).foldl (fun f b => fa32 f (mxDot m.wtype m.atype (m.c.getD b z) (mxn.getD b z))) m.c0)

/-- The start of a channel (R212). -/
def ctxStart (m : MModel) : MCtx :=
  { x := List.replicate m.n 0, f := none, v := m.vinit, m := 0, n := 0, cep := 0, steps := 0,
    last := List.replicate m.din 0, drift := none }

/-- The drift code of a context (Table 8.3). -/
def driftCode (m n : Nat) : Nat := fcode32 (fm32 (fm32 m (fq32 (fi32 n))) 0x43800000) 32768

/-- One step of a channel (R206): the new context and its RESID, DRIFT and FCAST codes (R208, R209). `zero` is MISS ZERO. All three codes
are missing where z, D or F is NaN; D is NaN where its code is 0xFFFF, which no number gives. -/
def mstep (m : MModel) (zero : Bool) (k : MCtx) (i : MInput) : MCtx × Nat × Nat × Nat :=
  let u := (List.range m.din).map fun j =>
    match i.raws.getD j none with
    | none => if zero then 0 else k.last.getD j 0
    | some r => fm32 (fs32 (fi32 r) (m.iz.getD j 0)) (m.is.getD j 0)
  let run := decide (max m.warm 1 ≤ k.steps) && !i.gap && (i.raws.getD m.target none).isSome && k.f.isSome
  let r := fs32 (u.getD m.target 0) (k.f.getD 0)
  let z := fd32 r (fq32 (if flt32 k.v m.vfloor then m.vfloor else k.v))
  let v2 := fa32 k.v (fm32 (fpow32 m.ash) (fs32 (fm32 r r) k.v))
  let n0 := if k.n = 2 ^ 24 then 2 ^ 23 else k.n
  let cep := if k.n = 2 ^ 24 then k.cep + 1 else k.cep
  let m2 := fa32 k.m (fd32 (fs32 z k.m) (fi32 (n0 + 1 : Nat)))
  let k1 : MCtx := if run then
      { k with v := v2, m := m2, n := n0 + 1, cep := cep, drift := some (driftCode m2 (n0 + 1)) } else k
  let st := stateStage m k.x u
  let k2 : MCtx := { k1 with x := st.1, f := some st.2, last := u, steps := min (k.steps + 1) (2 ^ 32 - 1) }
  let resid := if run then fcode32 (fm32 z 0x43800000) 32768 else 0xFFFF
  let fcast := fcode32 (fa32 (fd32 st.2 (m.is.getD m.target 0)) (m.iz.getD m.target 0)) 0
  if (run && fnan32 z) || k2.drift == some 0xFFFF || fnan32 st.2 then (k2, 0xFFFF, 0xFFFF, 0xFFFF)
  else (k2, resid, k2.drift.getD 0xFFFF, fcast)

/-- A context in which F or an element of x is not finite (R207). -/
def MCtx.bad (k : MCtx) : Bool := !(ffin32 (k.f.getD 0)) || k.x.any fun v => !ffin32 v

/-! ### Channels -/

/-- An open channel. -/
def State.chan (s : State) (c : Nat) : Option Channel := tget s.model.chans c

/-- Change an open channel. -/
def State.modChan (c : Nat) (f : Channel → Channel) (s : State) : State :=
  s.modModel fun u => { u with chans := tmod u.chans c f }

/-- The handle under which a step with an input stamp runs: the last that replaced the channel's with an ACT_AT at or before the stamp
(R220). -/
def Channel.stepHandle (c : Channel) (stamp : Nat) : Nat :=
  match (c.moves.filter fun e => decide (e.2 ≤ stamp)).getLast? with
  | some e => e.1
  | none => c.handle

/-- A channel takes an input (R211, R218, R219): discarded while its model is not ACTIVE, the oldest dropped where four
are pending. -/
def State.pushInput (c : Nat) (i : MInput) (s : State) : State :=
  match s.chan c with
  | none => s
  | some ch =>
    if (s.millActive (ch.stepHandle i.stamp)).isNone ∨ ch.diverged then s.modChan c fun x => { x with gapNext := true }
    else
      let i1 : MInput := { i with gap := i.gap || ch.gapNext }
      match ch.pend with
      | _ :: b :: l@(_ :: _ :: _) =>
        let b1 : MInput := { b with gap := true }
        s.modChan c fun x => { x with pend := b1 :: l ++ [i1], skip := satAdd 32 x.skip 1, gapNext := false }
      | _ => s.modChan c fun x => { x with pend := x.pend ++ [i1], gapNext := false }

/-- A local feature vector reaches the LOCAL channels of its set (R211, R213). `gap` says that it covers more than one
window or follows asleep ones; a code at a RESID position is missing. -/
def State.millLocal (set stamp : Nat) (gap : Bool) (codes : List (Option Nat)) (s : State) : State :=
  (s.model.chans.filter fun e => e.2.kind == 0 && e.2.set == set).foldl (fun t e =>
    t.pushInput e.1 { stamp := stamp, gap := gap, raws := e.2.idx.map fun j =>
      match codes.getD j none with | some v => if v = 0xFFFF then none else some ((v : Nat) : Int) | none => none }) s

/-- A remote vector reaches a REMOTE channel (R211, R213): a gap step where the vector one window earlier did not come. -/
def State.millRemote (c : Nat) (a : Asm) (s : State) : State :=
  match s.chan c with
  | none => s
  | some ch =>
  let mark := fun (x : Asm) =>
    if x.src == a.src && x.set == a.set && x.stamp == a.stamp then { x with started := x.started ++ [100 + c] } else x
  let k := a.stamp / max 1 ch.rate
  let gap := match ch.prev with | some p => p.2 + 1 != k | none => false
  ((s.modModel fun u => { u with remote := u.remote.map mark }).pushInput c
    { stamp := a.stamp, gap := gap, raws := ch.idx.map fun j =>
        match tget a.codes j with | some v => if v = 0xFFFF then none else some ((v : Nat) : Int) | none => none }).modChan c fun x =>
      { x with prev := some (a.stamp, k) }

/-- Rollouts that a test picks end with E_STATE and without values (R214). -/
def State.endRollouts (p : Rollout → Bool) (s : State) : State :=
  let mine := fun (a : Acc) => a.opcode == 0x0608 && s.model.rollouts.any fun r => p r && r.path == a.path && r.tag == a.tag
  (s.modModel fun u => { u with rollouts := u.rollouts.filter fun r => !p r }).modCmd fun c =>
    { c with acc := c.acc.map fun a => if mine a then { a with ready := some (finErr stState) } else a }

/-- Rollouts of a channel that closes, resets or diverges (R214). -/
def State.voidRollouts (c : Nat) (s : State) : State := s.endRollouts fun r => r.ch == c

/-- The codes of a step that are discarded. -/
def StepCodes.lost (d : StepCodes) : StepCodes := { d with resid := 0xFFFF, drift := 0xFFFF, fcast := 0xFFFF }

/-- A channel at its start under a model (R212): its rollouts end, and no earlier step gives a code. -/
def State.restartChan (c : Nat) (m : MModel) (s : State) : State :=
  (s.modChan c fun x =>
    { x with ctx := ctxStart m, diverged := false, done := x.done.map StepCodes.lost, resetDue := false }).voidRollouts c

/-- A channel returns to its start (CHANNEL.RESET). -/
def State.resetChan (c : Nat) (s : State) : State :=
  match s.chan c with
  | some ch => match (s.mh ch.handle).model with | some m => s.restartChan c m | none => s
  | none => s

/-- A replaced Millrace handle whose last step has finished goes to LOADED (R192, R220): no channel of its own has a step in progress
or pending, and no REMOTE vector stamped before the switch can still come. -/
def State.millSettle (i : Nat) (s : State) : State :=
  match (s.mh i).h.til with
  | some t =>
    let left := fun (e : Nat × Channel) => e.2.handle == i && (e.2.running.isSome || (e.2.pend.any fun p => decide (p.stamp < t))
      || (e.2.kind == 1 && decide (s.tb0Ns < t + 2000000000)))
    if (s.mh i).h.st = .active ∧ t ≤ s.tb0Ns ∧ !s.model.chans.any left then
      (s.modM i fun x => { x with h := { x.h with st := .loaded, til := none } }).modModel (ModelUnit.forget true i)
    else s
  | none => s

/-- Replaced handles settle, one by one. -/
def State.millSettleAll (s : State) : State := (List.range 16).foldl (fun t i => t.millSettle i) s

/-- A channel's step on an input starts: the channel moves to the handle that has replaced its own by the input's stamp, and restarts
where the two models differ in N (R220). -/
def State.stepStart (c : Nat) (i : MInput) (s : State) : State :=
  match s.chan c with
  | none => s
  | some ch =>
    let h := ch.stepHandle i.stamp
    let s1 := s.modChan c fun x => { x with pend := dropFirst (fun y => y == i) x.pend }
    match s.millActive h with
    | some m =>
      let same := match (s.mh ch.handle).model with | some o => o.n == m.n | none => false
      let s2 := s1.modChan c fun x =>
        { x with running := some i, handle := h, moves := x.moves.filter fun e => decide (i.stamp < e.2) }
      if h == ch.handle || same then s2 else s2.restartChan c m
    | none => s1.modChan c fun x => { x with gapNext := true }

/-- MILLRACE_STEP_START (R217, R220): steps start in ascending order of input stamp and channel, one at a time on a channel. -/
def execMillraceStepStart (ch : Fin 4096) (s : State) : Host.Outcome State Fault Refusal :=
  let ready := (s.model.chans.map fun e =>
    if e.2.running.isNone then e.2.pend.map fun i => (i.stamp * 4096 + e.1, e.1, i) else []).flatten
  let least := ready.foldl (fun m e => match m with
    | none => some e
    | some x => if e.1 < x.1 then some e else some x) (none : Option (Nat × Nat × MInput))
  match least with
  | some e => if s.engUp && e.2.1 == ch.val then .next (s.stepStart e.2.1 e.2.2).millSettleAll else .next s
  | none => .next s

/-- A channel's codes of the latest complete step with input stamp at most b (R210); 0xFFFF where Table 8.4 says so. -/
def State.chanCode (s : State) (c sel b : Nat) : Nat :=
  match s.chan c with
  | none => 0xFFFF
  | some ch =>
    if (s.millActive ch.handle).isNone ∨ ch.diverged then 0xFFFF
    else match (ch.done.filter fun d => decide (d.stamp ≤ b)).getLast? with
      | some d => if sel = 0 then d.resid else if sel = 1 then d.drift else if sel = 2 then d.fcast else 0xFFFF
      | none => 0xFFFF

/-- A channel has completed a step with an input stamp at or after a vector's (R210). -/
def State.chanReady (s : State) (c b : Nat) : Bool :=
  match s.chan c with
  | none => false
  | some ch => ch.done.any fun d => decide (b ≤ d.stamp)

/-- The model under which a step in progress completes: that of the channel's handle, unless it is STOPPED (R222). -/
def State.stepModel (s : State) (h : Nat) : Option MModel := if (s.mh h).h.st = .stopped then none else (s.mh h).model

/-- The step of a channel completes (R206, R207): context, codes, DIVERGED with its count and Hallmark record, and the reset
that waited for it (R225). -/
def State.stepDone (c : Nat) (s : State) : State :=
  match s.chan c with
  | some ch =>
    match ch.running, s.stepModel ch.handle with
    | some i, some m =>
      let r := mstep m (ch.miss == 1) ch.ctx i
      let codes : StepCodes := { stamp := i.stamp, resid := r.2.1, drift := r.2.2.1, fcast := r.2.2.2 }
      let s1 := s.modChan c fun x =>
        { x with ctx := r.1, running := none, done := x.done ++ [codes],
                 lateSteps := if i.stamp ≤ x.lateFrom then satAdd 32 x.lateSteps 1 else x.lateSteps }
      let s2 := if r.1.bad then
        (((s1.modChan c fun x => { x with diverged := true, pend := [] }).modModel fun u =>
          { u with diverged := satAdd 32 u.diverged 1 }).voidRollouts c).stage 0x0702 .notice 0 (c * 2 ^ 32 + m.modelVer.toNat)
        else s1
      if ch.resetDue then s2.resetChan c
      else if r.1.bad then s2
      else
        let val := fun (sel : Nat) (k : Nat) =>
          if k = c then some (((if sel = 0 then codes.resid else if sel = 1 then codes.drift else codes.fcast) : Nat) : Int)
          else none
        [0, 1, 2].foldl (fun t sel => t.leafSample 3 0 sel i.stamp (val sel)) s2
    | _, _ => s.modChan c fun x => { x with running := none }
  | none => s

/-! ### Rollouts (R214) -/

/-- The forecasts of a copy of a context: `h` values, the first given. -/
def rolloutVals (m : MModel) : Nat → List Nat → Nat → List Nat → List Nat
  | 0, _, _, _ => []
  | h + 1, x, f, last =>
    let u := last.set m.target f
    let st := stateStage m x u
    f :: rolloutVals m h st.1 st.2 u

/-- ROLLOUT_COMPLETE (R214): the rollout of a command ends; its final reply is ready. -/
def execRolloutComplete (path : Path) (tag : BitVec 16) (s : State) : Host.Outcome State Fault Refusal :=
  match s.model.rollouts.find? fun r => r.path == path && r.tag == tag with
  | some r =>
    if s.engUp then
      let f : Final := finOk 0 (be 8 r.stamp ++ be 4 r.cep ++ be 4 r.n) (r.vals.map (be 4)).flatten
      let done := fun (a : Acc) => if a.path == path && a.tag == tag && a.opcode == 0x0608 then { a with ready := some f } else a
      .next ((s.modModel fun u => { u with rollouts := u.rollouts.filter fun x => !(x.path == path && x.tag == tag) }).modCmd
        fun c => { c with acc := c.acc.map done })
    else .next s
  | none => .next s

/-! ### Switches (R192, R220) -/

/-- Every channel that is, or is about to be, on a replaced handle moves on to the new one at its first step stamped at or after ACT_AT
(R220). -/
def State.moveChans (o i a : Nat) (s : State) : State :=
  s.modModel fun u => { u with chans := tmap u.chans fun _ x =>
    if x.handles.getLast? = some o then { x with moves := x.moves ++ [(i, a)] } else x }

/-- The replacements of a handle that are accepted, in order: each with the handle that replaces and its ACT_AT. -/
def State.movesOf (s : State) : Nat → Nat → List (Nat × Nat)
  | 0, _ => []
  | k + 1, h =>
    match ((List.range 16).zip s.model.mill).find? fun e =>
        e.2.h.repl == some h && (e.2.h.actAt.isSome || e.2.h.st == .active) with
    | some e => (e.1, e.2.h.actAt.getD e.2.h.since) :: s.movesOf k e.1
    | none => []

/-- A handle becomes ACTIVE with the stamps from `a` on, in place of the handle it replaces (R192, R230). -/
def State.switchOn (mill : Bool) (i a : Nat) (s : State) : State :=
  let old := (s.hnd mill i).repl.filter fun o => (s.hnd mill o).st == .active || (s.hnd mill o).st == .stopped
  let s1 := s.modHnd mill i fun h => { h with st := .active, actAt := none, since := a, til := none, repl := old }
  match old with
  | none => s1
  | some o =>
    let s2 := s1.modHnd mill o fun h => { h with til := some (match h.til with | some t => min t a | none => a) }
    if mill then s2.millSettle o else (s2.rebindScores o i).quernSettle o

/-- A pending activation whose instant has come. -/
def State.switchIfDue (mill : Bool) (s : State) (i : Nat) : State :=
  match (s.hnd mill i).actAt with
  | some a => if (s.hnd mill i).st = .loaded ∧ a ≤ s.tb0Ns then s.switchOn mill i a else s
  | none => s

/-- Every pending activation whose instant has come: an input stamped at ACT_AT belongs to the new model (Tables 7.12 and 8.8). -/
def State.switchDue (s : State) : State :=
  (List.range 16).foldl (State.switchIfDue true) ((List.range 16).foldl (State.switchIfDue false) s)

/-- ACT_AT_REACHED (R192, R220): the activation instant of a handle. -/
def execActAtReached (millrace : Bool) (handle : Fin 16) (s : State) : Host.Outcome State Fault Refusal :=
  if s.engUp then .next (s.switchIfDue millrace handle.val).quernSettleAll.millSettleAll else .next s

end Sys2Proof.Machine
end

