-- ==== Sys2Proof/Machine/Features.lean ====
section
/-! DEFINITION. Feature maps and vectors (R89 to R93, R210, R492), the sample boundary with everything that hangs on it, and the
commands on sets and maps. -/

namespace Sys2Proof.Machine

/-! ### Descriptors (Tables 3.8 and 3.9) -/

/-- Fields of a descriptor. -/
def dOp (d : BitVec 128) : Nat := bits d.toNat 127 124
def dQmode (d : BitVec 128) : Nat := bits d.toNat 123 122
def dStretchOk (d : BitVec 128) : Bool := bit d.toNat 121
def dA (d : BitVec 128) : Nat := bits d.toNat 119 106
def dB (d : BitVec 128) : Nat := bits d.toNat 105 92
def dOffset (d : BitVec 128) : Nat := bits d.toNat 63 32
def dScale (d : BitVec 128) : Nat := bits d.toNat 31 0

/-- A counter that a map of a set may name: its own set's, or a light-set counter (R90). -/
def mapCounterOk (set : Nat) (banks : Dword) (n : Nat) : Bool := decide (n < 256) || inSet set banks n

/-- A descriptor that COLLECT.MAP takes: OP and QMODE not reserved, reserved bits 0, the source fields that the operation uses
in range (R90, R208). -/
def descOk (set : Nat) (banks : Dword) (d : BitVec 128) : Bool :=
  let c := mapCounterOk set banks
  decide (dOp d ≤ 9) && dQmode d != 3 && !bit d.toNat 120 && bits d.toNat 91 64 == 0 &&
    match dOp d with
    | 1 => c (dA d)
    | 2 => c (dA d)
    | 3 => c (dA d) && c (dB d)
    | 4 => c (dA d) && c (dB d)
    | 5 => c (dA d)
    | 6 => c (dA d) && decide (dB d < 272)
    | 7 => decide (dA d < 32)
    | 8 => decide (dB d < 2)
    | 9 => decide (dA d < 4096) && decide (dB d < 3)
    | _ => true

/-! ### Values (R71, R90 to R92) -/

/-- The code of a value x by QMODE (R91). -/
def quantise (qmode x off sc : Nat) : Nat :=
  match qmode with
  | 0 => fcode32 (fm32 (fs32 x off) sc) 0
  | 1 =>
    if fnan32 x then 0xFFFF
    else if x % 2 ^ 31 = 0 then 0
    else if fneg32 x then 0xFFFF
    else
      let g : FV := match fdec f32 x with
        | .fin _ m e =>
          let k := bitLen m - 1
          let n : Int := (e + k) * 2 ^ k + ((m : Int) - 2 ^ k)
          .fin (decide (n < 0)) n.natAbs (-(k : Int))
        | v => v
      let q := fcode32 (fm32 (f32Bits (fsub f32 g (fdec f32 off))) sc) 1
      if q = 0xFFFF then 0xFFFF else max 1 q
  | _ => fcode32 x 0

/-- The sample that a counter's value comes from: the set's own, or the light set's latest (R90). -/
def State.srcSet (s : State) (set n : Nat) : SampleSet := if n < 256 then s.set 0 else s.set set

/-- A counter's delta (Table 3.9), exact under R78. -/
def SampleSet.delta (x : SampleSet) (n : Nat) : Int :=
  let a := getCounter x.cur.vals n
  ((a.val.toNat + 2 ^ 48 * a.wraps.toNat : Nat) : Int) - (getCounter x.prev.vals n).val.toNat

/-- A counter whose value is missing in a vector of a set (R89, R92): its last sample saw an uncorrectable read, it left the
set, or the light set has no sample, or no baseline where a delta is taken. -/
def State.srcMissing (s : State) (set n : Nat) (delta : Bool) : Bool :=
  let x := s.srcSet set n
  x.eccLast.contains n || !mapCounterOk set (s.set set).banks n
    || (decide (n < 256) && decide (x.taken < (if delta then 2 else 1)))

/-- RS of a sample: 10^9 ÷ d rounded once (Table 3.9). -/
def rateScale (x : SampleSet) : Nat :=
  let d : Int := (x.cur.stamp : Int) - x.cur.start
  f32Bits (fdiv f32 (.fin false 1000000000 0) (.fin (decide (d < 0)) d.natAbs 0))

/-- A counter's count since the set's last sample, at a later instant (R78). -/
def Counter.since (a : Counter) (b : Counter) : Int :=
  ((a.val.toNat + 2 ^ 48 * a.wraps.toNat : Nat) : Int) - b.val.toNat

/-- The nominal period of a region in nanoseconds: 1,024 AO cycles of 6.4 ns over its nominal cycles (R70, R71). -/
def nomPeriod (r : Nat) : Nat := f32Bits (fdiv f32 (.fin false 65536 0) (.fin false (10 * Config.regionNom r) 0))

/-- cycles × nominal period ÷ ρ of the monitor window in which they fell, each operation rounded (R71, R91). ρ of a window that has not
ended at the sample, or of a region without a monitor, has no value yet: the term is a free value (log entry 27). -/
def State.cycPart (s : State) (r : Nat) (obs : Option Nat) (n : Int) : Nat :=
  if n = 0 then 0
  else match obs with
    | some (o + 1) => fd32 (fm32 (fi32 n) (nomPeriod r)) (fd32 (fi32 (o + 1 : Nat)) (fi32 (Config.regionNom r)))
    | _ => Config.cycTime s.time.freeCount n r % 2 ^ 32

/-- The cycles of a counter in the last sample's window, in nanoseconds, window by window and summed oldest first (R71): each monitor
window takes what the counter gained since the window before it. -/
def State.cycleTime (s : State) (x : SampleSet) (n r : Nat) : Nat :=
  let last := (getCounter x.cur.vals n).since (getCounter x.prev.vals n)
  let p := x.cur.mons.foldl (fun (p : Nat × Int) w =>
    let d := (getCounter w.vals n).since (getCounter x.prev.vals n)
    (fa32 p.1 (s.cycPart r (tget w.obs r) (d - p.2)), d)) (0, 0)
  fa32 p.1 (s.cycPart r none (last - p.2))

/-- The value of a descriptor as binary32 bits; `none` where R92 says it is missing. `stops` are the regions found stopped in the
window, `stretch` that a monitor window was stretched. RESID and OFF have no value here. -/
def State.featValue (s : State) (set : Nat) (stretch : Bool) (stops : List Nat) (d : BitVec 128) : Option Nat :=
  let a := dA d
  let b := dB d
  let da := (s.srcSet set a).delta a
  let db := (s.srcSet set b).delta b
  match dOp d with
  | 1 => if s.srcMissing set a true then none else some (fi32 da)
  | 2 => if s.srcMissing set a true then none else some (fm32 (fi32 da) (rateScale (s.srcSet set a)))
  | 3 =>
    if s.srcMissing set a true || s.srcMissing set b true || db == 0 then none else some (fd32 (fi32 da) (fi32 db))
  | 4 => if s.srcMissing set a true || s.srcMissing set b true then none else some (fi32 (da - db))
  | 5 => if s.srcMissing set a false then none else some (fi32 (getCounter (s.srcSet set a).cur.vals a).val.toNat)
  | 6 =>
    if s.srcMissing set a true || stops.contains b || (stretch && !dStretchOk d) then none
    else some (s.cycleTime (s.srcSet set a) a b)
  | 7 => some (fi32 (b2n ((s.disc a).state == some true)))
  | 8 => some (fi32 (s.grantValue b))
  | _ => none

/-- The code of a descriptor other than RESID (R91, R92). -/
def State.featCode (s : State) (set : Nat) (stretch : Bool) (stops : List Nat) (d : BitVec 128) : Nat :=
  match s.featValue set stretch stops d with
  | some x => quantise (dQmode d) (x % 2 ^ 32) (dOffset d) (dScale d)
  | none => 0xFFFF

/-! ### Vectors (R93, R210) -/

/-- The assembled vectors that a cut may still take. -/
def State.freshRemote (s : State) : List Asm :=
  s.model.remote.filter fun a => decide (s.tb0Ns < a.stamp + 10000000000 + 4 * s.cutP s.isSpine)

/-- FEATURES records of a vector: up to 1,010 codes each (Table 4.4). -/
def State.sendFeatures (v : HeldVec) (s : State) : State :=
  let ps := piecesOf 1010 2 v.codes
  (List.range ps.length).foldl (fun t i =>
    let p := ps.getD i []
    t.send { dst := .up, cls := 2, typ := tFeatures, unit := uCollect, flags := v.flags, stamp := some v.stamp,
             body := be 1 v.set ++ zeros 1 ++ be 2 p.length ++ be 2 (1010 * i) ++ zeros 2 ++ (p.map (be 2)).flatten }) s

/-- This block's own vectors as a GATHER model takes them (R189): kept with those of other blocks where an entry names this block. -/
def State.keepOwn (set stamp : Nat) (flags : BitVec 8) (codes : List Nat) (s : State) : State :=
  let named := s.model.quern.any fun q => match q.model with
    | some m => m.inmode == 2 && m.gather.any fun g => g.1 == s.sys.laddr.toNat && g.2.1 == set
    | none => false
  if named then s.modModel fun u =>
    { u with remote := (s.freshRemote) ++ [({ src := s.sys.laddr, set := set, stamp := stamp, flags := flags,
                                              codes := (List.range codes.length).zip codes, started := [] } : Asm)] }
  else s

/-- A vector is whole: its RESID codes are taken, missing codes counted, and it goes to Quern, to the reductions over features
and into FEATURES records. Channels whose step has not come are marked late (R210). -/
def State.releaseVec (v : HeldVec) (s : State) : State :=
  let codes := v.resid.foldl (fun l r => l.set r.1 (s.chanCode r.2.1 r.2.2 v.stamp)) v.codes
  let late := (v.resid.filter fun r => !s.chanReady r.2.1 v.stamp).map fun r => r.2.1
  let s0 := late.foldl (fun t c => t.modChan c fun x => { x with lateFrom := max x.lateFrom v.stamp }) s
  let s1 := s0.bumpN cFeatureMissing (codes.filter (· == 0xFFFF)).length
  let s2 := s1.modColl fun c =>
    { c with vecs := tput c.vecs v.set { stamp := v.stamp, flags := v.flags, codes := codes.map (BitVec.ofNat 16) } }
  let s3 := (s2.quernLocal v.set v.stamp v.flags codes).keepOwn v.set v.stamp v.flags codes
  let s4 := s3.leafSample 1 v.set 0 v.stamp fun k => (codes[k]?).map fun n => ((n : Nat) : Int)
  s4.sendFeatures { v with codes := codes }

/-- Every held vector that waits no longer is released, in order of formation. -/
def State.heldSettle (s : State) : State :=
  let go := s.model.held.filter fun v => v.resid.all fun r => s.chanReady r.2.1 v.stamp
  let s1 := s.modModel fun u => { u with held := u.held.filter fun v => !(v.resid.all fun r => s.chanReady r.2.1 v.stamp) }
  let s2 := go.foldl (fun t v => t.releaseVec v) s1
  if go.isEmpty then s2 else s2.quernSettleAll

/-- The map that a boundary's vector takes: one loaded in an earlier cycle takes effect (R93). -/
def State.mapApply (set : Nat) (s : State) : State :=
  match (s.set set).mapNext with
  | some (t, m) => if t < s.tb0Ns then s.modSet set fun x => { x with map := m, mapNext := none } else s
  | none => s

/-- The feature vector of the sample just taken (R90 to R93, R492): the LOCAL channels of the set take it at once, and it is
held while a RESID code is to come. -/
def State.formVec (set nwin : Nat) (stretch : Bool) (stops : List Nat) (flags : BitVec 8) (s0 : State) : State :=
  let s := s0.mapApply set
  let m := (s.set set).map
  if m.isEmpty then s
  else
    let b := (s.set set).cur.stamp
    let codes := m.map fun d => if dOp d = 9 then 0xFFFF else s.featCode set stretch stops d
    let resid := ((List.range m.length).zip m).filterMap fun e => if dOp e.2 = 9 then some (e.1, dA e.2, dB e.2) else none
    let v : HeldVec := { set := set, stamp := b, flags := flags, nwin := nwin, codes := codes, resid := resid }
    let raw := ((List.range m.length).zip codes).map fun e =>
      if resid.any fun r => r.1 == e.1 then none else some e.2
    let s1 := s.tickFree.millLocal set b (decide (1 < nwin)) raw
    (s1.modModel fun u => { u with held := u.held ++ [v] }).heldSettle

/-- What follows a sample of a set: leaf samples of counters and, at a light-set sample, of the grant; the congestion map; the
feature vector in RUN. -/
def State.afterSample (set nwin start : Nat) (x : SampleSet) (boundary : Bool) (s : State) : State :=
  let y := s.set set
  let val := fun (k : Nat) => if inSet set y.banks k then some (y.delta k) else none
  let s1 := s.leafSample 0 set 0 y.cur.stamp val
  let s2 := if set = 0 then
      [0, 1].foldl (fun t b => t.leafSample 4 0 b y.cur.stamp fun k =>
        if k = 0 then some ((s.grantValue b : Nat) : Int) else none) s1
    else s1
  let s3 := s2.sendMap set nwin start
  if s.pow.pstate = .run ∧ s.engUp then s3.formVec set nwin x.stretch x.stops (setFlags x boundary) else s3

/-- SAMPLE_BOUNDARY (R83 to R87, R491, R493): the sample, what hangs on it, and the changes that take effect at the
boundary. -/
def execSampleBoundary (set : Fin 16) (drained : Bool) (s : State) : Host.Outcome State Fault Refusal :=
  let i := set.val
  let s1 := s.switchDue
  let x := s1.set i
  match s1.boundary i drained with
  | some (t, true) =>
    let n := x.passed s1.tb0Ns + x.merged
    .next ((t.afterSample i n x.winStart x false).setApply i)
  | some (t, false) => .next t
  | none => .next s

/-- RESID_WAIT_EXPIRY (R210): vectors of the set whose hold has ended. A step that completes in the cycle of the expiry is still used
(Table 8.8), so the row acts from the next cycle on (log entry 82). -/
def execResidWaitExpiry (set : Fin 16) (s : State) : Host.Outcome State Fault Refusal :=
  let due := fun (v : HeldVec) => v.set == set.val && s.past0 (v.stamp + s.model.residWait)
  if s.engUp && s.model.held.any due then
    let go := s.model.held.filter due
    let s1 := s.modModel fun u => { u with held := u.held.filter fun v => !due v }
    .next (go.foldl (fun t v => t.releaseVec v) s1).quernSettleAll
  else .next s

/-- MILLRACE_STEP_COMPLETE (R206, R210, R217): the step in progress ends, and vectors that waited for it go on. -/
def execMillraceStepComplete (ch : Fin 4096) (s : State) : Host.Outcome State Fault Refusal :=
  match s.chan ch.val with
  | some c => if s.engUp && c.running.isSome then .next (s.stepDone ch.val).heldSettle.millSettleAll else .next s
  | none => .next s

/-! ### Vectors of other blocks (R188, R211) -/

/-- A vector of (source, set) that some model or channel of this node takes. -/
def State.wantsRemote (s : State) (src : Laddr) (set : Nat) : Bool :=
  (s.model.quern.any fun q => match q.model with
    | some m => (m.inmode == 1 && m.set == set && s.below.contains src.toNat)
      || (m.inmode == 2 && m.gather.any fun g => g.1 == src.toNat && g.2.1 == set)
    | none => false)
  || s.model.chans.any fun e => e.2.kind == 1 && e.2.src == src && e.2.set == set

/-- The assembly of one vector. -/
def State.asmOf (s : State) (src : Laddr) (set stamp : Nat) : Option Asm :=
  s.model.remote.find? fun a => a.src == src && a.set == set && a.stamp == stamp

/-- The EACH handles that take an assembled vector and have not started on it (R188, R192). -/
def State.eachTakers (s : State) (a : Asm) : List Nat :=
  if s.below.contains a.src.toNat then (s.takers 1 a.set a.stamp).filter fun i => !a.started.contains i else []

/-- The REMOTE channels that take an assembled vector and have not started on it. -/
def State.remoteTakers (s : State) (a : Asm) : List (Nat × Channel) :=
  s.model.chans.filter fun e => e.2.kind == 1 && e.2.src == a.src && e.2.set == a.set && !a.started.contains (100 + e.1)

/-- Every position that a channel reads has arrived. -/
def chanWhole (c : Channel) (a : Asm) : Bool := c.idx.all fun j => (tget a.codes j).isSome

/-- What a new FEATURES record completes (R188, R211). -/
def State.remoteWhole (src : Laddr) (set stamp : Nat) (s : State) : State :=
  match s.asmOf src set stamp with
  | none => s
  | some a =>
    let s1 := ((s.eachTakers a).filter fun i => s.eachWhole i a).foldl (fun t i => t.startEach i a) s
    ((s.remoteTakers a).filter fun e => chanWhole e.2 a).foldl (fun t e => t.millRemote e.1 a) s1

/-- A FEATURES record that Hopper accepted. -/
def State.rxFeatures (r : Rec) (s : State) : State :=
  let b := r.body
  let set := rd b 0 1
  match s.extend r.src r.cls.toNat r.stamp.toNat with
  | none => s
  | some st =>
    if !s.wantsRemote r.src set then s
    else
      let first := rd b 4 2
      let new := (List.range (rd b 2 2)).map fun i => (first + i, rd b (8 + 2 * i) 2)
      let fl := r.flags &&& (fStretch ||| fClkstop ||| fBoundary)
      let keep := s.freshRemote
      let s1 := s.modModel fun u =>
        match s.asmOf r.src set st with
        | some _ => { u with remote := keep.map fun a =>
            if a.src == r.src && a.set == set && a.stamp == st then
              { a with codes := new.foldl (fun t e => tput t e.1 e.2) a.codes, flags := a.flags ||| fl }
            else a }
        | none => { u with remote := keep ++ [({ src := r.src, set := set, stamp := st, flags := fl,
                                                 codes := new.foldl (fun t e => tput t e.1 e.2) [], started := [] } : Asm)] }
      let lates := match s.asmOf r.src set st with | some a => a.started.filter (· < 16) | none => []
      let s2 := lates.foldl (fun t i => t.modQ i fun q => { q with late := satAdd 32 q.late 1 }) s1
      s2.switchDue.remoteWhole r.src set st

/-- EACH_WAIT_EXPIRY (R188): a handle's vectors of a source whose wait is over are evaluated as they stand, and REMOTE channels
of that source take theirs. A record that comes in the cycle of the expiry is used (Table 7.12), so the row acts from the next cycle on
(log entry 82). -/
def execEachWaitExpiry (handle : Fin 16) (src : Laddr) (s : State) : Host.Outcome State Fault Refusal :=
  let due := s.model.remote.filter fun a => a.src == src && s.past0 (a.stamp + s.model.eachWait)
  if s.engUp then
    let s1 := due.foldl (fun t a =>
      if (t.eachTakers a).contains handle.val then t.startEach handle.val a else t) s.switchDue
    let s2 := due.foldl (fun t a => (t.remoteTakers a).foldl (fun u e => u.millRemote e.1 a) t) s1
    .next s2.quernSettleAll.millSettleAll
  else .next s

/-! ### Commands of Table 16.9 -/

/-- COLLECT.SET for SET 1 to 15 is refused while ENG is stopped (Table 16.24). -/
def opCollectSet (set : Nat) : OpSpec := mkOp 0x0301 [.v 1, .r 3, .v 4, .v 8] rDTS wFT (set == 0)

/-- The sets' lists of banks as they are or will be, but for one set. -/
def State.otherBanks (s : State) (i : Nat) : Nat :=
  (((List.range 16).zip s.coll.sets).map fun e => if e.1 = i then 0 else (e.2.banksNext.getD e.2.banks).toNat).foldl (· ||| ·) 0

/-- COLLECT.SET (Table 3.6, R83, R196, R215, R491). -/
def execCollectSet (c : Cmd) (s : State) : Host.Outcome State Fault Refusal :=
  let i := cp c 0 1
  let win := cp c 4 4
  let step := if i = 0 then 10 else 100
  let banks := BitVec.ofNat 64 (cp c 8 8)
  let eff := fun (t : State) => t.modSet i fun x =>
    { x with winNext := some (win * 1000),
             banksNext := if i ≠ 0 ∧ (banks ≠ x.banks ∨ x.banksNext.isSome) then some banks else none }
  .next (runCmd (opCollectSet i) c
    [ckNoInline c, ckParam (if i = 0 then banks == 0 else !bit banks.toNat 0 && banks.toNat &&& s.otherBanks i == 0) 8,
     ckRange (decide (i < 16)) 0, ckRange (win % step == 0 && decide (step ≤ win) && decide (win ≤ 10000000)) 4]
    [ckCap (eff s).ratesOk 0] (fun t => .ok 0 [] [] (eff t)) s)

def opCollectArm : OpSpec := mkOp 0x0302 [.v 1] rDTS wFT false

/-- COLLECT.ARM (R88, R490): the boundary sample of a window in progress, or the report of asleep windows; then the reset
cycle. -/
def execCollectArm (c : Cmd) (s : State) : Host.Outcome State Fault Refusal :=
  let i := cp c 0 1
  .next (runCmd opCollectArm c [ckNoInline c, ckRange (decide (1 ≤ i) && decide (i < 16)) 0] []
    (fun t =>
      let x := t.set i
      let r := t.armSample i
      let t1 := if r.2 then r.1.afterSample i (t.armWindows i) x.winStart x true else r.1
      .ok 0 [] [] (t1.armReset i c.tag)) s)

def opCollectMap : OpSpec := mkOp 0x0303 [.v 1, .r 1, .v 2, .r 4, .ptr] rDTS wFT false

/-- Descriptors of every map but one. -/
def State.otherMaps (s : State) (i : Nat) : Nat :=
  (((List.range 16).zip s.coll.sets).map fun e =>
    if e.1 = i then 0 else match e.2.mapNext with | some m => m.2.length | none => e.2.map.length).sum

/-- COLLECT.MAP (R90, R93). -/
def execCollectMap (c : Cmd) (s : State) : Host.Outcome State Fault Refusal :=
  let i := cp c 0 1
  let n := cp c 2 2
  let ds := (List.range n).map fun k => BitVec.ofNat 128 (rd (cdata c 0) (16 * k) 16)
  let banks := (s.set i).banksNext.getD (s.set i).banks
  .next (runCmd opCollectMap c
    [ckData opCollectMap c 0 (16 * n), ckParam (decide (16 ≤ i) || ds.all (descOk i banks)) 8, ckRange (decide (i < 16)) 0,
     ckRange (decide (n ≤ 1024)) 2]
    [ckCap (decide (s.otherMaps i + n ≤ 4096)) (4096 - s.otherMaps i)]
    (fun t => .ok 0 [] [] (t.modSet i fun x => { x with mapNext := some (t.tb0Ns, ds) })) s)

end Sys2Proof.Machine
end

