-- ==== Sys2Proof/Machine/Models.lean ====
section
/-! DEFINITION. The life of model handles and channels (R179, R187, R191 to R194, R212, R214, R219 to R221, R431), the close of
cuts, and the commands of Table 16.13. -/

namespace Sys2Proof.Machine

/-! ### Loads (R179, R191, R224, R431) -/

/-- The handle returns to EMPTY and the command gets its error. -/
def State.loadFail (mill : Bool) (i : Nat) (st : BitVec 16) (s : State) : State :=
  let s1 := if mill then s.modM i fun _ => { h := handleReset, model := none } else s.modQ i fun _ => emptyQ
  s1.setReady 0x0600 (hndObj mill i) (finErr st)

/-- MODELID and MODELVER as the final reply carries them. -/
def loadReply (id ver : Word) : Final := finOk 0 (be 4 id.toNat ++ be 4 ver.toNat) []

/-- Quern's memory takes a further model of a shape, a handle's own load left out of the sums (R194). -/
def State.quernTakes (s : State) (i : Nat) (x : Nat × Nat × Nat) : Bool :=
  quernFits (x :: (s.modQ i fun _ => emptyQ).quernResident)

/-- Millrace's memory takes an image of a length, a handle's own load left out of the sum (R221). -/
def State.millTakes (s : State) (i len : Nat) : Bool :=
  decide ((s.modM i fun x => { x with h := { x.h with len := 0 } }).millBytes + len ≤ 8388608)

/-- A whole image is checked; the handle becomes LOADED or EMPTY (R179, R194, R221, R224, R436). -/
def State.loadCheck (mill : Bool) (i : Nat) (image : List Byte) (s : State) : State :=
  if mill then
    let r := checkMill image
    match r.2 with
    | some m =>
      if s.hoist.hdr.mmax < 1 then s.loadFail mill i stParam
      else if !s.millTakes i m.len then s.loadFail mill i stCapacity
      else (s.modM i fun x => { x with h := { x.h with st := .loaded, image := [] }, model := some m }).setReady 0x0600
        (hndObj mill i) (loadReply m.modelId m.modelVer)
    | none => s.loadFail mill i r.1
  else
    let r := checkQuern image
    match r.2 with
    | some m =>
      if s.hoist.hdr.qmax < 1 then s.loadFail mill i stParam
      else if !s.quernTakes i (m.trees.length, m.w, m.k) then s.loadFail mill i stCapacity
      else (s.modQ i fun x => { x with h := { x.h with st := .loaded, image := [] }, model := some m }).setReady 0x0600
        (hndObj mill i) (loadReply m.modelId m.modelVer)
    | none => s.loadFail mill i r.1

/-- MODEL_LOAD_COMPLETE (R179, R224): an image from flash or from a pointer has been read and is checked. -/
def execModelLoadComplete (millrace : Bool) (handle : Fin 16) (s : State) : Host.Outcome State Fault Refusal :=
  let h := s.hnd millrace handle.val
  if s.engUp && h.st == .loading && h.lsrc != 2 then
    .next (s.loadCheck millrace handle.val (if h.lsrc = 0 then lget s.flash.models h.slot [] else h.image))
  else .next s

/-- The capacity that a header allows (R191, R194, R221): where it fails its own checks the load goes on, and fails in them. -/
def State.headFits (s : State) (mill : Bool) (i : Nat) (image : List Byte) : Bool :=
  if mill then (match millLen image with | some l => s.millTakes i l | none => true)
  else match quernShape image with | some x => s.quernTakes i x | none => true

/-- A chunk of a MODEL broadcast reaches a load that names its BID (R431): a gap ends the load with E_CHECK, a header that breaks the
capacity with E_CAPACITY before anything is written (R191), the last chunk leads to the check. -/
def State.loadChunk (mill : Bool) (i : Nat) (bid : Word) (chunk nchunk : Nat) (data : List Byte) (s : State) : State :=
  let h := s.hnd mill i
  if h.st = .loading ∧ h.lsrc = 2 ∧ h.bid = bid then
    if chunk ≠ h.next then s.loadFail mill i stCheck
    else if chunk = 0 ∧ !s.headFits mill i data then s.loadFail mill i stCapacity
    else
      let len := if chunk = 0 then (millLen data).getD h.len else h.len
      let s1 := s.modHnd mill i fun x => { x with next := x.next + 1, image := x.image ++ data, len := len }
      if chunk + 1 = nchunk then s1.loadCheck mill i (h.image ++ data) else s1
  else s

/-- A chunk of a MODEL broadcast at every handle (R431). -/
def State.loadChunks (bid : Word) (chunk nchunk : Nat) (data : List Byte) (s : State) : State :=
  (List.range 16).foldl (fun t i => (t.loadChunk false i bid chunk nchunk data).loadChunk true i bid chunk nchunk data) s

/-- MODEL_BROADCAST_WAIT_EXPIRY (R431): a load whose BID has not begun within HOIST_WAIT. -/
def execModelBroadcastWaitExpiry (millrace : Bool) (handle : Fin 16) (s : State) : Host.Outcome State Fault Refusal :=
  let h := s.hnd millrace handle.val
  if s.engUp && h.st == .loading && h.lsrc == 2 && h.next == 0 && decide (h.loadAt + s.hoistWait ≤ s.tb1Ns) then
    .next (s.loadFail millrace handle.val stTimeout)
  else .next s

def opModelLoad : OpSpec := mkOp 0x0600 [.v 1, .v 1, .v 1, .v 1, .v 4, .ptr, .v 4] rDTS wFT false

/-- The capacity of an engine for a load (R194, R221): by the image's header, and by LEN of the command for a Millrace image that a
broadcast is to bring. -/
def State.loadFits (s : State) (mill : Bool) (i src : Nat) (image : List Byte) (len : Nat) : Bool :=
  if src = 2 then !mill || s.millTakes i len else s.headFits mill i image

/-- MODEL.LOAD (R179, R191, R194, R219, R221, R224, R431). -/
def execModelLoad (c : Cmd) (s : State) : Host.Outcome State Fault Refusal :=
  let mill := cp c 0 1 == 1
  let i := cp c 1 1
  let src := cp c 2 1
  let slot := cp c 3 1
  let len := cp c 4 4
  let image := if src = 0 then lget s.flash.models slot [] else if src = 1 then cdata c 0 else []
  .next (runCmd opModelLoad c
    [ckParam (decide (cp c 0 1 ≤ 1)) 0, ckParam (decide (src ≤ 2)) 2, ckParam (src != 1 || c.path == .localQueue) 2,
     ckData opModelLoad c 0 (if src = 1 then len else 0), ckRange (decide (i < 16)) 1, ckRange (src != 0 || decide (slot ≤ 3)) 3]
    [ckState ((s.hnd mill i).st == .empty), ckState (src != 0 || (s.dirEnt (2 + slot)).st == .valid),
     ckCap (s.loadFits mill i src image len) 0]
    (fun t => .acc (hndObj mill i) none ((if src = 0 then t.readFlash (regionBase 1 slot) image.length else t).modHnd mill i fun _ =>
      { handleReset with st := .loading, lsrc := src, slot := slot, len := if src = 2 then len else (millLen image).getD 0,
                         bid := BitVec.ofNat 32 (cp c 16 4), image := if src = 1 then image else [], loadAt := t.tb1Ns })) s)

def opModelActivate : OpSpec := mkOp 0x0601 [.v 1, .v 1, .v 1, .r 5, .v 8] rDTS wFT false

/-- The channels of a replaced handle move on (R220). -/
def State.moveIf (mill : Bool) (i a : Nat) (repl : Option Nat) (s : State) : State :=
  match repl with | some o => if mill then s.moveChans o i a else s | none => s

/-- What an activation needs (R196, R215, R221): the rates with the handle ACTIVE beside every one that is, the handle it replaces
included, and the memory of the channels that are to move. -/
def State.asIfActive (s : State) (mill : Bool) (i : Nat) (repl : Option Nat) : Bool :=
  let t := s.moveIf mill i 0 repl
  if mill then
    (t.millAdmits (t.model.chans.map (·.2)) fun h => if h = i then (s.mh i).model else s.millActive h)
      && decide (t.millBytes ≤ 8388608)
  else s.quernAdmits (s.activeModels (some i))

/-- MODEL.ACTIVATE (R187, R192, R196, R215, R220). -/
def execModelActivate (c : Cmd) (s : State) : Host.Outcome State Fault Refusal :=
  let mill := cp c 0 1 == 1
  let i := cp c 1 1
  let rp := cp c 2 1
  let repl := if rp = 0xFF then none else some rp
  let a := cp c 8 8
  let q := (s.qh i).model
  let far := !mill && match q with | some m => m.inmode != 0 | none => false
  let mapLen := fun (set : Nat) => match (s.set set).mapNext with | some m => m.2.length | none => (s.set set).map.length
  let featOk := mill || match q with | some m => m.inmode != 0 || decide (m.nfeat ≤ mapLen m.set) | none => true
  let sameKind := match repl with
    | none => true
    | some o => (s.hnd mill o).st == .active && (mill || match q, (s.qh o).model with
        | some m, some n => m.inmode == n.inmode && m.set == n.set
        | _, _ => false)
  .next (runCmd opModelActivate c
    [ckNoInline c, ckStatus (!far || !s.isDie || s.sys.acting) stRole, ckParam (decide (cp c 0 1 ≤ 1)) 0, ckParam featOk 1,
     ckRange (decide (i < 16)) 1, ckRange (rp == 0xFF || decide (rp < 16)) 2]
    [ckState ((s.hnd mill i).st == .loaded && (s.hnd mill i).actAt.isNone), ckState sameKind,
     ckCap (s.asIfActive mill i repl) 0]
    (fun t =>
      let at1 := if a = 0 then t.tb0Ns else a
      .ok 0 [] [] (((t.modHnd mill i fun h => { h with repl := repl, actAt := some at1 }).moveIf mill i at1 repl).switchIfDue mill
        i)) s)

def opModelDeactivate : OpSpec := mkOp 0x0602 [.v 1, .v 1] rDTS wFT false

/-- MODEL.DEACTIVATE (R192, R219): ACTIVE to LOADED; vectors that had not started deliver MISSING. -/
def execModelDeactivate (c : Cmd) (s : State) : Host.Outcome State Fault Refusal :=
  let mill := cp c 0 1 == 1
  let i := cp c 1 1
  .next (runCmd opModelDeactivate c
    [ckNoInline c, ckParam (decide (cp c 0 1 ≤ 1)) 0, ckRange (decide (i < 16)) 1]
    [ckState ((s.hnd mill i).st == .active)]
    (fun t =>
      let pend := (t.qh i).pend
      let t1 := (t.modHnd mill i fun h => { h with st := .loaded, til := none }).modModel (ModelUnit.forget mill i)
      .ok 0 [] [] (if mill then t1.modModel fun u =>
          { u with chans := tmap u.chans fun _ x => if x.handle = i then { x with pend := [], gapNext := true } else x }
        else (t1.modQ i fun q => { q with pend := [] }).deliverMissing i pend)) s)

def opModelUnload : OpSpec := mkOp 0x0603 [.v 1, .v 1] rDTS wFT false

/-- MODEL.UNLOAD (R193, R219): complete once no evaluation runs. -/
def execModelUnload (c : Cmd) (s : State) : Host.Outcome State Fault Refusal :=
  let mill := cp c 0 1 == 1
  let i := cp c 1 1
  .next (runCmd opModelUnload c
    [ckNoInline c, ckParam (decide (cp c 0 1 ≤ 1)) 0, ckRange (decide (i < 16)) 1]
    [ckState ((s.hnd mill i).st == .loaded || (s.hnd mill i).st == .stopped),
     ckState (!mill || !(s.model.chans.any fun e => e.2.handle == i))]
    (fun t =>
      if mill then .acc (hndObj mill i) (some (finOk 0 [] []))
        ((t.modM i fun _ => { h := handleReset, model := none }).modModel fun u =>
          { u with chans := tmap u.chans fun _ x => { x with moves := x.moves.filter fun e => e.1 != i } })
      else if (t.qh i).run.isEmpty then .acc (hndObj mill i) (some (finOk 0 [] [])) (t.modQ i fun _ => emptyQ)
      else .acc (hndObj mill i) none (t.modQ i fun q => { q with h := { q.h with unloading := true } })) s)

/-- The code of a handle state (Table 7.8). -/
def handleCode : HandleSt → Nat
  | .empty => 0 | .loading => 1 | .loaded => 2 | .active => 3 | .stopped => 4

def opModelStatus : OpSpec := mkOp 0x0604 [.v 1, .v 1] rDTS wFTH false

/-- MODEL.STATUS (Table 7.8); a Millrace handle has no skip count of its own and reads 0. -/
def execModelStatus (c : Cmd) (s : State) : Host.Outcome State Fault Refusal :=
  let mill := cp c 0 1 == 1
  let i := cp c 1 1
  .next (runCmd opModelStatus c
    [ckNoInline c, ckParam (decide (cp c 0 1 ≤ 1)) 0, ckRange (decide (i < 16)) 1] []
    (fun t =>
      let iv : Word × Word := if mill then (match (t.mh i).model with | some m => (m.modelId, m.modelVer) | none => (0, 0))
        else match (t.qh i).model with | some m => (m.modelId, m.modelVer) | none => (0, 0)
      .ok 0 (be 1 (handleCode (t.hnd mill i).st) ++ zeros 3 ++ be 4 iv.1.toNat ++ be 4 iv.2.toNat
        ++ be 4 (if mill then 0 else (t.qh i).skip)) [] t) s)

/-! ### Channels -/

/-- A binding of Table 8.5 as it is read; without a model, whose DIN would say how many, every IDX entry. -/
def parseBinding (b : List Byte) (m : Option MModel) (moves : List (Nat × Nat)) : Channel :=
  let din := match m with | some x => x.din | none => 32
  { handle := rd b 2 1, moves := moves, kind := rd b 3 1, src := BitVec.ofNat 18 (rd b 4 4), set := rd b 8 1, miss := rd b 9 1,
    stream := rd b 10 2, rate := rd b 12 4, idx := (List.range din).map fun j => rd b (16 + 2 * j) 2,
    ctx := match m with | some x => ctxStart x | none => { x := [], f := none, v := 0, m := 0, n := 0, cep := 0, steps := 0,
                                                           last := [], drift := none },
    diverged := false, pend := [], running := none, resetDue := false, skip := 0, lateSteps := 0, lateFrom := 0,
    gapNext := false, prev := none, done := [] }

/-- Fields of a binding that do not fit its KIND (Table 8.5, R9). -/
def bindingOk (b : List Byte) (c : Channel) : Bool :=
  decide (c.kind ≤ 2) && decide (c.miss ≤ 1) && (if c.kind = 1 then rd b 4 4 < 2 ^ 18 else rd b 4 4 == 0)
    && (c.kind != 2 || c.set == 0) && (c.kind == 2 || c.stream == 0) && (c.kind != 0 || c.rate == 0)
    && (List.range (32 - c.idx.length)).all fun j => rd b (16 + 2 * (c.idx.length + j)) 2 == 0

def opChannelOpen : OpSpec := mkOp 0x0605 [.ptr] rDTS wFT false

/-- CHANNEL.OPEN (R212, R215, R221). Whether a descriptor of another block's map is RESID is known to that block alone: a free value
(log entry 26). -/
def execChannelOpen (c : Cmd) (s : State) : Host.Outcome State Fault Refusal :=
  let b := cdata c 0
  let ch := rd b 0 2
  let h := rd b 2 1
  let m := (s.mh h).model
  let k := parseBinding b m (s.movesOf 16 h)
  let desc := match (s.set k.set).mapNext with | some x => x.2 | none => (s.set k.set).map
  let noResid := match k.kind with
    | 0 => k.idx.all fun j => match desc[j]? with | some d => dOp d != 9 | none => true
    | 1 => k.idx.all fun j => !Config.remoteResid s.time.freeCount k.src.toNat k.set j
    | _ => true
  let st := (s.mh h).h.st
  let rate := st != .active || s.millAdmits (s.model.chans.map (·.2) ++ [k]) s.millActive
  .next (runCmd opChannelOpen c
    [ckStatus (k.kind != 1 || !s.isDie || s.sys.acting) stRole, ckStatus (k.kind != 2 || s.isDie) stRole,
     ckData opChannelOpen c 0 80, ckParam (bindingOk b k) 0, ckParam noResid 0, ckRange (decide (ch < 4096)) 0,
     ckRange (decide (h < 16)) 0, ckRange (decide (k.set < 16)) 0, ckRange (decide (k.stream < 4096)) 0,
     ckRange (k.idx.all fun j => if k.kind = 2 then decide (j ≤ 4) else decide (j < 1024)) 0,
     ckRange (k.kind != 2 || (decide (1 ≤ k.rate) && decide (k.rate ≤ 1048576))) 0, ckRange (k.kind != 1 || decide (0 < k.rate)) 0]
    [ckState (s.chan ch).isNone, ckState (st == .loaded || st == .active),
     ckCap (decide ((s.modModel fun u => { u with chans := tput u.chans ch k }).millBytes ≤ 8388608)) 0, ckCap rate 0]
    (fun t => .ok 0 [] [] (t.tickFree.modModel fun u => { u with chans := tput u.chans ch k })) s)

def opChannelClose : OpSpec := mkOp 0x0606 [.v 2] rDTS wFT false

/-- CHANNEL.CLOSE (R212, R214). -/
def execChannelClose (c : Cmd) (s : State) : Host.Outcome State Fault Refusal :=
  let ch := cp c 0 2
  .next (runCmd opChannelClose c [ckNoInline c, ckRange (decide (ch < 4096)) 0] [ckState (s.chan ch).isSome]
    (fun t =>
      let t1 := (t.voidRollouts ch).modModel fun u => { u with chans := tdel u.chans ch }
      .ok 0 [] [] t1.millSettleAll) s)

def opChannelReset : OpSpec := mkOp 0x0607 [.v 2] rDTS wFT false

/-- CHANNEL.RESET (R212, R225): at once, or after the step in progress. -/
def execChannelReset (c : Cmd) (s : State) : Host.Outcome State Fault Refusal :=
  let ch := cp c 0 2
  let busy := match s.chan ch with | some x => x.running.isSome | none => false
  .next (runCmd opChannelReset c [ckNoInline c, ckRange (decide (ch < 4096)) 0] [ckState (s.chan ch).isSome]
    (fun t => .ok 0 [] [] (if busy then t.modChan ch fun x => { x with resetDue := true } else t.resetChan ch)) s)

def opChannelForecast : OpSpec := mkOp 0x0608 [.v 2, .v 2, .r 4, .ptr] rDTS wFTH false

/-- CHANNEL.FORECAST (R214): the copy is taken after the latest complete step. -/
def execChannelForecast (c : Cmd) (s : State) : Host.Outcome State Fault Refusal :=
  let ch := cp c 0 2
  let h := cp c 2 2
  let x := s.chan ch
  let m := x.bind fun k => (s.mh k.handle).model
  let ready := match x with
    | some k => k.ctx.f.isSome && !k.diverged && !k.done.isEmpty && m.isSome && (s.mh k.handle).h.st != .stopped
    | none => false
  .next (runCmd opChannelForecast c
    [ckNoInline c, ckWrite opChannelForecast c 0, ckRange (decide (ch < 4096)) 0, ckRange (decide (1 ≤ h) && decide (h ≤ 4096)) 2]
    [ckState ready, ckStatus (decide (s.model.rollouts.length < 64)) stBusy]
    (fun t =>
      let vals := match x, m with
        | some k, some mm => rolloutVals mm h k.ctx.x (k.ctx.f.getD 0) k.ctx.last
        | _, _ => []
      let r : Rollout :=
        { path := c.path, tag := c.tag, ch := ch,
          stamp := match x with
            | some k => (match k.done.getLast? with | some d => d.stamp | none => 0)
            | none => 0,
          cep := match x with | some k => k.ctx.cep | none => 0,
          n := match x with | some k => k.ctx.n | none => 0, vals := vals }
      .acc ch none (t.modModel fun u => { u with rollouts := u.rollouts ++ [r] })) s)

def opModelParam : OpSpec := mkOp 0x0609 [.v 2, .v 2] rDTS wFT false

/-- MODEL.PARAM (R188, R210). -/
def execModelParam (c : Cmd) (s : State) : Host.Outcome State Fault Refusal :=
  let e := cp c 0 2
  let r := cp c 2 2
  .next (runCmd opModelParam c
    [ckNoInline c, ckRange (decide (1 ≤ e) && decide (e ≤ 1000)) 0, ckRange (decide (1 ≤ r) && decide (r ≤ 1000)) 2] []
    (fun t => .ok 0 [] [] (t.modModel fun u => { u with eachWait := e * 10000, residWait := r * 1000 })) s)

/-! ### The close of a cut -/

/-- MODELVER of a cut: the version of the model of its first reduction over model outputs, 0 where there is none (Table 6.6;
log entry 30). -/
def State.cutModelVer (s : State) (c : Cut) : Nat :=
  match c.defs.find? fun d => d.lkind == 2 || d.lkind == 3 with
  | some d =>
    if d.lkind = 2 then (match (s.qh d.sel).model with | some m => m.modelVer.toNat | none => 0)
    else match s.chan d.base with
      | some k => (match (s.mh k.handle).model with | some m => m.modelVer.toNat | none => 0)
      | none => 0
  | none => 0

/-- The cuts at the head of those that wait whose reductions have all closed are published in ascending order, and GATHER models take
them (R164, R167, R189); `k` bounds their number. -/
def State.finishCuts (f : Bool) : Nat → State → State
  | 0, s => s
  | k + 1, s =>
    match (s.level f).closing with
    | c :: _ =>
      if s.cutDone f c then ((s.finishCut f c (s.cutModelVer c)).quernGather f c c.missing).finishCuts f k else s
    | [] => s

/-- CUT_CLOSE (R164 to R168, R189): every reduction of a waiting cut that R164 lets close, and the cuts that this completes. -/
def execCutClose (fleet : Bool) (s : State) : Host.Outcome State Fault Refusal :=
  if s.engUp && s.combines then
    let t := s.switchDue.closeAll fleet
    .next (t.finishCuts fleet (t.level fleet).closing.length).quernSettleAll
  else .next s

/-- The entry to a lower power state drops what waits for Quern and Millrace (Tables 7.12 and 8.8, R452): pending vectors are
delivered MISSING, pending inputs go, rollouts end. -/
def State.modelsDrop (s : State) : State :=
  let s1 := (List.range 16).foldl (fun t i =>
    let p := (t.qh i).pend
    (t.modQ i fun q => { q with pend := [] }).deliverMissing i p) s
  (s1.modModel fun u => { u with chans := tmap u.chans fun _ x => { x with pend := [] } }).endRollouts fun _ => true

/-- An evaluation, a step or a held vector is still in progress. -/
def State.modelsBusy (s : State) : Bool :=
  (s.model.quern.any fun q => !q.run.isEmpty) || (s.model.chans.any fun e => e.2.running.isSome) || !s.model.held.isEmpty

/-- Before ENG stops, evaluations and steps in progress complete, vectors that are still held go as they are, and what these made
pending is dropped (Tables 7.12 and 8.8). -/
def State.modelsFinish (s : State) : State :=
  let s1 := (s.model.chans.filter fun e => e.2.running.isSome).foldl (fun t e => t.stepDone e.1) s
  let s2 := s1.model.held.foldl (fun t v => t.releaseVec v) (s1.modModel fun u => { u with held := [] })
  let all := ((List.range 16).zip s2.model.quern).map fun e => List.replicate e.2.run.length e.1
  (all.flatten.foldl (fun t i => t.evalDone i) s2).modelsDrop

/-- The first step of each channel after the return to RUN is a gap step (R222). -/
def State.modelsWake (s : State) : State :=
  s.modModel fun u => { u with chans := tmap u.chans fun _ x => { x with gapNext := true } }

end Sys2Proof.Machine
end

