-- ==== Sys2Proof/Machine/Touchstone.lean ====
section
/-! DEFINITION. Touchstone (spec/10): snooped statistics and digests, checks, replay, the commit barrier, goals; the commands of
Table 16.15, and the two commands of the Verdict unit after which the barrier is looked at again. -/

namespace Sys2Proof.Machine

/-! ### Watch entries and statistics (R252, R253) -/

/-- Fields of a watch entry (Table 10.3). -/
def weEn (e : BitVec 128) : Bool := bit e.toNat 127
def weDig (e : BitVec 128) : Bool := bit e.toNat 126
def weType (e : BitVec 128) : Nat := bits e.toNat 125 123
def weNanMax (e : BitVec 128) : Nat := bits e.toNat 119 104
def weDrift (e : BitVec 128) : Nat := bits e.toNat 103 88
def weRangeMax (e : BitVec 128) : Nat := bits e.toNat 87 64
def weLo (e : BitVec 128) : Nat := bits e.toNat 63 32
def weHi (e : BitVec 128) : Nat := bits e.toNat 31 0

/-- A watch entry at the reset values of Table 10.3: not watched, every bound open. -/
def weReset : BitVec 128 := BitVec.ofNat 128 (2 ^ 126 + 0xFF800000 * 2 ^ 32 + 0x7F800000)

/-- Bytes of an element (Table 10.4). -/
def snoopSize (t : Nat) : Nat := if t = 0 ∨ t = 5 then 4 else if t = 1 ∨ t = 2 then 2 else 1

/-- An E4M3 element without its scale. -/
def decE4M3 (b : Nat) : FV :=
  if b % 128 = 127 then .nan
  else if bits b 6 3 = 0 then .fin (bit b 7) (b % 8) (-9)
  else .fin (bit b 7) (b % 8 + 8) ((bits b 6 3 : Int) - 10)

/-- An element's own value. -/
def snoopVal (t v : Nat) : FV :=
  if t = 0 then fdec f32 v
  else if t = 1 then fdec f32 (v * 65536)
  else if t = 2 then fdec f16 v
  else if t = 3 then decE4M3 v
  else
    let n := signed (if t = 4 then 8 else 32) v
    .fin (decide (n < 0)) n.natAbs 0

/-- Statistics of a stream that has seen nothing. -/
def wstatNew (wid : Nat) (e : BitVec 128) : WStat :=
  { wid := wid, entry := e, n := 0, nzero := 0, nnan := 0, ninf := 0, nrange := 0, sumexp := 0, maxabs := 0, digest := 0,
    checks := 0 }

/-- One element enters the statistics (Table 10.5). -/
def WStat.elem (w : WStat) (v : FV) : WStat :=
  let x := fcvt f32 v
  let out := !v.isNan && (flt x (fdec f32 (weLo w.entry)) || flt (fdec f32 (weHi w.entry)) x)
  let w1 := { w with n := (w.n + 1) % 2 ^ 64, nrange := if out then (w.nrange + 1) % 2 ^ 64 else w.nrange,
                     maxabs := if v.isNan then w.maxabs else max w.maxabs (fenc f32 x % 2 ^ 31) }
  match v with
  | .nan => { w1 with nnan := satAdd 32 w.nnan 1 }
  | .inf _ => { w1 with ninf := satAdd 32 w.ninf 1 }
  | .fin _ m e =>
    if m = 0 then { w1 with nzero := (w.nzero + 1) % 2 ^ 64 } else { w1 with sumexp := w.sumexp + (e + bitLen m - 1) }

/-- The digest of a payload at a byte offset (R253). -/
def digestFrom (wid : Nat) : Nat → Nat → List Byte → Dword → Dword
  | 0, _, _, d => d
  | n + 1, a, l, d =>
    if l.isEmpty then d
    else digestFrom wid n (a + 8) (l.drop 8) (d + BitVec.ofNat 64 (crc64 (be 8 (wid * 2 ^ 56 + a) ++ padTo 8 l)))

/-- A frame enters the statistics of its stream; DIG 0 keeps statistics only. -/
def WStat.frame (w : WStat) (f : Snoop) : WStat :=
  let k := snoopSize (weType w.entry)
  let els := (List.range (f.data.length / k)).map fun i => snoopVal (weType w.entry) (rd f.data (k * i) k)
  let w1 := els.foldl WStat.elem w
  { w1 with digest := if weDig w.entry then digestFrom w.wid f.data.length f.boff.toNat f.data w.digest else w.digest }

/-- NFIN and ME (R254). -/
def WStat.nfin (w : WStat) : Nat := w.n - w.nzero - w.nnan - w.ninf
def WStat.me (w : WStat) : Int := w.sumexp * 256 / (w.nfin : Int)

/-- The checks of Table 10.6; `prev` is the stream in the previous closed step. -/
def WStat.check (w : WStat) (prev : Option WStat) (part : Bool) : Nat :=
  let drift := match prev with
    | some p => decide (0 < weDrift w.entry) && decide (0 < w.nfin) && decide (0 < p.nfin)
        && decide (weDrift w.entry < (w.me - p.me).natAbs)
    | none => false
  b2n (weNanMax w.entry != 0xFFFF && decide (weNanMax w.entry < w.nnan + w.ninf))
    + 2 * b2n (weRangeMax w.entry != 0xFFFFFF && decide (weRangeMax w.entry < w.nrange)) + 4 * b2n drift + 8 * b2n part

/-! ### Goals (R270) -/

/-- The replay modulus of a goal word; 0 where none can be derived. -/
def goalModulus (g : Dword) : Nat :=
  let v := g.toNat
  if bits v 63 62 = 0 then bits v 61 49
  else if bits v 63 62 = 1 then
    let a := bits v 15 0 * (65536 - bits v 47 32)
    let u := bits v 31 16 * 65536
    if a ≤ u then 4096 else min 4096 (a / (a - u))
  else 0

/-- SCOPE is LOCAL. -/
def goalLocal (g : Dword) : Bool := bit g.toNat 48

/-! ### Records -/

/-- A SENTRY_DIGEST body (Table 10.7). -/
def sentryBody (job : Word) (kind wid sflags checks : Nat) (step : Dword) (subj peer : Laddr) (w : WStat) (watch : List Byte) :
    List Byte :=
  be 4 job.toNat ++ be 1 kind ++ be 1 wid ++ be 1 sflags ++ be 1 checks ++ be 8 step.toNat ++ be 4 subj.toNat
    ++ be 4 peer.toNat ++ be 8 w.digest.toNat ++ be 8 w.n ++ be 8 w.nzero ++ be 4 w.nnan ++ be 4 w.ninf ++ be 8 w.nrange
    ++ be 8 (unsigned 64 w.sumexp) ++ be 4 w.maxabs ++ padTo 32 watch

/-- UNVERIFIED for a step (R267). -/
def State.unverified (s : State) (step : Dword) : BitVec 8 := if s.sentry.through < step then fUnverified else 0

/-- A SENTRY_DIGEST record. -/
def sentryReq (dst : Dest) (cls : Fin 4) (flags : BitVec 8) (body : List Byte) : Req :=
  { dst := dst, cls := cls, typ := tSentryDigest, unit := uTouchstone, flags := flags, stamp := none, body := body }

/-- The SFLAGS of a step. -/
def TStep.sflags (x : TStep) (alt : Bool) : Nat := b2n x.part + 2 * b2n x.forced + 4 * b2n alt

/-- The STEP records of a step, one per WID (R261). -/
def State.stepReqs (s : State) (x : TStep) (cls : Fin 4) : List Req :=
  x.stats.map fun w => sentryReq .up cls (s.unverified x.step)
    (sentryBody (s.sentry.job.getD 0) 0 w.wid (x.sflags false) w.checks x.step s.sys.laddr 0 w [])

/-- Change a step. -/
def State.modTstep (step : Dword) (f : TStep → TStep) (s : State) : State :=
  s.modSentry fun u => { u with steps := u.steps.map fun x => if x.step == step then f x else x }

/-- The step of a number. -/
def State.tstep (s : State) (step : Dword) : Option TStep := s.sentry.steps.find? fun x => x.step == step

/-- STEP records leave once for a step that failed a check or mismatched. -/
def State.reportStep (step : Dword) (s : State) : State :=
  match s.tstep step with
  | some x =>
    if x.reported then s
    else ((s.stepReqs x 2).foldl (fun t q => t.send q) s).modTstep step fun y => { y with reported := true }
  | none => s

/-! ### COMMIT_THROUGH and LT (R263 to R265) -/

/-- COMMIT_THROUGH rises to a value, and the interrupt status reports the advance (R414). -/
def State.commitTo (v : Dword) (s : State) : State :=
  if s.sentry.through < v then (s.modSentry fun u => { u with through := v }).intSet 2 else s

/-- The release point of this die: LT under LOCAL scope, else the lesser of LT and the last JOB_RELEASE (R264). -/
def State.release (s : State) : State :=
  if goalLocal s.sentry.goal then s.commitTo s.sentry.lt
  else match s.sentry.released with
    | some r => s.commitTo (if r < s.sentry.lt then r else s.sentry.lt)
    | none => s

/-- The least LT of the members that a job view holds LIVE; a member that has sent none counts as 0. -/
def Through.least (t : Through) (ms : List JobMember) : Dword :=
  match (ms.filter fun m => !m.gone).map fun m => tgetD t.lts m.addr.toNat 0 with
  | [] => t.through
  | x :: l => l.foldl (fun a b => if b < a then b else a) x

/-- A JOB_RELEASE record to one block. -/
def State.sendRelease (job : Word) (step : Dword) (a : Laddr) (s : State) : State :=
  s.send (sentryReq (.block a) 1 0 (sentryBody job 2 0xFF 0 0 step a 0 (wstatNew 0 0) []))

/-- This die takes a JOB_RELEASE of its watched job. -/
def State.takeRelease (job : Word) (step : Dword) (s : State) : State :=
  if s.sentry.job = some job then (s.modSentry fun u => { u with released := some step }).release else s

/-- The members of a job that lie in this tray; every member of the tray where the job is not known here. -/
def State.trayMembers (s : State) (job : Word) : List Laddr :=
  match s.job job with
  | some v => (v.members.map (·.addr)).filter s.ownTray
  | none => s.sys.members.map (·.addr)

/-- A tray master relays a job release to its member dies, and takes it itself as an acting master (R264). -/
def State.relayRelease (job : Word) (step : Dword) (s : State) : State :=
  ((s.trayMembers job).filter (· != s.sys.laddr)).foldl (fun t a => t.sendRelease job step a) (s.takeRelease job step)

/-- The tray masters below this judge that hold members of a job: a child with the member among its own children, else the member
itself, which the fabric routes. -/
def State.releaseDsts (s : State) (job : Word) : List Laddr :=
  let ms := match s.job job with | some v => (v.members.map fun (m : JobMember) => m.addr).filter fun a => !s.ownTray a | none => []
  let kids := (s.crown.trees.map fun t => t.2.children).flatten
  (ms.map fun a => match kids.find? fun (c : Child) => c.gcs.any fun g => g.1 == a with | some c => c.addr | none => a).eraseDups

/-- A judge whose job through point has risen sends it to every tray master that holds members (R264). -/
def State.raiseThrough (job : Word) (s : State) : State :=
  match s.job job, s.sentry.throughs.find? fun t => t.job == job with
  | some v, some t =>
    let n := t.least v.members
    if s.judges job && decide (t.through < n) then
      let s1 := s.modSentry fun u =>
        { u with throughs := u.throughs.map fun x => if x.job == job then { x with through := n } else x }
      let s2 := if s.isMaster then s1.relayRelease job n else s1
      (s.releaseDsts job).foldl (fun r a => r.sendRelease job n a) s2
    else s
  | _, _ => s

/-- The judge takes the LT of a member, in every job it judges that holds the member (R264). -/
def State.takeLt (a : Laddr) (lt : Dword) (s : State) : State :=
  (s.verd.jobs.filter fun e => e.2.judge == s.sys.laddr && e.2.members.any fun m => m.addr == a).foldl (fun t e =>
    let job := e.2.job
    let old := t.sentry.throughs.find? fun x => x.job == job
    let x : Through := old.getD { job := job, lts := [], through := 0 }
    let rest := t.sentry.throughs.filter fun y => y.job != job
    (t.modSentry fun u => { u with throughs := rest ++ [{ x with lts := tput x.lts a.toNat lt }] }).raiseThrough job) s

/-- A verdict of kind STEP that is confirmed at its raise. -/
def State.raiseConfirmed (subj : Laddr) (step : Dword) (cls : Nat) (dst : Dest) (s : State) : State :=
  let w := s.nextVid
  let v : OwnV := { kind := 3, vid := w.2, subj := subj, source := 0, engine := 0, step := step, raiseT := s.tb0Ns,
                    drill := s.underDrill subj s.tb0Ns }
  ((w.1.bump cVerdictConf).stageConfirmed 3 cls w.2 subj v.drill).sendVerdict dst s.tb0Ns (s.ownRec v cls 1 0)

/-- The HEALTHY verdict of an advance of LT: to the judge under JOB scope, and at the judge itself taken at once (R263, R264). -/
def State.healthy (s : State) : State :=
  let judge := match s.sentry.job with | some j => (s.job j).map (·.judge) | none => none
  if goalLocal s.sentry.goal then s.raiseConfirmed s.sys.laddr s.sentry.lt 0 .up
  else match judge with
    | some j =>
      if j = s.sys.laddr then (s.raiseConfirmed s.sys.laddr s.sentry.lt 0 .up).takeLt s.sys.laddr s.sentry.lt
      else s.raiseConfirmed s.sys.laddr s.sentry.lt 0 (.block j)
    | none => s.raiseConfirmed s.sys.laddr s.sentry.lt 0 .up

/-- The open SUSPECT of this die for a step. -/
def State.suspect (s : State) (step : Dword) : Option OwnV :=
  s.verd.own.find? fun v => v.kind == 3 && v.subj == s.sys.laddr && v.step == step

/-- LT may advance to a clean step r: every step from LT + 1 to r has closed and none has an open or unsettled SUSPECT (R263). -/
def State.qualifies (s : State) (r : Dword) : Bool :=
  let u := s.sentry
  let l := u.steps.filter fun x => decide (u.lt < x.step) && decide (x.step ≤ r) && x.closed
  l.length == (r - u.lt).toNat && l.all (fun x => (s.suspect x.step).isNone)
    && u.unsettled.all fun q => !(decide (u.lt < q) && decide (q ≤ r))

/-- A closed step at or below a step with no replay under way: nothing more is asked of it. -/
def TStep.past (r : Dword) (x : TStep) : Bool := decide (x.step ≤ r) && x.closed && x.rep != .partner && x.rep != .alternate

/-- Steps that are confirmed are kept no longer; of each stream the step closed last is remembered (R254). -/
def SentryUnit.dropSteps (p : TStep → Bool) (u : SentryUnit) : SentryUnit :=
  let l := ((u.steps.filter fun x => p x && x.closed).map (·.stats)).flatten
  { u with steps := u.steps.filter fun x => !p x,
           prevs := l.foldl (fun a w => (a.filter fun v => v.wid != w.wid) ++ [w]) u.prevs }

/-- LT advances to the greatest clean step that qualifies (R263); confirmed steps are kept no longer. -/
def State.sentrySettle (s : State) : State :=
  let u := s.sentry
  let c := (u.steps.filter fun x => decide (u.lt < x.step) && x.rep == .clean && s.qualifies x.step).map (·.step)
  match c with
  | [] => s
  | x :: l =>
    let r := l.foldl (fun a b => if a < b then b else a) x
    (s.modSentry fun u => { u.dropSteps (TStep.past r) with lt := r }).healthy.release

/-! ### Replay, as subject (R257 to R262) -/

/-- The two REPLAY_REQ records of a request (Table 10.7). -/
def State.sendReplayReq (x : TStep) (dst : Laddr) (alt : Bool) (s : State) : State :=
  [0, 32].foldl (fun t base =>
    let watch := (List.range 32).map fun i =>
      BitVec.ofNat 8 (((x.stats.find? fun w => w.wid == base + i).map fun w => bits w.entry.toNat 127 120).getD 0)
    t.send (sentryReq (.block dst) 1 0 (sentryBody (s.sentry.job.getD 0) 3 base (x.sflags alt) 0 x.step s.sys.laddr dst
      (wstatNew 0 0) watch))) s

/-- The WIDs that a replay is compared over. -/
def TStep.digs (x : TStep) : List WStat := x.stats.filter fun w => weDig w.entry

/-- Steps that are discarded lose an open SUSPECT of theirs with reason SUPERSEDED. -/
def State.discardSteps (p : TStep → Bool) (s : State) : State :=
  let gone := s.sentry.steps.filter p
  let s1 := gone.foldl (fun t x => match t.suspect x.step with | some v => t.withdrawOwn v 2 wdSuperseded | none => t) s
  s1.modSentry fun u => { u with steps := u.steps.filter fun x => !p x }

/-- Step S is found wrong or undecided (R262, R268). -/
def State.rollback (x : TStep) (undecided : Bool) (s : State) : State :=
  let s0 := if (s.suspect x.step).isSome then s else s.raiseOwn 3 s.sys.laddr 0 0 x.step 2
  let v := s0.suspect x.step
  let s1 := match v with | some v => s0.confirmOwn v 2 | none => s0
  let vid := match v with | some v => v.vid | none => 0
  let drill := match v with | some v => v.drill | none => false
  let body := be 4 (s.sentry.job.getD 0).toNat ++ be 4 s.sys.laddr.toNat ++ be 8 x.step.toNat ++ be 8 s.sentry.lt.toNat
    ++ be 4 vid.toNat ++ be 1 (b2n undecided) ++ be 1 (x.badWid.getD 0xFF) ++ be 1 (b2n drill + 2 * b2n x.forced) ++ zeros 1
    ++ be 4 x.peer.toNat ++ be 4 (if x.rep = .alternate then x.alt.toNat else 0)
  let q := fun (d : Dest) => ({ dst := d, cls := 0, typ := tRollback, unit := uTouchstone, flags := 0, stamp := none,
                                body := body } : Req)
  let judge := match s.sentry.job with | some j => (s.job j).map (·.judge) | none => none
  let s2 := s1.send (q .up)
  let s3 := match judge with | some j => if j = s.sys.laddr then s2 else s2.send (q (.block j)) | none => s2
  (s3.modSentry fun u => { u with unsettled := if u.unsettled.contains x.step then u.unsettled else u.unsettled ++ [x.step] })
    |>.discardSteps fun y => decide (s.sentry.lt < y.step) || y.step == x.step

/-- A false alarm of a WID (R271). -/
def State.falseAlarm (wid : Nat) (s : State) : State :=
  let u := s.sentry
  let l := (u.alarms.filter fun e => decide (s.tb1Ns < e.2 + u.faWin)) ++ [(wid, s.tb1Ns)]
  let s1 := s.modSentry fun u => { u with alarms := l }
  if u.faMax < (l.filter fun e => e.1 == wid).length ∧ !u.suspended.contains wid then
    (s1.modSentry fun u => { u with suspended := u.suspended ++ [wid] }).stage 0x0901 .notice wid 0
  else s1

/-- Step S is clean (R262, R263, R271); a SUSPECT of a partner that mismatched alone is raised CONFIRMED. -/
def State.cleanStep (x : TStep) (peerBad : Bool) (s : State) : State :=
  let s1 := match s.suspect x.step with | some v => s.withdrawOwn v 2 wdGone | none => s
  let s2 := if peerBad then s1.raiseConfirmed x.peer x.step 2 .up else s1
  let s3 := s2.modTstep x.step fun y => { y with rep := .clean }
  let bad := if x.forced then (x.stats.filter fun w => w.checks != 0).map (·.wid) else []
  (bad.foldl (fun t w => t.falseAlarm w) s3).sentrySettle

/-- A request that both dies refuse, or that the alternate does not answer (Table 10.8, last row; R258). -/
def State.noAnswer (x : TStep) (s : State) : State :=
  if x.forced || x.first == .mismatch then s.rollback x true
  else s.modTstep x.step fun y => { y with rep := .dropped }

/-- The alternate is asked. -/
def State.askAlternate (x : TStep) (s : State) : State :=
  match s.sentry.partner with
  | some p =>
    let y := { x with rep := .alternate, alt := p.2, asked := s.tb1Ns, answers := [] }
    ((s.modTstep x.step fun _ => y).bump cSdcReplay).sendReplayReq y p.2 true
  | none => s.noAnswer x

/-- The partner is asked for a replay of step S (R258); with no partner named the request counts as refused. -/
def State.askPartner (x : TStep) (s : State) : State :=
  match s.sentry.partner with
  | some p =>
    let y := { x with rep := .partner, peer := p.1, asked := s.tb1Ns, answers := [] }
    ((s.modTstep x.step fun _ => y).bump cSdcReplay).sendReplayReq y p.1 false
  | none => s.noAnswer x

/-- The die asked last refuses, or does not answer in time. -/
def State.refused (x : TStep) (s : State) : State :=
  if x.rep = .partner then s.askAlternate { x with first := .refused }
  else if x.rep = .alternate then s.noAnswer x
  else s

/-- Two lists of answers agree on every WID. -/
def sameAns (a b : List RepAns) : Bool := a.all fun x => b.contains x

/-- The answers for step S are complete: the outcome of Table 10.8. -/
def State.judgeReplay (x : TStep) (s : State) : State :=
  let mine := x.digs.map fun w => ({ wid := w.wid, digest := w.digest, n := BitVec.ofNat 64 w.n } : RepAns)
  let ok := sameAns mine x.answers
  let badW := (mine.filter fun a => !x.answers.contains a).map (·.wid)
  let x1 := { x with badWid := match x.badWid, badW with
    | some a, b :: _ => some (min a b)
    | none, b :: _ => some b
    | a, [] => a }
  let s1 := if ok then s else (s.bump cSdcMismatch).modTstep x.step fun y => { y with badWid := x1.badWid }
  if x.rep = .partner then
    if ok then s1.cleanStep x false
    else
      let s2 := s1.reportStep x.step
      let s3 := if (s2.suspect x.step).isSome then s2 else s2.raiseOwn 3 s.sys.laddr 0 0 x.step 2
      s3.askAlternate { x1 with first := .mismatch, peerAns := x.answers, reported := true }
  else if ok then s1.cleanStep x (x.first == .mismatch)
  else
    let s2 := s1.reportStep x.step
    if x.first = .mismatch then s2.rollback x1 (!sameAns x.peerAns x.answers)
    else s2.rollback x1 true

/-- A REPLAY answer (R261). -/
def State.rxReplay (r : Rec) (s : State) : State :=
  let b := r.body
  let step : Dword := BitVec.ofNat 64 (rd b 8 8)
  match s.tstep step with
  | some x =>
    let alt := bit (rd b 6 1) 2
    let from' := if x.rep = .partner then x.peer else x.alt
    if s.isDie && s.sentry.job == some (BitVec.ofNat 32 (rd b 0 4)) && r.src == from' && alt == (x.rep == .alternate)
        && (x.rep == .partner || x.rep == .alternate) then
      let a : RepAns := { wid := rd b 5 1, digest := BitVec.ofNat 64 (rd b 24 8), n := BitVec.ofNat 64 (rd b 32 8) }
      let y := { x with answers := (x.answers.filter fun e => e.wid != a.wid) ++ [a] }
      let s1 := s.modTstep step fun _ => y
      if y.digs.all fun w => y.answers.any fun e => e.wid == w.wid then s1.judgeReplay y else s1
    else s
  | none => s

/-- A REFUSED answer (R258). -/
def State.rxRefused (r : Rec) (s : State) : State :=
  let b := r.body
  match s.tstep (BitVec.ofNat 64 (rd b 8 8)) with
  | some x =>
    if s.isDie && s.sentry.job == some (BitVec.ofNat 32 (rd b 0 4)) && r.src == (if x.rep = .partner then x.peer else x.alt)
        && bit (rd b 6 1) 2 == (x.rep == .alternate) then s.refused x
    else s
  | none => s

/-! ### Steps (R254 to R257) -/

/-- A STAGE_REPLAY preparation of this die marks the newest open step once; its release unmarks steps still open (R233, R257,
R272). -/
def State.stageMark (s : State) : State :=
  let on := s.verd.prep.any fun e => e.2.1 == s.sys.laddr && bit e.2.2 1
  let newest := ((s.sentry.steps.filter fun x => !x.closed).getLast?).map (·.step)
  if on && !s.sentry.prepSeen then
    match newest with
    | some n => (s.modTstep n fun x => { x with staged := true }).modSentry fun u => { u with prepSeen := true }
    | none => s
  else if !on then
    s.modSentry fun u => { u with prepSeen := false,
                                  steps := u.steps.map fun x => if x.closed then x else { x with staged := false } }
  else s

/-- Step S closes: checks in order, STEP records where one failed, the choice of a replay (R254, R257, R258, R261). -/
def State.closeStep (step : Dword) (part : Bool) (s0 : State) : State :=
  let s := s0.stageMark
  match s.tstep step with
  | none => s
  | some x =>
    if x.closed then s
    else
      let u := s.sentry
      let pt := x.part || part
      let prev := fun (wid : Nat) =>
        ((u.steps.filter fun y => y.closed && decide (y.step < x.step)).filterMap fun y =>
          y.stats.find? fun w => w.wid == wid).getLast?.or (u.prevs.find? fun w => w.wid == wid)
      let stats := x.stats.map fun w => { w with checks := w.check (prev w.wid) pt }
      let fails := stats.any fun w => w.checks != 0
      let forced := (stats.any fun w => w.checks != 0 && !u.suspended.contains w.wid) || x.staged
      let sched := decide (0 < x.modulus) && (x.step.toNat + s.sys.laddr.toNat % x.modulus) % x.modulus == 0
      let y := { x with stats := stats, closed := true, part := pt, forced := forced }
      let s1 := s.modTstep step fun _ => y
      let s2 := if fails then s1.reportStep step else s1
      let s3 := if forced then s2.raiseOwn 3 s.sys.laddr 0 0 step 2 else s2
      let s4 := if forced || sched then s3.askPartner { y with reported := fails } else s3
      s4.sentrySettle

/-- A step mark is discarded and counted (R256, R265). -/
def State.badMark (s : State) : State := s.modSentry fun v => { v with badMarks := satAdd 32 v.badMarks 1 }

/-- The oldest open step of every WID, named in a list of streams, that holds four open steps (R255). -/
def SentryUnit.fifths (u : SentryUnit) (ws : List WStat) : List Dword :=
  (ws.filterMap fun w =>
    let o := u.steps.filter fun x => !x.closed && x.stats.any fun v => v.wid == w.wid
    if 4 ≤ o.length then o.head?.map (·.step) else none).eraseDups

/-- A step begin mark for the watched job (R255, R256, R265, R268, R270); a new SCOPE moves the release point with it. -/
def State.beginStep (step : Dword) (s0 : State) : State :=
  let s := s0.stageMark
  let u := s.sentry
  let admitted := match u.readmit with | some g => decide (g < step) | none => false
  if step = 0 ∨ step ≤ u.lt ∧ !admitted then s.badMark
  else
    let fresh : List Nat := match u.watchNext with | some l => l.map (·.1) | none => []
    let s1 := s.modSentry fun v =>
      { v with watch := v.watchNext.getD v.watch, watchNext := none, goal := v.goalNext.getD v.goal, goalNext := none,
               suspended := v.suspended.filter fun w => !fresh.contains w,
               alarms := v.alarms.filter fun e => !fresh.contains e.1 }
    let s2 := s1.release.discardSteps fun x => x.step == step
    let ws := (s2.sentry.watch.filter fun e => weEn e.2).map fun e => wstatNew e.1 e.2
    let s3 := (s2.sentry.fifths ws).foldl (fun t n => t.closeStep n true) s2
    if ws.isEmpty then s3
    else s3.modSentry fun v =>
      { v with steps := v.steps ++ [{ step := step, modulus := goalModulus v.goal, stats := ws, ended := none, closed := false,
                                      part := false, forced := false, staged := false, rep := .idle, asked := 0,
                                      first := .waits, peer := 0, alt := 0, peerAns := [], answers := [], badWid := none,
                                      reported := false }] }

/-- A step mark of any job (R256, R260): END, REPLAY, the subject of a replay. -/
def State.sentryMark (job : Word) (step : Dword) (atEnd replay : Bool) (subj : Laddr) (s : State) : State :=
  if replay then
    s.modSentry fun u => { u with hosted := u.hosted.map fun h =>
      if h.accepted && h.job == job && h.step == step && h.subj == subj then
        (if atEnd then { h with ended := some s.tb1Ns } else { h with running := true, ended := none })
      else h }
  else if s.sentry.job = some job then
    if atEnd then
      if step = 0 then s.badMark
      else s.modTstep step fun x => if x.closed then x else { x with ended := some s.tb1Ns }
    else s.beginStep step
  else s

/-- SNOOP_FRAME (R250, R255, R260). -/
def execSnoopFrame (_port : Fin 64) (f : Snoop) (s : State) : Host.Outcome State Fault Refusal :=
  if s.isDie && s.engUp && s.portUp .stamp then
    let wid := f.wid.toNat
    let mine := fun (step : Dword) => step.toNat % 256 == f.stepLo.toNat
    if f.replay then
      match s.sentry.hosted.find? fun h => h.running && mine h.step && h.stats.any fun w => w.wid == wid with
      | some h =>
        .next (s.modSentry fun u => { u with hosted := u.hosted.map fun x =>
          if x == h then { x with stats := x.stats.map fun w => if w.wid == wid then w.frame f else w } else x })
      | none => .next s
    else if !(s.sentry.watch.any fun e => e.1 == wid && weEn e.2)
        && !(s.sentry.steps.any fun x => !x.closed && x.stats.any fun w => w.wid == wid) then .next s
    else
      match s.sentry.steps.find? fun x => !x.closed && mine x.step && x.stats.any fun w => w.wid == wid with
      | some x =>
        .next (s.modTstep x.step fun y => { y with stats := y.stats.map fun w => if w.wid == wid then w.frame f else w })
      | none =>
        let s1 := s.modSentry fun u => { u with late := tput u.late wid (satAdd 32 (tgetD u.late wid 0) 1) }
        let top := s.sentry.steps.foldl (fun a x => if a < x.step then x.step else a) 0
        match s.sentry.steps.find? fun x => x.closed && mine x.step && decide (top.toNat < x.step.toNat + 256)
            && x.stats.any fun w => w.wid == wid with
        | some x =>
          .next ((s1.modTstep x.step fun y =>
            { y with part := true, stats := y.stats.map fun w =>
                if w.wid == wid && w.checks < 8 then { w with checks := w.checks + 8 } else w }).reportStep x.step)
        | none => .next s1
  else .next s

/-- A partner whose replay has closed sends its digests to the subject (R260). -/
def State.answerReplay (h : Hosted) (s : State) : State :=
  let s1 := s.modSentry fun u => { u with hosted := u.hosted.filter fun x => x != h }
  (h.stats.filter fun w => weDig w.entry).foldl (fun t w =>
    t.send (sentryReq (.block h.subj) 1 (s.unverified h.step)
      (sentryBody h.job 1 w.wid h.sflags 0 h.step h.subj s.sys.laddr w []))) s1

/-- SNOOP_SETTLE_EXPIRY (R254, R260): SNOOP_SETTLE after its end mark a step closes, the die's own or one it replays. -/
def execSnoopSettleExpiry (step : Dword) (s : State) : Host.Outcome State Fault Refusal :=
  if s.engUp then
    let due := fun (e : Option Nat) => match e with | some t => s.past1 (t + s.sentry.settle) | none => false
    let s1 := match s.tstep step with
      | some x => if !x.closed && due x.ended then s.closeStep step false else s
      | none => s
    .next ((s1.sentry.hosted.filter fun h => h.step == step && h.running && due h.ended).foldl (fun t h => t.answerReplay h) s1)
  else .next s

/-- REPLAY_TO_EXPIRY (R260, R272): an unanswered request counts as refused; a partner drops a request as old as that. -/
def execReplayToExpiry (step : Dword) (s : State) : Host.Outcome State Fault Refusal :=
  if s.engUp then
    let old := fun (t : Nat) => s.past1 (t + s.sentry.replayTo)
    let s1 := s.modSentry fun u => { u with hosted := u.hosted.filter fun h => !(h.step == step && old h.asked) }
    match s1.tstep step with
    | some x => if (x.rep == .partner || x.rep == .alternate) && old x.asked then .next (s1.refused x) else .next s1
    | none => .next s1
  else .next s

/-! ### Replay, as partner (R258, R260) -/

/-- The watch entries that a request carries, by WID; the bounds of an entry do not travel and stand open. -/
def hostedStats (lo hi : List Byte) : List WStat :=
  (List.range 64).filterMap fun i =>
    let b := rd (if i < 32 then lo else hi) (i % 32) 1
    if bit b 7 then some (wstatNew i (BitVec.ofNat 128 (b * 2 ^ 120 + weReset.toNat % 2 ^ 120))) else none

/-- A REPLAY_REQ record (R258): a request acts once both its records are here; with two accepted requests held it is refused. -/
def State.rxReplayReq (r : Rec) (s : State) : State :=
  let b := r.body
  let step : Dword := BitVec.ofNat 64 (rd b 8 8)
  let job : Word := BitVec.ofNat 32 (rd b 0 4)
  let subj : Laddr := BitVec.ofNat 18 (rd b 16 4)
  let fl := rd b 6 1 % 8
  if !s.isDie then s
  else
    let same := fun (h : Hosted) => h.subj == subj && h.job == job && h.step == step && h.sflags == fl && !h.accepted
    let h0 : Hosted := (s.sentry.hosted.find? same).getD
      { subj := subj, job := job, step := step, sflags := fl, lo := none, hi := none,
        accepted := false, asked := s.tb1Ns, running := false, ended := none, stats := [] }
    let h1 := if rd b 5 1 = 0 then { h0 with lo := some (slice b 76 32) } else { h0 with hi := some (slice b 76 32) }
    let rest := s.sentry.hosted.filter fun h => !same h
    match h1.lo, h1.hi with
    | some lo, some hi =>
      if 2 ≤ (rest.filter (·.accepted)).length then
        (s.modSentry fun u => { u with hosted := rest }).send (sentryReq (.block subj) 1 0
          (sentryBody job 4 0xFF fl 0 step subj s.sys.laddr (wstatNew 0 0) []))
      else
        (s.modSentry fun u => { u with hosted := rest ++ [{ h1 with accepted := true, stats := hostedStats lo hi }] }).event
          0x08E0 (be 8 step.toNat ++ be 4 job.toNat ++ be 4 subj.toNat ++ be 1 (b2n (bit fl 2)))
    | _, _ => s.modSentry fun u => { u with hosted := rest ++ [h1] }

/-- A JOB_RELEASE record (R264). -/
def State.rxJobRelease (r : Rec) (s : State) : State :=
  let job : Word := BitVec.ofNat 32 (rd r.body 0 4)
  let step : Dword := BitVec.ofNat 64 (rd r.body 8 8)
  if s.isMaster then s.relayRelease job step else s.takeRelease job step

/-- A HEALTHY STEP verdict at the judge (R264). -/
def State.rxHealthy (r : Rec) (s : State) : State :=
  let v := parseVRec r.body
  if v.kind = 3 ∧ v.cls = 0 ∧ v.state = 1 then s.takeLt v.subj v.step else s

/-- A SENTRY_DIGEST record by its KIND. -/
def State.rxSentry (r : Rec) (s : State) : State :=
  let k := rd r.body 4 1
  if k = 1 then s.rxReplay r else if k = 2 then s.rxJobRelease r else if k = 3 then s.rxReplayReq r
  else if k = 4 then s.rxRefused r else s

/-- ENG reset closes every open step with PARTIAL set (R256); the close itself takes place when ENG runs again. -/
def SentryUnit.engReset (u : SentryUnit) : SentryUnit :=
  { u with steps := u.steps.map fun x => if x.closed then x else { x with part := true, ended := some 0 },
           hosted := u.hosted.map fun h => { h with running := false } }

/-- The steps that an ENG reset left open are closed (R256, Table 11.10). -/
def State.sentryRestart (s : State) : State :=
  ((s.sentry.steps.filter fun x => !x.closed && x.part).map (·.step)).foldl (fun t n => t.closeStep n true) s

/-! ### Commands (Table 16.15) -/

def opSentryWatch : OpSpec := { mkOp 0x0800 [.v 4, .v 1, .r 3, .ptr, .v 8] rD wF false with admission := true }

/-- A watch entry that R252 admits. -/
def watchOk (e : Nat) : Bool :=
  bits e 122 120 == 0 && decide (bits e 125 123 < 6) && !fnan32 (bits e 63 32) && !fnan32 (bits e 31 0)
    && !flt32 (bits e 31 0) (bits e 63 32)

/-- SENTRY.WATCH (R252, R265). -/
def execSentryWatch (c : Cmd) (s : State) : Host.Outcome State Fault Refusal :=
  let job : Word := BitVec.ofNat 32 (cp c 0 4)
  let n := cp c 4 1
  let first : Dword := BitVec.ofNat 64 (cp c 16 8)
  let es := (List.range n).map fun i => rd (cdata c 0) (16 * i) 16
  .next (runCmd opSentryWatch c
    [ckData opSentryWatch c 0 (16 * n), ckParam (es.all watchOk) 8, ckParam (first != 0) 16, ckRange (decide (n ≤ 64)) 4] []
    (fun t =>
      let l := (List.range n).map fun i => (i, BitVec.ofNat 128 (es.getD i 0))
      let t1 := if t.sentry.job = some job then t
        else ((t.discardSteps fun _ => true).modSentry fun u =>
          { u with job := some job, first := first, through := first - 1, lt := first - 1, unsettled := [], prevs := [], readmit := none,
                   released := none }).intSet 2
      .ok 0 [] [] (t1.modSentry fun u => { u with watchNext := some l })) s)

def opSentryPartners : OpSpec := { mkOp 0x0801 [.v 4, .v 4] rD wF false with admission := true }

/-- SENTRY.PARTNERS (R257). -/
def execSentryPartners (c : Cmd) (s : State) : Host.Outcome State Fault Refusal :=
  .next (runCmd opSentryPartners c [ckNoInline c, ckAddr c 0, ckAddr c 4] []
    (fun t => .ok 0 [] [] (t.modSentry fun u =>
      { u with partner := some (BitVec.ofNat 18 (cp c 0 4), BitVec.ofNat 18 (cp c 4 4)) })) s)

def opSentryGoal : OpSpec := mkOp 0x0802 [.v 8] rD wF false

/-- SENTRY.GOAL (R270): from the next step begin mark. -/
def execSentryGoal (c : Cmd) (s : State) : Host.Outcome State Fault Refusal :=
  let g : Dword := BitVec.ofNat 64 (cp c 0 8)
  let v := g.toNat
  let rng := if bits v 63 62 = 0 then decide (bits v 61 49 ≤ 4096)
    else decide (1 ≤ bits v 31 16) && decide (1 ≤ bits v 15 0)
  .next (runCmd opSentryGoal c [ckNoInline c, ckParam (decide (0 < goalModulus g)) 0, ckRange rng 0] []
    (fun t => .ok 0 [] [] (t.modSentry fun u => { u with goalNext := some g })) s)

def opSentryRollback : OpSpec := mkOp 0x0803 [.v 4, .r 4, .v 8] rD wF false

/-- SENTRY.ROLLBACK (R268): LT falls to LASTGOOD, or to COMMIT_THROUGH where that is greater. -/
def execSentryRollback (c : Cmd) (s : State) : Host.Outcome State Fault Refusal :=
  let good : Dword := BitVec.ofNat 64 (cp c 8 8)
  .next (runCmd opSentryRollback c [ckNoInline c] [ckState (s.sentry.job == some (BitVec.ofNat 32 (cp c 0 4)))]
    (fun t =>
      let low := if good < t.sentry.through then t.sentry.through else good
      let t1 := t.modSentry fun u =>
        { u with lt := if low < u.lt then low else u.lt, readmit := if good < low then some good else none,
                 unsettled := u.unsettled.filter fun q => decide (q ≤ good) }
      .ok 0 [] [] ((t1.discardSteps fun x => decide (good < x.step)).sentrySettle)) s)

def opSentryRelease : OpSpec := mkOp 0x0804 [.v 8] rD wF false

/-- SENTRY.RELEASE (R269). -/
def execSentryRelease (c : Cmd) (s : State) : Host.Outcome State Fault Refusal :=
  let step : Dword := BitVec.ofNat 64 (cp c 0 8)
  .next (runCmd opSentryRelease c [ckNoInline c] [ckState (s.sentry.unsettled.all fun q => decide (step < q))]
    (fun t =>
      let t1 := t.modSentry fun u =>
        { u.dropSteps (TStep.past step) with
          lt := if u.lt < step then step else u.lt }
      .ok 0 [] [] (((t1.commitTo step).stage 0x0902 .notice 0 step.toNat).sentrySettle)) s)

def opSentryStatus : OpSpec := mkOp 0x0805 [] rD wFTH false

/-- SENTRY.STATUS: COMMIT_THROUGH, LT and the mask of suspended WIDs. -/
def execSentryStatus (c : Cmd) (s : State) : Host.Outcome State Fault Refusal :=
  .next (runCmd opSentryStatus c [ckNoInline c] []
    (fun t => .ok (BitVec.ofNat 64 ((t.sentry.suspended.map fun w => 2 ^ w).sum))
      (be 8 t.sentry.through.toNat ++ be 8 t.sentry.lt.toNat) [] t) s)

def opSentryParam : OpSpec := mkOp 0x0806 [.v 2, .v 1, .r 1, .v 4, .v 2] rD wFT false

/-- SENTRY.PARAM (Table 10.11). -/
def execSentryParam (c : Cmd) (s : State) : Host.Outcome State Fault Refusal :=
  let rng := fun (o n lo hi : Nat) => ckRange (decide (lo ≤ cp c o n) && decide (cp c o n ≤ hi)) o
  .next (runCmd opSentryParam c
    [ckNoInline c, rng 0 2 1 10000, rng 2 1 1 255, rng 4 4 1 600000, rng 8 2 1 1440] []
    (fun t => .ok 0 [] [] (t.modSentry fun u =>
      { u with settle := cp c 0 2 * 1000, faMax := cp c 2 1, replayTo := cp c 4 4 * 1000000,
               faWin := cp c 8 2 * 60000000000 })) s)

/-! ### Commands of Table 16.14 after which the barrier is looked at again -/

/-- The owner withdrew a HANG verdict: Brake raises none for the same silence again, and a hung engine's verdict is over. -/
def State.hangClosed (v : OwnV) (s : State) : State :=
  if v.kind = 2 then
    (s.modBrake fun _ => if v.source = 0 then { s.brake with closed := true, fixed := none }
      else if v.source = 1 then { s.brake with eng := none, fixed := none }
      else { s.brake with blocks := s.brake.blocks.map fun b => if b.addr == v.subj then { b with closed := true } else b })
  else s

/-- VERDICT.WITHDRAW (R231, R240): an open verdict with reason OWNER, or an entry of a demoted list. -/
def execVerdictWithdraw (c : Cmd) (s : State) : Host.Outcome State Fault Refusal :=
  let vid : Word := BitVec.ofNat 32 (cp c 0 4)
  let subj : Laddr := BitVec.ofNat 18 (cp c 4 4)
  let own := s.verd.own.find? fun v => v.vid == vid && v.subj == subj
  let dem := fun (h : Holder) => h.demoted.any fun v => v.vid == vid && v.subj == subj
  .next (runCmd opVerdictWithdraw c [ckNoInline c, ckAddr c 4]
    [ckState ((s.openPair vid subj).isSome || own.isSome || dem s.verd.tray || dem s.verd.fleet)]
    (fun t =>
      match t.openPair vid subj with
      | some p =>
        match p.v with
        | some v => .ok 0 [] [] (t.withdrawPair (tgetD t.verd.scores p.score (parseScore [])) p v wdOwner t.tb0Ns)
        | none => .ok 0 [] [] t
      | none =>
        match own with
        | some v => .ok 0 [] [] ((t.withdrawOwn v 2 wdOwner).hangClosed v).sentrySettle
        | none =>
          let clr := fun (h : Holder) => { h with demoted := h.demoted.filter fun v => !(v.vid == vid && v.subj == subj) }
          .ok 0 [] [] ((t.modHolder false clr).modHolder true clr)) s)

/-- JOB.MEMBERS (R240 to R243, R248): the job view, replaced or added to. -/
def execJobMembers (c : Cmd) (s : State) : Host.Outcome State Fault Refusal :=
  let job := cp c 0 4
  let n := cp c 8 4
  let mode := cp c 12 1
  let b := cdata c 0
  let ms := (List.range n).map fun i => parseMember b (16 * i)
  let old := match tget s.verd.jobs job with | some v => if mode = 1 then v.members else [] | none => []
  let all := (old.filter fun m => !(ms.any fun x => x.addr == m.addr)) ++ ms
  let others := ((s.verd.jobs.filter fun e => e.1 != job).map fun e => e.2.members.length).sum
  let known := (tget s.verd.jobs job).isSome
  .next (runCmd opJobMembers c
    [ckData opJobMembers c 0 (16 * n), ckAddr c 4, ckParam (decide (mode ≤ 1)) 12,
     ckParam ((List.range n).all fun i => decide (rd b (16 * i) 4 < 2 ^ 18) && decide (rd b (16 * i + 4) 1 ≤ 3)
       && decide (rd b (16 * i + 5) 1 ≤ 1) && rd b (16 * i + 6) 2 == 0) 16]
    [ckCap (known || decide (s.verd.jobs.length < 64)) (64 - s.verd.jobs.length),
     ckCap (decide (others + all.length ≤ 131072)) (131072 - others)]
    (fun t =>
      let t1 := t.modVerd fun u =>
        { u with jobs := tput u.jobs job ⟨BitVec.ofNat 32 job, BitVec.ofNat 18 (cp c 4 4), all⟩,
                 dies := (all.filter fun m => t.ownTray m.addr).foldl (fun d m =>
                   if (tget d m.addr.toNat).isSome then d else tput d m.addr.toNat (dieNew t.tb1Ns)) u.dies }
      .ok 0 [] [] ((all.foldl (fun u m => u.reviewDie m.addr) t1).raiseThrough (BitVec.ofNat 32 job)).settleInsts) s)


end Sys2Proof.Machine
end

