-- ==== Sys2Proof/Machine/Tailrace.lean ====
section
/-! DEFINITION. Tailrace (spec/12): trace packets and records, sync, authorisation, marks, tensor watches; the commands of
Table 16.17 and JOB.END. -/

namespace Sys2Proof.Machine

/-- A source. -/
def State.tsrc (s : State) (i : Nat) : TrSource := tgetD s.trace.sources i trSourceNew

/-- Change a source. -/
def State.modTsrc (i : Nat) (f : TrSource → TrSource) (s : State) : State :=
  s.modTrace fun u => { u with sources := tput u.sources i (f (tgetD u.sources i trSourceNew)) }

/-- A trace packet is dropped whole and counted (R317). -/
def State.dropPacket (src tc nw : Nat) (s : State) : State :=
  (s.bump cTraceDrop).modTsrc src fun x =>
    let d := tgetD x.unrep tc (0, 0)
    { x with drops := satAdd 32 x.drops 1, lossDue := true, unrep := tput x.unrep tc (satAdd 32 d.1 1, satAdd 32 d.2 nw) }

/-! ### Packet headers (Table 12.1) -/

def tpKind (p : TrcPacket) : Nat := bits p.header.toNat 63 58
def tpSrc (p : TrcPacket) : Nat := bits p.header.toNat 57 50
def tpClass (p : TrcPacket) : Nat := bits p.header.toNat 49 48
def tpNw (p : TrcPacket) : Nat := bits p.header.toNat 47 42
def tpPriv (p : TrcPacket) : Bool := bit p.header.toNat 41
def tpHsync (p : TrcPacket) : Bool := bit p.header.toNat 40
def tpArg (p : TrcPacket) : Nat := p.header.toNat % 2 ^ 40

/-- A payload word. -/
def tpWord (p : TrcPacket) (i : Nat) : Nat := (p.words.getD i 0).toNat

/-- The port takes a packet (R305, R306): die role, ENG running, the port out of reset, no drain. -/
def State.trcReady (s : State) : Bool := s.isDie && s.engUp && s.portUp .trc && s.pow.entry.isNone

/-- NW is a value of Table 12.3 for the kind, and the kind is none of the reserved ones. -/
def tpGood (p : TrcPacket) : Bool :=
  let k := tpKind p
  p.words.length == tpNw p && (if k < 3 then decide (tpNw p ≤ 32) else if k = 0x10 ∨ k = 0x11 then tpNw p == 2
    else if k = 0x12 then tpNw p == 3 else k == 0x20 && decide (2 ≤ tpNw p) && decide (tpNw p ≤ 32))

/-! ### Records (R311, R312, R317, R318) -/

/-- An entry's bytes (Table 12.5). -/
def trEntryBytes (base : Nat) (e : TrEntry) : List Byte :=
  be 8 (e.kind * 2 ^ 58 + e.src * 2 ^ 50 + e.tcls * 2 ^ 48 + e.words.length * 2 ^ 42 + b2n e.priv * 2 ^ 41
    + b2n e.hsync * 2 ^ 40 + b2n e.loss * 2 ^ 39 + b2n e.excl * 2 ^ 38 + min (e.t - base) (2 ^ 24 - 1))
    ++ (e.words.map fun w => be 8 w.toNat).flatten

/-- Bytes of an entry. -/
def TrEntry.size (e : TrEntry) : Nat := 8 + 8 * e.words.length

/-- Bytes of a record's entries. -/
def TrRec.size (r : TrRec) : Nat := (r.ents.map TrEntry.size).sum

/-- BASE of a record: the stamp of its first entry. -/
def TrRec.base (r : TrRec) : Nat := match r.ents with | e :: _ => e.t | [] => 0

/-- Bytes of packets that a record holds. -/
def TrRec.packetBytes (r : TrRec) : Nat := ((r.ents.filter (·.packet)).map TrEntry.size).sum

/-- Occupancy of the trace buffer: packets of open and waiting records, and tensor data not yet in a record. -/
def State.traceOcc (s : State) : Nat :=
  let o := fun (x : Option TrRec) => match x with | some r => r.packetBytes | none => 0
  o s.trace.open2 + o s.trace.open3 + ((s.trace.closed.map fun c => c.2.packetBytes).sum)
    + ((s.trace.watches.map fun w => match w.2.open' with | some d => d.data.length | none => 0).sum)

/-- Room on a stream outside its reserve (R107, R312). -/
def State.roomFor (s : State) (c bodyLen : Nat) : Bool :=
  decide (queueCells (s.scfg c).queue + cellsFor bodyLen + 64 ≤ (s.scfg c).quota)

/-- The TRACE body of a record (Table 12.4). -/
def traceBody (r : TrRec) (first : Bool) : List Byte :=
  be 8 r.base ++ be 2 r.ents.length ++ be 1 (b2n first) ++ zeros 5 ++ (r.ents.map (trEntryBytes r.base)).flatten

/-- Waiting records are offered in order while their streams have room. -/
def State.offerTrace : Nat → State → State
  | 0, s => s
  | n + 1, s =>
    match s.trace.closed with
    | [] => s
    | (c3, r) :: rest =>
      let first := if c3 then s.trace.first3 else s.trace.first2
      let body := traceBody r first
      if s.engUp && s.roomFor (if c3 then 3 else 2) body.length then
        let q : Req := { dst := .up, cls := if c3 then 3 else 2, typ := tTrace, unit := uTailrace, flags := 0,
                         stamp := some r.base, body := body }
        let p := s.offer q
        if p.2 then
          State.offerTrace n (p.1.modTrace fun u =>
            { u with closed := rest, first2 := if c3 then u.first2 else false, first3 := if c3 then false else u.first3 })
        else p.1
      else s

/-- Every waiting record is looked at. -/
def State.tracePump (s : State) : State := s.offerTrace (s.trace.closed.length)

/-- A Plovan class is in use by trace: some source is enabled and some trace class goes there (R311). -/
def TraceUnit.inUse (u : TraceUnit) (c3 : Bool) : Bool :=
  u.mask != 0 && (if c3 then u.tcmap != 0 else u.tcmap != 0xF)

/-- The lowest Plovan class used by trace. -/
def TraceUnit.lowest (u : TraceUnit) : Bool := !(u.inUse false)

/-- DROP entries for the sources and trace classes with drops since their last report (R318), as many as fit. -/
def State.dropEntries (s : State) : List TrEntry :=
  (s.trace.sources.map fun e => e.2.unrep.map fun d =>
    ({ kind := 0x31, src := e.1, tcls := d.1, priv := false, hsync := false, loss := false, excl := false, t := s.tb0Ns,
       words := [BitVec.ofNat 64 (d.2.1 * 2 ^ 32 + d.2.2)], packet := false } : TrEntry)).flatten

/-- An open record closes and joins those that wait (R312, R318). -/
def State.closeTrace (c3 : Bool) (s : State) : State :=
  match (if c3 then s.trace.open3 else s.trace.open2) with
  | none => s
  | some r =>
    let ds := if c3 == s.trace.lowest then s.dropEntries.take ((2012 - r.size) / 16) else []
    let done := fun (i c : Nat) => ds.any fun e => e.src == i && e.tcls == c
    let s1 := s.modTrace fun u =>
      { u with closed := u.closed ++ [(c3, { r with ents := r.ents ++ ds })],
               sources := u.sources.map fun e => (e.1, { e.2 with unrep := e.2.unrep.filter fun d => !done e.1 d.1 }),
               open2 := if c3 then u.open2 else none, open3 := if c3 then none else u.open3 }
    s1.tracePump

/-- An entry does not fit into the open record of its class (R312). -/
def State.noPlace (s : State) (c3 : Bool) (e : TrEntry) : Bool :=
  match (if c3 then s.trace.open3 else s.trace.open2) with
  | some r => decide (2012 < r.size + e.size) || decide (2 ^ 24 ≤ e.t - r.base) || decide (e.t < r.base)
  | none => false

/-- An entry goes into the open record of a class, in a new one where it does not fit (R312, R313). -/
def State.placeRaw (c3 : Bool) (e : TrEntry) (s : State) : State :=
  (if s.noPlace c3 e then s.closeTrace c3 else s).modTrace fun u =>
    let add := fun (x : Option TrRec) => match x with
      | some r => some { r with ents := r.ents ++ [e] }
      | none => some ({ ents := [e], opened := s.tb1Ns } : TrRec)
    if c3 then { u with open3 := add u.open3 } else { u with open2 := add u.open2 }

/-! ### Sync (R313, R314, R320) -/

/-- Payload of a SYNC entry (Table 12.6). -/
def State.syncWords (s : State) (full : Bool) (t : Nat) : List Dword :=
  [BitVec.ofNat 64 t, s.tb2Ns,
   BitVec.ofNat 64 (b2n full * 2 ^ 56 + lockCode s.time.lock * 2 ^ 54 + s.trace.syncSeq.toNat * 2 ^ 32)]
  ++ if full then [3, 2, 1, 0].map fun q => s.trace.mask.extractLsb' (64 * q) 64 else []

/-- A SYNC entry in the record of every class in use, and a sync request (R313); after a FULL one every source must sync. -/
def State.placeSync (full : Bool) (t : Nat) (s : State) : State :=
  let e : TrEntry := { kind := 0x30, src := 0, tcls := 0, priv := false, hsync := false, loss := false, excl := false, t := t,
                       words := s.syncWords full t, packet := false }
  let s1 := if s.trace.inUse false then s.placeRaw false e else s
  let s2 := if s.trace.inUse true then s1.placeRaw true e else s1
  let s3 := s2.modTrace fun u => { u with syncSeq := u.syncSeq + 1, fullDue := if full then false else u.fullDue }
  let s4 := if full then (List.range 256).foldl (fun v i => v.modTsrc i fun x => { x with waits := true }) s3 else s3
  s4.emit .syncReq

/-- The FULL SYNC that must come before any other entry (R313, R320). -/
def State.fullIfDue (s : State) : State :=
  if s.trace.fullDue && (s.trace.inUse false || s.trace.inUse true) then s.placeSync true s.tb0Ns else s

/-- The boundaries of the TB0 grid of SYNC_PERIOD up to an instant are taken (R313). -/
def State.syncTo (t0 : Nat) (s : State) : State :=
  let k := gridAt s.trace.syncP t0
  if s.engUp && decide (s.trace.syncK < k) then
    let s0 := s.modTrace fun u => { u with syncK := k, syncP := u.syncNext.getD u.syncP, syncNext := none }
    if s.trcReady then
      let s1 := s0.fullIfDue
      if s1.trace.inUse false || s1.trace.inUse true then s1.placeSync false s.tb0Ns else s1
    else s0
  else s

/-- A packet's entry is placed; where its record closes for space, a SYNC whose boundary has come opens the next (R327). -/
def State.placeEntry (c3 : Bool) (e : TrEntry) (s : State) : State :=
  (if s.noPlace c3 e then (s.closeTrace c3).syncTo s.tb0Ns else s).placeRaw c3 e

/-- SYNC_PERIOD_BOUNDARY (R313), from the AO cycle after the boundary (R327). -/
def execSyncPeriodBoundary (s : State) : Host.Outcome State Fault Refusal := .next (s.syncTo s.tb0Past)

/-- TR_FLUSH_EXPIRY (R312): TR_FLUSH after its first entry an open record closes. -/
def execTrFlushExpiry (cls : Bool) (s : State) : Host.Outcome State Fault Refusal :=
  match (if cls then s.trace.open3 else s.trace.open2) with
  | some r => if s.engUp && s.past1 (r.opened + s.trace.flush) then .next (s.closeTrace cls) else .next s.tracePump
  | none => .next s.tracePump

/-! ### Trace packets (R311, R314, R315, R317) -/

/-- The sources that the authorisation in force covers for a packet of this cycle. -/
def State.authMask (s : State) : BitVec 256 :=
  match s.trace.auth with
  | some a => if s.tb0Ns < a.til then (if a.since < s.time.tb1.toNat then a.mask else a.before) else 0
  | none => 0

/-- Source i is covered by the authorisation in force. -/
def State.authCovers (s : State) (i : Nat) : Bool := s.authMask.getLsbD i

/-- The most that the buffer may hold with a packet of a trace class (R317). -/
def TraceUnit.limit (u : TraceUnit) (tc : Nat) : Nat :=
  if tc = 0 then 1048576 else 16384 * (if tc = 1 then u.th1 else if tc = 2 then u.th2 else u.th3)

/-- A record of the trace buffer without its packet `n`, which is answered; a record that holds nothing else goes too. -/
def TrRec.without (n : Nat) (r : TrRec) : Option TrEntry × Option TrRec :=
  let ps := (List.range r.ents.length).filter fun i => (r.ents[i]?.map (·.packet)).getD false
  match ps[n]? with
  | some i =>
    let l := r.ents.eraseIdx i
    (r.ents[i]?, if l.isEmpty then none else some { r with ents := l })
  | none => (none, some r)

/-- The packets of a record of the trace buffer. -/
def TrRec.packets (r : TrRec) : Nat := (r.ents.filter (·.packet)).length

/-- Packet `n` of a list of waiting records leaves it. -/
def withoutPacket : Nat → List (Bool × TrRec) → Option TrEntry × List (Bool × TrRec)
  | _, [] => (none, [])
  | n, (c, r) :: l =>
    if n < r.packets then
      let p := r.without n
      (p.1, (p.2.map fun x => (c, x)).toList ++ l)
    else
      let p := withoutPacket (n - r.packets) l
      (p.1, (c, r) :: p.2)

/-- A packet of the trace buffer that an uncorrectable word hits is dropped (R311, R317): packet `n` of the waiting records and then
of the open ones, in order. -/
def State.traceEcc (n : Nat) (s : State) : State :=
  let u := s.trace
  let nc := (u.closed.map fun c => c.2.packets).sum
  let n2 := match u.open2 with | some r => r.packets | none => 0
  if n < nc then
    let p := withoutPacket n u.closed
    match p.1 with
    | some e => (s.modTrace fun v => { v with closed := p.2 }).dropPacket e.src e.tcls e.words.length
    | none => s
  else if n < nc + n2 then
    match u.open2.map (TrRec.without (n - nc)) with
    | some (some e, r) => (s.modTrace fun v => { v with open2 := r }).dropPacket e.src e.tcls e.words.length
    | _ => s
  else
    match u.open3.map (TrRec.without (n - nc - n2)) with
    | some (some e, r) => (s.modTrace fun v => { v with open3 := r }).dropPacket e.src e.tcls e.words.length
    | _ => s

/-- A trace packet, or the copy of a mark, is judged and admitted at its header. -/
def State.traceEntry (p : TrcPacket) (tc : Nat) (priv : Bool) (s0 : State) : State :=
  let src := tpSrc p
  if !s0.trace.mask.getLsbD src then s0
  else
    let s := s0.fullIfDue
    let x := s.tsrc src
    if priv && !s.authCovers src then
      s.modTsrc src fun x => { x with excl := satAdd 32 x.excl 1, exclDue := true }
    else if x.waits && !tpHsync p && decide (tpKind p ≤ 1) then
      s.modTsrc src fun x => { x with syncw := satAdd 32 x.syncw 1 }
    else
      let s1 := if tpHsync p then s.modTsrc src fun x => { x with waits := false } else s
      if s1.trace.limit tc < s1.traceOcc + 8 + 8 * tpNw p then s1.dropPacket src tc (tpNw p)
      else
        let e : TrEntry := { kind := tpKind p, src := src, tcls := tc, priv := priv, hsync := tpHsync p, loss := x.lossDue,
                             excl := x.exclDue, t := s.tb0Ns, words := p.words, packet := true }
        (s1.modTsrc src fun x => { x with lossDue := false, exclDue := false }).placeEntry
          (s1.trace.tcmap.getLsbD tc) e

/-- TRACE_PACKET (R306, R307, R311 to R317). -/
def execTracePacket (p : TrcPacket) (s : State) : Host.Outcome State Fault Refusal :=
  if s.trcReady then
    if tpGood p then
      .next (if tpKind p < 3 then s.traceEntry p (tpClass p) (tpPriv p) else s)
    else .next (s.bump cTapParity)
  else .next s

/-- The copy of a mark where MARKS_OUT is set (R310). -/
def State.markCopy (p : TrcPacket) (s : State) : State := if s.trace.mout then s.traceEntry p 0 false else s

/-! ### Tensor watches (R321 to R325) -/

/-- A watch. -/
def State.twatch (s : State) (w : Nat) : TWatch :=
  tgetD s.trace.watches w { ent := none, next := none, open' := none, dumps := 0, disc := [0, 0, 0, 0] }

/-- Replace a watch. -/
def State.putTwatch (w : Nat) (x : TWatch) (s : State) : State :=
  s.modTrace fun u => { u with watches := tput u.watches w x }

/-- The TENSOR_DUMP record of the elements gathered so far (Table 12.8). -/
def State.sendDump (w : Nat) (e : WatchEnt) (d : Dump) (n : Nat) (last : Bool) (s : State) : State :=
  let k := snoopSize e.etype
  s.send { dst := .up, cls := if e.pcls = 2 then 2 else 3, typ := tTensorDump, unit := uTailrace, flags := s.unverified d.step,
           stamp := none,
           body := be 4 e.name.toNat ++ be 4 e.job.toNat ++ be 8 d.step.toNat ++ be 1 w ++ be 1 e.etype
             ++ be 1 (b2n last + 2 * b2n d.trunc + 4 * b2n d.gap) ++ zeros 1 ++ be 4 d.pos ++ be 8 d.off ++ be 4 n ++ zeros 4
             ++ d.data.take (k * n) }

/-- The packets of which bytes are left when the first `n` bytes have gone. -/
def dropBytes : Nat → List Nat → List Nat
  | _, [] => []
  | n, k :: l => if n < k then (k - n) :: l else dropBytes (n - k) l

/-- Whole records leave as they fill; with `last` the rest leaves too, the final record carrying LAST. -/
def State.pumpDump (w : Nat) (e : WatchEnt) (rest last : Bool) : Nat → Dump → State → Dump × State
  | 0, d, s => (d, s)
  | n + 1, d, s =>
    let k := snoopSize e.etype
    let have' := d.data.length / k
    let full := 1988 / k
    if full < have' || (have' == full && !last) then
      State.pumpDump w e rest last n { d with data := d.data.drop (k * full), pkts := dropBytes (k * full) d.pkts,
                                              off := d.off + full } (s.sendDump w e d full false)
    else if last || (rest && decide (0 < have')) then
      ({ d with data := [], pkts := [], off := d.off + have', done := d.done || last }, s.sendDump w e d have' last)
    else (d, s)

/-- A watch is freed and the event posted (Table 16.6). -/
def State.disarm (w cause : Nat) (s : State) : State :=
  let x := s.twatch w
  let s1 := match x.ent, x.open' with
    | some e, some d => (State.pumpDump w e true false (d.data.length + 1) d s).2
    | _, _ => s
  (s1.modTrace fun u => { u with watches := tdel u.watches w }).event 0x0BE1 (be 1 w ++ be 1 cause)

/-- A step begin mark at a watch: a waiting entry takes effect (R321). -/
def State.watchApply (w : Nat) (s : State) : State :=
  let x := s.twatch w
  match x.next with
  | some e =>
    let s0 := match x.ent, x.open' with
      | some o, some d => (State.pumpDump w o true false (d.data.length + 1) d s).2
      | _, _ => s
    s0.putTwatch w { ent := some e, next := none, open' := none, dumps := 0, disc := [0, 0, 0, 0] }
  | none => s

/-- A step begin mark that is no replay's: the watch opens where R322 says so. -/
def State.watchBegin (w : Nat) (job : Word) (step : Dword) (s : State) : State :=
  let s1 := s.watchApply w
  let y := s1.twatch w
  match y.ent with
  | some e =>
    let n := step.toNat
    let hit := e.job == job && s1.trace.replays.isEmpty && y.open'.isNone
      && (if e.every then decide (e.step ≤ n) && (n - e.step) % e.stride == 0 && (e.count == 0 || decide (y.dumps < e.count))
          else n == e.step)
    if hit then
      s1.putTwatch w { y with open' := some { step := step, left := e.cap, trunc := false, gap := false, data := [], pkts := [], pos := 0,
                                              off := 0, done := false } }
    else s1
  | none => s1

/-- A step end mark at a watch: the dump ends with a record that carries LAST, and the watch may disarm itself (R322, R325). -/
def State.watchEnd (w : Nat) (job : Word) (step : Dword) (s : State) : State :=
  let x := s.twatch w
  match x.ent, x.open' with
  | some e, some d =>
    if e.job = job ∧ d.step = step then
      let s1 := if d.done && d.data.isEmpty then s else (State.pumpDump w e true true (d.data.length + 2) d s).2
      let n := x.dumps + 1
      let s2 := s1.putTwatch w { x with open' := none, dumps := n }
      if !e.every then (if x.next.isNone then s2.disarm w 1 else s2)
      else if e.count ≠ 0 ∧ e.count ≤ n ∧ x.next.isNone then s2.disarm w 2 else s2
    else s
  | _, _ => s

/-- The indices of the watches in use. -/
def State.watchIds (s : State) : List Nat := s.trace.watches.map (·.1)

/-- A discarded TENSOR packet is counted by its cause. -/
def State.discardTensor (w cause : Nat) (s : State) : State :=
  s.modTrace fun u => { u with watches := tmod u.watches w fun x => { x with disc := lmod x.disc cause (· + 1) } }

/-- The refills of the tensor bucket that are due (R132, R324): TW_RATE bytes for each k with TB1 ≥ k × 1,000 ns since the last; those
that fall while ENG does not run are not made up for. -/
def State.tensorRefill (s : State) : State :=
  let k := s.tb1Ns / 1000
  s.modTrace fun u =>
    { u with twK := k, tokens := if s.engUp then min u.twDepth (u.tokens + (k - u.twK) * u.twRate) else u.tokens }

/-- TENSOR_PACKET (R317, R322 to R325): a refill comes before the charge (R327). -/
def execTensorPacket (p : TrcPacket) (s1 : State) : Host.Outcome State Fault Refusal :=
  let s := s1.tensorRefill
  if s.trcReady then
    if tpGood p && tpKind p == 0x20 then
      let w := bits (tpArg p) 39 34
      let x := s.twatch w
      match x.ent, x.open' with
      | some e, some d =>
        let k := snoopSize e.etype
        let data := ((p.words.drop 1).map fun v => be 8 v.toNat).flatten
        let n := data.length / k
        let off := tpWord p 0
        let pos := tpArg p % 2 ^ 24
        let mark := fun (g : Dump → Dump) (t : State) => t.putTwatch w { t.twatch w with open' := some (g d) }
        if !s.trace.replays.isEmpty then .next (s.discardTensor w 0)
        else if s.trace.limit (tpClass p) < s.traceOcc + 8 + 8 * tpNw p then
          .next ((s.dropPacket (tpSrc p) (tpClass p) (tpNw p)) |> mark fun y => { y with gap := true })
        else if pos < e.posLo ∨ e.posHi < pos ∨ off < e.offLo ∨ e.offLo + e.nelem < off + n then .next (s.discardTensor w 1)
        else if d.left < data.length then .next ((s.discardTensor w 2) |> mark fun y => { y with trunc := true })
        else if s.trace.tokens < data.length then .next ((s.discardTensor w 3) |> mark fun y => { y with trunc := true })
        else
          let last := bit (tpArg p) 33
          let s0 := s.modTrace fun u => { u with tokens := u.tokens - data.length }
          let apart := !d.data.isEmpty && (d.pos != pos || d.off + d.data.length / k != off)
          let r0 := if apart then State.pumpDump w e true false (d.data.length + 1) d s0 else (d, s0)
          let d1 : Dump := if r0.1.data.isEmpty then { r0.1 with pos := pos, off := off } else r0.1
          let r := State.pumpDump w e false last (data.length + d1.data.length + 2)
            { d1 with data := d1.data ++ data, pkts := d1.pkts ++ [data.length], left := d.left - data.length } r0.2
          .next (r.2.putTwatch w { r.2.twatch w with open' := some r.1 })
      | _, _ => .next (s.discardTensor w 0)
    else .next (s.bump cTapParity)
  else .next s

/-- TENSOR_BUCKET_REFILL (R132, R324). -/
def execTensorBucketRefill (s : State) : Host.Outcome State Fault Refusal := .next s.tensorRefill

/-! ### Marks (R308 to R310) -/

/-- STEP_MARK (R256, R308, R309, R322). -/
def execStepMark (p : TrcPacket) (s : State) : Host.Outcome State Fault Refusal :=
  if s.trcReady then
    if tpGood p && tpKind p == 0x10 then
      let atEnd := bit (tpArg p) 39
      let replay := bit (tpArg p) 38
      let job : Word := BitVec.ofNat 32 (tpWord p 0 / 2 ^ 32)
      let subj : Laddr := BitVec.ofNat 18 (tpWord p 0)
      let step : Dword := BitVec.ofNat 64 (tpWord p 1)
      let s1 := if !atEnd && !replay then s.modTrace fun u => { u with lastStep := step } else s
      let s2 := if replay then s1.modTrace fun u =>
          { u with replays := if atEnd then u.replays.filter fun x => !(x == (job, step, subj))
                              else if u.replays.contains (job, step, subj) then u.replays else u.replays ++ [(job, step, subj)] }
        else s1
      let s3 := s2.sentryMark job step atEnd replay subj
      let s4 := if replay then (if atEnd then s3 else s3.watchIds.foldl (fun t w => t.watchApply w) s3)
        else if atEnd then s3.watchIds.foldl (fun t w => t.watchEnd w job step) s3
        else s3.watchIds.foldl (fun t w => t.watchBegin w job step) s3
      .next (s4.markCopy p)
    else .next (s.bump cTapParity)
  else .next s

/-- The hints of an arrival over the interval since the job's last mark, at most 1 s (R241, Table 9.10). -/
def State.arrivalHints (s : State) (job : Word) : Nat :=
  let h := s.verd.hints
  let prev := tget s.verd.marks job.toNat
  let from1 := max (s.tb1Ns - 1000000000) (match prev with | some p => p.2 | none => 0)
  let from0 := max (s.tb0Ns - 1000000000) (match prev with | some p => p.1 | none => 0)
  let since := fun (t : Option Nat) => match t with | some x => decide (from1 < x) | none => false
  let replays := ((h.replays.filter fun r => decide (from1 < r.1)).map (·.2)).sum
  b2n (s.gov.clamp || since h.belowEnd) + 2 * b2n (since h.preemptAt)
    + 4 * b2n (since h.linkAt || decide (s.verd.repMin ≤ replays)) + 8 * b2n (s.drillIn s.sys.laddr from0 s.tb0Ns)

/-- COLL_MARK (R241, R308): an ARRIVAL record with the mark's stamp; an acting tray master gathers its own. -/
def execCollMark (p : TrcPacket) (s : State) : Host.Outcome State Fault Refusal :=
  if s.trcReady then
    if tpGood p && tpKind p == 0x11 then
      let job : Word := BitVec.ofNat 32 (tpWord p 0 / 2 ^ 32)
      let coll : BitVec 16 := BitVec.ofNat 16 (tpArg p)
      let step : Dword := BitVec.ofNat 64 (tpWord p 1)
      let hints := s.arrivalHints job
      let s1 := s.modVerd fun u => { u with marks := tput u.marks job.toNat (s.tb0Ns, s.tb1Ns) }
      let s2 :=
        if s.isMaster then
          (if (s.job job).isSome then
            (s1.arrive job coll step { addr := s.sys.laddr, hints := hints, qual := 0, via := none, t := s.tb0Ns }).settleInst
              job coll step
          else s1)
        else s1.send { dst := .up, cls := 1, typ := tLateness, unit := uVerdict, flags := 0, stamp := some s.tb0Ns,
                       body := be 4 job.toNat ++ be 2 coll.toNat ++ be 1 0 ++ be 1 0 ++ be 8 step.toNat ++ be 1 hints }
      .next (s2.markCopy p)
    else .next (s.bump cTapParity)
  else .next s

/-- STREAM_MARK (R211, R213, R308): a step input of every STEP channel of the stream. -/
def execStreamMark (p : TrcPacket) (s : State) : Host.Outcome State Fault Refusal :=
  if s.trcReady then
    if tpGood p && tpKind p == 0x12 then
      let stream := bits (tpArg p) 35 24
      let step := tpWord p 0
      let t := s.tb0Ns
      let v := fun (i : Nat) => if i = 1 then tpWord p 1 / 2 ^ 32 else if i = 2 then tpWord p 1 % 2 ^ 32
        else if i = 3 then tpWord p 2 / 2 ^ 32 else tpWord p 2 % 2 ^ 32
      let s1 := (s.switchDue.model.chans.filter fun e => e.2.kind == 2 && e.2.stream == stream).foldl (fun u e =>
        let dt : Option Int := e.2.prev.map fun q => (t : Int) - q.1
        let gap := match e.2.prev with | some q => q.2 + 1 != step | none => false
        (u.pushInput e.1 { stamp := t, gap := gap, raws := e.2.idx.map fun j => if j = 0 then dt else some ((v j : Nat) : Int) }).modChan
          e.1 fun x => { x with prev := some (t, step) }) s.switchDue
      .next (s1.markCopy p)
    else .next (s.bump cTapParity)
  else .next s

/-! ### Authorisation (R316) -/

/-- Four records of an authorisation's installation or end. -/
def State.authRecords (code : BitVec 16) (mask : BitVec 256) (s : State) : State :=
  [0, 1, 2, 3].foldl (fun t q => t.stage code .notice q (mask.extractLsb' (64 * q) 64).toNat) s

/-- The authorisation in force ends. -/
def State.endAuth (s : State) : State :=
  match s.trace.auth with
  | some a => (s.modTrace fun u => { u with auth := none }).authRecords 0x0B03 a.mask
  | none => s

/-- AUTH_EXPIRY (R316): TB0 has reached acceptance plus the duration. -/
def execAuthExpiry (s : State) : Host.Outcome State Fault Refusal :=
  match s.trace.auth with
  | some a => if s.aoUp && decide (a.til ≤ s.tb0Ns) then .next s.endAuth else .next s
  | none => .next s

/-- One hour in nanoseconds. -/
def hourNs : Nat := 3600000000000

/-- AUTH_LOCKOUT_END (R316): one hour after the fourth refusal. -/
def execAuthLockoutEnd (s : State) : Host.Outcome State Fault Refusal :=
  match s.trace.lockAt with
  | some t =>
    if s.aoUp && decide (t + hourNs ≤ s.tb1Ns) then .next (s.modTrace fun u => { u with lockAt := none, refusals := [] })
    else .next s
  | none => .next s

/-! ### Resets and power states -/

/-- Packets in the buffer are lost and counted in TRACE_DROP; with `keep` their counts stay to be reported (R318, R319). -/
def State.dropBuffer (keep : Bool) (s : State) : State :=
  let o := fun (x : Option TrRec) => match x with | some r => r.ents.filter (·.packet) | none => []
  let ps := o s.trace.open2 ++ o s.trace.open3 ++ (s.trace.closed.map fun c => c.2.ents.filter (·.packet)).flatten
  let dumps := (s.trace.watches.map fun w => match w.2.open' with | some d => d.pkts.length | none => 0).sum
  let s1 := if keep then ps.foldl (fun t e => t.dropPacket e.src e.tcls e.words.length) s
    else s.bumpN cTraceDrop (ps.length + dumps)
  s1.modTrace fun u => { u with open2 := none, open3 := none, closed := [] }

/-- ENG reset (R314, R316, R318, R324, Table 11.6): buffers lost, unreported counts cleared, bucket full, authorisation ended, a
FULL SYNC owed before any other entry. -/
def State.traceEngReset (s : State) : State :=
  (s.endAuth.dropBuffer false).modTrace fun u =>
    { u with sources := u.sources.map fun e => (e.1, { e.2 with unrep := [], lossDue := false, exclDue := false }),
             tokens := u.twDepth, fullDue := true, replays := [],
             watches := u.watches.map fun e => (e.1, { e.2 with open' := none }) }

/-- What an open dump has of its record in the making leaves (R319). -/
def State.flushDump (w : Nat) (s : State) : State :=
  let x := s.twatch w
  match x.ent, x.open' with
  | some e, some d =>
    let r := State.pumpDump w e true false (d.data.length + 1) d s
    r.2.putTwatch w { r.2.twatch w with open' := some r.1 }
  | _, _ => s

/-- Entry to a lower power state (R319): open records close, and they and what the buffer has of open dumps are offered. -/
def State.traceDrain (s : State) : State :=
  s.watchIds.foldl (fun t w => t.flushDump w) ((s.closeTrace false).closeTrace true).tracePump

/-- Exit to RUN (R319, R320): the first TRACE record of each class says so, and a FULL SYNC comes first. -/
def State.traceWake (s : State) : State :=
  (s.modTrace fun u => { u with first2 := true, first3 := true, fullDue := true }).fullIfDue

/-! ### Commands (Table 16.17) -/

def opTraceConfig : OpSpec :=
  mkOp 0x0A00 [.v 32, .v 1, .v 1, .v 1, .v 1, .v 1, .r 1, .v 2, .v 2] rD wFT false

/-- TRACE.CONFIG (R311, R312, R313, R317): from the next packet header, a new SYNC_PERIOD from the next boundary of the old one
(R83). -/
def execTraceConfig (c : Cmd) (s : State) : Host.Outcome State Fault Refusal :=
  let th := fun (o : Nat) => cp c o 1
  .next (runCmd opTraceConfig c
    [ckNoInline c, ckParam (decide (cp c 32 1 < 16)) 32, ckParam (decide (cp c 33 1 ≤ 1)) 33,
     ckParam (decide (th 34 ≤ th 35) && decide (th 35 ≤ th 36)) 34, ckRange (decide (th 34 ≤ 64)) 34,
     ckRange (decide (th 35 ≤ 64)) 35, ckRange (decide (th 36 ≤ 64)) 36,
     ckRange (decide (1 ≤ cp c 38 2) && decide (cp c 38 2 ≤ 1000)) 38,
     ckRange (decide (1 ≤ cp c 40 2) && decide (cp c 40 2 ≤ 10000)) 40] []
    (fun t =>
      .ok 0 [] [] (t.modTrace fun u =>
        { u with mask := BitVec.ofNat 256 (cp c 0 32), tcmap := BitVec.ofNat 4 (cp c 32 1), mout := cp c 33 1 == 1,
                 th3 := th 34, th2 := th 35, th1 := th 36, flush := cp c 38 2 * 10000, syncNext := some (cp c 40 2 * 100000) })) s)

def opTraceAuth : OpSpec := mkOp 0x0A01 [.v 6, .r 2, .v 4, .v 32] rD wFT false

/-- The hour after the fourth refusal is not over. -/
def State.authLocked (s : State) : Bool := match s.trace.lockAt with | some t => decide (s.tb1Ns < t + hourNs) | none => false

/-- The token of TRACE.AUTH does not match, or none is configured. -/
def State.badToken (s : State) (c : Cmd) : Bool := s.authToken == 0 || s.authToken != cp c 0 6

/-- TRACE.AUTH is refused: a wrong token, no token configured, or the lockout. -/
def State.authRefused (s : State) (c : Cmd) : Bool := s.authLocked || s.badToken c

/-- TRACE.AUTH (R316). -/
def execTraceAuth (c : Cmd) (s : State) : Host.Outcome State Fault Refusal :=
  let pr := [ckNoInline c, ckRange (decide (1 ≤ cp c 8 4) && decide (cp c 8 4 ≤ 86400)) 8]
  let eng : Check := { ok := s.engUp, status := stState, detail := errDetail 0 5 0xFF }
  let s1 := runCmd opTraceAuth c pr [ckStatus (!s.authRefused c) stAuth]
    (fun t =>
      let m := BitVec.ofNat 256 (cp c 12 32)
      .ok 0 [] [] ((t.modTrace fun u =>
        { u with auth := some { mask := m, since := t.time.tb1.toNat, before := t.authMask,
                                til := t.tb0Ns + cp c 8 4 * 1000000000 } }).authRecords 0x0B02 m)) s
  let reached := s.pathReady opTraceAuth.code c && (firstFail (baseChecks opTraceAuth c s ++ pr ++ [eng])).isNone
  let old := s.trace.refusals.filter fun t => decide (s.tb1Ns < t + hourNs)
  if reached && s.badToken c then
    if s.authLocked then .next (s1.stage 0x0B01 .notice old.length 0)
    else
      let l := (if s.trace.lockAt.isSome then [] else old) ++ [s.tb1Ns]
      .next ((s1.modTrace fun u => { u with refusals := l, lockAt := if 4 ≤ l.length then some s.tb1Ns else none }).stage 0x0B01
        .notice l.length 0)
  else .next s1

def opTraceDeauth : OpSpec := mkOp 0x0A02 [] rD wFT false

/-- TRACE.DEAUTH (R316). -/
def execTraceDeauth (c : Cmd) (s : State) : Host.Outcome State Fault Refusal :=
  .next (runCmd opTraceDeauth c [ckNoInline c] [] (fun t => .ok 0 [] [] t.endAuth) s)

def opTraceStatus : OpSpec := mkOp 0x0A03 [.v 1] rD wFTH false

/-- TRACE.STATUS: excluded, dropped and sync-wait counts of a source, and the seconds left to the authorisation. -/
def execTraceStatus (c : Cmd) (s : State) : Host.Outcome State Fault Refusal :=
  .next (runCmd opTraceStatus c [ckNoInline c] []
    (fun t =>
      let x := t.tsrc (cp c 0 1)
      let left := match t.trace.auth with | some a => (a.til - t.tb0Ns) / 1000000000 | none => 0
      .ok 0 (be 4 x.excl ++ be 4 x.drops ++ be 4 x.syncw ++ be 4 left) [] t) s)

def opWatchArm : OpSpec := mkOp 0x0B00 [.ptr] rD wFT false

/-- A watch entry as it is read (Table 12.7). -/
def parseWatch (b : List Byte) : WatchEnt :=
  { etype := rd b 1 1, every := rd b 2 1 == 1, pcls := rd b 3 1, name := BitVec.ofNat 32 (rd b 4 4),
    job := BitVec.ofNat 32 (rd b 8 4), cap := rd b 12 4, step := rd b 16 8, stride := rd b 24 8, offLo := rd b 32 8,
    nelem := rd b 40 4, posLo := rd b 44 4, posHi := rd b 48 4, count := rd b 52 4, raw := padTo 64 b }

/-- R321's conditions on a watch entry. -/
def watchEntOk (b : List Byte) (e : WatchEnt) : Bool :=
  decide (e.etype ≤ 5) && decide (rd b 2 1 ≤ 1) && (e.pcls == 2 || e.pcls == 3) && rd b 56 8 == 0 && decide (e.offLo < 2 ^ 43)
    && decide (e.offLo + e.nelem ≤ 2 ^ 43) && decide (e.posLo < 2 ^ 24) && decide (e.posHi < 2 ^ 24) && decide (e.posLo ≤ e.posHi)
    && (if e.every then decide (1 ≤ e.stride) && decide (e.stride ≤ 2 ^ 32) else e.stride == 0 && e.count == 0)

/-- WATCH.ARM (R321). -/
def execWatchArm (c : Cmd) (s : State) : Host.Outcome State Fault Refusal :=
  let b := cdata c 0
  let w := rd b 0 1
  let e := parseWatch b
  .next (runCmd opWatchArm c
    [ckData opWatchArm c 0 64, ckParam (watchEntOk b e) 0, ckRange (decide (w < 64)) 0,
     ckRange (decide (1 ≤ e.cap) && decide (e.cap ≤ 268435456)) 0, ckRange (decide (1 ≤ e.nelem)) 0] []
    (fun t => .ok 0 [] [] ((t.putTwatch w { t.twatch w with next := some e }).event 0x0BE0 e.raw)) s)

def opWatchDisarm : OpSpec := mkOp 0x0B01 [.v 1] rD wFT false

/-- WATCH.DISARM (R321). -/
def execWatchDisarm (c : Cmd) (s : State) : Host.Outcome State Fault Refusal :=
  let w := cp c 0 1
  .next (runCmd opWatchDisarm c [ckNoInline c, ckRange (decide (w < 64)) 0] [ckState (tget s.trace.watches w).isSome]
    (fun t => .ok 0 [] [] (t.disarm w 0)) s)

def opWatchRate : OpSpec := mkOp 0x0B02 [.v 2, .v 1] rD wFT false

/-- WATCH.RATE (R324): tokens kept, limited to the new depth. -/
def execWatchRate (c : Cmd) (s : State) : Host.Outcome State Fault Refusal :=
  .next (runCmd opWatchRate c
    [ckNoInline c, ckRange (decide (1 ≤ cp c 0 2) && decide (cp c 0 2 ≤ 1000)) 0,
     ckRange (decide (1 ≤ cp c 2 1) && decide (cp c 2 1 ≤ 64)) 2] []
    (fun t => .ok 0 [] [] (t.modTrace fun u =>
      { u with twRate := cp c 0 2, twDepth := cp c 2 1 * 1048576, tokens := min u.tokens (cp c 2 1 * 1048576) })) s)

def opWatchStatus : OpSpec := mkOp 0x0B03 [.v 1] rD wFTH false

/-- WATCH.STATUS; the codes of STATE are open (Config.watchState). -/
def execWatchStatus (c : Cmd) (s : State) : Host.Outcome State Fault Refusal :=
  let w := cp c 0 1
  .next (runCmd opWatchStatus c [ckNoInline c, ckRange (decide (w < 64)) 0] []
    (fun t =>
      let x := t.twatch w
      let st := if (tget t.trace.watches w).isNone then 0 else if x.open'.isNone then 1 else 2
      .ok 0 (be 1 (Config.watchState st) ++ zeros 3 ++ be 4 x.dumps ++ be 4 x.disc.sum ++ be 4 t.trace.tokens) [] t) s)

/-! ### JOB.END (R148, R400) -/

def opJobEnd : OpSpec := { mkOp 0x0707 [.v 4] rDTS wF false with admission := true }

/-- JOB.END (R400): the view goes, its instances close, its watches end; the final STEP records of the watched job, those of its
steps still open, become the teardown flush of class 3 (R148). -/
def execJobEnd (c : Cmd) (s : State) : Host.Outcome State Fault Refusal :=
  let job : Word := BitVec.ofNat 32 (cp c 0 4)
  .next (runCmd opJobEnd c [ckNoInline c] [ckState ((s.job job).isSome || s.sentry.job == some job)]
    (fun t =>
      let mine := t.verd.insts.filter fun i => i.job == job
      let t1 := mine.foldl (fun u i => if u.judges job then u.closeInst i else u) t
      let t2 := t1.modVerd fun u =>
        { u with jobs := tdel u.jobs job.toNat, insts := u.insts.filter fun i => i.job != job, marks := tdel u.marks job.toNat }
      let t3 := (t2.trace.watches.filter fun w =>
          (match w.2.ent with | some e => e.job == job | none => false)
            || (match w.2.next with | some e => e.job == job | none => false)).foldl (fun u w => u.disarm w.1 0) t2
      let t4 := if t3.sentry.job = some job then
          let qs := ((t3.sentry.steps.filter fun x => !x.closed).map fun x =>
            t3.stepReqs { x with part := true } 3).flatten
          let u := (t3.discardSteps fun _ => true).modSentry fun v =>
            { v with watch := v.watch.map fun e => (e.1, e.2 &&& ~~~ (1#128 <<< 127)), watchNext := none }
          u.modHop fun unit => { unit with flushes := u.hop.flushes ++ [(job.toNat, t.tb1Ns, qs)] }
        else t3
      .ok 0 [] [] (t4.modSentry fun v => { v with throughs := v.throughs.filter fun x => x.job != job })) s)

end Sys2Proof.Machine
end

