-- ==== Sys2Proof/Machine/Temper.lean ====
section
/-! DEFINITION. Temper (spec/14, R360, R361). -/

namespace Sys2Proof.Machine

/-- TM_PERIOD_BOUNDARY (R360): the thermal sensor is read; the measurement is skipped outside T0 ± TBAND and while a SCAN
window holds the TEST port; a boundary with CTL or ENG stopped yields nothing. -/
def execTmPeriodBoundary (temp : Int) (s : State) : Host.Outcome State Fault Refusal :=
  let b := gridAt (s.temper.period * 60000000000) s.tb0Ns
  if s.temper.lastK < b ∧ s.aoUp then
    let s1 := s.modTemper fun t => { t with lastK := b, period := t.periodNext.getD t.period, periodNext := none }
    let port := match s.test.win with | some w => w.kind == 0 | none => true
    let inBand := decide (temp - Config.temperT0 ≤ (s.temper.band : Int)) && decide (Config.temperT0 - temp ≤ (s.temper.band : Int))
    .next (if s.ctlUp && s.engUp && port && inBand then s1.modTemper fun t => { t with busy := some temp } else s1)
  else .next s

/-- Loss of a ring oscillator count against its reference, in 0.01 %. -/
def roLoss (i count : Nat) : Nat := (Config.roRef i - count) * 10000 / Config.roRef i

/-- Losses of the 16 ring oscillators. -/
def roLosses (ros : List Nat) : List Nat := ((List.range ros.length).zip ros).map fun e => roLoss e.1 e.2

/-- The offset that R361 wants before its clamp; `smin` is none while no monitor has answered. -/
def TemperUnit.want (t : TemperUnit) (off : Int) : Int :=
  match t.mins with
  | [] => off
  | m :: l =>
    let smin := l.foldl min m
    if smin < t.tgt then off + (ceilDiv (t.tgt - smin) t.tps : Nat)
    else if t.tgt + t.hyst ≤ smin then off - 1
    else off

/-- The least slack over the measurements kept, 0 where there is none. -/
def TemperUnit.smin (t : TemperUnit) : Nat := match t.mins with | [] => 0 | m :: l => l.foldl min m

/-- Body of a TEMPER_PLAN record (Table 14.12). -/
def temperBody (t : TemperUnit) (result : Nat) (cur new : Int) (nmon : Nat) (temp : Int) (loss mean tlast tnext : Nat) :
    List Byte :=
  be 8 t.mseq ++ be 1 result ++ be 1 (offByte cur) ++ be 1 (offByte new) ++ be 1 nmon ++ be 2 (unsigned 16 temp)
    ++ be 2 (min t.smin 65535) ++ be 2 (min loss 65535) ++ be 2 (min mean 65535) ++ zeros 4 ++ be 8 tlast ++ be 8 tnext

/-- TEMPER_MEASUREMENT_DONE (R361): `slack` path-delay monitors, a missing answer being left out and counted; `ros` ring
oscillator counts; the plan goes to the Governor unless the 6 h rule holds it, and one TEMPER_PLAN record follows. -/
def execTemperMeasurementDone (slack : List (Option Nat)) (ros : List Nat) (w : PmbWrite) (s : State) :
    Host.Outcome State Fault Refusal :=
  match s.temper.busy with
  | some temp =>
    if s.ctlUp && s.engUp then
      let got := slack.filterMap id
      let t1 := s.temper
      let keep := match got with | [] => t1.mins | m :: l => t1.mins ++ [l.foldl min m]
      let losses := roLosses ros
      let worst := losses.foldl max 0
      let mean := losses.sum / max 1 losses.length
      let t2 : TemperUnit :=
        { t1 with busy := none, mins := keep.drop (keep.length - t1.qn), mseq := t1.mseq + 1,
                  noAnswer := t1.noAnswer + (slack.length - got.length), aged := t1.aged || decide (t1.warn < worst) }
      let off := s.gov.off
      let want := t2.want off
      let new := max (-10) (min 16 want)
      let s1 := s.modTemper fun _ => t2
      let s2 := if t2.aged && !t1.aged then s1.stage 0x0F03 .notice 0 worst else s1
      let s3 := if new ≠ want then s2.stage 0x0F02 .notice 0 (unsigned 64 want) else s2
      let early := decide (s.tb1Ns < s.gov.offAt + sixHours) && !s.isSpine
      let s4 := if new = off then s3
        else if early then s3.modGov fun g => { g with heldPlan := some new }
        else s3.ownPlan new w
      let result := if new ≠ want then 4 else if new = off then 0 else if s.isSpine then 5 else if early then 3
        else if off < new then 1 else 2
      let tnext := if new ≠ off ∧ !early then s.tb0Ns + sixHours else s.gov.offTb0 + sixHours
      .next (s4.send { dst := .up, cls := 2, typ := tTemperPlan, unit := uTemper, flags := 0, stamp := none,
                       body := temperBody t2 result off new got.length temp worst mean s.gov.offTb0 tnext })
    else .next s
  | none => .next s

def opTemperConfig : OpSpec := mkOp 0x0D05 [.v 2, .v 1, .v 1, .v 1, .v 1, .v 1, .r 1, .v 2] rDTS wFT true

/-- TEMPER.CONFIG (Table 14.10); a new TM_PERIOD from the next boundary of the old one (R83). -/
def execTemperConfig (c : Cmd) (s : State) : Host.Outcome State Fault Refusal :=
  let rng := fun (off n lo hi : Nat) => ckRange (decide (lo ≤ cp c off n) && decide (cp c off n ≤ hi)) off
  .next (runCmd opTemperConfig c
    [ckNoInline c, rng 0 2 1 1440, rng 2 1 4 80, rng 3 1 1 16, rng 4 1 1 255, rng 5 1 1 64, rng 6 1 1 64, rng 8 2 1 2000] []
    (fun t => .ok 0 [] [] (t.modTemper fun u =>
      { u with periodNext := some (cp c 0 2), band := cp c 2 1, qn := cp c 3 1, tgt := cp c 4 1, hyst := cp c 5 1, tps := cp c 6 1,
               warn := cp c 8 2 })) s)

end Sys2Proof.Machine
end

