-- ==== Sys2Proof/Machine/Resets.lean ====
section
/-! DEFINITION. What the reset of each domain clears (R284, Table 11.6), the last gasp (R124, R286, R484), and the entry
into a reset that AO survives. -/

namespace Sys2Proof.Machine

/-! ### PORT domains -/

/-- Interfaces of a port number: SIDE is every side link, FAB is interface 0. -/
def portIfcs (p : Nat) : List Nat := if p = 3 then (List.range 16).map (· + 1) else if p = 4 then [0] else []

/-- An interface loses link state, credits and frame in progress with its receive buffer (R141, R487, Table 11.6). A data frame that
the check unit has taken waits on for its overflow frame (R113). -/
def ifcPortReset (f : IfcSt) : IfcSt :=
  { f with portReset := true, short := false, held := 0, granted := 0, outstanding := 0, leaving := none, rx := [] }

/-- A command of a queue pair, as its path says. -/
def pairPath : Path → Bool
  | .localQueue => true
  | .fabricQueue _ _ => true
  | _ => false

/-- The registers of the CMD port return to their reset values and the commands of the pairs are gone (R420, Table 17.1). -/
def cmdPortReset (c : CmdUnit) : CmdUnit :=
  { c with loc := qpairReset, fab := qpairReset, intStatus := 0, intEnable := 0, fresh := [], tailWas := [], waiting := [],
           acc := c.acc.filter fun a => !pairPath a.path, flight := [], gwWait := [] }

/-- One PORT domain enters reset (Table 11.6). -/
def State.portReset (p : Nat) (s : State) : State :=
  let s1 := s.modPow fun u => { u with heldPorts := if u.heldPorts.contains p then u.heldPorts else u.heldPorts ++ [p] }
  let s2 := (portIfcs p).foldl (fun t i => (t.dropSecond i).modIfc i ifcPortReset) s1
  if p = 2 then s2.modCmd cmdPortReset
  else if p = 5 then
    s2.modTime fun u => { u with ports := tmap u.ports fun _ x => { x with fseq := 0, keptAt := none } }
  else s2

/-! ### ENG -/

/-- Commands in ACCEPTED state whose work an ENG reset takes away get their final reply: an unload has ended, everything else
fails in E_STATE (the spec gives no status; log entry 31). -/
def engAccEnd (c : CmdUnit) : CmdUnit :=
  { c with acc := c.acc.map fun a =>
      if a.ready.isNone && a.opcode == 0x0603 then { a with ready := some (finOk 0 [] []) }
      else if a.ready.isNone && (a.opcode == 0x0600 || a.opcode == 0x0608) then { a with ready := some (finErr stState) }
      else a }

/-- A sample set after ENG reset: its map is gone, and a heavy set has no previous sample (R93, Table 11.6). -/
def setEngReset (light : Bool) (x : SampleSet) : SampleSet :=
  if light then { x with map := [], mapNext := none }
  else { x with map := [], mapNext := none, running := false, baseline := false, prev := snapReset,
                cur := snapReset, mons := [], taken := 0, merged := 0, stretch := false, stops := [], eccHit := [], eccLast := [] }

/-- An interface after ENG reset: Weir's queues, shapers, tags and gate schedule (R134 to R136, Table 11.6). -/
def ifcEngReset (rates : List Nat) (f : IfcSt) : IfcSt :=
  { f with cls := rates.map classReset, gates := [], gateNext := none, second := none, leaving := none, rxPair := none }

/-- Open provisional verdicts of the block. -/
def VerdictUnit.openCount (u : VerdictUnit) : Nat := u.own.length + (u.pairs.filter fun p => p.v.isSome).length

/-- ENG enters reset (Table 11.6, R236). Hopper has been flushed before. -/
def State.engReset (s : State) : State :=
  let s1 := s.bumpN cVerdictWithdrawn s.verd.openCount
  let s2 := s1.traceEngReset
  ((((((((((s2.modPow fun u => { u with engHeld := true, relEng := true }).modHop fun u =>
    { u with
      cfg := List.replicate 8 streamReset, sluice := [0, 0, 0, 0, 0], freeCells := 262144, ovfCells := 0,
      ifcs := match u.ifcs with
        | f :: l => ifcEngReset (sluiceRate s2.sys.strap) f :: l.map (ifcEngReset [8000, 8000, 8000, 8000])
        | [] => [] }).modColl fun u =>
    { u with
      counters := u.counters.filter fun e => decide (e.1 < 256), cfg := [], vecs := [],
      sets := match u.sets with | x :: l => setEngReset true x :: l.map (setEngReset false) | [] => [] }).modTime fun u =>
    { u with asym := [], pairs := [], away := [], solved := [], nodes := [], trayCorr := [], fleetCorr := [], windowsDone := 0 }).modCrown fun u =>
    { u with tray := levelOff u.tray, fleet := levelOff u.fleet }).modModel fun u =>
    { modelReset with eachWait := u.eachWait, residWait := u.residWait }).modVerd fun u =>
    { u with pairs := [], own := [], prep := [] }).modSentry SentryUnit.engReset).modCmd engAccEnd).modBrake fun u =>
    { u with eng := none, fixed := none, prepDue := if u.eng.isSome then none else u.prepDue,
             prepCopy := if u.eng.isSome then none else u.prepCopy,
             side := if u.eng.isSome then u.side.map (fun x => if x.use = 1 then { x with use := 2 } else x) else u.side,
             owed := u.owed.filter fun q => q.typ != tWithdrawal && q.flags != fProv })

/-! ### CTL -/

/-- An access on the side read path that nobody waits for any more. -/
def dropSide (r : Option SideRead) : Option SideRead := r.map fun x => { x with use := 2 }

/-- A clear of the full Ingot slot that waited for a write is made as the write is given up (R304). -/
def State.clearWaiting (s : State) : State := if s.brake.clearDue then s.clearIngot 0 else s

/-- CTL enters reset (Table 11.6, R396, R489, Table 11.5): unanswered commands, stored replies, Ingot buffer, capture and write,
search, Hoist transfers, Temper's measurements; a ladder ends. -/
def State.ctlReset (s : State) : State :=
  ((((((s.modPow fun u => { u with ctlHeld := true, relCtl := true }).modCmd fun u =>
    { u with acc := [], waiting := [], store := [], order := [], ahead := [], assembling := [], flight := [],
             gwWait := [], ctlResets := u.ctlResets + 1 }).modHop fun u =>
    { u with flushes := [] }).modTemper fun u =>
    { u with busy := none, mins := [], mseq := 0, noAnswer := 0, aged := false }).modHoist fun u =>
    { u with chains := [], stage := none, waitStart := none, grant := none,
             trialBad := u.trialBad || u.trialAt.isSome }).clearWaiting).modBrake fun u =>
    { u with ladder := none, capture := none, side := dropSide u.side, prepDue := none, prepCopy := none,
             ctxCopy := none, fixed := none, buffer := [], writing := none, clearDue := false, search := none }

/-! ### Last gasp (R124, R286, R287, R484) -/

/-- DOMAINS of a LAST_GASP record (Table 4.4). -/
def domainBits (ctl eng port : Bool) : Nat := 8 * b2n ctl + 4 * b2n eng + 2 * b2n port

/-- The one-cell LAST_GASP record of stream 0 (Table 4.4), as the AO domain forms it. -/
def State.gaspRec (s : State) (sources domains : Nat) : Rec :=
  { typ := tLastGasp, role := s.sys.phaseRole, cls := 0, src := s.sys.laddr, unit := uBrake, pos := (s.out 0).pos,
    stamp := BitVec.ofNat 32 s.tb0Ns, cells := 1, flags := 0, epochLo := s.epochLo s.tb0Ns,
    body := padTo 44 (be 8 s.tb0Ns ++ be 1 sources ++ be 1 domains ++ zeros 6 ++ be 8 s.trace.lastStep.toNat) }

/-- The path of the last gasp is up, and the credits and Sluice bytes that R287 holds aside are there. -/
def State.gaspReady (s : State) : Bool :=
  let i := s.parentIfc
  s.linkOk i && decide (5 ≤ (s.ifc i).held)
    && (i != 0 || (decide (152 ≤ lget s.hop.sluice 0 0) && decide (152 ≤ lget s.hop.sluice 1 0)))

/-- The AO domain sends the LAST_GASP record, or counts it as not sent (R286, R484). -/
def State.lastGasp (sources domains : Nat) (s : State) : State :=
  let i := s.parentIfc
  let r := s.gaspRec sources domains
  let s1 := (s.modOut 0 fun o => { o with pos := o.pos + 1, emit := o.emit + 1, carried := true }).bump cRecEmitted
  if s.gaspReady then
    let fr := formFrame { streamReset with poly := (s.scfg 0).poly } 0 s.sys.laddr.toNat s.upHop.dst.toNat 0 false [r]
    (s1.charge i 0 fr.data.length).sendFrame i fr.data
  else
    State.dropMark 0 (((s1.modHop fun u => { u with gaspLost := satAdd 16 u.gaspLost 1 }).modOut 0 fun o =>
      { o with dropFlush := o.dropFlush + 1 }))

/-- A frame whose flits are leaving when ENG enters reset ends with ABORT, and its records are counted as flushed (R134). -/
def State.abortFrame (s : State) (i : Nat) : State :=
  match s.onTheWay i with
  | some x =>
    let s1 := s.emit (.abort i)
    if x.recs = 0 then s1
    else ((s1.modOut x.cls fun o => { o with dropFlush := o.dropFlush + x.recs, loss := true }).bumpN cRecDropped x.recs).bumpN
      (0xF0 + x.cls) x.recs
  | none => s

/-- R134 on every interface. -/
def State.abortFrames (s : State) : State := (List.range 17).foldl State.abortFrame s

/-! ### Entry -/

/-- The domains that a source names enter reset while AO stays up (Table 11.7): test windows end, queued records go to the
books, the last gasp leaves, then the domains are reset. A domain in reset stays so. `src` is the bit of SOURCES. -/
def State.resetEntry (src : Nat) (ctl eng : Bool) (ports : List Nat) (s : State) : State :=
  let newC := ctl && !s.pow.ctlHeld
  let newE := eng && !s.pow.engHeld
  let s00 := if newC || newE then s.testReset else s
  let s0 := if newE then s00.abortFrames else s00
  let s1 := if newC || newE then
      (s0.flushAll.lastGasp (2 ^ src) (domainBits ctl eng (!ports.isEmpty))).modPow fun u =>
        { u with sources := BitVec.ofNat 8 (2 ^ src), lastReset := BitVec.ofNat 64 s.tb0Ns, entry := none, waking := false,
                 demandHeld := false, ctlAwake := none }
    else s0
  let s2 := if newE then s1.engReset else s1
  let s3 := if newC then s2.ctlReset else s2
  ports.foldl (fun t p => t.portReset p) s3

/-- All PORT domains. -/
def allPorts : List Nat := List.range portCount

end Sys2Proof.Machine
end

