-- ==== Sys2Proof/Machine/Hoist.lean ====
section
/-! DEFINITION. Hoist: staging, the chain, trial start, confirmation and fallback, the configuration region (spec/18). -/

namespace Sys2Proof.Machine

/-! ### Images (R425, Table 18.4) -/

/-- Bytes of a header that R425 wants 0: offset and length. -/
def rsvdOk (b : List Byte) (l : List (Nat × Nat)) : Bool := l.all fun e => rd b e.1 e.2 == 0

/-- MAGIC, format, reserved bytes and LEN of a staged image of KIND 0 to 2. -/
def imageHeadOk (kind : Nat) (b : List Byte) : Bool :=
  let magic := rd b 0 4
  decide (64 ≤ b.length) && rd b 4 2 == 1 && rd b 24 4 == b.length && decide (b.length ≤ regionSize kind)
    && (if kind = 0 then magic == 0x46574931
          && rsvdOk b [(7, 1), (15, 1), (19, 1), (23, 1), (28, 4), (40, 20)] && decide (rd b 6 1 ≤ 1)
        else if kind = 1 then
          (magic == 0x514E4D31 && rsvdOk b [(22, 2), (28, 4), (40, 20)]) || (magic == 0x4D524D31 && rsvdOk b [(48, 12)])
        else magic == 0x54534C42 && rsvdOk b [(6, 2), (12, 12), (28, 4), (40, 20)])

/-- HCRC and DIGEST of an image. -/
def imageSumsOk (b : List Byte) : Bool := rd b 60 4 == crc32c (b.take 60) && rd b 32 8 == crc64 (b.drop 64)

/-- VER of a directory entry: FWVER, MODELVER or library version. -/
def imageVer (kind : Nat) (b : List Byte) : Word := BitVec.ofNat 32 (rd b (if kind = 1 then 12 else 8) 4)

/-- A firmware header read (Table 18.4). -/
def parseFw (b : List Byte) : FwHdr :=
  { ver := BitVec.ofNat 32 (rd b 8 4), rdMin := rd b 16 1, rdMax := rd b 17 1, cfgWr := rd b 18 1, qmax := rd b 20 1,
    mmax := rd b 21 1, tlib := rd b 22 1, len := rd b 24 4, digest := rd b 32 8 }

/-- Sections of a configuration image from an offset on; none where one is cut short or a reserved byte is set. -/
def parseSecs : Nat → List Byte → Option (List (Nat × List Byte))
  | 0, b => if b.isEmpty then some [] else none
  | n + 1, b =>
    if b.isEmpty then some []
    else
      let len := rd b 4 4
      if b.length < 8 ∨ b.length < 8 + len ∨ rd b 2 2 ≠ 0 then none
      else (parseSecs n (b.drop (8 + ceilDiv len 8 * 8))).map fun l => (rd b 0 2, (b.drop 8).take len) :: l

/-- Parameters of OWNER_FLAGS within Table 18.6 and R406, 0 standing for the default (R437). -/
def ownerRangeOk (d : List Byte) : Bool :=
  let f := fun (off lo hi step : Nat) => let v := rd d off 2
    v == 0 || (decide (lo ≤ v) && decide (v ≤ hi) && v % step == 0)
  f 4 8 256 8 && f 6 1 1000 1 && f 8 1 3600 1 && f 10 1 59 1 && f 12 1 1000 1

/-- The staged sections of a configuration image with the status of its checks (R425, R437). -/
def checkConf (h : FwHdr) (b : List Byte) : BitVec 16 × List (Nat × List Byte) :=
  let fmt := rd b 4 1
  if b.length < 64 ∨ rd b 0 4 ≠ 0x43464731 ∨ !(decide (h.rdMin ≤ fmt) && decide (fmt ≤ h.rdMax))
      ∨ rd b 12 4 ≠ b.length ∨ regionSize 3 < b.length ∨ !rsvdOk b [(5, 3), (20, 12), (40, 20)] then (stParam, [])
  else if !imageSumsOk b then (stCheck, [])
  else match parseSecs b.length (b.drop 64) with
    | none => (stParam, [])
    | some l =>
      match l.find? fun e => e.1 == 1 with
      | none => (stOk, l)
      | some e =>
        if e.2.length ≠ 16 ∨ 4 ≤ rd e.2 0 4 ∨ rd e.2 14 2 ≠ 0 then (stParam, [])
        else if !ownerRangeOk e.2 then (stRange, [])
        else (stOk, l)

/-- An owner section (Table 18.9). -/
def ownerType (t : Nat) : Bool := decide (1 ≤ t) && decide (t ≤ 0xFF)

/-- The status that the checks of R425 give a whole staged image. -/
def State.imageStatus (s : State) (kind : Nat) (b : List Byte) : BitVec 16 :=
  if kind = 3 then (checkConf s.hoist.hdr b).1
  else if !imageHeadOk kind b then stParam
  else if !imageSumsOk b then stCheck
  else if kind = 0 ∧ (rd b 6 1 ≠ 1 ∨ rd b 12 2 ≠ 1 ∨ rd b 14 1 ≠ 1) then stParam
  else stOk

/-! ### Staging (R426, R427, R430) -/

/-- Change the stage. -/
def State.modStage (f : Stage → Stage) (s : State) : State := s.modHoist fun h => { h with stage := h.stage.map f }

/-- A slot's contents in flash. -/
def State.putImage (kind slot : Nat) (b : List Byte) (s : State) : State :=
  if kind = 0 then
    s.modFlash fun u => { u with fw := lmod u.fw slot fun _ => if b.isEmpty then none else some (parseFw b) }
  else if kind = 1 then (s.modFlash fun u => { u with models := lmod u.models slot fun _ => b })
  else (s.modFlash fun u => { u with lib := b })

/-- A slot is erased. -/
def State.eraseSlot (kind slot : Nat) (s : State) : State :=
  (s.putImage kind slot []).eraseFlash (regionBase kind slot) (regionSize kind)

/-- The slot of a stage is set to WRITING and erased (R426). The erase of the scan library comes with its first write, so that a test
window that opens meanwhile goes before it (R427, R442). The copy that a configuration stage rewrites is not whole until its HCRC is
written. -/
def State.slotBegin (kind slot : Nat) (s : State) : State :=
  if kind = 3 then
    s.modFlash fun _ => s.flash.putCfg s.cfgTarget ((s.flash.cfg s.cfgTarget).map fun c => { c with ok := false })
  else
    let s1 := s.modDir (dirIndex kind slot) fun _ => { dirErased with st := .writing }
    if kind = 2 then s1 else s1.eraseSlot kind slot

/-- Chunks of an image (2,000 bytes each). -/
def chunkCount (len : Nat) : Nat := ceilDiv len 2000

/-- The chain entry of a KIND and SLOT. -/
def State.chain (s : State) (kind slot : Nat) : Option Chain :=
  s.hoist.chains.find? fun c => c.kind == kind && c.slot == slot

/-- NEXT of the chain of a stage; 0 for none. -/
def State.stageNext (s : State) (g : Stage) : Laddr := match s.chain g.kind g.slot with | some c => c.next | none => 0

/-- PREV of the chain of a stage; 0 for none. -/
def State.stagePrev (s : State) (g : Stage) : Laddr := match s.chain g.kind g.slot with | some c => c.prev | none => 0

/-- An IMAGE_CHUNK record (Table 18.5). -/
def State.sendChunk (dst : Laddr) (mode kind slot result : Nat) (xfer : Word) (len chunk digest : Nat) (data : List Byte)
    (s : State) : State :=
  s.sendOwed { dst := .block dst, cls := 3, typ := tImageChunk, unit := uHoist, flags := 0, stamp := none,
               body := be 1 mode ++ be 1 kind ++ be 1 slot ++ be 1 result ++ be 4 xfer.toNat ++ be 4 len ++ be 4 chunk
                 ++ be 8 digest ++ data }

/-- A DATA record of a stage. -/
def State.sendData (g : Stage) (c : Nat) (s : State) : State :=
  s.sendChunk (s.stageNext g) 0 g.kind g.slot 0 (g.xfer.getD 0) g.len c g.digest ((g.bytes.drop (2000 * c)).take 2000)

/-- An ACK to PREV with the next chunk expected. -/
def State.sendAck (g : Stage) (c : Nat) (s : State) : State :=
  if s.stagePrev g = 0 then s else s.sendChunk (s.stagePrev g) 1 g.kind g.slot 0 (g.xfer.getD 0) g.len c g.digest []

/-- Chunks that may leave now do: those held, at most HOIST_WIN beyond the acknowledged ones (R428). -/
def State.pumpChunks : Nat → State → State
  | 0, s => s
  | n + 1, s =>
    match s.hoist.stage with
    | some g =>
      if s.stageNext g ≠ 0 ∧ !g.broken ∧ g.sent < g.expect ∧ g.sent < g.acked + s.hoistWin then
        State.pumpChunks n ((s.sendData g g.sent).modStage fun x =>
          { x with sent := x.sent + 1, lastAck := if x.sent = x.acked then s.tb1Ns else x.lastAck })
      else s
    | none => s

/-- Send what may leave. -/
def State.pumpStage (s : State) : State := s.pumpChunks 256

/-- The stage record goes once its slot is done and its forwarding too. -/
def State.stageDrop (s : State) : State :=
  match s.hoist.stage with
  | some g =>
    if g.ended && (s.stageNext g == 0 || g.broken || decide (chunkCount g.len ≤ g.acked)) then
      s.modHoist fun h => { h with stage := none }
    else s
  | none => s

/-- ARGB of STAGE_DONE and STAGE_FAILED. -/
def stageArgb (g : Stage) : Nat := 16 * g.kind + g.slot

/-- A stage ends OK: final reply and STAGE_DONE. -/
def State.stageOk (g : Stage) (ver : Word) (s : State) : State :=
  (((s.modStage fun x => { x with ended := true }).finishAll 0x1000 0 (finOk 0 [] [])).stage 0x1001 .info (stageArgb g)
    (ver.toNat * 2 ^ 32 + g.len)).stageDrop

/-- A stage fails: its slot is erased, final reply and STAGE_FAILED (R425). -/
def State.stageFail (g : Stage) (st : BitVec 16) (s : State) : State :=
  let s1 := if g.kind = 3 ∨ g.dup ∨ (g.src = 1 ∧ g.xfer.isNone) then s
    else (s.modDir (dirIndex g.kind g.slot) fun _ => dirErased).eraseSlot g.kind g.slot
  (((s1.modHoist fun h => { h with stage := none }).finishAll 0x1000 0 (finErr st)).stage 0x1002 .notice (stageArgb g) st.toNat)

/-- The slot already holds a VALID or CONFIRMED image of equal LEN and DIGEST (R430). -/
def State.slotHolds (s : State) (kind slot len digest : Nat) : Bool :=
  let e := s.dirEnt (dirIndex kind slot)
  kind != 3 && (e.st == .valid || e.st == .confirmed) && e.len == len && e.digest == digest

/-- All bytes of the image are there: a configuration image whose flags fail is not written (R437), and a member that held the
image ends at once (R430). -/
def State.stageWhole (s : State) : State :=
  match s.hoist.stage with
  | some g =>
    if g.dup then s.stageOk g (s.dirEnt (dirIndex g.kind g.slot)).ver
    else if g.kind = 3 then
      let st := s.imageStatus 3 g.bytes
      if st = stOk then s.slotBegin 3 0 else s.stageFail g st
    else s
  | none => s

/-- What follows a stage that a command has begun: the first chunks leave, and early checks are made. -/
def State.stageStart (s : State) : State :=
  match s.hoist.stage with
  | some g => if g.src = 0 ∧ !g.ended ∧ g.sent = 0 then s.pumpStage.stageWhole else s
  | none => s

def opUpdateStage : OpSpec := mkOp 0x1000 [.v 1, .v 1, .v 1, .r 1, .v 4, .ptr] rDTS wFT true

/-- KIND and SLOT that UPDATE.STAGE and UPDATE.CHAIN take (R426). -/
def kindSlotOk (kind slot : Nat) : Bool :=
  (kind == 0 && decide (slot < 2)) || (kind == 1 && decide (slot < 4)) || ((kind == 2 || kind == 3) && slot == 0)

/-- UPDATE.STAGE (R425 to R430, R437). -/
def execUpdateStage (c : Cmd) (s : State) : Host.Outcome State Fault Refusal :=
  let kind := cp c 0 1
  let slot := cp c 1 1
  let src := cp c 2 1
  let len := cp c 4 4
  let e := s.dirEnt (dirIndex kind slot)
  let b := cdata c 0
  .next (State.stageStart (runCmd opUpdateStage c
    [ckParam (decide (kind ≤ 3)) 0, ckParam (kindSlotOk kind slot) 1, ckParam (decide (src ≤ 1)) 2,
     ckParam (!(src == 0 && inlinePath c.path)) 2, ckParam (decide (len ≤ regionSize kind)) 4,
     if src = 0 then ckData opUpdateStage c 0 len else ckNoInline c]
    [ckState (kind != 0 || !(slot == s.hoist.running || e.st == .confirmed || e.st == .trial)),
     ckState (src == 0 || (s.chain kind slot).isSome), ckStatus s.hoist.stage.isNone stBusy]
    (fun t =>
      let dig := if src = 0 then rd b 32 8 else 0
      let dup := src == 0 && (t.chain kind slot).isSome && t.slotHolds kind slot len dig
      let g : Stage :=
        { kind := kind, slot := slot, src := src, len := len, digest := dig,
          xfer := if src = 0 then some t.hoist.xferNext else none, bytes := if src = 0 then b else [],
          expect := if src = 0 then chunkCount len else 0, written := 0, sent := 0, acked := 0, rounds := 0, broken := false,
          dup := dup, erased := src == 0 && kind != 2, lastChunk := t.tb1Ns, lastAck := t.tb1Ns,
          ended := false }
      let t1 := t.modHoist fun h => { h with stage := some g, xferNext := if src = 0 then h.xferNext + 1 else h.xferNext }
      let t2 := if src = 0 ∧ !dup ∧ kind ≠ 3 then t1.slotBegin kind slot else t1
      .acc 0 none t2) s))

/-- What of a stage waits for a test window to close (R427): the erase of the library. -/
def State.eraseReady (s : State) (g : Stage) : Bool := g.kind != 2 || g.erased || s.test.win.isNone

/-- The slot of a stage holds the image: what came from a pointer is programmed, after the erase that is still due, and the whole slot is
read back (R425). The configuration region is written by itself. -/
def State.stageWritten (g : Stage) (s : State) : State :=
  if g.kind = 3 then s
  else
    let s1 := if g.erased then s else s.eraseSlot g.kind g.slot
    let s2 := if g.src = 0 then s1.programFlash (regionBase g.kind g.slot) g.bytes else s1
    s2.readFlash (regionBase g.kind g.slot) (regionSize g.kind)

/-- STAGE_COMPLETE (R425, R426, R439): every chunk is written and read back; the image is checked and the slot is VALID, or
the stage fails. `readBackOk` says that what flash holds is what was written. -/
def execStageComplete (readBackOk : Bool) (s : State) : Host.Outcome State Fault Refusal :=
  match s.hoist.stage with
  | some g =>
    if s.ctlUp && !g.ended && !g.dup && g.expect == chunkCount g.len && g.bytes.length == g.len
        && (g.src == 0 || g.written == chunkCount g.len) && (g.src == 0 || g.xfer.isSome) && s.eraseReady g then
      let st := if readBackOk then s.imageStatus g.kind g.bytes else stCheck
      let g1 := { g with erased := true }
      let w := s.stageWritten g
      if st ≠ stOk then .next (w.stageFail g1 st)
      else if g.kind = 3 then
        let l := (checkConf s.hoist.hdr g.bytes).2
        let secs := (l.filter fun e => ownerType e.1).foldl (fun t e => tput t e.1 e.2)
          (s.conf.secs.filter fun e => !ownerType e.1)
        let s1 := s.writeConf secs 0
        .next (s1.stageOk g1 (BitVec.ofNat 32 s1.cfgVer))
      else
        let v := imageVer g.kind g.bytes
        let s1 := (w.putImage g.kind g.slot g.bytes).modDir (dirIndex g.kind g.slot) fun _ =>
          { st := .valid, ver := v, len := g.len, digest := rd g.bytes 32 8, tstage := s.tb0Ns }
        let s2 := if g.kind = 2 then s1.modTest fun t => { t with bad := [] } else s1
        .next (s2.stageOk g1 v)
    else .next s
  | none => .next s

/-! ### The chain (R428 to R430) -/

def opUpdateChain : OpSpec := mkOp 0x1001 [.v 1, .v 1, .r 2, .v 4, .v 4] rDTS wF true

/-- UPDATE.CHAIN: the block's place in the chain of a KIND and SLOT. -/
def execUpdateChain (c : Cmd) (s : State) : Host.Outcome State Fault Refusal :=
  let kind := cp c 0 1
  let slot := cp c 1 1
  .next (State.pumpStage (runCmd opUpdateChain c
    [ckNoInline c, ckParam (decide (kind ≤ 3)) 0, ckParam (kindSlotOk kind slot) 1, ckAddr c 4, ckAddr c 8] []
    (fun t => .ok 0 [] [] (t.modHoist fun h =>
      { h with chains := (h.chains.filter fun x => !(x.kind == kind && x.slot == slot)) ++
          [{ kind := kind, slot := slot, prev := BitVec.ofNat 18 (cp c 4 4), next := BitVec.ofNat 18 (cp c 8 4) }] })) s))

/-- Fields of an IMAGE_CHUNK body. -/
def icMode (b : List Byte) : Nat := rd b 0 1
def icKind (b : List Byte) : Nat := rd b 1 1
def icSlot (b : List Byte) : Nat := rd b 2 1
def icXfer (b : List Byte) : Word := BitVec.ofNat 32 (rd b 4 4)
def icLen (b : List Byte) : Nat := rd b 8 4
def icChunk (b : List Byte) : Nat := rd b 12 4

/-- The bytes that a DATA record brings. -/
def icData (b : List Byte) : List Byte := slice b 24 (min 2000 (icLen b - 2000 * icChunk b))

/-- A DATA record reaches the stage it is meant for (R428, R430). -/
def State.rxData (r : Rec) (s : State) : State :=
  let b := r.body
  match s.hoist.stage with
  | some g =>
    if g.src != 1 || g.ended || g.kind != icKind b || g.slot != icSlot b || s.stagePrev g != r.src || s.stagePrev g == 0
        || decide (g.xfer.getD (icXfer b) ≠ icXfer b) then s
    else if icChunk b ≠ g.expect ∨ (g.xfer.isSome ∧ chunkCount g.len ≤ icChunk b) then s.sendAck { g with xfer := some (icXfer b) } g.expect
    else
      let first := g.xfer.isNone
      if first ∧ (regionSize g.kind < icLen b ∨ icLen b = 0) then s.stageFail g stParam
      else
        let dup := if first then s.slotHolds g.kind g.slot (icLen b) (rd b 16 8) else g.dup
        let g1 : Stage :=
          { g with xfer := some (icXfer b), len := icLen b, digest := if first then rd b 16 8 else g.digest, dup := dup,
                   bytes := g.bytes ++ icData b, expect := g.expect + 1, lastChunk := s.tb1Ns,
                   written := if dup then g.expect + 1 else g.written,
                   erased := g.erased || (first && !dup && g.kind != 2) }
        let s1 := s.modHoist fun h => { h with stage := some g1 }
        let s2 := if first ∧ !dup ∧ g.kind ≠ 3 then s1.slotBegin g.kind g.slot else s1
        let s3 := if dup then s2.sendAck g1 g1.expect else s2
        if g1.expect = chunkCount g1.len then s3.pumpStage.stageWhole else s3.pumpStage
  | none => s

/-- An ACK reaches the stage it is meant for (R428, R429). -/
def State.rxChunkAck (r : Rec) (s : State) : State :=
  let b := r.body
  match s.hoist.stage with
  | some g =>
    if g.kind == icKind b && g.slot == icSlot b && s.stageNext g == r.src && r.src != 0 && g.xfer == some (icXfer b)
        && decide (g.acked < icChunk b) && decide (icChunk b ≤ g.expect) then
      ((s.modStage fun x =>
        { x with acked := icChunk b, sent := max x.sent (icChunk b), rounds := 0, lastAck := s.tb1Ns }).pumpStage).stageDrop
    else s
  | none => s

/-- CHUNK_WRITTEN (R428): a chunk has been written to flash, in ascending order; it is acknowledged to PREV. -/
def execChunkWritten (index : Word) (s : State) : Host.Outcome State Fault Refusal :=
  match s.hoist.stage with
  | some g =>
    if s.ctlUp && !g.ended && !g.dup && index.toNat == g.written && decide (g.written < g.expect) && s.eraseReady g then
      let s0 := if g.kind = 2 ∧ !g.erased then s.eraseSlot 2 0 else s
      let s1 := if g.kind = 3 then s0
        else s0.programFlash (regionBase g.kind g.slot + 2000 * g.written) ((g.bytes.drop (2000 * g.written)).take 2000)
      .next ((s1.modStage fun x => { x with written := x.written + 1, erased := true }).sendAck g (g.written + 1))
    else .next s
  | none => .next s

/-- HOIST_RTO_EXPIRY (R429): the unacknowledged chunks are sent again; after 5 rounds the chain is given up. -/
def execHoistRtoExpiry (s : State) : Host.Outcome State Fault Refusal :=
  match s.hoist.stage with
  | some g =>
    if s.ctlUp && !g.broken && decide (g.acked < g.sent) && s.past1 (g.lastAck + s.hoistRto) then
      if g.rounds < 5 then
        .next (((List.range (g.sent - g.acked)).foldl (fun t i => t.sendData g (g.acked + i)) s).modStage fun x =>
          { x with rounds := x.rounds + 1, lastAck := s.tb1Ns })
      else
        .next (((s.modStage fun x => { x with broken := true }).stage 0x1007 .notice 0 (s.stageNext g).toNat).stageDrop)
    else .next s
  | none => .next s

/-- HOIST_WAIT_EXPIRY (R429): a member's stage that received no chunk for HOIST_WAIT ends with E_TIMEOUT. -/
def execHoistWaitExpiry (s : State) : Host.Outcome State Fault Refusal :=
  match s.hoist.stage with
  | some g =>
    if s.ctlUp && g.src == 1 && !g.ended && (g.xfer.isNone || decide (g.expect < chunkCount g.len))
        && s.past1 (g.lastChunk + s.hoistWait) then .next (s.stageFail g stTimeout)
    else .next s
  | none => .next s

/-! ### The configuration region at start (R438 to R440) -/

/-- A copy that the running image can use. -/
def State.cfgUsable (s : State) (c : Option CfgCopy) : Option CfgCopy :=
  c.bind fun x => if x.ok && decide (s.hoist.hdr.rdMin ≤ x.cfmt) && decide (x.cfmt ≤ s.hoist.hdr.rdMax) then some x else none

/-- Copies whose checks fail are reported. -/
def State.cfgTorn (s : State) : State :=
  let t := fun (b : Bool) (u : State) =>
    match s.flash.cfg b with | some c => if c.ok then u else u.stage 0x1006 .notice (b2n b) 0 | none => u
  t true (t false s)

/-- The block reads the usable copy with the highest GEN, or starts with every section empty (R438). -/
def State.readConf (s0 : State) : State :=
  let s := ((s0.readFlash (cfgBase false) 131072).readFlash (cfgBase true) 131072).cfgTorn
  let pick : Option (Bool × CfgCopy) :=
    match s.cfgUsable s.flash.cfgA, s.cfgUsable s.flash.cfgB with
    | some a, some b => if a.gen < b.gen then some (true, b) else some (false, a)
    | some a, none => some (false, a)
    | none, some b => some (true, b)
    | none, none => none
  match pick with
  | some p =>
    (s.modConf fun u =>
      { secs := p.2.secs, copy := some p.1, gen := p.2.gen, cfmt := p.2.cfmt,
        confirmedCopy := if s.hoist.trialAt.isSome then u.confirmedCopy else some p.1 }).modHoist fun u => { u with confOk := true }
  | none =>
    (s.modConf fun u =>
      { confReset with confirmedCopy := if s.hoist.trialAt.isSome then u.confirmedCopy else none }).modHoist fun u =>
        { u with confOk := false }

/-- A whole copy is there and none is in a format that the image reads (R434, R436). -/
def State.confUnreadable (s : State) : Bool :=
  let whole := fun (c : Option CfgCopy) => match c with | some x => x.ok | none => false
  (whole s.flash.cfgA || whole s.flash.cfgB) && (s.cfgUsable s.flash.cfgA).isNone && (s.cfgUsable s.flash.cfgB).isNone

/-- A TRIAL image of a newer format migrates what it read (R440). -/
def State.migrate (s : State) : State :=
  if s.hoist.trialAt.isSome && s.conf.copy.isSome && decide (s.conf.cfmt < s.hoist.hdr.cfgWr) then
    let t := s.writeConf s.conf.secs s.hoist.hdr.cfgWr
    t.stage 0x1005 .info 0 (s.cfgVer * 2 ^ 32 + t.cfgVer)
  else s

/-! ### Start, confirmation, fallback (R432 to R435) -/

/-- The slot marked CONFIRMED. -/
def State.confirmedSlot (s : State) : Nat := if (s.dirEnt 1).st = .confirmed then 1 else 0

/-- The header of the image in a firmware slot. -/
def State.slotHdr (s : State) (slot : Nat) : FwHdr := (lget s.flash.fw slot none).getD fwHdrReset

/-- 600 s of R434 in nanoseconds. -/
def healthDeadline : Nat := 600000000000

/-- The member tells its tray master that its trial has ended (R435). -/
def State.startDone (result : Nat) (slot : Nat) (s : State) : State :=
  if s.isDie && s.sys.joined && !s.sys.acting then
    s.sendChunk (s.sys.master.getD 0) 5 0 slot result 0 0 0 0 []
  else s

/-- A firmware slot is started on trial: an owner reset of CTL and ENG (R432). -/
def State.startTrial (slot : Nat) (path : Path) (tag : BitVec 16) (s : State) : State :=
  let s1 := (s.modHoist fun h => { h with waitStart := none }).resetEntry 4 true true []
  let s2 := s1.modDir slot fun e => { e with st := .trial }
  (s2.modHoist fun h =>
    { h with running := slot, trialAt := some s.tb1Ns, fallen := false, trialBad := false, selfOk := false, confOk := false,
             restoreOk := true, heldStart := some (path, tag), heldFinal := none }).intSet 9

/-- The held final reply of UPDATE.START is written, at the earliest once the block runs (R432, R447). -/
def State.startReply (s : State) : State :=
  match s.hoist.heldStart, s.hoist.heldFinal with
  | some p, some st =>
    if s.pow.phase == .running && s.ctlUp then
      (s.modHoist fun h => { h with heldStart := none, heldFinal := none }).reply p.1 0
        { tag := p.2, status := st, opcode := 0x1002, final := true, event := false,
          detail := if st = stOk then 0 else errDetail 0 0 0xFF, result := [] } []
    else s
  | _, _ => s

/-- The trial image is confirmed (R433). -/
def State.confirmTrial (s : State) : State :=
  let run := s.hoist.running
  let old := s.confirmedSlot
  let secs := (s.tb1Ns - s.hoist.trialAt.getD s.tb1Ns) / 1000000000
  let s1 := (s.modDir old fun e => { e with st := .valid }).modDir run fun e => { e with st := .confirmed }
  let s2 := (s1.modHoist fun u => { u with trialAt := none, heldFinal := u.heldStart.map fun _ => stOk }).modConf fun u =>
    { u with confirmedCopy := u.copy }
  ((s2.stage 0x1003 .notice 0 (s.sys.fwver.toNat * 2 ^ 32 + secs)).startDone 0 run).startReply

/-- The final status of UPDATE.START after a fallback by cause: 0 DEADLINE, 1 HANG, 2 CONFIG, 3 SELF_CHECK (R434). -/
def fallStatus (cause : Nat) : BitVec 16 := if cause = 0 then stTimeout else if cause = 2 then stState else stInternal

/-- The trial image falls back (R434): FAILED, the confirmed slot takes its place, what the trial wrote in the configuration
region is lost, and the AO health hardware resets CTL and ENG. -/
def State.fallBack (cause : Nat) (s : State) : State :=
  let run := s.hoist.running
  let old := s.confirmedSlot
  let s1 := (s.stage 0x1004 .fault cause (s.sys.fwver.toNat * 2 ^ 32 + (s.slotHdr old).ver.toNat)).modDir run fun e =>
    { e with st := .failed }
  let lost := match s.conf.confirmedCopy with | some c => !c | none => false
  let keep := s.conf.copy.isNone || s.conf.copy == s.conf.confirmedCopy
  let s2 := ((if keep then s1 else s1.eraseFlash (cfgBase lost) 131072).modFlash fun u =>
    if keep then u else u.putCfg lost none).modHoist fun u =>
    { u with running := old, trialAt := none, fallen := true, heldFinal := u.heldStart.map fun _ => fallStatus cause }
  (s2.resetEntry 7 true true []).startDone 1 run

/-- The conditions of R433 under which a TRIAL image confirms itself. -/
def State.healthy433 (s : State) : Bool :=
  match s.hoist.trialAt with
  | some t =>
    decide (t + s.confMin ≤ s.tb1Ns) && s.hoist.selfOk && s.hoist.confOk && s.hoist.restoreOk && s.time.lock == .locked
      && (if s.isDie then s.sys.joined || s.sys.acting else s.linkOk 0) && !s.hoist.trialBad && !s.confirmOwner
      && s.pow.phase == .running && s.ctlUp
  | none => false

/-- FW_SELF_CONFIRM (R433). -/
def execFwSelfConfirm (s : State) : Host.Outcome State Fault Refusal :=
  if s.aoUp && s.healthy433 then .next s.confirmTrial else .next s

/-- FW_HEALTH_DEADLINE (R434, Table 18.11): 600 s have passed; an image that meets R433 in this cycle is confirmed all the
same. -/
def execFwHealthDeadline (s : State) : Host.Outcome State Fault Refusal :=
  match s.hoist.trialAt with
  | some t =>
    if s.aoUp && decide (t + healthDeadline ≤ s.tb1Ns) then
      if s.healthy433 then .next s.confirmTrial else .next (s.fallBack 0)
    else .next s
  | none => .next s

/-- A start is granted or under trial at this master (R435). -/
def State.grantStands (s : State) : Bool := s.hoist.grant.isSome || s.hoist.trialAt.isSome

/-- A joined member asks its tray master before it starts an image (R435). -/
def State.asksMaster (s : State) : Bool := s.isDie && s.sys.joined && !s.sys.acting

def opUpdateStart : OpSpec := mkOp 0x1002 [.v 1] rDTS wFT true

/-- UPDATE.START (R432, R435): a joined member asks its tray master; every other block starts at once. -/
def execUpdateStart (c : Cmd) (s : State) : Host.Outcome State Fault Refusal :=
  let slot := cp c 0 1
  let e := s.dirEnt slot
  let ask := s.asksMaster
  let ok : Bool := !(s.isMaster && s.grantStands) && s.hoist.waitStart.isNone && s.hoist.trialAt.isNone
  let t := runCmd opUpdateStart c [ckNoInline c, ckParam (decide (slot < 2)) 0]
    [ckState ((e.st == .valid || e.st == .trial) && slot != s.hoist.running), ckStatus ok stBusy]
    (fun t => .acc 1 none (t.modHoist fun h => { h with waitStart := some (slot, t.tb1Ns, c.path, c.tag) })) s
  match s.hoist.waitStart, t.hoist.waitStart with
  | none, some _ =>
    if ask && t.cmd.acc.any (fun a => a.path == c.path && a.tag == c.tag) then
      .next (t.sendChunk (t.sys.master.getD 0) 2 0 slot 0 0 0 0 0 [])
    else .next (t.startTrial slot c.path c.tag)
  | _, _ => .next t

/-- The start that waits for its tray master ends with BUSY (R435). -/
def State.startBusy (s : State) : State :=
  (s.modHoist fun h => { h with waitStart := none }).finishAll 0x1002 1 (finErr stBusy)

/-- START_GRANT: the member starts (R435). -/
def State.rxStartGrant (r : Rec) (s : State) : State :=
  match s.hoist.waitStart with
  | some w => if some r.src == s.sys.master then s.startTrial w.1 w.2.2.1 w.2.2.2 else s
  | none => s

/-- START_DENY: the held start ends (R435). -/
def State.rxStartDeny (r : Rec) (s : State) : State :=
  if s.hoist.waitStart.isSome && some r.src == s.sys.master then s.startBusy else s

/-- START_REQ at a tray master: one grant at a time (R435). -/
def State.rxStartReq (r : Rec) (s : State) : State :=
  if s.isMaster && s.ownTray r.src then
    if s.grantStands then s.sendChunk r.src 4 0 (icSlot r.body) 0 0 0 0 0 []
    else (s.modHoist fun h => { h with grant := some (r.src, s.tb1Ns) }).sendChunk r.src 3 0 (icSlot r.body) 0 0 0 0 0 []
  else s

/-- START_DONE at a tray master releases the grant (R435). -/
def State.rxStartDone (r : Rec) (s : State) : State :=
  s.modHoist fun h =>
    { h with grant := match h.grant with | some g => if g.1 = r.src then none else some g | none => none }

/-- An IMAGE_CHUNK record by its MODE (R428 to R430, R435). -/
def State.rxImage (r : Rec) (s : State) : State :=
  match icMode r.body with
  | 0 => s.rxData r
  | 1 => s.rxChunkAck r
  | 2 => s.rxStartReq r
  | 3 => s.rxStartGrant r
  | 4 => s.rxStartDeny r
  | 5 => s.rxStartDone r
  | _ => s

/-- START_REQ_TIMEOUT (R435): no answer within 100 ms. -/
def execStartReqTimeout (s : State) : Host.Outcome State Fault Refusal :=
  match s.hoist.waitStart with
  | some w => if s.ctlUp && s.past1 (w.2.1 + 100000000) then .next s.startBusy else .next s
  | none => .next s

/-- START_GRANT_EXPIRY (R435): 660 s after the grant. -/
def execStartGrantExpiry (s : State) : Host.Outcome State Fault Refusal :=
  match s.hoist.grant with
  | some g =>
    if s.ctlUp && s.past1 (g.2 + 660000000000) then .next (s.modHoist fun h => { h with grant := none }) else .next s
  | none => .next s

def opUpdateConfirm : OpSpec := mkOp 0x1003 [] rDTS wFTH true

/-- The 600 s have passed for an image that does not confirm itself: the fallback wins over a command of the same cycle (R442). -/
def State.fallDue (s : State) : Bool :=
  match s.hoist.trialAt with | some t => decide (t + healthDeadline ≤ s.tb1Ns) && !s.healthy433 | none => false

/-- UPDATE.CONFIRM (R433): a TRIAL image is confirmed at once in either mode. -/
def execUpdateConfirm (c : Cmd) (s : State) : Host.Outcome State Fault Refusal :=
  .next (runCmd opUpdateConfirm c [ckNoInline c] [ckState (s.hoist.trialAt.isSome && !s.fallDue)]
    (fun t => .ok 0 [] [] t.confirmTrial) s)

/-- FWSTATE of UPDATE.STATUS (Table 18.7). -/
def HoistUnit.fwState (h : HoistUnit) : Nat := if h.trialAt.isSome then 1 else if h.fallen then 2 else 0

/-- LEFT of UPDATE.STATUS in seconds. -/
def State.healthLeft (s : State) : Nat :=
  match s.hoist.trialAt with | some t => (t + healthDeadline - s.tb1Ns) / 1000000000 | none => 0

def opUpdateStatus : OpSpec := mkOp 0x1004 [] rDTS wFTH true

/-- UPDATE.STATUS (Table 18.7). -/
def execUpdateStatus (c : Cmd) (s : State) : Host.Outcome State Fault Refusal :=
  .next (runCmd opUpdateStatus c [ckNoInline c] []
    (fun t => .ok 0 (be 1 t.hoist.running ++ be 1 t.hoist.fwState ++ zeros 2 ++ be 4 t.sys.fwver.toNat ++ be 4 t.cfgVer
      ++ be 4 t.healthLeft) [] t) s)

end Sys2Proof.Machine
end

