-- ==== Sys2Proof/Machine/Brake.lean ====
section
/-! DEFINITION. What Brake does with a confirmed hang (spec/11): notices, reset requests, the ladder, the Ingot, the guilty-party
search, escalation. -/

namespace Sys2Proof.Machine

/-! ### Notices (R288, R289, Table 11.8) -/

/-- Escalation events stamped in the last ESC_WIN (R291). -/
def State.nesc (s : State) : Nat := (s.brake.esc.filter fun t => decide (s.tb0Ns < t + s.brake.cfg.escWin)).length

/-- Bits of DETAIL (Table 11.8). -/
def dNoGasp : Nat := 1
def dDrill : Nat := 2
def dWarm : Nat := 4
def dCold : Nat := 8
def dNotStored : Nat := 16
def dAborted : Nat := 32

/-- A BRAKE_NOTICE record to the fabric manager. -/
def State.notice (kind hsrc domains : Nat) (subj : Laddr) (vid : Word) (core engine detail t : Nat) (step : Dword)
    (ctx extra : Nat) (s : State) : State :=
  s.sendOwed { dst := .up, cls := 0, typ := tBrakeNotice, unit := uBrake, flags := 0, stamp := none,
               body := be 1 kind ++ be 1 hsrc ++ be 1 domains ++ be 1 (min s.nesc 255) ++ be 4 subj.toNat ++ be 4 vid.toNat
                 ++ be 1 core ++ be 1 engine ++ be 2 detail ++ be 8 t ++ be 8 step.toNat ++ be 4 ctx ++ be 2 (min extra 65535) }

/-- A notice about this block itself. -/
def State.ownNotice (kind hsrc : Nat) (vid : Word) (core engine detail ctx extra : Nat) (s : State) : State :=
  s.notice kind hsrc 0 s.sys.laddr vid core engine detail s.tb0Ns s.trace.lastStep ctx extra

/-- DETAIL of something a drill may have caused. -/
def drillBit (drill : Bool) : Nat := if drill then dDrill else 0

/-- A notice of the ladder. -/
def State.ladderNotice (kind : Nat) (l : Ladder) (detail : Nat) (s : State) : State :=
  s.ownNotice kind l.source l.vid l.core l.engine (detail + drillBit l.drill) 0 l.extra

/-! ### Reset requests and rungs (R282, R283, R292, R293) -/

/-- A reset request output as it is asserted now. -/
def State.reqNow (s : State) : ReqOut := { since := s.time.tb1.toNat, seen := false }

/-- RESET_REQ_WARM asserts. -/
def State.assertWarm (s : State) : State := s.modBrake fun b => { b with reqWarm := some s.reqNow }

/-- RESET_REQ_COLD asserts. -/
def State.assertCold (s : State) : State := s.modBrake fun b => { b with reqCold := some s.reqNow }

/-- The rung of the ladder changes. -/
def State.setRung (r : Rung) (s : State) : State :=
  s.modBrake fun b => { b with ladder := b.ladder.map fun l => { l with rung := r } }

/-- The ladder ends. -/
def State.endLadder (s : State) : State := s.modBrake fun b => { b with ladder := none }

/-- The die goes out of service (R293); the disarmed watch raises nothing, and a provisional verdict of it goes. -/
def State.goOos (hsrc : Nat) (vid : Word) (drill : Bool) (s : State) : State :=
  let n := s.nesc
  let s0 := match s.ownOpen 2 s.sys.laddr 0 0 with | some v => (s.withdrawOwn v 2 wdGone).unfix | none => s
  let s1 := (s0.modSys fun u => { u with oos := true }).modBrake fun b =>
    { b with ladder := none, watch := .off, miss := 0, closed := false,
             reqWarm := none, reqCold := some { since := s.time.tb1.toNat, seen := false } }
  (((s1.stage 0x0A03 .fatal n 0).ownNotice 4 hsrc vid 0xFF 0xFF (drillBit drill) 0 0).intSet 8)

/-- The cold rung: the request asserts, or the die goes out of service, once no Ingot is in the way or INGOT_WRITE_TO has passed
since its capture ended (R282, R292). -/
def State.tryCold (s : State) : State :=
  match s.brake.ladder with
  | some l =>
    let free : Bool := s.brake.capture.isNone && match s.brake.writing with
      | some w => decide (w.since + s.brake.cfg.writeTo ≤ s.tb1Ns)
      | none => true
    if l.rung == .coldWait && free then
      if l.oos then s.goOos l.source l.vid l.drill else ((s.assertCold).setRung .cold).ladderNotice 0 l dCold
    else s
  | none => s

/-- The first rung of a ladder whose capture has ended, or that takes none (R282, R292). -/
def State.ladderGo (s : State) : State :=
  match s.brake.ladder with
  | some l =>
    if !l.oos && s.brake.cfg.warmFirst then ((s.assertWarm).setRung .warm).ladderNotice 0 l dWarm
    else (s.setRung .coldWait).tryCold
  | none => s

/-! ### The Ingot (R297 to R303) -/

/-- Largest image of a full Ingot (R300). -/
def ingotMax : Nat := 1048576

/-- LEN of what a capture has so far. -/
def Capture.len (c : Capture) : Nat :=
  128 + 32 * c.regions.length + 16 * min 512 c.nunr + (c.done.map fun t => t.data.length).sum + c.cur.data.length

/-- `n` bytes of the pattern 0xDEAD_10CC (R299). -/
def poison (n : Nat) : List Byte := ((List.replicate (ceilDiv n 4) (be 4 0xDEAD10CC)).flatten).take n

/-- Nothing of a region taken. -/
def takenNew : Taken := { data := [], poisoned := 0, cut := false }

/-- The region of a capture in progress. -/
def Capture.region (c : Capture) : Region :=
  c.regions.getD c.index { kind := 0, level := 0, core := 0, engine := 0, len := 0, addr := 0 }

/-- Capture goes on with the next region. -/
def Capture.nextRegion (c : Capture) : Capture :=
  { c with done := c.done ++ [c.cur], cur := takenNew, index := c.index + 1, fails := 0 }

/-- A pattern fill of `n` bytes under one unreadable entry; the second component says that it met the limit (R299 to R301). -/
def Capture.fill (cause n toff : Nat) (c : Capture) : Capture × Bool :=
  let e := if c.nunr < 512 then 16 else 0
  let room := ingotMax - c.len
  if room < e then ({ c with cur := { c.cur with cut := true } }, true)
  else
    let k := min n (room - e)
    let u : Unread := { region := c.index, cause := cause, off := c.cur.data.length, len := k, toff := toff }
    ({ c with nunr := c.nunr + 1, unread := if c.nunr < 512 then c.unread ++ [u] else c.unread,
              cur := { data := c.cur.data ++ poison k, poisoned := c.cur.poisoned + k, cut := decide (k < n) } },
     decide (k < n))

/-- STATUS of a region (Table 11.12). -/
def regionStatus (r : Region) (t : Taken) : Nat :=
  if t.cut || decide (t.data.length < r.len) then 3
  else if t.poisoned = 0 then 0
  else if t.poisoned = r.len then 2
  else 1

/-- What a capture has of each region, in list order. -/
def Capture.taken (c : Capture) : List (Region × Taken) :=
  (List.range c.regions.length).zip c.regions |>.map fun e =>
    (e.2, if e.1 < c.index then c.done.getD e.1 takenNew else if e.1 = c.index then c.cur else takenNew)

/-- Region data padded to 8 bytes (R301). -/
def padData (l : List Byte) : List Byte := padTo (ceilDiv l.length 8 * 8) l

/-- Directory entries, with the offset at which the data begins (Table 11.12). -/
def dirEntries : Nat → Nat → List (Region × Taken) → List Byte
  | _, _, [] => []
  | i, off, (r, t) :: l =>
    be 1 i ++ be 1 r.kind ++ be 1 (regionStatus r t) ++ be 1 r.level ++ be 1 r.core ++ be 1 r.engine ++ zeros 2 ++ be 8 r.addr
      ++ be 4 r.len ++ be 4 t.data.length ++ be 4 off ++ zeros 4 ++ dirEntries (i + 1) (off + (padData t.data).length) l

/-- An unreadable entry (Table 11.13). -/
def unreadBytes (u : Unread) : List Byte :=
  be 1 u.region ++ be 1 u.cause ++ zeros 2 ++ be 4 u.off ++ be 4 u.len ++ be 4 (min u.toff 0xFFFFFFFF)

/-- An Ingot header (Table 11.11) over the bytes that follow it. -/
def State.ingotHead (s : State) (minimal : Bool) (cause : Nat) (vid : Word) (trig start stop nreg nunr core engine : Nat)
    (valid : Bool) (rest : List Byte) : List Byte :=
  let h := be 4 (if minimal then 0x494E4D31 else 0x494E4731) ++ be 2 1 ++ be 1 (b2n minimal) ++ be 1 cause
    ++ be 4 Config.physId.toNat ++ be 4 s.sys.laddr.toNat ++ be 4 vid.toNat ++ be 4 s.sys.fwver.toNat ++ be 8 trig ++ be 8 start
    ++ be 8 stop ++ be 8 s.trace.lastStep.toNat ++ be 4 (128 + rest.length) ++ be 2 nreg ++ be 2 (min nunr 0xFFFF) ++ be 1 core
    ++ be 1 engine ++ zeros 2 ++ be 4 s.cfgVer ++ be 8 (crc64 rest) ++ zeros 40
  h ++ be 4 (crc32c h) ++ be 4 (if valid then 0x56414C31 else 0)

/-- The image of a capture that ends now (R301). -/
def State.captureImage (s : State) (c : Capture) : List Byte :=
  let l := c.taken
  let off := 128 + 32 * l.length + 16 * c.unread.length
  let rest := dirEntries 0 off l ++ (c.unread.map unreadBytes).flatten ++ (l.map fun e => padData e.2.data).flatten
  s.ingotHead false c.cause c.vid c.trig c.start s.tb0Ns l.length c.nunr c.core c.engine false rest ++ rest

/-- An image with VALID set, as its last write leaves it in flash. -/
def withValid (image : List Byte) : List Byte := image.take 124 ++ be 4 0x56414C31 ++ image.drop 128

/-- A slot of the Ingot area holds a valid Ingot. -/
def ingotValid (b : List Byte) : Bool := rd b 124 4 == 0x56414C31

/-- INGOT_READY: the notice, and the final reply of INGOT.TAKE (Table 11.9, Table 16.16). -/
def State.ingotReady (image : List Byte) (vid : Word) (source : Nat) (drill : Bool) (detail : Nat) (s : State) : State :=
  let s1 := s.ownNotice 9 source vid (rd image 64 1) (rd image 65 1) (detail + drillBit drill) 0 0
  if source = 5 then s1.finishAll 0x0902 2 (finOk 0 (be 4 image.length ++ be 2 (rd image 62 2)) []) else s1

/-- The copy of a context table that a capture read whole, as its region 0 (R296). -/
def Capture.context (c : Capture) : Option (List Byte) :=
  match c.taken with
  | (r, t) :: _ => if r.kind = 1 ∧ regionStatus r t = 0 then some t.data else none
  | [] => none

/-- The capture ends (R300 to R302): the image stands in the Ingot buffer; it goes to flash unless the slot keeps a valid Ingot;
the ladder that waited takes its first rung. -/
def State.captureEnd (s : State) : State :=
  match s.brake.capture with
  | some c =>
    let image := s.captureImage c
    let s1 := s.modBrake fun b =>
      { b with capture := none, buffer := image, ctxCopy := c.context,
               side := b.side.map fun x => if x.use = 0 then { x with use := 2 } else x }
    let s2 := if ingotValid s.flash.ingot0 && !s.brake.clearDue then s1.ingotReady image c.vid c.cause c.drill dNotStored
      else
        State.modBrake (fun b =>
          { b with writing := some { image := image, vid := c.vid, source := c.cause, drill := c.drill, since := s.tb1Ns } })
          (((s1.eraseFlash (ingotBase 0) (ingotSize 0)).programFlash (ingotBase 0 + 128) (image.drop 128)).modFlash fun u =>
            { u with ingot0 := List.replicate 128 0xFF ++ image.drop 128 })
    match s.brake.ladder with
    | some l => if l.rung == .capture then s2.ladderGo else s2
    | none => s2
  | none => s

/-- A read on the side read path is issued (R299). -/
def State.issueSide (addr len use : Nat) (s : State) : State :=
  (s.modBrake fun b => { b with side := some { since := s.time.tb1.toNat, len := len, use := use } }).emit (.sideRead addr len)

/-- The next access of the side read path, when it is free: the preparation read first, then the capture's (R298, R299). A
capture that has read every region, or that has no room for its next access, ends (R300). -/
def State.sideNext (s : State) : State :=
  if s.brake.side.isSome then s
  else match s.brake.prepDue with
  | some p => (s.modBrake fun b => { b with prepDue := none }).issueSide p.1 p.2 1
  | none =>
    match s.brake.capture with
    | some c =>
      if c.index < c.regions.length then
        let n := min 256 (c.region.len - c.cur.data.length)
        if ingotMax < c.len + n then s.captureEnd else s.issueSide (c.region.addr + c.cur.data.length) n 0
      else s.captureEnd
    | none => s

/-- A capture starts (R298). -/
def State.captureStart (cause : Nat) (vid : Word) (core engine : Nat) (drill : Bool) (regions : List Region) (s : State) :
    State :=
  (s.modBrake fun b =>
    { b with capture := some { cause := cause, vid := vid, core := core, engine := engine, drill := drill, trig := s.tb0Ns,
                               start := s.tb0Ns, start1 := s.tb1Ns, regions := regions, index := 0, cur := takenNew, done := [],
                               fails := 0, unread := [], nunr := 0 },
             buffer := [], ctxCopy := none }).sideNext

/-- An access of the capture gave its bytes. -/
def Capture.took (data : List Byte) (c : Capture) : Capture :=
  let c1 : Capture := { c with cur := { c.cur with data := c.cur.data ++ data }, fails := 0 }
  if c.region.len ≤ c1.cur.data.length then c1.nextRegion else c1

/-- An access of the capture failed: its bytes are poisoned, and after two in a row the rest of the region (R299). The second
component says that a fill met the limit of R300. -/
def Capture.failed (cause n toff : Nat) (c : Capture) : Capture × Bool :=
  let p := c.fill cause n toff
  if p.2 then p
  else
    let c1 : Capture := { p.1 with fails := c.fails + 1 }
    let left := c.region.len - c1.cur.data.length
    if left = 0 then (c1.nextRegion, false)
    else if 2 ≤ c1.fails then
      let q := c1.fill 3 left toff
      if q.2 then q else (q.1.nextRegion, false)
    else (c1, false)

/-- The access in progress ends: with its data, or with the cause of Table 11.13 for which it gave none. -/
def State.sideDone (data : Option (List Byte)) (cause : Nat) (s : State) : State :=
  match s.brake.side with
  | some x =>
    let s1 := s.modBrake fun b => { b with side := none }
    if x.use = 1 then (s1.modBrake fun b => { b with prepCopy := data }).sideNext
    else match s.brake.capture with
    | some c =>
      if x.use = 0 then
        match data with
        | some d => (s1.modBrake fun b => { b with capture := some (c.took d) }).sideNext
        | none =>
          let p := c.failed cause x.len ((s.tb1Ns - c.start1) / 1000)
          let s2 := s1.modBrake fun b => { b with capture := some p.1 }
          if p.2 then s2.captureEnd else s2.sideNext
      else s1.sideNext
    | none => s1.sideNext
  | none => s

/-- STATE of BRAKE.STATUS and of the minimal Ingot (R303). -/
def State.brakeState (s : State) : Nat := if s.sys.oos then 2 else if s.brake.ladder.isSome then 1 else 0

/-- Bytes 128 to 4,095 of a minimal Ingot (R303). -/
def State.minimalBody (s : State) (source : Nat) : List Byte :=
  let light := ((List.range 256).map fun i => be 6 (getCounter s.coll.counters i).val.toNat).flatten
  let recs := ((s.hall.ents.drop (s.hall.ents.length - 32)).map fun e => hrecBytes e.r).flatten
  let own := be 1 (min s.brake.miss 255) ++ be 1 source ++ be 1 (min s.nesc 255) ++ be 1 s.brakeState ++ zeros 4 ++ be 8 s.brake.lastBeat
    ++ be 8 s.pow.lastReset.toNat
  light ++ padTo 1024 recs ++ padTo 64 own ++ zeros 1344

/-- TTRIG of a minimal slot; an image without VALID counts as the oldest. -/
def trigOf (b : List Byte) : Nat := if ingotValid b then rd b 24 8 else 0

/-- The AO domain writes a minimal Ingot (R303), VALID last. -/
def State.minimalIngot (source : Nat) (s : State) : State :=
  let rest := s.minimalBody source
  let image := s.ingotHead true source 0 s.tb0Ns s.tb0Ns s.tb0Ns 0 0 0xFF 0xFF true rest ++ rest
  let f := s.flash
  let first := f.ingot1.isEmpty || (!f.ingot2.isEmpty && decide (trigOf f.ingot1 ≤ trigOf f.ingot2))
  let slot := if first then 1 else 2
  (((s.eraseFlash (ingotBase slot) (ingotSize slot)).programFlash (ingotBase slot) (image.take 124)).programFlash
    (ingotBase slot + 128) (image.drop 128)).programFlash (ingotBase slot + 124) (slice image 124 4) |>.modFlash fun _ =>
      if first then { f with ingot1 := image } else { f with ingot2 := image }

/-! ### The guilty-party search (R296) -/

/-- The search ends with NONE_GUILTY. -/
def State.noneGuilty (vid : Word) (core engine : Nat) (detail : Nat) (s : State) : State :=
  (s.modBrake fun b => { b with search := none }).ownNotice 8 1 vid core engine detail 0 0

/-- A new confirmed hang ends a search that runs. -/
def State.searchAbort (s : State) : State :=
  match s.brake.search with
  | some q => s.noneGuilty q.vid q.core q.engine (dAborted + drillBit q.drill)
  | none => s

/-- The context replay event of the first ID that is left, or the end of the search. -/
def State.searchNext (q : Search) (s : State) : State :=
  match q.todo with
  | c :: rest =>
    (s.modBrake fun b => { b with search := some { q with cur := c, todo := rest, since := s.tb1Ns } }).event 0x09E0
      (be 1 q.core ++ be 1 q.engine ++ zeros 2 ++ be 4 c.toNat)
  | [] => s.noneGuilty q.vid q.core q.engine (drillBit q.drill)

/-- The non-zero IDs of a context table in ascending order (R295, R296). -/
def contextIds (b : List Byte) : List Nat :=
  sortNat (((List.range 16).map fun i => rd b (4 * i) 4).filter fun v => v != 0).eraseDups

/-- The ladder of an ENGINE hang ended recovered: the contexts of the engine are replayed, one at a time. -/
def State.searchStart (l : Ladder) (s : State) : State :=
  let copy := match s.brake.ctxCopy with | some b => some b | none => s.brake.prepCopy
  match (copy.map contextIds).getD [] with
  | [] => s.noneGuilty l.vid l.core l.engine (dAborted + drillBit l.drill)
  | ids => s.searchNext { vid := l.vid, core := l.core, engine := l.engine, drill := l.drill, cur := 0, since := 0,
                          todo := ids.map (BitVec.ofNat 32) }

/-- A context is guilty: GUILTY with its ID, and one warm reset. -/
def State.guilty (q : Search) (s : State) : State :=
  ((s.modBrake fun b => { b with search := none }).assertWarm).ownNotice 7 1 q.vid q.core q.engine (drillBit q.drill)
    q.cur.toNat 0

/-! ### Hangs (R276 to R281) -/

/-- Core and engine of a hang's notices: 0xFF without. -/
def hangCore (v : OwnV) : Nat := if v.source = 1 then v.engine / 16 else 0xFF
def hangEngine (v : OwnV) : Nat := if v.source = 1 then v.engine % 16 else 0xFF

/-- The context table of an engine as a region (R295, R297). -/
def State.contextRegion (s : State) (core engine : Nat) : Region :=
  { kind := 1, level := 0, core := core, engine := engine, len := 64, addr := s.brake.ctxBase + 64 * (16 * core + engine) }

/-- A HANG verdict is raised PROVISIONAL with class SUSPECT, and its preparation begins (R276, R298). -/
def State.raiseHang (subj : Laddr) (source engine : Nat) (s : State) : State :=
  let s1 := (s.raiseOwn 2 subj source engine 0 2).fixRegions
  if source = 1 ∧ s.isDie then
    (s1.modBrake fun b =>
      { b with prepDue := some ((s.contextRegion (engine / 16) (engine % 16)).addr, 64), prepCopy := none }).sideNext
  else s1

/-- The reset ladder of a confirmed HOST_FW or ENGINE hang (R282, R291, R292, R494): counted unless a drill, the Ingot first. One
ladder runs at a time, and none once the die is out of service. -/
def State.ladderStart (v : OwnV) (extra : Nat) (regions : List Region) (s : State) : State :=
  if s.sys.oos || s.brake.ladder.isSome then s
  else
    let s1 := if v.drill then s else s.modBrake fun b => { b with esc := b.esc ++ [s.tb0Ns] }
    let l : Ladder := { source := v.source, vid := v.vid, core := hangCore v, engine := hangEngine v, extra := extra,
                        drill := v.drill, oos := !v.drill && decide (s.brake.cfg.escCount ≤ s1.nesc), rung := .capture }
    let s2 := s1.modBrake fun b => { b with ladder := some l }
    if s.brake.cfg.ingotEn && s.isDie && !s.pow.ctlHeld && s.brake.capture.isNone && s.brake.writing.isNone then
      let rs := if v.source = 1 then s.contextRegion (hangCore v) (hangEngine v) :: regions else regions
      s2.captureStart v.source v.vid l.core l.engine v.drill rs
    else s2.ladderGo

/-- A HANG verdict is confirmed with class EXPEL, and Brake acts on it (R276, R280, R281, Table 11.4). -/
def State.confirmHang (v : OwnV) (s : State) : State :=
  let extra := if v.source = 1 then (s.brake.eng.map (·.extra)).getD 0 else 0
  let regions := s.brake.fixed.getD s.brake.regions
  let s1 := ((s.confirmOwn v 3).bump cHangConfirmed).searchAbort
  if v.source = 2 then
    ((s1.notice 3 2 0 v.subj v.vid 0xFF 0xFF (drillBit v.drill) s.tb0Ns 0 0 0).modVerd fun u =>
      { u with dies := tmod u.dies v.subj.toNat fun d => { d with hangConf := true } }).reviewDie v.subj |>.unfix
  else (s1.ladderStart v extra regions).unfix

/-- The preparation of an ENGINE hang is released: its read is issued no more, one in progress is disregarded, and its copy goes
(Table 1.10, R298). -/
def State.unprepare (s : State) : State :=
  s.modBrake fun b => { b with prepDue := none, prepCopy := none,
                               side := b.side.map fun x => if x.use = 1 then { x with use := 2 } else x }

/-- A HANG verdict is withdrawn because its condition is gone, and its preparations are released. -/
def State.hangGone (v : OwnV) (s : State) : State :=
  let s1 := (s.withdrawOwn v 2 wdGone).unfix
  if v.source = 1 then s1.unprepare else s1

/-- The open verdict of source HOST_FW. -/
def State.hostHang (s : State) : Option OwnV := s.ownOpen 2 s.sys.laddr 0 0

/-- The heartbeat watch is disarmed; a verdict it raised goes. -/
def State.watchTo (w : Watch) (s : State) : State :=
  let s1 := match s.hostHang with | some v => s.hangGone v | none => s
  s1.modBrake fun b => { b with watch := w, miss := 0, closed := false }

/-- Event 63 of an engine (R277, R296). -/
def State.engineHang (core engine : Nat) (s : State) : State :=
  let guiltyNow := match s.brake.search with | some q => q.core == core && q.engine == engine | none => false
  match s.brake.search, guiltyNow with
  | some q, true => s.guilty q
  | _, _ =>
    match s.brake.eng with
    | some e =>
      if e.core = core ∧ e.engine = engine then s
      else s.modBrake fun b => { b with eng := some { e with extra := e.extra + 1 } }
    | none =>
      (s.modBrake fun b => { b with eng := some { core := core, engine := engine, since := s.tb1Ns, extra := 0 } }).raiseHang
        s.sys.laddr 1 (16 * core + engine)

/-- The open verdict of source ENGINE. -/
def State.engHangV (s : State) : Option OwnV :=
  s.brake.eng.bind fun e => s.ownOpen 2 s.sys.laddr 1 (16 * e.core + e.engine)

/-- Event 62 of an engine (R277). -/
def State.engineResumed (core engine : Nat) (s : State) : State :=
  match s.brake.eng with
  | some e =>
    if e.core = core ∧ e.engine = engine then
      let s1 := match s.engHangV with | some v => s.hangGone v | none => s
      s1.modBrake fun b => { b with eng := none }
    else s
  | none => s

/-- The ladder ends recovered; for ENGINE the search begins (R282, R296). -/
def State.recovered (l : Ladder) (s : State) : State :=
  let s1 := s.endLadder
  if l.source = 1 ∧ s.brake.cfg.gpEn then s1.searchStart l else s1

/-- A beat is accepted (R273 to R275, R282, Table 11.5). -/
def State.takeBeat (s : State) : State :=
  let s1 := s.modBrake fun b =>
    let b1 := { b with lastBeat := s.tb0Ns, beaten := true }
    match b.watch with
    | .waiting _ => { b1 with watch := .armed, miss := 0, closed := false }
    | _ => b1
  match s.brake.ladder with
  | some l =>
    (match l.rung with
     | .recover t => if s.past1 (t + s.brake.cfg.recovTo) then s1 else s1.recovered l
     | _ => s1)
  | none => s1

/-- Beats are ignored under an injected HB_STOP (SYS.INJECT). -/
def State.hbStopped (s : State) : Bool := s.sys.injects.any fun j => j.fault == 0

/-! ### What the reset inputs tell Brake (R275, R283, R291, Table 11.5) -/

/-- RST_HOST_N is seen asserted: the cold request is answered and its ladder ends; else the reset is an event of its own,
unless it is taken as the ladder's cold rung or comes during a search. A ladder whose event reached ESC_COUNT ends out of service
(R292). -/
def State.hostResetSeen (s : State) : State :=
  match s.brake.reqCold with
  | some q => ((s.modBrake fun b => { b with reqCold := some { q with seen := true } })).endLadder
  | none =>
    match s.brake.ladder with
    | some l => if l.oos then s.goOos l.source l.vid l.drill else s.endLadder
    | none =>
      if s.brake.search.isSome || s.sys.oos then s
      else
        let s1 := s.modBrake fun b => { b with esc := b.esc ++ [s.tb0Ns] }
        if s.brake.cfg.escCount ≤ s1.nesc then s1.goOos 0xFF 0 false else s1

/-- RST_WARM_N is seen asserted. -/
def State.warmResetSeen (s : State) : State :=
  let s1 := s.modBrake fun b => { b with reqWarm := b.reqWarm.map fun q => { q with seen := true } }
  match s.brake.ladder with
  | some l => if l.rung == .warm then s1.setRung .warmIn else s1
  | none => s1

/-- RST_HOST_N or RST_WARM_N is released: the watch is disarmed until the first beat, out of service for good. -/
def State.watchRelease (s : State) : State := s.watchTo (if s.sys.oos then .off else .waiting (some s.tb1Ns))

/-- RST_WARM_N is released: RECOV_TO of a warm rung begins. -/
def State.warmReleased (s : State) : State :=
  let s1 := s.watchRelease
  match s.brake.ladder with
  | some l => if l.rung == .warmIn then s1.setRung (.recover s.tb1Ns) else s1
  | none => s1

/-! ### Resets of the blocks below (R288) -/

/-- What this block was last told of a block below. -/
def State.peer (s : State) (a : Laddr) : PeerSt := tgetD s.brake.peers a.toNat { gone := false, epochs := [] }

/-- Change it. -/
def State.putPeer (a : Laddr) (p : PeerSt) (s : State) : State := s.modBrake fun b => { b with peers := tput b.peers a.toNat p }

/-- The block takes part in R288 for a block: KIND of the notice, PEER_RESET of a tray's member, FORWARDER_RESET of a tray master or
spine-role block below; none for any other. -/
def State.peerKind (s : State) (a : Laddr) : Option Nat :=
  if s.isMaster && s.sys.members.any (fun m => m.addr == a) then some 1
  else if (s.isSpine || s.isTray) && s.below.contains a.toNat then some 2
  else none

/-- The notice of a reset below. -/
def State.peerNotice (a : Laddr) (domains detail t : Nat) (step : Dword) (s : State) : State :=
  match s.peerKind a with
  | some k => s.notice k 0xFF domains a 0 0xFF 0xFF detail t step 0 0
  | none => s

/-- Flights of the gateway that wait for an answer of a block end with E_UNREACHABLE (R406). -/
def State.unreachable (a : Laddr) (s : State) : State :=
  (s.cmd.flight.filter fun f => f.dest == a).foldl (fun t f =>
    (t.gwError f.tag f.opcode stUnreachable (errDetail 0 0 0xFF)).modCmd fun c =>
      { c with flight := c.flight.filter fun g => !(g.dest == f.dest && g.issuer == f.issuer && g.seq == f.seq) }) s

/-- What Crown, the Verdict unit, the books and the gateway make of a reset of a block (R125, R165, R247, R406). -/
def State.resetSeen (a : Laddr) (t : Nat) (s : State) : State := ((s.seenReset a t).forwarderEvent a).unreachable a

/-- A LAST_GASP record that Hopper accepted (R288). -/
def State.rxGasp (r : Rec) (s : State) : State :=
  let t := rd r.body 0 8
  let s1 := ((s.resetSeen r.src t).markDie r.src true).peerNotice r.src (rd r.body 9 1 % 32) 0 t (BitVec.ofNat 64 (rd r.body 16 8))
  s1.putPeer r.src { gone := true, epochs := [] }

/-- An EPOCH record with RESTART 1 that Hopper accepted (R122, R165, R288): its instant is the full TB0 that it carries, and the first
of a restart that no notice has told gives one. -/
def State.rxRestart (r : Rec) (s : State) : State :=
  let p := s.peer r.src
  let c := r.cls.toNat
  let s0 := ((s.markDie r.src false).seenReset r.src (rd r.body 0 8)).forwarderEvent r.src
  if p.gone then s0.putPeer r.src { gone := false, epochs := [c] }
  else if p.epochs.isEmpty || p.epochs.contains c then
    ((s0.unreachable r.src).peerNotice r.src 0 dNoGasp s.tb0Ns 0).putPeer r.src { gone := false, epochs := [c] }
  else s0.putPeer r.src { p with epochs := p.epochs ++ [c] }

/-- Any other record of a block shows that it is back. -/
def State.peerHeard (a : Laddr) (s : State) : State :=
  if (s.peer a).gone then s.putPeer a { gone := false, epochs := [] } else s

end Sys2Proof.Machine
end

