-- ==== Sys2Proof/Machine/BrakeRows.lean ====
section
/-! DEFINITION. The commands of Brake (spec/11): beats, periods, timers, side reads, notices of resets below, and the RECOVER
group of Table 16.16. -/

namespace Sys2Proof.Machine

/-! ### The heartbeat watch (R273 to R276) -/

/-- HB_PIN_BEAT: a rising edge of HB_PIN after its filter. -/
def execHbPinBeat (s : State) : Host.Outcome State Fault Refusal :=
  if s.portUp .hb && s.brake.cfg.src != 0 && !s.hbStopped then .next s.takeBeat else .next s

/-- An armed watch judges a period: beaten, or missed (R274, R276). -/
def State.judgePeriod (ok : Bool) (s : State) : State :=
  if ok then
    let s1 := match s.hostHang with | some v => s.hangGone v | none => s
    s1.modBrake fun b => { b with miss := 0, closed := false }
  else
    let m := s.brake.miss + 1
    let s1 := (s.modBrake fun b => { b with miss := m }).bump cHeartbeatMiss
    match s.hostHang with
    | some v => if s.brake.cfg.conf ≤ m then (s1.modBrake fun b => { b with closed := true }).confirmHang v else s1
    | none => if s.brake.cfg.prov ≤ m ∧ !s.brake.closed then s1.raiseHang s.sys.laddr 0 0 else s1

/-- HEARTBEAT_PERIOD_END (R274, R276): a boundary of the HB_PERIOD grid on TB0 above the last one judged (R84), from the AO cycle after
it, so that a beat in the cycle of the boundary is one of the period that ends. A period in which TB0 stepped counts as beaten. -/
def execHeartbeatPeriodEnd (s : State) : Host.Outcome State Fault Refusal :=
  let k := gridAt s.brake.cfg.period s.tb0Past
  if s.aoUp && decide (s.brake.hbK < k) then
    let ok := s.brake.beaten || s.time.steps != s.brake.hbSteps
    let s1 := s.modBrake fun b =>
      { b with hbK := k, hbSteps := s.time.steps, beaten := false, cfg := { b.cfg with period := b.hbNext.getD b.cfg.period },
               hbNext := none }
    .next (if s.brake.watch == .armed then s1.judgePeriod ok else s1)
  else .next s

/-- BOOT_TO_EXPIRY (R275): no beat within BOOT_TO of the release; the period in progress is not judged. -/
def execBootToExpiry (s : State) : Host.Outcome State Fault Refusal :=
  match s.brake.watch with
  | .waiting (some t) =>
    if s.aoUp && s.past1 (t + s.brake.cfg.bootTo) then
      .next (s.modBrake fun b => { b with watch := .armed, miss := 0, closed := false, beaten := true })
    else .next s
  | _ => .next s

/-- ENG_CONF_TO_EXPIRY (R277): no event 62 came within ENG_CONF_TO. -/
def execEngConfToExpiry (s : State) : Host.Outcome State Fault Refusal :=
  match s.brake.eng with
  | some e =>
    if s.aoUp && s.past1 (e.since + s.brake.cfg.engConfTo) then
      let s1 := match s.engHangV with | some v => s.confirmHang v | none => s
      .next (s1.modBrake fun b => { b with eng := none })
    else .next s
  | none => .next s

/-- A member's block beat is judged (R278). -/
def State.judgeBlock (b : BlockBeat) (k : Nat) (s : State) : State :=
  let put := fun (x : BlockBeat) (t : State) =>
    t.modBrake fun u => { u with blocks := u.blocks.map fun y => if y.addr == x.addr then x else y }
  let b0 : BlockBeat := { b with k := k, steps := s.time.steps, beaten := false }
  let v := s.ownOpen 2 b.addr 2 0
  if b.beaten || s.time.steps != b.steps then
    let s1 := put { b0 with miss := 0, closed := false } s
    match v with | some x => s1.hangGone x | none => s1
  else
    let m := b.miss + 1
    let s1 := (put { b0 with miss := m } s).bump cHeartbeatMiss
    match v with
    | some x => if s.brake.cfg.conf ≤ m then (put { b0 with miss := m, closed := true } s1).confirmHang x else s1
    | none => if s.brake.cfg.prov ≤ m ∧ !b.closed then s1.raiseHang b.addr 2 0 else s1

/-- BLOCK_BEAT_PERIOD_END (R278) for one member. -/
def execBlockBeatPeriodEnd (member : Laddr) (s : State) : Host.Outcome State Fault Refusal :=
  match s.brake.blocks.find? fun b => b.addr == member with
  | some b =>
    let k := gridAt (s.brake.blkP b.k) s.tb0Past
    if s.aoUp && s.isMaster && s.sys.members.any (fun m => m.addr == member) then
      if b.k < k then .next (s.judgeBlock b k) else .next s
    else .next (s.modBrake fun u => { u with blocks := u.blocks.filter fun y => y.addr != member })
  | none => .next s

/-! ### The internal watch (R279, R294) -/

/-- The confirmed HANG verdict of an internal source, raised at `raise.1` under a drill or not (R280); it waits until ENG runs
again (R279). -/
def State.internalVerdict (raise : Nat × Bool) (s0 : State) : State :=
  let w := s0.nextVid
  w.1.sendVerdict .up s0.tb0Ns
    { vid := w.2, subj := s0.sys.laddr, kind := 2, cls := 3, prevs := 0, state := 1, vflags := if raise.2 then vfDrill else 0,
      score := 0, hold := 0, age := 0, h := 0, modelver := 0, orig := s0.sys.laddr, raiseT := raise.1, step := 0 }

/-- An internal hang is confirmed: Hallmark FAULT, minimal Ingot, reset of CTL and ENG or of ENG alone; an image in trial falls back
(R434); at ESC_COUNT in the window CTL and ENG stay in reset (R294). A hang under a drill counts toward no escalation (R37, R280). -/
def State.confirmInternal (source : Nat) (s : State) : State :=
  let raise := ((if source = 3 then s.brake.ctlRaise else s.brake.engRaise).getD (s.tb0Ns, s.underDrill s.sys.laddr s.tb0Ns))
  let s1 := (((s.stage 0x0A01 .fault source 0).minimalIngot source).bump cVerdictConf).bump cHangConfirmed
  let ev := (s1.brake.intEvents.filter fun t => decide (s.tb0Ns < t + s.brake.cfg.escWin)) ++ (if raise.2 then [] else [s.tb0Ns])
  let hold := !raise.2 && decide (s.brake.cfg.escCount ≤ ev.length)
  let s2 := s1.modBrake fun b => { b with ctlMiss := 0, engMiss := 0, ctlRaise := none, engRaise := none, intEvents := ev }
  let s3 := if s.hoist.trialAt.isSome then s2.fallBack 1 else s2.resetEntry 5 (source == 3 || hold) true []
  (if hold then (s3.resetEntry 5 true true []).modPow fun u => { u with intHold := true } else s3).internalVerdict raise

/-- One of the two counts of the internal watch: raised at 2, withdrawn when it returns to 0. -/
def internalCount (old : Nat) (s : State) : Nat → State
  | 0 => if 2 ≤ old then s.bump cVerdictWithdrawn else s
  | n + 1 => if n + 1 = 2 ∧ old < 2 then s.bump cVerdictProv else s

/-- When the verdict of such a count was raised, and whether a drill covered this block then. -/
def State.internalRaise (s : State) (old : Option (Nat × Bool)) (n : Nat) : Option (Nat × Bool) :=
  if n < 2 then none else some (old.getD (s.tb0Ns, s.underDrill s.sys.laddr s.tb0Ns))

/-- INTERNAL_WATCH_PERIOD (R279): the end of a period of 1 ms; `ctlBeat` and `engBeat` say what AO saw in it. -/
def execInternalWatchPeriod (ctlBeat engBeat : Bool) (s : State) : Host.Outcome State Fault Refusal :=
  let k := s.tb1Ns / 1000000
  if s.aoUp && k != s.brake.intK then
    let c := if s.ctlUp && !ctlBeat then s.brake.ctlMiss + 1 else 0
    let e := if s.engUp && !engBeat then (if s.ctlUp && ctlBeat then s.brake.engMiss + 1 else s.brake.engMiss) else 0
    let s1 := internalCount s.brake.engMiss (internalCount s.brake.ctlMiss s c) e
    let s2 := s1.modBrake fun b => { b with intK := k, ctlMiss := c, engMiss := e, ctlRaise := s.internalRaise b.ctlRaise c,
                                            engRaise := s.internalRaise b.engRaise e }
    .next (if 4 ≤ c then s2.confirmInternal 3 else if 4 ≤ e then s2.confirmInternal 4 else s2)
  else .next s

/-! ### The ladder's timers (R282, R283) -/

/-- RECOV_TO_EXPIRY (R282): no beat within RECOV_TO of the release of RST_WARM_N; the cold rung follows. -/
def execRecovToExpiry (s : State) : Host.Outcome State Fault Refusal :=
  match s.brake.ladder with
  | some l =>
    (match l.rung with
     | .recover t =>
       if s.aoUp && s.past1 (t + s.brake.cfg.recovTo) then .next (s.setRung .coldWait).tryCold else .next s
     | _ => .next s)
  | none => .next s

/-- COLD_RUNG (R282): the Ingot write has ended or INGOT_WRITE_TO has passed. -/
def execColdRung (s : State) : Host.Outcome State Fault Refusal :=
  if s.aoUp then .next s.tryCold else .next s

/-- A request output whose reset input was not seen within REQ_TO. -/
def State.ignored (s : State) (r : Option ReqOut) : Bool :=
  match r with
  | some q => !q.seen && decide (q.since + s.brake.cfg.reqTo * 65536 ≤ s.time.tb1p1.toNat)
  | none => false

/-- REQ_TO_EXPIRY (R283): an ignored request is released, with its Hallmark FAULT and its notice; a warm rung goes on to the cold
one, a cold rung ends the ladder. The hold of R293 stays. -/
def execReqToExpiry (s : State) : Host.Outcome State Fault Refusal :=
  let tell := fun (cold : Bool) (t : State) =>
    let d := if cold then dCold else dWarm
    let t1 := t.stage 0x0A02 .fault (b2n cold) 0
    match s.brake.ladder with
    | some l => t1.ladderNotice 6 l d
    | none => t1.ownNotice 6 0xFF 0 0xFF 0xFF d 0 0
  if s.aoUp then
    let s1 := if s.ignored s.brake.reqWarm then
        let t := tell false (s.modBrake fun b => { b with reqWarm := none })
        match t.brake.ladder with
        | some l => if l.rung == .warm then (t.setRung .coldWait).tryCold else t
        | none => t
      else s
    .next (if s.ignored s.brake.reqCold && !s.sys.oos then
        (tell true (s1.modBrake fun b => { b with reqCold := none })).endLadder
      else s1)
  else .next s

/-- 64 AO cycles of TB1 in 2^-16 ns. -/
def cycles64 : Nat := 26843544

/-- A request output may be released: its reset input was seen and 64 AO cycles have passed (R283). -/
def State.mayRelease (s : State) (r : Option ReqOut) : Bool :=
  match r with
  | some q => q.seen && decide (q.since + cycles64 ≤ s.time.tb1.toNat)
  | none => false

/-- RESET_REQUEST_RELEASE (R283); the cold request of a die out of service stays asserted (R293). -/
def execResetRequestRelease (cold : Bool) (s : State) : Host.Outcome State Fault Refusal :=
  if s.aoUp && cold && !s.sys.oos && s.mayRelease s.brake.reqCold then .next (s.modBrake fun b => { b with reqCold := none })
  else if s.aoUp && !cold && s.mayRelease s.brake.reqWarm then .next (s.modBrake fun b => { b with reqWarm := none })
  else .next s

/-! ### Resets of the blocks below (R288) -/

/-- PEER_LINK_DOWN_TIMEOUT (R288): a member's side link went down and no record of it came over FAB within 10 µs. -/
def execPeerLinkDownTimeout (ifc : Iface) (s : State) : Host.Outcome State Fault Refusal :=
  match (s.ifc ifc.val).downAt, s.sys.members.find? fun m => m.ifc == ifc.val && ifc.val != 0 with
  | some t, some m =>
    if s.engUp && s.isMaster && s.past1 (t + 10000) then
      let s1 := s.modIfc ifc.val fun f => { f with downAt := none }
      let fab := match tget s.verd.dies m.addr.toNat with | some d => decide (t ≤ d.lastFab) | none => false
      if fab || (s.peer m.addr).gone then .next s1
      else
        .next (((s1.resetSeen m.addr s.tb0Ns).peerNotice m.addr 0 dNoGasp s.tb0Ns 0).putPeer m.addr { gone := true, epochs := [] })
    else .next s
  | _, _ => .next s

/-! ### The Ingot (R298 to R304, R494) -/

/-- SIDE_READ_RESPONSE (R472): the whole of the access in progress, or SRD_ERR; `err` true says that SRD_DATA[0] was set with
it. An answer of another length is not an end of the access. -/
def execSideReadResponse (data : List Byte) (err : Option Bool) (s : State) : Host.Outcome State Fault Refusal :=
  match s.brake.side with
  | some x =>
    if s.aoUp then
      match err with
      | some ecc => .next (s.sideDone none (if ecc then 4 else 2))
      | none => if data.length = x.len then .next (s.sideDone (some data) 0) else .next s
    else .next s
  | none => .next s

/-- 7,813 AO cycles of TB1 in 2^-16 ns (R299). -/
def sideTimeout : Nat := 3277009714

/-- SIDE_READ_TIMEOUT (R299). -/
def execSideReadTimeout (s : State) : Host.Outcome State Fault Refusal :=
  match s.brake.side with
  | some x => if s.aoUp && decide (x.since + sideTimeout ≤ s.time.tb1p1.toNat) then .next (s.sideDone none 1) else .next s
  | none => .next s

/-- INGOT_CAPTURE_END (R300): INGOT_BUDGET has passed. A capture that read every region has ended before. -/
def execIngotCaptureEnd (s : State) : Host.Outcome State Fault Refusal :=
  match s.brake.capture with
  | some c => if s.aoUp && s.past1 (c.start1 + s.brake.cfg.budget) then .next s.captureEnd else .next s
  | none => .next s

/-- INGOT_WRITE_DONE (R302, R304): VALID is written; a clear that waited erases the slot; a cold rung that waited asserts. -/
def execIngotWriteDone (s : State) : Host.Outcome State Fault Refusal :=
  match s.brake.writing with
  | some w =>
    if s.ctlUp then
      let s0 := (s.programFlash (ingotBase 0) (w.image.take 124)).programFlash (ingotBase 0 + 124) (slice (withValid w.image) 124 4)
      let s1 := if s.brake.clearDue then s0.clearIngot 0 else s0.modFlash fun u => { u with ingot0 := withValid w.image }
      .next (((s1.modBrake fun b => { b with writing := none, clearDue := false }).ingotReady w.image w.vid w.source w.drill
        0).tryCold)
    else .next s
  | none => .next s

/-- GP_TO_EXPIRY (R296): no answer about the context in replay. -/
def execGpToExpiry (s : State) : Host.Outcome State Fault Refusal :=
  match s.brake.search with
  | some q => if s.ctlUp && s.past1 (q.since + s.brake.cfg.gpTo) then .next (s.guilty q) else .next s
  | none => .next s

/-! ### Commands (Table 16.16) -/

def opHeartbeatConfig : OpSpec :=
  mkOp 0x0900 [.v 1, .v 1, .v 1, .v 1, .v 2, .v 2, .v 2, .v 1, .v 1, .v 2, .v 2, .v 1, .r 1, .v 2, .v 1, .v 1, .v 1, .v 1, .v 2]
    rDTS wFT true

/-- A value within its range of Table 11.3, at parameter offset `off`. -/
def ckIn (lo v hi off : Nat) : Check := ckRange (decide (lo ≤ v) && decide (v ≤ hi)) off

/-- The parameters of HEARTBEAT.CONFIG in the units of BrakeCfg. -/
def parseBrake (c : Cmd) : BrakeCfg :=
  { src := cp c 1 1, prov := cp c 2 1, conf := cp c 3 1, period := cp c 4 2 * 100000, bootTo := cp c 6 2 * 100000000,
    engConfTo := cp c 8 2 * 100000, blkPeriod := cp c 10 1 * 1000000, warmFirst := cp c 11 1 == 1,
    recovTo := cp c 12 2 * 10000000, reqTo := cp c 14 2 * 100000, escCount := cp c 16 1, escWin := cp c 18 2 * 60000000000,
    ingotEn := cp c 20 1 == 1, budget := cp c 21 1 * 1000000, writeTo := cp c 22 1 * 100000000, gpEn := cp c 23 1 == 1,
    gpTo := cp c 24 2 * 10000000 }

/-- New parameters take effect; a new length of a period at the next boundary of the old grid (R83). -/
def State.brakeCfg (g : BrakeCfg) (s : State) : State :=
  let p := s.brake.blkP (gridAt s.brake.cfg.blkPeriod s.tb0Ns)
  s.modBrake fun b =>
    { b with cfg := { g with period := b.cfg.period, blkPeriod := p }, hbNext := some g.period,
             blkNext := some (g.blkPeriod, gridAt p s.tb0Ns + p) }

/-- HEARTBEAT.CONFIG (Table 11.3, R275). -/
def execHeartbeatConfig (c : Cmd) (s : State) : Host.Outcome State Fault Refusal :=
  .next (runCmd opHeartbeatConfig c
    [ckNoInline c, ckParam (decide (cp c 0 1 ≤ 2)) 0, ckIn 0 (cp c 1 1) 2 1, ckIn 1 (cp c 2 1) 15 2,
     ckIn (cp c 2 1 + 1) (cp c 3 1) 64 3, ckIn 1 (cp c 4 2) 10000 4, ckIn 1 (cp c 6 2) 6000 6, ckIn 1 (cp c 8 2) 1000 8,
     ckIn 1 (cp c 10 1) 100 10, ckIn 0 (cp c 11 1) 1 11, ckIn 1 (cp c 12 2) 1000 12, ckIn 1 (cp c 14 2) 1000 14,
     ckIn 1 (cp c 16 1) 16 16, ckIn 1 (cp c 18 2) 1440 18, ckIn 0 (cp c 20 1) 1 20, ckIn 1 (cp c 21 1) 100 21,
     ckIn 1 (cp c 22 1) 100 22, ckIn 0 (cp c 23 1) 1 23, ckIn 1 (cp c 24 2) 60000 24] []
    (fun t =>
      let t1 := t.brakeCfg (parseBrake c)
      .ok 0 [] [] (match cp c 0 1 with | 0 => t1.watchTo .off | 1 => t1.watchTo .armed | _ => t1)) s)

def opIngotConfig : OpSpec := mkOp 0x0901 [.v 1, .r 7, .v 8, .ptr] rD wFT true

/-- A region of INGOT.CONFIG. -/
def parseRegion (b : List Byte) (o : Nat) : Region :=
  { kind := 0, level := rd b o 1, core := rd b (o + 1) 1, engine := rd b (o + 2) 1, len := rd b (o + 4) 4, addr := rd b (o + 8) 8 }

/-- INGOT.CONFIG (R295, R297). -/
def execIngotConfig (c : Cmd) (s : State) : Host.Outcome State Fault Refusal :=
  let n := cp c 0 1
  let b := cdata c 0
  let l := (List.range n).map fun i => parseRegion b (16 * i)
  .next (runCmd opIngotConfig c
    [ckData opIngotConfig c 0 (16 * n), ckParam (decide (cp c 8 8 < 2 ^ 48)) 8,
     ckParam (l.all fun r => decide (r.level ≤ 2) && decide (r.addr < 2 ^ 48)) 16,
     ckParam ((List.range n).all fun i => rd b (16 * i + 3) 1 == 0) 16, ckRange (decide (n ≤ 64)) 0,
     ckRange (l.all fun r => decide (8 ≤ r.len) && decide (r.len ≤ 1048576) && r.len % 8 == 0) 16] []
    (fun t => .ok 0 [] [] (t.modBrake fun u => { u with regions := l, ctxBase := cp c 8 8 })) s)

def opIngotTake : OpSpec := mkOp 0x0902 [] rD wFT true

/-- INGOT.TAKE (R298, R494): a capture with CAUSE OWNER and no reset, accepted before it starts. -/
def execIngotTake (c : Cmd) (s : State) : Host.Outcome State Fault Refusal :=
  let t := runCmd opIngotTake c [ckNoInline c] [ckState (s.brake.capture.isNone && s.brake.writing.isNone)]
    (fun t => .acc 2 none t) s
  if t.cmd.acc.any (fun a => a.opcode == 0x0902 && a.path == c.path && a.tag == c.tag)
      && !s.cmd.acc.any fun a => a.opcode == 0x0902 && a.path == c.path && a.tag == c.tag then
    .next (t.captureStart 5 0 0xFF 0xFF false t.brake.regions)
  else .next t

def opIngotRead : OpSpec := mkOp 0x0903 [.v 1, .r 3, .v 4, .v 4, .r 4, .ptr] rDTS wFTH true

/-- A stored image: 0 the full slot, 1 and 2 the minimal slots, 3 the Ingot buffer (R304). -/
def State.ingotImage (s : State) (slot : Nat) : List Byte :=
  if slot = 0 then s.flash.ingot0 else if slot = 1 then s.flash.ingot1 else if slot = 2 then s.flash.ingot2 else s.brake.buffer

/-- INGOT.READ (R304). -/
def execIngotRead (c : Cmd) (s : State) : Host.Outcome State Fault Refusal :=
  let slot := cp c 0 1
  .next (runCmd opIngotRead c
    [ckStatus (slot != 0 || s.isDie) stRole, ckNoInline c, ckParam (decide (slot ≤ 3)) 0, ckWrite opIngotRead c 0] []
    (fun t =>
      let d := ((t.ingotImage slot).drop (cp c 4 4)).take (cp c 8 4)
      .acc 0 (some (finOk 0 (be 4 d.length) d)) (if slot ≤ 2 then t.readFlash (ingotBase slot + cp c 4 4) d.length else t)) s)

def opIngotClear : OpSpec := mkOp 0x0904 [.v 1] rDTS wFT true

/-- INGOT.CLEAR (R304): the clear of the full slot waits for a capture and its write. -/
def execIngotClear (c : Cmd) (s : State) : Host.Outcome State Fault Refusal :=
  let slot := cp c 0 1
  .next (runCmd opIngotClear c [ckNoInline c, ckParam (decide (slot ≤ 2)) 0] []
    (fun t => .ok 0 [] []
      (if slot = 0 then
        (if t.brake.capture.isSome || t.brake.writing.isSome then t.modBrake fun b => { b with clearDue := true }
         else t.clearIngot 0)
       else t.clearIngot slot)) s)

def opContextResult : OpSpec := mkOp 0x0905 [.v 4, .v 1] rD wH true

/-- CONTEXT.RESULT (R296): 0 PASS, 1 FAIL. -/
def execContextResult (c : Cmd) (s : State) : Host.Outcome State Fault Refusal :=
  .next (runCmd opContextResult c
    [ckNoInline c, ckParam (match s.brake.search with | some q => q.cur.toNat == cp c 0 4 | none => true) 0,
     ckParam (decide (cp c 4 1 ≤ 1)) 4]
    [ckState s.brake.search.isSome]
    (fun t => .ok 0 [] [] (match t.brake.search with
      | some q => if cp c 4 1 = 0 then t.searchNext q else t.guilty q
      | none => t)) s)

def opBrakeStatus : OpSpec := mkOp 0x0906 [] rDTS wFTH true

/-- BRAKE.STATUS. -/
def execBrakeStatus (c : Cmd) (s : State) : Host.Outcome State Fault Refusal :=
  .next (runCmd opBrakeStatus c [ckNoInline c] []
    (fun t => .ok 0 (be 1 (min t.brake.miss 255) ++ be 1 t.brakeState ++ be 1 (min t.nesc 255) ++ zeros 5 ++ be 8 t.brake.lastBeat)
      [] t) s)

end Sys2Proof.Machine
end

