-- ==== Sys2Proof/Machine/Hallmark.lean ====
section
/-! DEFINITION. Hallmark (spec/13): flash log, reclaim, scan, buckets, and the RECORDER commands. -/

namespace Sys2Proof.Machine

/-- Age order of records: POWC, then SEQ (R328). -/
def hallAge (r : HRec) : Nat := r.powc.toNat * 2 ^ 32 + r.seq.toNat

/-- The records of a log with their slots. -/
def logRecs (log : List (Nat × HSlot)) : List (Nat × HRec) :=
  log.filterMap fun e => match e.2 with | .holds r => some (e.1, r) | .torn => none

/-- Newest first. -/
def newestFirst (l : List HRec) : List HRec := sortLe (fun a b => decide (hallAge b ≤ hallAge a)) l

/-- A CLEAR record (Table 13.2). -/
def isClear (r : HRec) : Bool := r.code == 0x0C03

/-- CLEARSEQ: the SEQ through which the newest CLEAR record cleared, or 0 (R341, R342). -/
def clearSeq (l : List HRec) : Nat :=
  match newestFirst (l.filter isClear) with
  | r :: _ => r.arg.toNat / 2 ^ 32
  | [] => 0

/-- A record that a CLEAR has cleared; a CLEAR record never is (R342). -/
def cleared (cs : Nat) (r : HRec) : Bool := !isClear r && decide (r.seq.toNat ≤ cs)

/-- Staging and log together. -/
def HallUnit.all (h : HallUnit) : List HRec := (h.ents.map (·.r)) ++ (logRecs h.log).map (·.2)

/-- The records that a reclaim carries out of a victim sector (R337): the newest 4 CLEAR records of the log that lie in it,
FATAL, then FAULT, newest first, at most 32, none that is cleared. -/
def carryList (log : List (Nat × HSlot)) (cs victim : Nat) : List HRec :=
  let rs := logRecs log
  let inV := (rs.filter fun e => e.1 / 128 == victim).map (·.2)
  let clears := ((newestFirst ((rs.map (·.2)).filter isClear)).take 4).filter fun r => inV.any fun x => hallAge x == hallAge r
  let fatal := newestFirst (inV.filter fun r => r.sev == .fatal && !cleared cs r)
  let fault := newestFirst (inV.filter fun r => r.sev == .fault && !cleared cs r)
  (clears ++ fatal ++ fault).take 32

/-- Write carried records into a head from its first slot. -/
def writeCarried (head : Nat) : Nat → List HRec → List (Nat × HSlot) → List (Nat × HSlot)
  | _, [], log => log
  | i, r :: l, log => writeCarried head (i + 1) l (tput log (head * 128 + i) (.holds { r with carried := true }))

/-- The reclaim of a full head (R337): the spare becomes the head, records are carried, the victim is erased. The counts
are the FAULT and FATAL records lost. -/
def HallUnit.reclaim (h : HallUnit) : HallUnit × Nat × Nat :=
  let head := (h.head + 1) % 32
  let victim := (h.head + 2) % 32
  let cs := clearSeq h.all
  let c := carryList h.log cs victim
  let lost := ((logRecs h.log).filter fun e =>
    e.1 / 128 == victim && !cleared cs e.2 && !(c.any fun r => hallAge r == hallAge e.2)).map (·.2)
  let log := (writeCarried head 0 c h.log).filter fun e => e.1 / 128 != victim
  ({ h with head := head, nextSlot := c.length, log := log },
    (lost.filter fun r => r.sev == .fault).length, (lost.filter fun r => r.sev == .fatal).length)

/-- One OVERWRITE_LOSS record where a FAULT or FATAL record was lost (R337, R338). -/
def State.overwriteLoss (fault fatal : Nat) (s : State) : State :=
  if fault = 0 ∧ fatal = 0 then s else s.stage 0x0C06 .notice 0 (fault * 2 ^ 32 + fatal)

/-- A record is programmed into a slot of the log: bytes 0 to 30 first, then the valid mark (R336). -/
def State.programRec (slot : Nat) (r : HRec) (s : State) : State :=
  let a := hallArea + 32 * slot
  (s.programFlash a ((hrecBytes r).take 31)).programFlash (a + 31) ((hrecBytes r).drop 31)

/-- A head that is full is reclaimed (R337): the carried records are programmed, and the victim is erased. -/
def State.reclaimFull (s : State) : State :=
  if 128 ≤ s.hall.nextSlot then
    let r := s.hall.reclaim
    let keep := carryList s.hall.log (clearSeq s.hall.all) ((s.hall.head + 2) % 32)
    let s1 := (List.range keep.length).foldl (fun t i => match keep[i]? with
      | some x => t.programRec ((s.hall.head + 1) % 32 * 128 + i) { x with carried := true }
      | none => t) s
    ((s1.eraseFlash (hallArea + (s.hall.head + 2) % 32 * 4096) 4096).modHall fun h => h.reclaim.1).overwriteLoss r.2.1 r.2.2
  else s

/-- HALLMARK_FLASH_WRITE_DONE (R336, R337): the record being written is in the head and its entry WRITTEN; a full head is
reclaimed; the writer begins the next. -/
def execHallmarkFlashWriteDone (s : State) : Host.Outcome State Fault Refusal :=
  match s.hall.ents.find? fun e => e.begun && !e.written with
  | some e =>
    if s.aoUp then
      let s1 := (s.programRec (s.hall.head * 128 + s.hall.nextSlot) e.r).modHall fun h =>
        { h with log := tput h.log (h.head * 128 + h.nextSlot) (.holds e.r), nextSlot := h.nextSlot + 1,
                 ents := markEnt h.ents e.r.seq fun x => { x with written := true } }
      .next s1.reclaimFull.hallSettle
    else .next s
  | none => .next s

/-- RL_BUCKET_REFILL (R334, R335): the bucket of a code, or the common bucket, gains a token when its interval has
passed. -/
def execRlBucketRefill (code : BitVec 16) (s : State) : Host.Outcome State Fault Refusal :=
  .next (if s.aoUp then s.refillBucket code else s)

/-- FLASH_BUCKET_REFILL (R336): FL_RATE tokens each second of TB1, up to FL_DEPTH. -/
def execFlashBucketRefill (s : State) : Host.Outcome State Fault Refusal :=
  if s.aoUp ∧ s.hall.flashAt + 1000000000 ≤ s.tb1Ns then
    .next (s.modHall fun h =>
      HallUnit.beginWrite { h with flash := min h.flDepth (h.flash + h.flRate), flashAt := h.flashAt + 1000000000 })
  else .next s

/-- OPT_TICK (R339): operating time in units of 360 s of TB1; HOURS every 80 units. -/
def execOptTick (s : State) : Host.Outcome State Fault Refusal :=
  if s.aoUp ∧ s.hall.optAt + 360000000000 ≤ s.tb1Ns then
    let o := satAdd 24 s.hall.opt.toNat 1
    let s1 := s.modHall fun h => { h with opt := BitVec.ofNat 24 o, optAt := h.optAt + 360000000000 }
    .next (if o % 80 = 0 then s1.stage 0x0C02 .info 0 0 else s1)
  else .next s

/-- The scan after AO reset (R338): head, spare, next slot, SEQ, OPT and POWC out of the log; POWER_ON staged, and
OVERWRITE_LOSS where an interrupted reclaim lost records; a head found full is reclaimed (R337). -/
def State.hallScan (s : State) : State :=
  let log := s.hall.log
  let rs := logRecs log
  let torn := (log.filter fun e => e.2 == .torn).length
  let on := fun (t : State) => t.stage 0x0C01 .info (roleCode t.sys.strap) (Config.physId.toNat * 2 ^ 32 + torn)
  let new := (newestFirst (rs.map (·.2))).head?
  let H := match new with
    | some n => ((rs.find? fun e => hallAge e.2 == hallAge n).map (·.1)).getD 0 / 128
    | none => 0
  let nxt := (H + 1) % 32
  let head := if rs.any fun e => e.1 / 128 == nxt && e.2.carried then nxt else H
  let spare := (head + 1) % 32
  let cs := clearSeq (rs.map (·.2))
  let lost := ((rs.filter fun e => e.1 / 128 == spare && !cleared cs e.2
    && !(rs.any fun x => x.1 / 128 != spare && x.2.carried && hallAge x.2 == hallAge e.2)).map (·.2))
  let used := (log.filter fun e => e.1 / 128 == head).map fun e => e.1 % 128 + 1
  let s0 := if log.any fun e => e.1 / 128 == spare then s.eraseFlash (hallArea + spare * 4096) 4096 else s
  let s1 := s0.modHall fun h =>
    { h with log := log.filter fun e => e.1 / 128 != spare, head := head, nextSlot := used.foldl max 0 }
  let s2 := match new with
    | some n => s1.modHall fun h =>
        { h with seq := nextSeq n.seq, lastSeq := n.seq, opt := n.opt, powc := BitVec.ofNat 16 (satAdd 16 n.powc.toNat 1) }
    | none => s1
  ((on s2).overwriteLoss (lost.filter fun r => r.sev == .fault).length (lost.filter fun r => r.sev == .fatal).length).reclaimFull

/-! ### Commands of the RECORDER group (Table 16.18) -/

/-- Every SEQ once, the CARRIED copy before another, in ascending SEQ order (R338, R341). -/
def HallUnit.sorted (h : HallUnit) : List HRec :=
  let l := sortLe (fun a b => decide (hallAge a * 2 + b2n (!a.carried) ≤ hallAge b * 2 + b2n (!b.carried))) h.all
  l.foldl (fun acc r => if acc.any fun x => hallAge x == hallAge r then acc else acc ++ [r]) []

def opRecorderRead : OpSpec := mkOp 0x0C00 [.v 4, .v 2, .v 1, .r 1, .ptr] rDTS wFTH true

/-- The records that a read returns, and the SEQ to go on from (log entry 17). -/
def State.recorderRead (s : State) (start n : Nat) (incl : Bool) : List HRec × Nat :=
  let cs := clearSeq s.hall.all
  let l := s.hall.sorted.filter fun r => decide (start ≤ r.seq.toNat) && (incl || !cleared cs r)
  (l.take n, match l.drop n with | r :: _ => r.seq.toNat | [] => s.hall.seq.toNat)

/-- RECORDER.READ (R341). -/
def execRecorderRead (c : Cmd) (s : State) : Host.Outcome State Fault Refusal :=
  .next (runCmd opRecorderRead c
    [ckNoInline c, ckParam (decide (cp c 6 1 ≤ 1)) 6, ckWrite opRecorderRead c 0] []
    (fun t =>
      let r := t.recorderRead (cp c 0 4) (cp c 4 2) (cp c 6 1 == 1)
      .acc 0 (some (finOk 0 (be 2 r.1.length ++ zeros 2 ++ be 4 r.2) (r.1.map hrecBytes).flatten)) t) s)

def opRecorderStatus : OpSpec := mkOp 0x0C01 [] rDTS wFTH true

/-- RECORDER.STATUS (R341): HEAD, SPARE, HELD, UNWR, DROP, CLEARSEQ. -/
def execRecorderStatus (c : Cmd) (s : State) : Host.Outcome State Fault Refusal :=
  .next (runCmd opRecorderStatus c [ckNoInline c] []
    (fun t => .ok 0 (be 1 t.hall.head ++ be 1 ((t.hall.head + 1) % 32) ++ be 2 t.hall.sorted.length
      ++ be 1 (t.hall.ents.filter fun e => !e.written).length ++ zeros 3 ++ be 4 t.hall.drop
      ++ be 4 (clearSeq t.hall.all)) [] t) s)

/-- ARGB and address of a CLEAR record's issuer path (Table 13.2). -/
def State.clearPath (s : State) : Path → Nat × Laddr
  | .localQueue => (if s.isTray then 1 else 0, s.sys.laddr)
  | .fabricQueue _ _ => (2, s.sys.laddr)
  | .fabric src _ _ => (2, src)
  | .broadcast root _ => (2, root)
  | .restore _ => (0, s.sys.laddr)

def opRecorderClear : OpSpec := mkOp 0x0C02 [] rDTS wFTH true

/-- RECORDER.CLEAR (R342). -/
def execRecorderClear (c : Cmd) (s : State) : Host.Outcome State Fault Refusal :=
  let wait := match s.hall.lastClear with | some t => decide (s.tb1Ns < t + 60000000000) | none => false
  .next (runCmd opRecorderClear c [ckNoInline c] [ckStatus (!wait) stThrottled]
    (fun t =>
      let p := t.clearPath c.path
      let last := t.hall.lastSeq.toNat
      .ok 0 (be 4 last) [] ((t.modHall fun h => { h with lastClear := some t.tb1Ns }).stage 0x0C03 .notice p.1
        (last * 2 ^ 32 + p.2.toNat))) s)

def opRecorderNote : OpSpec := mkOp 0x0C03 [.v 1, .v 1, .v 1, .r 5, .v 8] rDTS wFTH true

/-- RECORDER.NOTE (R342): code 0x1100 + EVT; the reply carries the SEQ the record received, or 0. -/
def execRecorderNote (c : Cmd) (s : State) : Host.Outcome State Fault Refusal :=
  .next (runCmd opRecorderNote c
    [ckNoInline c, ckParam (decide (cp c 1 1 ≤ 1)) 1, ckRange (decide (0x80 ≤ cp c 0 1)) 0] []
    (fun t =>
      let p := t.stageSeq (BitVec.ofNat 16 (0x1100 + cp c 0 1)) (if cp c 1 1 = 0 then .info else .notice) (cp c 2 1)
        (cp c 8 8) false
      .ok 0 (be 4 p.2.toNat) [] p.1) s)

def opRecorderConfig : OpSpec := mkOp 0x0C04 [.v 1, .v 1, .v 2, .v 2] rDTS wFT true

/-- RECORDER.CONFIG (R343, Table 13.3). -/
def execRecorderConfig (c : Cmd) (s : State) : Host.Outcome State Fault Refusal :=
  let d := cp c 0 1
  let fr := cp c 1 1
  let ri := cp c 2 2
  let fd := cp c 4 2
  .next (runCmd opRecorderConfig c
    [ckNoInline c, ckRange (decide (1 ≤ d) && decide (d ≤ 64)) 0, ckRange (decide (1 ≤ fr) && decide (fr ≤ 16)) 1,
     ckRange (decide (1 ≤ ri) && decide (ri ≤ 3600)) 2, ckRange (decide (16 ≤ fd) && decide (fd ≤ 512) && fd % 16 == 0) 4] []
    (fun t => .ok 0 [] [] (t.modHall fun h =>
      { h with rlDepth := d, flRate := fr, rlInt := ri, flDepth := fd, flash := min h.flash fd,
               buckets := h.buckets.map fun b => { b with tokens := min b.tokens d, nextAt := refillAt ri t.tb1Ns } })) s)

end Sys2Proof.Machine
end

