-- ==== Sys2Proof/Machine/Power.lean ====
section
/-! DEFINITION. Power states (R450 to R457): entry, exit, demands, and the command SYS.PSTATE as a packet runs it. -/

namespace Sys2Proof.Machine

/-! ### Entry (R452, Table 19.5) -/

/-- A POWER_STATE record on a stream (R25 calls it Tailrace's). -/
def State.sendPower (c : Fin 4) (frm dst : PState) (s : State) : State :=
  s.send { dst := .every, cls := c, typ := tPowerState, unit := uTailrace, flags := 0, stamp := none,
           body := be 1 (pstateCode frm) ++ be 1 (pstateCode dst) }

/-- Streams on which Tailrace has offered its last TRACE record get their POWER_STATE and then their RECONCILE record
(R121, R319, R452). -/
def State.entrySettle (s0 : State) : State :=
  let s := s0.tracePump
  match s.pow.entry with
  | some e =>
    let waits := fun (c : Nat) => s.trace.closed.any fun x => (if x.1 then 3 else 2) == c
    let s1 := (List.finRange 4).foldl (fun t c =>
      if e.owed.contains c.val && !waits c.val then (t.sendPower c .run e.target).putRecon c else t) s
    s1.modPow fun u => { u with entry := some { e with owed := e.owed.filter waits } }
  | none => s

/-- Entry to a lower state starts. -/
def State.beginEntry (t : PState) (s : State) : State :=
  let s1 := (s.modPow fun u => { u with entry := some { start := s.tb1Ns, target := t, owed := [0, 1, 2, 3] }, waking := false,
                                        demandHeld := false }).endWindow 6
  let s2 := s1.modelsDrop.heavySets heavySleep
  s2.traceDrain.entrySettle

/-- Final replies of SYS.PSTATE: of those whose target is reached, and of those that a later target has overtaken once no entry is in
progress (R451). -/
def State.pstateReplies (s : State) : State :=
  let done := s.cmd.acc.filter fun a => a.opcode == 0x0104
    && (a.obj == pstateCode s.pow.pstate || (a.obj != pstateCode s.pow.target && s.pow.entry.isNone))
  done.foldl (fun t a => t.finish a (finOk 0 (be 1 (pstateCode s.pow.pstate)) [])) s

/-- PSTATE changes: INT_STATUS and the light set (Tables 19.5 and 19.7). Crown keeps the change for the block's own contributions
(R151). -/
def State.pstateTo (p : PState) (s : State) : State :=
  (((s.modPow fun u => { u with pstate := p }).seenPower s.sys.laddr s.tb0Ns (p != .run)).intSet 5).bump cPstateChange

/-! ### Exit (R456, Table 19.7) -/

/-- Light-set samples that wait in AO become records (R457). -/
def State.unstage (s : State) : State :=
  let tag := (s.set 0).tag
  let s1 := s.coll.stageSamples.foldl (fun t x =>
    t.sendSample x.stamp x.flags (sampleBody 0 tag x.nwin x.start x.vals 0)) s
  (s.coll.stageDisc.foldl (fun t q => t.send q) s1).modColl fun c => { c with stageSamples := [], stageDisc := [] }

/-- What a unit held while ENG did not run is offered, in the order of Table 19.7. -/
def State.offerHeld (s : State) : State := s.unstage.hallCopies.assaySend.flushOwed

/-- The block exits to RUN: clocks, owed EPOCH and POWER_STATE records, FULL SYNC, staged items. -/
def State.exitRun (s : State) : State :=
  if s.pow.pstate = .run ∨ s.pow.pstate = .off then s
  else
    let frm := s.pow.pstate
    let s1 := (s.refill.tensorRefill.heavySets (heavyWake s.tb0Ns)).modPow fun u =>
      { u with ctlOn := true, engOn := true, ctlAwake := none, waking := u.target != .run, lastDemand := s.tb1Ns }
    let s2 := ((List.finRange 4).foldl (fun t c => (t.settleEpoch c .every false).sendPower c frm .run) (s1.pstateTo .run)).traceWake.modelsWake
    s2.offerHeld.pstateReplies

/-! ### The end of the drain -/

/-- Frames wait to leave, of this block's streams or of forwarded ones. -/
def State.drained (s : State) : Bool :=
  ([0, 1, 2, 3].all fun c => (s.scfg c).queue.isEmpty)
    && s.hop.ifcs.all fun f => f.second.isNone && f.cls.all fun k => k.fwd.isEmpty

/-- A queue pair shows entries that are not fetched. -/
def QPair.busy (p : QPair) : Bool := p.en && p.visible != 0

/-- The drain ends: POWER_STATE follows on a stream whose trace had not left (R25), what is left is dropped, the state is entered, the
clocks stop (R452, R453). In SLEEP the CTL clock goes on while a queue pair shows entries (Table 19.9). -/
def State.enterState (e : Entry) (s : State) : State :=
  let s1 := (s.modelsFinish.dropBuffer true).entrySettle.flushAll
  let s2 := ((s1.modPow fun u => { u with entry := none }).heavySets heavySleep).pstateTo e.target
  let s3 := s2.pstateReplies
  let awake := e.target == .sleep && (s3.cmd.loc.busy || s3.cmd.fab.busy)
  let s4 := s3.modPow fun u =>
    { u with engOn := false, ctlOn := e.target == .doze || awake, ctlAwake := if awake then some s.tb1Ns else none,
             offFlush := e.target == .off }
  if e.target = .off then s4.modHall fun h => HallUnit.beginWrite { h with flash := h.flash + 64 } else s4

/-- What the entry does when its drain may end: a demand that came during it, or a target of RUN, exits at once (R25, R451). -/
def State.drainEnd (s : State) : State :=
  match s.pow.entry with
  | some e0 =>
    let s1 := s.entrySettle
    let e := s1.pow.entry.getD e0
    let late := s.past1 (e.start + 10000000)
    if late || (e.owed.isEmpty && s1.trace.closed.isEmpty && s1.drained && !s1.modelsBusy) then
      let s2 := s1.enterState e
      if e.target = .off then s2
      else if s.pow.demandHeld || s.pow.target == .run then s2.exitRun.modPow fun u => { u with demandHeld := false }
      else if s.pow.target != e.target then (s2.exitRun.modPow fun u => { u with waking := false }).beginEntry s.pow.target
      else s2
    else s1
  | none => s

/-! ### Demands (R454, R455, Table 19.6) -/

/-- The oldest item of an AO staging area is 1 s of TB0 old. -/
def State.agedItem (s : State) : Bool :=
  let old := fun (t : Nat) => decide (t + 1000000000 ≤ s.tb0Ns)
  s.coll.stageSamples.any (fun x => old x.stamp) || s.coll.stageDisc.any (fun q => old (q.stamp.getD s.tb0Ns))
    || s.hall.ents.any (fun e => !e.copied && old e.r.t.toNat) || s.assay.frames.any fun f => !f.sent && old f.at0

/-- A demand stands as its threshold gives. Frames, TRC packets and doorbells are events of the ports. -/
def State.demandStands (s : State) : Demand → Bool
  | .doorbell => s.cmd.loc.busy || s.cmd.fab.busy
  | .frame => true
  | .trc => s.isDie && s.portUp .trc
  | .brake => (s.verd.own.any fun v => v.kind == 2) || s.brake.ladder.isSome || !s.brake.owed.isEmpty
  | .samples => decide (24 ≤ s.coll.stageSamples.length)
  | .discs => decide (48 ≤ s.coll.stageDisc.length)
  | .hallmark => s.hall.high
      || s.hall.ents.any fun e => !e.copied && !sevLt e.r.sev .fault
  | .assay => decide (3 ≤ (s.assay.frames.filter fun f => !f.sent).length)
  | .aged => s.agedItem

/-- A doorbell in SLEEP starts CTL alone (R455). -/
def State.ctlWake (s : State) : State :=
  if s.pow.pstate = .sleep ∧ !s.pow.ctlHeld then s.modPow fun u => { u with ctlOn := true, ctlAwake := some s.tb1Ns } else s

/-- A demand of R24: held during an entry, a wake outside RUN, a restart of WAKE_HOLD in a wake (R25, R454, R455). -/
def State.demand (s : State) : State :=
  if s.pow.phase != .running || s.pow.ctlHeld || s.pow.engHeld then s
  else if s.pow.entry.isSome then s.modPow fun u => { u with demandHeld := true }
  else if s.pow.pstate = .run then (if s.pow.waking then s.modPow fun u => { u with lastDemand := s.tb1Ns } else s)
  else s.exitRun

/-- WAKE_HOLD has passed and every demand has been served. -/
def State.holdOver (s : State) : Bool :=
  s.pow.waking && s.pow.pstate == .run && s.pow.entry.isNone && s.past1 (s.pow.lastDemand + 1000000)
    && s.hop.ifcs.all fun f => f.rx.isEmpty

/-- CTL_IDLE_STOP (R455): in SLEEP the pair is empty, no command of it is ACCEPTED, and 1 ms has passed. -/
def execCtlIdleStop (s : State) : Host.Outcome State Fault Refusal :=
  match s.pow.ctlAwake with
  | some t =>
    if s.aoUp && s.pow.pstate == .sleep && s.past1 (t + 1000000) && !s.cmd.loc.busy && !s.cmd.fab.busy
        && !(s.cmd.acc.any fun a => pairPath a.path) then
      .next (s.modPow fun u => { u with ctlOn := false, ctlAwake := none })
    else .next s
  | none => .next s

/-- OFF_FLASH_FLUSH_DONE (R453): every Hallmark entry is WRITTEN, and AO_OFF_REQ asserts. -/
def execOffFlashFlushDone (s : State) : Host.Outcome State Fault Refusal :=
  if s.aoUp && s.pow.offFlush && s.hall.ents.all (·.written) then
    .next (s.modPow fun u => { u with offFlush := false, offReq := true })
  else .next s

/-! ### SYS.PSTATE (R451, Table 19.4) -/

/-- The power state of a TARGET code. -/
def pstateOf (n : Nat) : PState := if n = 0 then .run else if n = 1 then .doze else if n = 2 then .sleep else .off

/-- Table 19.4 forbids a target. -/
def State.pstateForbidden (s : State) (t : PState) : Bool :=
  t != .run && (if s.isDie then s.sentry.job.isSome || s.sys.acting || s.sys.crownWait.isSome || (t == .off && s.sys.joined)
    else if s.isTray then t == .off && !s.sys.members.isEmpty
    else t == .off && !(s.crown.trees.isEmpty && s.crown.treesNext.isEmpty))

def opSysPstate : OpSpec := mkOp 0x0104 [.v 1] rDTS wFT true

/-- A new target state takes effect as far as it can now. -/
def State.targetTo (t : PState) (s : State) : State :=
  let s1 := s.modPow fun u => { u with target := t, waking := u.waking && t != .run }
  let s2 :=
    if s1.pow.entry.isSome then s1
    else if s1.pow.pstate = .run then
      if t = .run ∨ s1.pow.waking then s1 else s1.beginEntry t
    else if s1.pow.pstate = t ∨ s1.pow.pstate = .off then s1
    else if t = .run then s1.exitRun
    else (s1.exitRun.modPow fun u => { u with waking := false }).beginEntry t
  s2.pstateReplies

/-- The command SYS.PSTATE as a packet runs it (R451): an ACCEPTED one moves the target once it stands among the commands that the
change answers. -/
def cmdSysPstate (c : Cmd) (s : State) : State :=
  let t := pstateOf (cp c 0 1)
  let pr := [ckNoInline c, ckParam (decide (cp c 0 1 ≤ 3)) 0]
  let rest := [ckState (!s.pstateForbidden t)]
  let there := t == s.pow.pstate && s.pow.entry.isNone
  let s1 := runCmd opSysPstate c pr rest
    (fun u => if there then .ok 0 (be 1 (pstateCode t)) [] (u.targetTo t) else .acc (pstateCode t) none u) s
  if s.pathReady opSysPstate.code c && (firstFail (s.checks opSysPstate c pr rest)).isNone && !there
      && decide (s.acceptedNow < 64) then s1.targetTo t
  else s1

end Sys2Proof.Machine
end

