-- ==== Sys2Proof/Machine/RegWin.lean ====
section
/-! DEFINITION. The register window (spec/17): reads, the time snapshot, interrupts, the registers of the queue pairs. -/

namespace Sys2Proof.Machine

/-- The window serves its registers: AO and the PORT domain of CMD are out of reset, and the state is not OFF (R411). -/
def State.windowUp (s : State) : Bool := s.portUp .cmd && s.pow.pstate != .off

/-- Base of a pair's registers. -/
def pairBase (fab : Bool) : Nat := if fab then 0x1100 else 0x1000

/-- The pair exists in this role: the fabric pair in tray role only (Table 17.1). -/
def State.hasPair (s : State) (fab : Bool) : Bool := !fab || s.isTray

/-! ### Reads (R408 to R412, Tables 17.1 to 17.9) -/

/-- STRAP (Table 17.3). -/
def State.strapReg (s : State) : Nat :=
  b2n (s.sys.strap == .invalid) * 256 + roleCode s.sys.pin * 16 + roleCode s.sys.strap

/-- CAP_INT (Table 17.4). -/
def State.capInt (s : State) : Nat :=
  (if s.isDie then Config.coresM1.toNat else 0) * 2 ^ 24 + Config.enginesM1.toNat * 2 ^ 20 + Config.stamps.toNat * 2 ^ 13
    + Config.sides.toNat * 2 ^ 8 + Config.mems.toNat * 4

/-- SL_AGG, SL_C0 to SL_C3 and SL_DEPTH by index; 0 in the role-less state (R446, Table 5.5). -/
def State.sluiceReg (s : State) (i : Nat) : Nat :=
  if s.sys.strap = .invalid then 0
  else if i = 0 then sluiceAll s.sys.strap
  else if i = 5 then sluiceDepth s.sys.strap / 1024
  else lget (sluiceRate s.sys.strap) (i - 1) 0

/-- AO_STATUS (Table 17.5). -/
def State.aoStatus (s : State) : Nat :=
  min s.cmd.ctlResets 255 * 2 ^ 16 + b2n s.pow.pgMetro * 2 ^ 14 + b2n s.hoist.trialAt.isSome * 2 ^ 13 + b2n s.sys.acting * 2 ^ 12
    + b2n s.sys.joined * 2 ^ 11 + b2n s.pow.intHold * 2 ^ 10 + b2n s.sys.oos * 2 ^ 9 + b2n (s.brake.watch == .armed) * 2 ^ 8
    + b2n (!s.time.refclk) * 2 ^ 7 + b2n (s.sys.strap == .invalid) * 2 ^ 6 + b2n s.engUp * 2 ^ 5 + b2n s.ctlUp * 2 ^ 4
    + lockCode s.time.lock * 4 + pstateCode s.pow.pstate

/-- A register of a queue pair (Table 17.9). -/
def QPair.reg (p : QPair) (off : Nat) : Nat :=
  if off = 0x00 then p.cqBase.toNat % 2 ^ 32
  else if off = 0x04 then p.cqBase.toNat / 2 ^ 32
  else if off = 0x10 then p.cqTail.toNat
  else if off = 0x14 then p.cqHead.toNat
  else if off = 0x20 then p.rqBase.toNat % 2 ^ 32
  else if off = 0x24 then p.rqBase.toNat / 2 ^ 32
  else if off = 0x28 then p.rqHead.toNat
  else if off = 0x2C then p.rqTail.toNat
  else if off = 0x30 then b2n p.en * 2 ^ 31 + p.rqLog2.toNat * 256 + p.cqLog2.toNat
  else if off = 0x34 then b2n p.wrerr * 8 + b2n p.cfgerr * 4 + b2n p.dberr * 2 + b2n p.idle
  else 0

/-- The current value of the register at an offset; 0 where the map lists none or not in this role (Table 17.1). -/
def State.reg (s : State) (off : Nat) : Nat :=
  if off = 0x0000 then 0x4A39B101
  else if off = 0x0004 then Config.physId.toNat
  else if off = 0x0008 then b2n s.sys.laddrValid * 2 ^ 31 + s.sys.laddr.toNat
  else if off = 0x000C then s.sys.fwver.toNat
  else if off = 0x0010 then s.strapReg
  else if off = 0x0014 then s.capInt
  else if 0x0018 ≤ off ∧ off ≤ 0x002C ∧ off % 4 = 0 then s.sluiceReg ((off - 0x18) / 4)
  else if off = 0x0030 then Config.dieFb.toNat * 2 ^ 21 + Config.budgetDef.toNat * 2 ^ 10
  else if off = 0x0034 then Config.vnom.toNat
  else if off = 0x0100 then s.aoStatus
  else if off = 0x0104 then min s.hop.gaspLost 0xFFFF
  else if off = 0x0110 then (if s.isDie then s.sentry.through.toNat % 2 ^ 32 else 0)
  else if off = 0x0114 then (if s.isDie then s.sentry.through.toNat / 2 ^ 32 else 0)
  else if off = 0x0140 then s.cmd.snap.tb0.toNat % 2 ^ 32
  else if off = 0x0144 then s.cmd.snap.tb0.toNat / 2 ^ 32
  else if off = 0x0148 then s.cmd.snap.tb1.toNat % 2 ^ 32
  else if off = 0x014C then s.cmd.snap.tb1.toNat / 2 ^ 32
  else if off = 0x0150 then s.cmd.snap.tb2.toNat % 2 ^ 32
  else if off = 0x0154 then s.cmd.snap.tb2.toNat / 2 ^ 32
  else if off = 0x0158 then s.cmd.snap.lock.toNat * 2 ^ 16 + s.cmd.snap.frac.toNat
  else if off = 0x0200 then s.cmd.intStatus.toNat
  else if off = 0x0204 then s.cmd.intEnable.toNat
  else if 0x1000 ≤ off ∧ off < 0x1038 then s.cmd.loc.reg (off - 0x1000)
  else if 0x1100 ≤ off ∧ off < 0x1138 ∧ s.isTray then s.cmd.fab.reg (off - 0x1100)
  else 0

/-- Offset of the _HI register of an _LO register (R410). -/
def hiOf (off : Nat) : Option Nat :=
  if [0x0110, 0x0140, 0x0148, 0x0150, 0x1000, 0x1020, 0x1100, 0x1120].contains off then some (off + 4) else none

/-- The accesses of the window come on one path (log entry 32). -/
def winPath : Nat := 0

/-- Any access of a path but the read of the matching _HI ends a latch (R410). -/
def State.unlatch (s : State) : State := s.modCmd fun c => { c with latch := tdel c.latch winPath }

/-- TB0, TB1, TB2 and the lock state as they stand are captured (R415). -/
def State.capture' (s : State) : State :=
  s.modCmd fun c =>
    { c with snap := { tb0 := BitVec.ofNat 64 s.tb0Ns, tb1 := BitVec.ofNat 64 s.tb1Ns, tb2 := s.tb2Ns,
                       lock := BitVec.ofNat 2 (lockCode s.time.lock), frac := BitVec.ofNat 16 (s.tb0Frac % 2 ^ 16) } }

/-- TS_TB0_LO_READ (R42, R415): a read of either width captures the snapshot. -/
def execTsTb0LoRead (wide : Bool) (s : State) : Host.Outcome State Fault Refusal :=
  if s.windowUp then
    let s1 := s.unlatch.capture'
    let s2 := if wide then s1 else s1.modCmd fun c =>
      { c with latch := tput c.latch winPath (0x0144, BitVec.ofNat 32 (s1.reg 0x0144)) }
    .next (s2.emit (.readData (if wide then s1.cmd.snap.tb0.toNat else s1.reg 0x0140)))
  else .next (s.emit (.readData 0))

/-- LO_HALF_READ (R410, R411): a 32-bit read. One of an _LO register latches its _HI half, one of an _HI register that follows
returns the latched half; a read of TS_TB0_LO is TS_TB0_LO_READ. It serves every register of the map (log entry 32). -/
def execLoHalfRead (off : BitVec 16) (s : State) : Host.Outcome State Fault Refusal :=
  let o := off.toNat
  if o % 4 ≠ 0 ∨ o = 0x0140 then .next s
  else if s.windowUp then
    let v := match tget s.cmd.latch winPath with
      | some l => if l.1 = o then l.2.toNat else s.reg o
      | none => s.reg o
    let s1 := s.unlatch
    let s2 := match hiOf o with
      | some h => s1.modCmd fun c => { c with latch := tput c.latch winPath (h, BitVec.ofNat 32 (s.reg h)) }
      | none => s1
    .next (s2.emit (.readData v))
  else .next (s.emit (.readData 0))

/-- BAD_ACCESS (R408): another width or alignment. A write is ignored, a read returns 0, BADACC sets. -/
def execBadAccess (write : Bool) (off : BitVec 16) (size : Nat) (s : State) : Host.Outcome State Fault Refusal :=
  if (size == 4 || size == 8) && off.toNat % size == 0 then .next s
  else
    let s1 := if s.windowUp then s.unlatch.intSet 10 else s
    .next (if write then s1 else s1.emit (.readData 0))

/-- HEARTBEAT_WRITE (R273, R413): a write of any value is a beat, unless HB_SRC is PIN. -/
def execHeartbeatWrite (_value : Word) (s : State) : Host.Outcome State Fault Refusal :=
  if s.windowUp then
    let s1 := s.unlatch
    if s.portUp .hb && s.brake.cfg.src != 1 && !s.hbStopped then .next s1.takeBeat else .next s1
  else .next s

/-! ### Interrupts (R12, R416, R477) -/

/-- A write of INT_STATUS or INT_ENABLE that leaves INT driven sends an MSI-X message in tray role. -/
def State.intWritten (s : State) : State := if s.isTray && s.intPin then s.emit .msix else s

/-- The bits that a write of ones may clear: those that no event has set in this AO cycle (R12). `base` is the number of bit 0. -/
def CmdUnit.clearable (u : CmdUnit) (base : Nat) (value : Word) : Nat :=
  ((List.range 11).map fun i => if bit value.toNat i && !u.fresh.contains (base + i) then 2 ^ i else 0).sum

/-- W1C_STATUS_WRITE (R12, R416, Table 17.9): ones clear bits of INT_STATUS or of a pair's status register; a bit that an event sets in
the same cycle stays 1. -/
def execW1cStatusWrite (off : BitVec 16) (value : Word) (s : State) : Host.Outcome State Fault Refusal :=
  let pairClr := fun (base : Nat) (p : QPair) =>
    let v := s.cmd.clearable base value
    { p with wrerr := p.wrerr && !bit v 3, cfgerr := p.cfgerr && !bit v 2, dberr := p.dberr && !bit v 1 }
  if s.windowUp then
    let s1 := s.unlatch
    if off = 0x0200 then
      .next (State.intWritten (s1.modCmd fun c =>
        { c with intStatus := c.intStatus &&& ~~~(BitVec.ofNat 11 (s.cmd.clearable 0 value)) }))
    else if off = 0x1034 then .next (s1.modPair false (pairClr 16))
    else if off = 0x1134 ∧ s.isTray then .next (s1.modPair true (pairClr 24))
    else .next s1
  else .next s

/-- INT_ENABLE_WRITE (R477). -/
def execIntEnableWrite (value : Word) (s : State) : Host.Outcome State Fault Refusal :=
  if s.windowUp then .next (State.intWritten (s.unlatch.modCmd fun c => { c with intEnable := BitVec.ofNat 11 value.toNat }))
  else .next s

/-! ### Queue pairs (R417 to R420, R495) -/

/-- A pair sets bit `b` of its STATUS, and the error bit of INT_STATUS with it. -/
def State.pairError (fab : Bool) (b : Nat) (f : QPair → QPair) (s : State) : State :=
  ((s.modPair fab f).modCmd fun u => { u with fresh := ((if fab then 24 else 16) + b) :: u.fresh }).intSet 4

/-- CQ_TAIL_WRITE (R411, R418): the doorbell, which in SLEEP starts CTL. -/
def execCqTailWrite (fab : Bool) (value : BitVec 12) (s : State) : Host.Outcome State Fault Refusal :=
  let p := s.pair fab
  if s.windowUp && s.hasPair fab then
    let s1 := s.unlatch
    if !p.en || decide (qSize p.cqLog2 ≤ value.toNat) then .next (s1.pairError fab 1 fun q => { q with dberr := true })
    else .next ((s1.modCmd fun c => { c with tailWas := c.tailWas ++ [(fab, p.cqTail)] }).modPair fab fun q =>
      { q with cqTail := value }).ctlWake
  else .next s

/-- RQ_HEAD_WRITE (R394, R419): slots are freed, and what waits for a slot is written. -/
def execRqHeadWrite (fab : Bool) (value : BitVec 12) (s : State) : Host.Outcome State Fault Refusal :=
  let p := s.pair fab
  let n := qSize p.rqLog2
  if s.windowUp && s.hasPair fab then
    let s1 := s.unlatch
    if n ≤ value.toNat ∨ (p.rqTail.toNat + n - p.rqHead.toNat) % n < (value.toNat + n - p.rqHead.toNat) % n then
      .next (s1.pairError fab 1 fun q => { q with dberr := true })
    else .next ((s1.modPair fab fun q => { q with rqHead := value }).drainSlots fab 4096)
  else .next s

/-- A base that R417 admits. -/
def baseOk (b : Dword) : Bool := b != 0 && b.toNat % 4096 == 0

/-- A LOG2 field that R417 admits. -/
def log2Ok (l : BitVec 4) : Bool := decide (4 ≤ l.toNat) && decide (l.toNat ≤ 12)

/-- QUEUE_PAIR_ENABLE (R417): a write that sets EN, with its LOG2 fields. -/
def execQueuePairEnable (fab : Bool) (rqLog2 cqLog2 : BitVec 4) (s : State) : Host.Outcome State Fault Refusal :=
  let p := s.pair fab
  if s.windowUp && s.hasPair fab then
    let s1 := s.unlatch
    if p.en then .next s1
    else if baseOk p.cqBase && baseOk p.rqBase && log2Ok rqLog2 && log2Ok cqLog2 then
      .next ((s1.modPair fab fun q =>
        { q with en := true, rqLog2 := rqLog2, cqLog2 := cqLog2, cqHead := 0, cqTail := 0, rqHead := 0, rqTail := 0, phase := true,
                 idle := false }).drainSlots fab 4096)
    else .next (s1.pairError fab 2 fun q => { q with cfgerr := true })
  else .next s

/-- A command came by a pair. -/
def onPair (fab : Bool) : Path → Bool
  | .localQueue => !fab
  | .fabricQueue _ _ => fab
  | _ => false

/-- The pair stops: its commands without a final reply are discarded, IDLE and QIDLE set; events that wait are kept (R420). -/
def State.stopPair (fab : Bool) (s : State) : State :=
  ((s.modPair fab fun q => { q with en := false, idle := true }).modCmd fun c =>
    { c with acc := c.acc.filter (fun a => !onPair fab a.path), waiting := c.waiting.filter (fun w => w.1 != fab),
             flight := if fab then [] else c.flight, gwWait := if fab then [] else c.gwWait }).intSet 3

/-- A CQ_TAIL write in the cycle in which EN is cleared comes after the clear: it is ignored and sets DBERR (R421). -/
def State.tailUndone (fab : Bool) (s : State) : State :=
  match s.cmd.tailWas.find? fun e => e.1 == fab with
  | some e => s.pairError fab 1 fun q => { q with cqTail := e.2, dberr := true }
  | none => s

/-- QUEUE_PAIR_DISABLE (R420): EN is cleared. -/
def execQueuePairDisable (fab : Bool) (s : State) : Host.Outcome State Fault Refusal :=
  if s.windowUp && s.hasPair fab then
    if (s.pair fab).en then .next ((s.unlatch.stopPair fab).tailUndone fab) else .next s.unlatch
  else .next s

/-- REPLY_WRITE_FAIL (R495): the path reports a failed write of a slot. -/
def execReplyWriteFail (fab : Bool) (s : State) : Host.Outcome State Fault Refusal :=
  if s.portUp .cmd && s.hasPair fab && (s.pair fab).en then
    .next ((s.stopPair fab).pairError fab 3 fun q => { q with wrerr := true })
  else .next s

/-- The half of a base address replaced. -/
def setHalf (hi : Bool) (b : Dword) (v : Word) : Dword :=
  if hi then BitVec.ofNat 64 (v.toNat * 2 ^ 32 + b.toNat % 2 ^ 32) else BitVec.ofNat 64 (b.toNat / 2 ^ 32 * 2 ^ 32 + v.toNat)

/-- A write to a register of a pair that has no behaviour of its own: the bases, and the LOG2 fields while EN stays 0. -/
def QPair.write (off : Nat) (v : Word) (p : QPair) : QPair :=
  if p.en then p
  else if off = 0x00 then { p with cqBase := setHalf false p.cqBase v }
  else if off = 0x04 then { p with cqBase := setHalf true p.cqBase v }
  else if off = 0x20 then { p with rqBase := setHalf false p.rqBase v }
  else if off = 0x24 then { p with rqBase := setHalf true p.rqBase v }
  else if off = 0x30 ∧ !bit v.toNat 31 then
    { p with rqLog2 := BitVec.ofNat 4 (bits v.toNat 11 8), cqLog2 := BitVec.ofNat 4 (v.toNat % 16) }
  else p

/-- REGISTER_WRITE (R9, R408): a write to a register with no behaviour of its own. Read-only and unlisted registers ignore it. -/
def execRegisterWrite (off : BitVec 16) (value : Word) (s : State) : Host.Outcome State Fault Refusal :=
  let o := off.toNat
  if s.windowUp then
    let s1 := s.unlatch
    if 0x1000 ≤ o ∧ o < 0x1038 then .next (s1.modPair false (QPair.write (o - 0x1000) value))
    else if 0x1100 ≤ o ∧ o < 0x1138 ∧ s.isTray then .next (s1.modPair true (QPair.write (o - 0x1100) value))
    else .next s1
  else .next s

end Sys2Proof.Machine
end

