-- ==== Sys2Proof/Machine/SysRows.lean ====
section
/-! DEFINITION. The SYS group (Table 16.7) with DOMAIN.RESET, TRAY.DESIGNATE and the faults of SYS.INJECT; BCAST.SEND. -/

namespace Sys2Proof.Machine

/-! ### Identity -/

/-- ROLEPH: role strap and phase role (Table 4.4, JOIN). -/
def State.rolePh (s : State) : Nat := roleCode s.sys.strap * 16 + s.sys.phaseRole.toNat

def opSysIdentify : OpSpec := mkOp 0x0100 [] rDTS wFTH true

/-- SYS.IDENTIFY: PHYS, ADDR, ROLEPH, STEPPING, FWVER. -/
def execSysIdentify (c : Cmd) (s : State) : Host.Outcome State Fault Refusal :=
  .next (runCmd opSysIdentify c [ckNoInline c] []
    (fun t => .ok 0 (be 4 Config.physId.toNat ++ be 4 t.sys.laddr.toNat ++ be 1 t.rolePh ++ be 1 0xB1 ++ zeros 2
      ++ be 4 t.sys.fwver.toNat) [] t) s)

/-- The block's own entry in the newest correction table held is UNALIGNED (R64, R67). -/
def State.unaligned (s : State) : Bool :=
  let bad := fun (l : List CorrTable) => match l.getLast? with
    | some t => (match tget t.entries s.sys.laddr.toNat with | some e => e.qual == .unaligned | none => false)
    | none => false
  bad s.time.trayCorr || bad s.time.fleetCorr

/-- SFLAGS of SYS.STATUS. -/
def State.sflags (s : State) : Nat :=
  b2n s.sys.joined + 2 * b2n s.sys.acting + 4 * b2n s.sys.oos + 8 * b2n s.unaligned

def opSysStatus : OpSpec := mkOp 0x0101 [] rDTS wFTH true

/-- SYS.STATUS. -/
def execSysStatus (c : Cmd) (s : State) : Host.Outcome State Fault Refusal :=
  .next (runCmd opSysStatus c [ckNoInline c] []
    (fun t => .ok 0 (be 1 (pstateCode t.pow.pstate) ++ be 1 (lockCode t.time.lock) ++ be 2 t.sflags ++ be 4 t.cfgVer
      ++ be 4 t.cmd.evlost ++ be 2 t.acceptedNow) [] t) s)

/-- A job view or an installed tree names the block. -/
def State.named (s : State) : Bool :=
  (s.verd.jobs.any fun j => j.2.judge == s.sys.laddr || j.2.members.any fun m => m.addr == s.sys.laddr)
    || !s.crown.trees.isEmpty || !s.crown.treesNext.isEmpty

def opSysAddress : OpSpec := mkOp 0x0102 [.v 4] rDTS wF true

/-- SYS.ADDRESS: the new SRC takes hold with the next record, an EPOCH record. -/
def execSysAddress (c : Cmd) (s : State) : Host.Outcome State Fault Refusal :=
  .next (runCmd opSysAddress c [ckNoInline c, ckAddr c 0] [ckState (!s.named)]
    (fun t => .ok 0 [] [] ((t.modSys fun u => { u with laddr := BitVec.ofNat 18 (cp c 0 4), laddrValid := true }).epochEverywhere)) s)

def opSysPhase : OpSpec := mkOp 0x0103 [.v 1] rDTS wFT true

/-- SYS.PHASE: the phase role of the records accepted from now on. -/
def execSysPhase (c : Cmd) (s : State) : Host.Outcome State Fault Refusal :=
  .next (runCmd opSysPhase c [ckNoInline c, ckParam (decide (cp c 0 1 ≤ 3)) 0] []
    (fun t => .ok 0 [] [] (t.modSys fun u => { u with phaseRole := BitVec.ofNat 2 (cp c 0 1) })) s)

/-- SYS.PSTATE (R451). -/
def execSysPstate (c : Cmd) (s : State) : Host.Outcome State Fault Refusal := .next (cmdSysPstate c s)

/-! ### DOMAIN.RESET (Table 1.7, R26, R286, R294) -/

def opDomainReset : OpSpec := mkOp 0x0105 [.v 1, .r 7, .v 8] rDTS wFT true

/-- The hold of R294 (the hold of R445 ends only with an AO reset). -/
def State.hangHold (s : State) : Bool := s.pow.intHold && s.pow.phase == .running

/-- DOMAIN.RESET: the reset is noted and starts after the reply. Under the hold of R294, CTL being in reset, the AO hardware serves
the command. -/
def execDomainReset (c : Cmd) (s : State) : Host.Outcome State Fault Refusal :=
  let d := cp c 0 1
  let held := s.pow.ctlHeld
  let s0 := if s.hangHold then s.modPow fun u => { u with ctlHeld := false } else s
  let s1 := runCmd opDomainReset c
    [ckNoInline c, ckParam (d / 32 == 0) 0, ckParam (decide (cp c 8 8 < 2 ^ portCount)) 8,
     ckRange (!bit d 4 && !bit d 0) 0] []
    (fun t => .ok 0 [] [] (t.modPow fun u => { u with pend := some (BitVec.ofNat 8 d, BitVec.ofNat 64 (cp c 8 8), t.tb1Ns) })) s0
  .next (if s.hangHold then s1.modPow fun u => { u with ctlHeld := held } else s1)

/-- DOMAIN_RESET_START (R26, R286): the noted reset begins; it also ends the hold of R294. -/
def execDomainResetStart (s : State) : Host.Outcome State Fault Refusal :=
  match s.pow.pend with
  | some p =>
    let ctl := bit p.1.toNat 3
    let eng := ctl || bit p.1.toNat 2
    let ports := (List.range portCount).filter fun i => bit p.2.1.toNat i
    let s1 := s.modPow fun u => { u with pend := none, intHold := u.intHold && !(eng && s.hangHold) }
    .next (s1.resetEntry 4 ctl eng ports)
  | none => .next s

/-! ### SERVICE.RESTORE (R293) -/

def opServiceRestore : OpSpec := mkOp 0x0106 [] rDTS wFT true

/-- SERVICE.RESTORE: the cold reset request is released, the escalation history cleared, and the notice sent. -/
def execServiceRestore (c : Cmd) (s : State) : Host.Outcome State Fault Refusal :=
  .next (runCmd opServiceRestore c [ckNoInline c] [ckState s.sys.oos]
    (fun t => .ok 0 [] [] (((t.modSys fun u => { u with oos := false }).modBrake fun b =>
      { b with reqCold := none, esc := [] }).ownNotice 5 0xFF 0 0xFF 0xFF 0 0 0)) s)

/-! ### Joining and designation (R20 to R23, R458 to R460) -/

/-- A JOIN record (Table 4.4). -/
def State.joinReq (s : State) (dst : Dest) : Req :=
  { dst := dst, cls := 1, typ := tJoin, unit := uControl, flags := 0, stamp := none,
    body := be 4 Config.physId.toNat ++ be 1 s.rolePh ++ zeros 3 ++ be 4 s.sys.fwver.toNat ++ be 4 s.cfgVer }

/-- A die-role block asks its tray over the side link that has come up (R20): whatever master it has, since the tray's answer ends an
acting master's time (R22). One without a master begins the wait of R20, link or no link. -/
def State.askJoin (s : State) : State :=
  if s.isDie then
    let s1 := if s.linkOk 1 then s.sendOwed (s.joinReq .side) else s
    if !s.sys.joined && !s.sys.designated && !s.sys.acting then
      s1.modSys fun u => { u with joinAt := some s.tb1Ns, fabJoinAt := none }
    else s1
  else s

/-- The end of the tray cut in which an instant falls. -/
def State.trayCutEnd (s : State) (t : Nat) : Nat := (s.crown.tray.spanAt s.crown.trayP t).2

/-- An acting master publishes the tray cut that ends at `t` as its last (R22, R460): none after it is formed here. -/
def State.lastCutAt (t : Nat) (s : State) : State :=
  s.modCrown fun c =>
    { c with lastCut := some t, tray := { c.tray with closing := c.tray.closing.filter fun x => decide (x.t1 ≤ t) },
             fleet := { c.fleet with closing := c.fleet.closing.filter fun x => decide (x.t1 ≤ t) } }

/-- The member list of TRAY.DESIGNATE. -/
def parseAddrs (n : Nat) (b : List Byte) : List Laddr := (List.range n).map fun i => BitVec.ofNat 18 (rd b (4 * i) 4)

/-- TRAY.DESIGNATE; refused while ENG is stopped for ACT 1 (Table 16.24). -/
def opTrayDesignate (act : Nat) : OpSpec := mkOp 0x0107 [.v 4, .v 1, .v 1, .r 2, .ptr] rD wF (act != 1)

/-- What ACT 0 does: MASTER becomes the tray master; FLOOR_R returns to 2,047 where MASTER is a die-role block, that is, not the block
from which a tray-role JOIN was heard (R21); an acting master hands over at its next cut boundary (R460); a JOIN goes to MASTER over
FAB (R459). -/
def State.designated (m : Laddr) (s : State) : State :=
  let s1 := s.modSys fun u =>
    { u with master := some m, masterNext := none, designated := true, joined := false, joinAt := none, fabJoinAt := none,
             joinDst := [m], crownWait := none }
  let s2 := if s.sys.acting && s.crown.lastCut.isNone then s1.lastCutAt (s1.trayCutEnd s.tb0Ns) else s1
  let s3 := if s.sys.trayAddr == some m then s2 else s2.floorReset
  s3.sendOwed (s3.joinReq (.block m))

/-- TRAY.DESIGNATE (R20 to R23, R459, R460): with ACT 1 the reply waits until Crown's memory is powered; the die named is a member of
its own tray, so that its FLOOR_R returns to 2,047 too (R21). -/
def execTrayDesignate (c : Cmd) (s : State) : Host.Outcome State Fault Refusal :=
  let act := cp c 4 1
  let n := cp c 5 1
  let l := parseAddrs n (cdata c 0)
  .next (runCmd (opTrayDesignate act) c
    [ckData (opTrayDesignate act) c 0 (if act = 1 then 4 * n else 0), ckAddr c 0, ckParam (decide (act ≤ 1)) 4,
     ckParam (act != 1 || ((List.range n).all fun i => decide (rd (cdata c 0) (4 * i) 4 < 2 ^ 18))) 8,
     ckRange (act != 1 || (decide (1 ≤ n) && decide (n ≤ 16))) 5]
    [ckCap (act != 1 || (s.modSys fun u => { u with acting := true, actMembers := l }).ratesOk) 0]
    (fun t =>
      if act = 1 then
        let t1 := t.floorReset
        if t.sys.acting then
          .ok 0 [] [] ((t1.modSys fun u => { u with actMembers := l }).modCrown fun u => { u with lastCut := none })
        else .hold 0 (t1.modSys fun u => { u with crownWait := some l })
      else .ok 0 [] [] (t.designated (BitVec.ofNat 18 (cp c 0 4)))) s)

/-- CROWN_POWERED (R459): Crown's memory is ready, ACTING sets and the reply is written. -/
def execCrownPowered (s : State) : Host.Outcome State Fault Refusal :=
  match s.sys.crownWait with
  | some l =>
    if s.engUp && s.ctlUp then
      .next ((s.modSys fun u =>
        { u with crownWait := none, acting := true, actingAt := s.tb0Ns, actMembers := l, joinAt := none,
                 fabJoinAt := none }).finishAll 0x0107 0 (finOk 0 [] []))
    else .next s
  | none => .next s

/-- The master answers a JOIN (R22, R459): a tray-role block on its side links, or to a member it has; an acting master to the
members of its designation. One that would take the consumer state of R106 beyond its 16,384 pairs is not answered (DESIGN CHOICE:
the spec gives E_CAPACITY and no record that carries it; log entry 19). With its first answer a tray-role block is master from the next
tray cut boundary on (R22). -/
def State.answerJoin (i : Nat) (r : Rec) (s : State) : State :=
  let known := s.sys.members.any fun m => m.addr == r.src
  let ok := if s.isTray then decide (0 < i) || known else s.sys.acting && s.sys.actMembers.contains r.src
  if ok && s.pairsFit ((r.src.toNat :: s.below).eraseDups) then
    let m : Member := { ifc := i, addr := r.src, phys := BitVec.ofNat 32 (rd r.body 0 4) }
    let s1 := s.modSys fun u =>
      { u with members := (u.members.filter fun x => x.addr != r.src && (i == 0 || x.ifc != i)) ++ [m],
               masterFrom := if s.isTray then some (u.masterFrom.getD (s.trayCutEnd s.tb0Ns)) else none }
    s1.send (s1.joinReq (.block r.src))
  else s

/-- A die-role block takes its master's answer (R20, R22, R459): one that an acting master serves turns to the tray-role block at
the next tray cut boundary, and an acting master then hands over. The boundary is the one after the instant at which the tray-role
block answered, as the STAMP of its record gives it, so that both take the same. -/
def State.takeJoin (r : Rec) (s : State) : State :=
  let tray := rd r.body 4 1 / 16 % 4 == 1
  let s0 := if tray then s.modSys fun u => { u with trayAddr := some r.src } else s
  let join := fun (t : State) => t.modSys fun u =>
    { u with joined := true, master := some r.src, joinAt := none, fabJoinAt := none, joinDst := [] }
  if s.sys.acting then
    if tray then
      let t := (s.extend r.src r.cls.toNat r.stamp.toNat).getD s.tb0Ns
      ((join s0).modSys fun u => { u with designated := false }).lastCutAt (s0.trayCutEnd t)
    else if s.sys.designated && s.sys.master == some r.src then join s0
    else s0
  else if s.sys.designated && s.sys.master == some r.src then join s0
  else if tray then
    if s.sys.joined && s.sys.master != some r.src then
      s0.modSys fun u => { u with masterNext := some r.src, designated := false, joinAt := none, fabJoinAt := none }
    else (join s0).modSys fun u => { u with designated := false }
  else s0

/-- A JOIN record that Hopper accepted. -/
def State.rxJoin (i : Nat) (r : Rec) (s : State) : State :=
  if s.isMaster && !(s.isDie && rd r.body 4 1 / 16 % 4 == 1) then s.answerJoin i r
  else if s.isDie then s.takeJoin r
  else s

/-- JOIN_TIMEOUT (R20): 100 ms without an answer leave the block unjoined; JOIN over FAB is due (R458). -/
def execJoinTimeout (s : State) : Host.Outcome State Fault Refusal :=
  match s.sys.joinAt with
  | some t =>
    if s.aoUp && s.past1 (t + 100000000) then
      .next (s.modSys fun u => { u with joinAt := none, fabJoinAt := if u.designated then none else some s.tb1Ns })
    else .next s
  | none => .next s

/-- FAB_JOIN_REPEAT (R458): JOIN over FAB to every address of the GATEWAYS section, again 1 s later. -/
def execFabJoinRepeat (s : State) : Host.Outcome State Fault Refusal :=
  match s.sys.fabJoinAt with
  | some t =>
    if s.engUp && s.isDie && !s.sys.joined && !s.sys.designated && decide (t ≤ s.tb1Ns) then
      let s1 := s.modSys fun u => { u with joinDst := s.gateways }
      .next ((s1.gateways.foldl (fun u a => u.send (u.joinReq (.block a))) s1).modSys fun u =>
        { u with fabJoinAt := some (t + 1000000000) })
    else .next s
  | none => .next s

/-! ### SYS.INJECT -/

/-- An interface loses its link (R141): the frame in progress is abandoned and its records stay in EMIT, no credit is held, an
overflow frame that waits is given up, forwarders behind it are gone. -/
def State.linkLost (i : Nat) (s : State) : State :=
  let s1 := if (s.onTheWay i).isSome then s.emit (.abort i) else s
  ((s1.dropSecond i).modIfc i fun x =>
    { x with held := 0, outstanding := 0, leaving := none, downAt := some s.tb1Ns }).forwarderEvent (s.ifc i).peer

def opSysInject (fault : Nat) : OpSpec := mkOp 0x0108 [.v 4, .v 1, .v 1, .r 2, .v 4] rDTS wF (fault == 0)

/-- Drill DRILL covers the block for a whole span of TB0. -/
def State.drillCovers (s : State) (d t0 t1 : Nat) : Bool :=
  match tget s.verd.drills d with
  | some e => decide (e.start ≤ t0) && decide (t1 ≤ e.stop) && e.subjects.contains s.sys.laddr
  | none => false

/-- SYS.INJECT: one fault of a drill for DUR µs. -/
def execSysInject (c : Cmd) (s : State) : Host.Outcome State Fault Refusal :=
  let d := cp c 0 4
  let f := cp c 4 1
  let a := cp c 5 1
  let dur := cp c 8 4 * 1000
  .next (runCmd (opSysInject f) c
    [ckNoInline c, ckParam (decide (f ≤ 3)) 4, ckParam (f != 1 || decide (a ≤ 3)) 5, ckParam (f != 2 || decide (a ≤ 16)) 5]
    [ckState (s.drillCovers d s.tb0Ns (s.tb0Ns + dur))]
    (fun t =>
      let j : Inject := { drill := BitVec.ofNat 32 d, fault := f, arg := a, until1 := t.tb1Ns + dur, left := a }
      let t1 := t.modSys fun u => { u with injects := u.injects ++ [j] }
      .ok 0 [] [] (if f = 2 then
        if t.linkOk a then
          let h := (t.ifc a).held
          let o := (t.ifc a).outstanding
          (t1.linkLost a).modIfc a fun x => { x with held := h, outstanding := o }
        else t1
      else t1)) s)

/-- FAULT_INJECTION_END: faults of a kind whose DUR has run out, and HOP_CORRUPT faults that have spoiled their frames, end. -/
def execFaultInjectionEnd (fault : Nat) (s : State) : Host.Outcome State Fault Refusal :=
  let out := fun (j : Inject) => j.fault == fault && decide (j.until1 ≤ s.tb1Ns)
  if s.aoUp then
    let ends := s.sys.injects.filter out
    let s1 := s.modSys fun u => { u with injects := u.injects.filter fun j => !out j }
    .next (if fault = 2 then ends.foldl (fun t j =>
      if t.linkOk j.arg then t.modIfc j.arg fun x => { x with downAt := none } else t) s1 else s1)
  else .next s

/-! ### BCAST.SEND (R171, R407) -/

/-- BCAST.SEND: the broadcast runs in the background; its final reply is that of `bcastFinal`. -/
def execBcastSend (c : Cmd) (s : State) : Host.Outcome State Fault Refusal :=
  let k := bcastChecks c s
  let mm := cp c 24 4
  .next (runCmd opBcastSend c k.1 k.2
    (fun t =>
      match t.tree (cp c 0 1) with
      | some x => .acc (mm * 2 ^ 32 + t.crown.bidNext.toNat) none (t.bcastStart (cp c 0 1) x (cp c 1 1) (cdata c 0))
      | none => .acc 0 none t) s |> fun u =>
        if u.crown.bidNext = s.crown.bidNext then u else u.bcastSettle s.sys.laddr s.crown.bidNext)

end Sys2Proof.Machine
end

