-- ==== Sys2Proof/Machine/Transport.lean ====
section
/-! DEFINITION. How command packets come to run: queues, the gateway, COMMAND and REPLY records, broadcasts of KIND COMMAND
(R386 to R396, R404 to R407, R488, R489). -/

namespace Sys2Proof.Machine

/-! ### Opcodes -/

/-- The meaning of an opcode as a command packet runs it. -/
abbrev Meaning := Cmd → State → Host.Outcome State Fault Refusal

/-- Opcodes of group 0x01. -/
def sysOps : List (Nat × Meaning) :=
  [(0x0100, execSysIdentify), (0x0101, execSysStatus), (0x0102, execSysAddress), (0x0103, execSysPhase),
   (0x0104, execSysPstate), (0x0105, execDomainReset), (0x0106, execServiceRestore), (0x0107, execTrayDesignate),
   (0x0108, execSysInject)]

/-- Opcodes of group 0x02. -/
def timeOps : List (Nat × Meaning) :=
  [(0x0200, execTimeConfig), (0x0201, execTimeJob), (0x0202, execTimeAsym), (0x0203, execTimeCal),
   (0x0204, execTimeStatus)]

/-- Opcodes of group 0x03. -/
def collectOps : List (Nat × Meaning) :=
  [(0x0300, execCollectCounter), (0x0301, execCollectSet), (0x0302, execCollectArm), (0x0303, execCollectMap),
   (0x0304, execCollectRead), (0x0305, execDiscConfig), (0x0306, execCollectStatus)]

/-- Opcodes of group 0x04. -/
def streamOps : List (Nat × Meaning) :=
  [(0x0400, execStreamConfig), (0x0401, execStreamShaper), (0x0402, execStreamGate), (0x0403, execStreamLink),
   (0x0404, execStreamStatus)]

/-- Opcodes of group 0x05. -/
def reduceOps : List (Nat × Meaning) :=
  [(0x0500, execReduceDefine), (0x0501, execReduceDelete), (0x0502, execCutConfig), (0x0503, execCutRead),
   (0x0504, execCutRegister), (0x0505, execCutRelease), (0x0506, execTreeInstall), (0x0507, execBcastSend),
   (0x0508, execMapConfig), (0x0509, execReduceStatus)]

/-- Opcodes of group 0x06. -/
def modelOps : List (Nat × Meaning) :=
  [(0x0600, execModelLoad), (0x0601, execModelActivate), (0x0602, execModelDeactivate), (0x0603, execModelUnload),
   (0x0604, execModelStatus), (0x0605, execChannelOpen), (0x0606, execChannelClose), (0x0607, execChannelReset),
   (0x0608, execChannelForecast), (0x0609, execModelParam)]

/-- Opcodes of group 0x07. -/
def verdictOps : List (Nat × Meaning) :=
  [(0x0700, execScoreSet), (0x0701, execScoreClear), (0x0702, execVerdictWithdraw), (0x0703, execVerdictConfig),
   (0x0704, execVerdictBudget), (0x0705, execVerdictDrill), (0x0706, execJobMembers), (0x0707, execJobEnd),
   (0x0708, execVerdictParam), (0x0709, execVerdictStatus)]

/-- Opcodes of group 0x08. -/
def sentryOps : List (Nat × Meaning) :=
  [(0x0800, execSentryWatch), (0x0801, execSentryPartners), (0x0802, execSentryGoal), (0x0803, execSentryRollback),
   (0x0804, execSentryRelease), (0x0805, execSentryStatus), (0x0806, execSentryParam)]

/-- Opcodes of group 0x09. -/
def recoverOps : List (Nat × Meaning) :=
  [(0x0900, execHeartbeatConfig), (0x0901, execIngotConfig), (0x0902, execIngotTake), (0x0903, execIngotRead),
   (0x0904, execIngotClear), (0x0905, execContextResult), (0x0906, execBrakeStatus)]

/-- Opcodes of group 0x0A. -/
def traceOps : List (Nat × Meaning) :=
  [(0x0A00, execTraceConfig), (0x0A01, execTraceAuth), (0x0A02, execTraceDeauth), (0x0A03, execTraceStatus)]

/-- Opcodes of group 0x0B. -/
def watchOps : List (Nat × Meaning) :=
  [(0x0B00, execWatchArm), (0x0B01, execWatchDisarm), (0x0B02, execWatchRate), (0x0B03, execWatchStatus)]

/-- Opcodes of group 0x0C. -/
def recorderOps : List (Nat × Meaning) :=
  [(0x0C00, execRecorderRead), (0x0C01, execRecorderStatus), (0x0C02, execRecorderClear), (0x0C03, execRecorderNote),
   (0x0C04, execRecorderConfig)]

/-- Opcodes of group 0x0D. -/
def powerOps : List (Nat × Meaning) :=
  [(0x0D00, execPowerBudget), (0x0D01, execPowerMember), (0x0D02, execPowerStatic), (0x0D03, execPowerConfig),
   (0x0D04, execPowerStatus), (0x0D05, execTemperConfig)]

/-- Opcodes of group 0x0E. -/
def metroOps : List (Nat × Meaning) :=
  [(0x0E00, execMetroRead)]

/-- Opcodes of group 0x0F. -/
def testOps : List (Nat × Meaning) :=
  [(0x0F00, execTestConfig), (0x0F01, execTestGrant), (0x0F02, execTestDefer), (0x0F03, execTestDone),
   (0x0F04, execTestClear), (0x0F05, execTestStatus)]

/-- Opcodes of group 0x10. -/
def updateOps : List (Nat × Meaning) :=
  [(0x1000, execUpdateStage), (0x1001, execUpdateChain), (0x1002, execUpdateStart), (0x1003, execUpdateConfirm),
   (0x1004, execUpdateStatus)]

/-- The opcodes of Tables 16.7 to 16.21 (R402). -/
def opTable : List (Nat × Meaning) :=
  sysOps ++ timeOps ++ collectOps ++ streamOps ++ reduceOps ++ modelOps ++ verdictOps ++ sentryOps ++
    recoverOps ++ traceOps ++ watchOps ++ recorderOps ++ powerOps ++ metroOps ++ testOps ++ updateOps

/-- The state after a meaning that answers a next state; the state before where it stops. -/
def State.after (o : Host.Outcome State Fault Refusal) (s : State) : State :=
  match o with
  | .next t => t
  | .fault _ => s
  | .refused _ => s

/-- A command packet (Table 16.2) on its path. -/
def packetCmd (p : Path) (b : List Byte) (reads : List (Option (List Byte))) (inl : List Byte) (writesOk : Bool) : Cmd :=
  { path := p, tag := BitVec.ofNat 16 (rd b 2 2), fence := bit (rd b 4 1) 7, plen := BitVec.ofNat 8 (rd b 5 1),
    flagsRsvd := BitVec.ofNat 7 (rd b 4 1), params := slice b 8 56, reads := reads, inl := inl, writesOk := writesOk }

/-- A final reply without data to a packet. -/
def packetReply (b : List Byte) (st : BitVec 16) (detail : Dword) : Reply :=
  { tag := BitVec.ofNat 16 (rd b 2 2), status := st, opcode := BitVec.ofNat 16 (rd b 0 2), final := true, event := false,
    detail := detail, result := [] }

/-- An opcode that no table lists is reserved (R402). -/
def State.runPacket (p : Path) (b : List Byte) (reads : List (Option (List Byte))) (inl : List Byte) (writesOk : Bool)
    (s : State) : State :=
  match opTable.find? fun e => e.1 == rd b 0 2 with
  | some e => s.after (e.2 (packetCmd p b reads inl writesOk) s)
  | none =>
    if s.pathOpen p then
      ((s.bump cCmdReceived).reply p 0 (packetReply b stOpcode (errDetail 0 0 0xFF)) []).restoreNext p
    else s

/-! ### The destination (R404 to R406, R489) -/

/-- A destination accepts an ISSUER from a SRC (R404). `hostFw` stands for a reserved ISSUER value. -/
def State.issuerOk (s : State) (iss : Issuer) (src : Laddr) : Bool :=
  match iss with
  | .fm => s.gateways.contains src
  | .trayHost => s.isDie && s.sys.master == some src
  | .hostFw => false

/-- A command of the fabric is run: E_AUTH where R404 does not let run its issuer. -/
def State.runFabric (p : Path) (iss : Issuer) (src : Laddr) (b inl : List Byte) (bad : Bool) (s : State) : State :=
  if (opTable.any fun e => e.1 == rd b 0 2) && !s.issuerOk iss src then
    (s.bump cCmdReceived).reply p 0 (packetReply b stAuth (errDetail 0 0 0xFF)) []
  else s.runPacket p b (if bad then [none] else []) inl true

/-- Commands of the fabric are answered BUSY while RESTORE runs (R447). -/
def State.busyRestore (p : Path) (b : List Byte) (s : State) : State :=
  (s.bump cCmdReceived).reply p 0 (packetReply b stBusy (errDetail 0 0 0xFF)) []

/-- A command whose turn has come runs; its key is held from now on. -/
def State.deliverCmd (h : Held) (s : State) : State :=
  (s.modCmd fun c => c.storeReply h.src h.issuer h.seq none).runFabric (.fabric h.src h.issuer h.seq) h.issuer h.src h.packet
    h.inl h.bad

/-- A key prefix's order. -/
def CmdUnit.orderOf (c : CmdUnit) (src : Laddr) (iss : Issuer) : Option SeqOrder :=
  c.order.find? fun o => o.src == src && o.issuer == iss

/-- Replace a key prefix's order. -/
def CmdUnit.putOrder (c : CmdUnit) (o : SeqOrder) : CmdUnit :=
  { c with order := (c.order.filter fun x => !(x.src == o.src && x.issuer == o.issuer)) ++ [o] }

/-- The stored reply of a key. -/
def CmdUnit.stored (c : CmdUnit) (src : Laddr) (iss : Issuer) (seq : BitVec 16) : Option Stored :=
  c.store.find? fun e => e.src == src && e.issuer == iss && e.seq == seq

/-- Commands held ahead of a gap of a prefix. -/
def CmdUnit.heldOf (c : CmdUnit) (src : Laddr) (iss : Issuer) : List Held :=
  c.ahead.filter fun h => h.src == src && h.issuer == iss

/-- Held commands whose turn has come run in ascending SEQ; a SEQ whose key is held already was answered. -/
def State.releaseCmds (src : Laddr) (iss : Issuer) : Nat → State → State
  | 0, s => s
  | n + 1, s =>
    match s.cmd.orderOf src iss with
    | some o =>
      match (s.cmd.heldOf src iss).find? fun h => h.seq == o.expect with
      | some h =>
        State.releaseCmds src iss n (((s.modCmd fun c =>
          { c with ahead := c.ahead.filter fun x => x != h }).modCmd fun c =>
            c.putOrder { o with expect := o.expect + 1, gapAt := some s.tb1Ns }).deliverCmd h)
      | none =>
        if (s.cmd.stored src iss o.expect).isSome then
          State.releaseCmds src iss n (s.modCmd fun c => c.putOrder { o with expect := o.expect + 1, gapAt := some s.tb1Ns })
        else if (s.cmd.heldOf src iss).isEmpty then s.modCmd fun c => c.putOrder { o with gapAt := none }
        else s
    | none => s

/-- A bound of the releases in one step: the keys held and the commands ahead. -/
def releaseFuel : Nat := 1041

/-- A command that arrived whole takes its place in the order of its prefix (R406, R489). -/
def State.orderCmd (h : Held) (s : State) : State :=
  let o := (s.cmd.orderOf h.src h.issuer).getD { src := h.src, issuer := h.issuer, expect := h.seq, gapAt := none }
  let d := (h.seq - o.expect).toNat
  if 2 ^ 15 ≤ d then s
  else if s.pow.phase ≠ .running then
    ((s.modCmd fun c => c.putOrder o).busyRestore (.fabric h.src h.issuer h.seq) h.packet).releaseCmds h.src h.issuer releaseFuel
  else if d = 0 then
    ((s.modCmd fun c => c.putOrder { o with expect := o.expect + 1 }).deliverCmd h).releaseCmds h.src h.issuer releaseFuel
  else if 16 ≤ (s.cmd.heldOf h.src h.issuer).length then s
  else s.modCmd fun c => { c.putOrder { o with gapAt := some (o.gapAt.getD s.tb1Ns) } with ahead := c.ahead ++ [h] }

/-- The ISSUER byte of a COMMAND record. -/
def issuerByte (n : Nat) : Issuer := if n = 0 then .fm else if n = 1 then .trayHost else .hostFw

/-- A part joins its command; the command once it is whole, with `bad` where its parts contradict each other or do not make up
ILEN (R405). -/
def CmdUnit.assemble (c : CmdUnit) (r : Rec) : CmdUnit × Option Held :=
  let b := r.body
  let iss := issuerByte (rd b 4 1)
  let seq := BitVec.ofNat 16 (rd b 22 2)
  let part := rd b 6 2
  let n := rd b 8 2
  let mine := fun (a : Assembling) => a.src == r.src && a.issuer == iss && a.seq == seq
  let a := (c.assembling.find? mine).getD
    { src := r.src, issuer := iss, seq := seq, packet := slice b 16 64, npart := n, ilen := rd b 12 4, parts := [] }
  let left := rd b 12 4 - 1948 * part
  let parts := tput a.parts part (slice b 80 (min 1948 left))
  let odd := n == 0 || decide (32 < n) || decide (n ≤ part) || n != a.npart
  let rest := c.assembling.filter fun x => !mine x
  if odd || decide (n ≤ parts.length) then
    let inl := (parts.map (·.2)).flatten
    ({ c with assembling := rest },
      some { src := r.src, issuer := iss, seq := seq, packet := a.packet, inl := if odd then [] else inl,
             bad := odd || inl.length != a.ilen })
  else ({ c with assembling := rest ++ [{ a with parts := parts }] }, none)

/-- A COMMAND record that Hopper accepted (R404 to R406, R447, R489). -/
def State.rxCommand (r : Rec) (s : State) : State :=
  let b := r.body
  let iss := issuerByte (rd b 4 1)
  let seq := BitVec.ofNat 16 (rd b 22 2)
  if BitVec.ofNat 18 (rd b 0 4) ≠ s.sys.laddr then s.bump cCmdRejected
  else if !s.ctlUp then s
  else match s.cmd.stored r.src iss seq with
    | some e =>
      match e.reply with
      | some (rep, out) =>
        if rd b 6 2 = 0 ∧ !(s.cmd.acc.any fun a => a.path == .fabric r.src iss seq) then s.sendReplyRecs r.src rep out else s
      | none => s
    | none =>
      if (s.cmd.heldOf r.src iss).any fun h => h.seq == seq then s
      else
        let a := s.cmd.assemble r
        let s1 := s.modCmd fun _ => a.1
        match a.2 with
        | some h => s1.orderCmd h
        | none => s1

/-- The default of CMD_RETRY: 10 ms. -/
def cmdRetryDflt : Nat := 10000000

/-- SEQ_GAP_SKIP (R406): after 3 × CMD_RETRY the missing SEQ values are skipped. -/
def execSeqGapSkip (src : Laddr) (issuer : Issuer) (s : State) : Host.Outcome State Fault Refusal :=
  match s.cmd.orderOf src issuer with
  | some o =>
    match o.gapAt, s.cmd.heldOf src issuer with
    | some t, h :: l =>
      if s.ctlUp && s.pow.phase == .running && decide (t + 3 * s.cmdRetry cmdRetryDflt ≤ s.tb1Ns) then
        let low := l.foldl (fun (m : Held) x => if (x.seq - o.expect).toNat < (m.seq - o.expect).toNat then x else m) h
        .next ((s.modCmd fun c => c.putOrder { o with expect := low.seq }).releaseCmds src issuer releaseFuel)
      else .next s
    | _, _ => .next s
  | none => .next s

/-- The acceptance of a restart EPOCH record from a block restarts the order of its prefixes and discards their stored replies
(R489). -/
def State.orderRestart (src : Laddr) (s : State) : State :=
  s.modCmd fun c =>
    { c with store := c.store.filter fun e => e.src != src, order := c.order.filter fun o => o.src != src,
             ahead := c.ahead.filter fun h => h.src != src, assembling := c.assembling.filter fun a => a.src != src }

/-! ### The gateway (R404 to R406) -/

/-- The COMMAND records of a flight (R405, Table 16.23). -/
def State.sendFlight (f : Flight) (s : State) : State :=
  let parts := if f.inl.isEmpty then [[]] else chunksOf 1948 32 f.inl
  (List.range parts.length).foldl (fun t i =>
    t.send { dst := .block f.dest, cls := 1, typ := tCommand, unit := uControl, flags := 0, stamp := none,
             body := be 4 f.dest.toNat ++ be 1 (if f.issuer = .fm then 0 else 1) ++ zeros 1 ++ be 2 i ++ be 2 parts.length
               ++ zeros 2 ++ be 4 f.inl.length ++ f.packet ++ parts.getD i [] }) s

/-- A flight by its destination and SEQ. -/
def flightIs (dest : Laddr) (seq : BitVec 16) (f : Flight) : Bool := f.dest == dest && f.seq == seq

/-- An entry leaves for its destination, or runs here as arriving on the fabric where this block is DEST (R404). -/
def State.startFlight (f : Flight) (s : State) : State :=
  if f.dest = s.sys.laddr then
    (s.modCmd fun c => { c with flight := c.flight ++ [{ f with answered := true }] }).runFabric (.fabricQueue f.issuer f.seq)
      f.issuer s.sys.laddr f.packet f.inl false
  else
    (s.modCmd fun c => { c with flight := c.flight ++ [{ f with sent := 1, lastSent := s.tb1Ns }] }).sendFlight f

/-- At most 16 commands are in flight to a DEST (R406). -/
def State.flightRoom (s : State) (dest : Laddr) : Bool :=
  decide ((s.cmd.flight.filter fun f => f.dest == dest).length < 16)

/-- Entries that wait start in their order while their DEST has room. -/
def State.gwPump (s : State) : State :=
  s.cmd.gwWait.foldl (fun t f =>
    if t.flightRoom f.dest then
      (t.modCmd fun c => { c with gwWait := c.gwWait.filter fun g => !flightIs f.dest f.seq g }).startFlight f
    else t) s

/-- The gateway's checks of a fabric queue entry (Table 16.22, R388, R391, R404): issuer, parameters, ranges. `inl` is what the
read through IPTR gave. -/
def State.gwChecks (s : State) (b : List Byte) (inl : Option (List Byte)) : List Check :=
  let tag := BitVec.ofNat 16 (rd b 2 2)
  let used := fun (f : Flight) => f.tag == tag
  let ptr := errDetail 0 1 0xFF
  [ { ok := rd b 68 1 != 0 || s.fmGateway, status := stAuth, detail := errDetail 0 6 0xFF },
    ckParam (decide (rd b 68 1 ≤ 1)) 0xFF,
    ckParam (tag != 0) 0xFF,
    { ok := !(s.cmd.flight.any used || s.cmd.gwWait.any used), status := stParam, detail := errDetail 0 2 0xFF },
    ckParam (decide (rd b 64 4 < 2 ^ 18) && rd b 69 3 == 0 && rd b 96 32 == 0) 0xFF,
    { ok := rd b 72 8 % 8 == 0 && rd b 88 8 % 8 == 0, status := stParam, detail := ptr },
    { ok := rd b 80 4 == 0 || (inl.map List.length) == some (rd b 80 4), status := stParam, detail := ptr },
    ckRange (decide (rd b 80 4 ≤ 61440) && decide (rd b 84 4 ≤ 1048576)) 0xFF ]

/-- The gateway takes an entry of its fabric queue (R404, R406). -/
def State.gwTake (b : List Byte) (inl : Option (List Byte)) (route : Bool) (s : State) : State :=
  let op := BitVec.ofNat 16 (rd b 0 2)
  let tag := BitVec.ofNat 16 (rd b 2 2)
  let dest : Laddr := BitVec.ofNat 18 (rd b 64 4)
  match firstFail (s.gwChecks b inl) with
  | some k => (s.bump cCmdReceived).gwError tag op k.status k.detail
  | none =>
    if dest ≠ s.sys.laddr ∧ !route then (s.bump cCmdReceived).gwError tag op stUnreachable (errDetail 0 0 0xFF)
    else
      let seq := tgetD s.cmd.gwSeq dest.toNat 0
      let f : Flight :=
        { dest := dest, issuer := issuerByte (rd b 68 1), seq := seq, tag := tag, opcode := op,
          packet := b.take 6 ++ be 2 seq.toNat ++ slice b 8 56, inl := if rd b 80 4 = 0 then [] else inl.getD [],
          omax := rd b 84 4, optr := BitVec.ofNat 64 (rd b 88 8), sent := 0, lastSent := 0, answered := false, parts := [] }
      let s0 := if dest = s.sys.laddr then s else s.bump cCmdReceived
      State.gwPump (s0.modCmd fun c =>
        { c with gwSeq := tput c.gwSeq dest.toNat (seq + 1), gwWait := c.gwWait ++ [f] })

/-- The next entry of a command queue may be fetched (R392, R394, R447, Table 16.4). -/
def State.fetchReady (fab : Bool) (s : State) : Bool :=
  let p := s.pair fab
  let ctlDue := match s.pow.pend with | some d => bit d.1.toNat 3 | none => false
  s.windowUp && s.hasPair fab && p.en && p.visible != 0 && s.canPut fab && !(s.cmd.waiting.any fun w => w.1 == fab)
    && s.pow.phase == .running && (s.ctlUp || s.hangHold) && s.sys.crownWait.isNone && !ctlDue

/-- CQ_HEAD moves past an entry. -/
def State.advanceHead (fab : Bool) (s : State) : State :=
  s.modPair fab fun q => { q with cqHead := if q.cqHead.toNat + 1 = qSize q.cqLog2 then 0 else q.cqHead + 1 }

/-- The reply to an entry that could not be read (R488). -/
def State.readFailed (fab : Bool) (index : Nat) (s : State) : State :=
  (s.bump cCmdRejected).putReply fab
    { tag := 0, status := stParam, opcode := 0, final := true, event := false, detail := errDetail index 1 0xFF, result := [] }
    (be 4 s.sys.laddr.toNat ++ be 4 0)

/-- FENCE (R392): an entry waits for the final replies of every earlier command of its queue. -/
def State.fenceHolds (fab : Bool) (b : List Byte) (s : State) : Bool :=
  bit (rd b 4 1) 7 && ((s.cmd.acc.any fun a => onPair fab a.path)
    || (fab && !(s.cmd.flight.isEmpty && s.cmd.gwWait.isEmpty)))

/-- The entry at CQ_HEAD is taken. -/
def State.fetchEntry (fab : Bool) (entry : Option (List Byte)) (run : List Byte → State → State) (s : State) : State :=
  if s.fetchReady fab then
    match entry with
    | none => if s.ctlUp then (s.advanceHead fab).readFailed fab (s.pair fab).cqHead.toNat else s
    | some b => if s.fenceHolds fab b || (!s.ctlUp && rd b 0 2 != 0x0105) then s else run b (s.advanceHead fab)
  else s

/-- COMMAND_FETCH (R392, R488): the next entry of a queue is fetched and run; on the fabric pair the gateway takes it. `entry` is what
the read of the entry gives. -/
def execCommandFetch (fab : Bool) (entry : Option (List Byte)) (reads : List (Option (List Byte))) (writesOk : Bool)
    (s : State) : Host.Outcome State Fault Refusal :=
  .next (s.fetchEntry fab entry fun b t =>
    if fab then t.gwTake b (reads.getD 0 none) true else t.runPacket .localQueue b reads [] writesOk)

/-- FABRIC_QUEUE_ENTRY (R404, R406): the gateway takes the next entry; `inl` is what the read through IPTR gives, `route` that DEST has
a route. -/
def execFabricQueueEntry (entry : List Byte) (inl : Option (List Byte)) (route : Bool) (s : State) :
    Host.Outcome State Fault Refusal :=
  .next (s.fetchEntry true (some entry) fun b t => t.gwTake b inl route)

/-- The reply that a REPLY body carries. -/
def wireReply (b : List Byte) : Reply :=
  { tag := BitVec.ofNat 16 (rd b 16 2), status := BitVec.ofNat 16 (rd b 18 2), opcode := BitVec.ofNat 16 (rd b 20 2),
    final := bit (rd b 22 1) 6, event := bit (rd b 22 1) 5, detail := BitVec.ofNat 64 (rd b 24 8), result := slice b 32 16 }

/-- A broadcast of KIND COMMAND in progress at this root whose packet a reply answers (R407). -/
def State.bcastAnswered (s : State) (r : Reply) : Option Bcast :=
  s.crown.bcasts.find? fun x => x.upTo.isNone && x.kind == 4 && x.recs.any fun q =>
    rd q.body 24 2 == r.opcode.toNat && rd q.body 26 2 == r.tag.toNat

/-- A REPLY record that Hopper accepted (R405 to R407). -/
def State.rxReply (r : Rec) (writesOk : Bool) (s : State) : State :=
  let b := r.body
  let w := wireReply b
  let tail := be 4 r.src.toNat ++ be 4 0
  if BitVec.ofNat 18 (rd b 0 4) ≠ s.sys.laddr then s
  else if w.event then s.putEvent true [w] tail
  else match s.cmd.flight.find? fun f => f.dest == r.src && f.tag == w.tag with
    | none =>
      match s.bcastAnswered w with
      | some x => s.modCrown fun c =>
          { c with nfail := (c.nfail.filter fun e => e.1 != x.bid) ++ [(x.bid, s.nfailOf x.bid + 1)] }
      | none => s
    | some f =>
      let put := fun (g : Flight) (t : State) => t.modCmd fun c =>
        { c with flight := c.flight.map fun x => if flightIs f.dest f.seq x then g else x }
      if !w.final then (if f.answered then s else put { f with answered := true } (s.gatewayReply f r.src w []))
      else
        let parts := tput f.parts (rd b 4 2) (slice b 48 (min 1980 (rd b 8 4 - 1980 * rd b 4 2)))
        if parts.length < rd b 6 2 then put { f with answered := true, parts := parts } s
        else
          let out := (parts.map (·.2)).flatten
          let s1 := s.modCmd fun c => { c with flight := c.flight.filter fun x => !flightIs f.dest f.seq x }
          State.gwPump (if !writesOk && !out.isEmpty && decide (out.length ≤ f.omax) then
              s1.gwError f.tag f.opcode stParam (errDetail 0 1 0xFF)
            else s1.gatewayReply f r.src w out)

/-- CMD_RETRY_EXPIRY (R406): sent again, unchanged; after the third sending E_TIMEOUT. -/
def execCmdRetryExpiry (dest : Laddr) (seq : BitVec 16) (s : State) : Host.Outcome State Fault Refusal :=
  match s.cmd.flight.find? (flightIs dest seq) with
  | some f =>
    if s.ctlUp && !f.answered && decide (f.lastSent + s.cmdRetry cmdRetryDflt ≤ s.tb1Ns) then
      if f.sent < 3 then
        .next ((s.modCmd fun c =>
          { c with flight := c.flight.map fun x =>
              if flightIs dest seq x then { x with sent := x.sent + 1, lastSent := s.tb1Ns } else x }).sendFlight f)
      else
        .next (State.gwPump ((s.modCmd fun c =>
          { c with flight := c.flight.filter fun x => !flightIs dest seq x }).gwError f.tag f.opcode stTimeout (errDetail 0 0 0xFF)))
    else .next s
  | none => .next s

/-- ASYNC_COMMAND_DONE (R390): the work of an accepted command has ended, and its final reply is written. -/
def execAsyncCommandDone (path : Path) (tag : BitVec 16) (s : State) : Host.Outcome State Fault Refusal :=
  match s.cmd.acc.find? fun a => a.path == path && a.tag == tag && a.ready.isSome with
  | some a =>
    match a.ready with
    | some f => if s.ctlUp then .next (s.finish a f).gwPump else .next s
    | none => .next s
  | none => .next s

/-! ### Broadcasts at a node (R171, R407, R431) -/

/-- A broadcast's command runs as issuer F before the node acknowledges, or is answered BUSY while RESTORE runs (R407, R447). -/
def State.runBroadcast (r : Rec) (s : State) : State :=
  let p := bcPayload r.body
  let path : Path := .broadcast r.src (bcBid r.body)
  if s.pow.phase ≠ .running then s.busyRestore path p else s.runPacket path p [] (p.drop 64) true

/-- A BROADCAST record that Hopper accepted, from the node `hop`: relayed, used as its KIND gives, and acknowledged once
everything has answered. -/
def State.rxBcast (hop : Laddr) (r : Rec) (s : State) : State :=
  let b := r.body
  let s1 := (s.rxBroadcast hop r).1
  let took := match s1.bcast r.src (bcBid b) with
    | some x => x.got == bcChunk b + 1 && x.recs.getLast? == some r
    | none => false
  let s2 :=
    if took && bcKind b == 4 && bcNchunk b == 1 && s1.ctlUp then s1.runBroadcast r
    else if took && bcKind b == 1 then s1.loadChunks (bcBid b) (bcChunk b) (bcNchunk b) (bcPayload b)
    else s1
  s2.bcastSettle r.src (bcBid b)

end Sys2Proof.Machine
end

