-- ==== Sys2Proof/Machine/Receive.lean ====
section
/-! DEFINITION. What arrives at the ports: frames and records with the rows that stand for one accepted record (R113 to R118, R487),
TAP beats (R76), discrete inputs (R95), epoch pulses (R48), links (R141), correction tables (R65, R66), the scrubber (R32, R33). -/

namespace Sys2Proof.Machine

/-! ### Records (R105, R118) -/

/-- A record was heard from a block: what the tray master holds of a die (R247), and what Brake holds of a block below (R288). -/
def State.heard (i : Nat) (r : Rec) (s : State) : State :=
  let s1 := s.heardDie r.src (i == 0)
  if r.typ == tLastGasp || isRestart r then s1 else s1.peerHeard r.src

/-- An EPOCH record (R54, R55); one with RESTART 1 tells of a reset (R288) and restarts the order of commands (R489). -/
def State.useEpoch (r : Rec) (s : State) : State :=
  let s1 := s.rxEpoch r
  if isRestart r then (s1.rxRestart r).orderRestart r.src else s1

/-- What a record shows of its source's power state from an instant on, where it says something new. -/
def State.showPower (a : Laddr) (t : Nat) (asleep : Bool) (s : State) : State :=
  if s.asleepAt a.toNat t == asleep then s else s.seenPower a t asleep

/-- A POWER_STATE record tells Crown whether its source is in RUN (R165, Table 6.5); one whose extension is not valid tells nothing
(R56). -/
def State.usePower (r : Rec) (s : State) : State :=
  match s.extend r.src r.cls.toNat r.stamp.toNat with
  | some t => s.showPower r.src t (rd r.body 1 1 != 0)
  | none => s

/-- A SAMPLE record with ASLEEP set tells Crown that its source was not in RUN from its START up to its STAMP (R87, R165, Table 4.4). -/
def State.useSample (r : Rec) (s : State) : State :=
  if bit (rd r.body 0 1) 7 then
    match s.extend r.src r.cls.toNat (rd r.body 8 4), s.extend r.src r.cls.toNat r.stamp.toNat with
    | some a, some b => if b < a ∨ s.asleepAt r.src.toNat a then s else (s.seenPower r.src a true).seenPower r.src b false
    | _, _ => s
  else s

/-- A correction table arrives (R63, R66): it is held, instances that waited for it are judged, and a spine-role block passes a fleet
table on down the time tree. -/
def State.useCorrection (r : Rec) (s : State) : State :=
  let s1 := (s.rxCorrection r).settleInsts
  let kids := s.treeKids
  if s.isSpine && rd r.body 20 1 == 1 && !kids.isEmpty then s1.passOn r false 0 kids else s1

/-- Records of a die that go to the fabric manager with a copy to its tray master, which forwards them unchanged (R493). -/
def copyType (t : BitVec 8) : Bool := t == tHallmarkCopy || t == tBrakeNotice || t == tTestResult

/-- R493 at a tray master. -/
def State.forwardCopy (r : Rec) (s : State) : State :=
  if s.isMaster && copyType r.typ && s.sys.members.any (fun m => m.addr == r.src) then s.passOn r false 0 [s.upHop.dst] else s

/-- What a unit of the block does with an accepted record, by its type. `i` is the interface it came over, `via` the hop it came from. -/
def State.use (i : Nat) (via : Laddr) (wOk : Bool) (r : Rec) (s : State) : State :=
  let t := r.typ
  if t == tEpoch then s.useEpoch r
  else if t == tStampPairs then s.rxStampPairs r
  else if t == tCorrection then s.useCorrection r
  else if t == tFeatures then s.rxFeatures r
  else if t == tLastGasp then s.rxGasp r
  else if t == tJoin then s.rxJoin i r
  else if t == tPowerState then s.usePower r
  else if t == tSample then s.useSample r
  else if t == tVerdict then (s.rxVerdict r).rxHealthy r
  else if t == tLateness then
    (if rd r.body 6 1 = 0 then s.rxArrival r else if rd r.body 6 1 = 1 then s.rxBatch r else s)
  else if t == tSentryDigest then s.rxSentry r
  else if t == tCutContrib then s.rxContrib r
  else if t == tBroadcast then s.rxBcast via r
  else if t == tBroadcastAck then s.rxAck r
  else if t == tCommand then s.rxCommand r
  else if t == tReply then (if s.ctlUp then s.rxReply r wOk else s)
  else if t == tImageChunk then (if s.ctlUp then s.rxImage r else s)
  else s.forwardCopy r

/-- A record that passed its checks: the acceptance rule of R105, and what follows from an accepted record. A BROADCAST record that is
not accepted may be a re-send, which is acknowledged (R173, R174). -/
def State.takeRec (i : Nat) (via : Laddr) (wOk : Bool) (r : Rec) (s : State) : State :=
  let a := s.acceptRec via r
  if a.2 then (a.1.heard i r).use i via wOk r
  else if r.typ == tBroadcast then a.1.rxRepeat via r
  else a.1

/-- A row that stands for one arriving record of a kind. -/
def State.rxRow (ok : Bool) (i : Nat) (via : Laddr) (wOk : Bool) (r : Rec) (s : State) : State :=
  if s.engUp && ok then s.takeRec i via wOk r else s

/-- The row for a record that comes straight from its source over the interface that leads there. -/
def State.rxFrom (ok : Bool) (r : Rec) (s : State) : State := s.rxRow ok (s.ifcTo r.src) r.src true r

/-- EPOCH_RECEIVED (R55, R105, R288, R489). -/
def execEpochReceived (r : Rec) (s : State) : Host.Outcome State Fault Refusal := .next (s.rxFrom (r.typ == tEpoch) r)

/-- RECONCILE_RECEIVED (R122): the acceptance settles the books. -/
def execReconcileReceived (r : Rec) (s : State) : Host.Outcome State Fault Refusal := .next (s.rxFrom (r.typ == tReconcile) r)

/-- LAST_GASP_RECEIVED (R288). -/
def execLastGaspReceived (r : Rec) (s : State) : Host.Outcome State Fault Refusal := .next (s.rxFrom (r.typ == tLastGasp) r)

/-- JOIN_RECEIVED (R22, R459): the answer to a member's JOIN. -/
def execJoinReceived (ifc : Iface) (r : Rec) (s : State) : Host.Outcome State Fault Refusal :=
  .next (s.rxRow (r.typ == tJoin) ifc.val r.src true r)

/-- JOIN_ANSWER_RECEIVED (R20, R459). -/
def execJoinAnswerReceived (r : Rec) (s : State) : Host.Outcome State Fault Refusal :=
  .next (s.rxFrom (r.typ == tJoin && s.isDie) r)

/-- STAMP_PAIRS_RECEIVED (R63, R161). -/
def execStampPairsReceived (r : Rec) (s : State) : Host.Outcome State Fault Refusal := .next (s.rxFrom (r.typ == tStampPairs) r)

/-- CORRECTION_RECEIVED (R63, R163). -/
def execCorrectionReceived (r : Rec) (s : State) : Host.Outcome State Fault Refusal := .next (s.rxFrom (r.typ == tCorrection) r)

/-- FEATURES_RECEIVED (R188, R211). -/
def execFeaturesReceived (r : Rec) (s : State) : Host.Outcome State Fault Refusal := .next (s.rxFrom (r.typ == tFeatures) r)

/-- ARRIVAL_RECEIVED (R242). -/
def execArrivalReceived (r : Rec) (s : State) : Host.Outcome State Fault Refusal :=
  .next (s.rxFrom (r.typ == tLateness && rd r.body 6 1 == 0) r)

/-- BATCH_RECEIVED (R242, R243, R244). -/
def execBatchReceived (r : Rec) (s : State) : Host.Outcome State Fault Refusal :=
  .next (s.rxFrom (r.typ == tLateness && rd r.body 6 1 == 1) r)

/-- EXPEL_VERDICT_RECEIVED (R239, R240). -/
def execExpelVerdictReceived (r : Rec) (s : State) : Host.Outcome State Fault Refusal := .next (s.rxFrom (r.typ == tVerdict) r)

/-- HEALTHY_STEP_RECEIVED (R264). -/
def execHealthyStepReceived (r : Rec) (s : State) : Host.Outcome State Fault Refusal :=
  .next (s.rxFrom (r.typ == tVerdict && rd r.body 8 1 == 3) r)

/-- REPLAY_REQ_RECEIVED (R258). -/
def execReplayReqReceived (r : Rec) (s : State) : Host.Outcome State Fault Refusal :=
  .next (s.rxFrom (r.typ == tSentryDigest && rd r.body 4 1 == 3) r)

/-- REPLAY_DIGEST_RECEIVED (R261, R262). -/
def execReplayDigestReceived (r : Rec) (s : State) : Host.Outcome State Fault Refusal :=
  .next (s.rxFrom (r.typ == tSentryDigest && rd r.body 4 1 == 1) r)

/-- REFUSED_RECEIVED (R258). -/
def execRefusedReceived (r : Rec) (s : State) : Host.Outcome State Fault Refusal :=
  .next (s.rxFrom (r.typ == tSentryDigest && rd r.body 4 1 == 4) r)

/-- JOB_RELEASE_RECEIVED (R264). -/
def execJobReleaseReceived (r : Rec) (s : State) : Host.Outcome State Fault Refusal :=
  .next (s.rxFrom (r.typ == tSentryDigest && rd r.body 4 1 == 2) r)

/-- CUT_CONTRIB_RECEIVED (R152, R163, R166, R74). -/
def execCutContribReceived (r : Rec) (s : State) : Host.Outcome State Fault Refusal := .next (s.rxFrom (r.typ == tCutContrib) r)

/-- BROADCAST_RECEIVED (R171, R407, R431): from the node's parent in the tree. -/
def execBroadcastReceived (r : Rec) (s : State) : Host.Outcome State Fault Refusal :=
  let hop := match s.tree (bcTree r.body) with
    | some t => t.parent.getD r.src
    | none => r.src
  .next (s.rxRow (r.typ == tBroadcast) (s.ifcTo hop) hop true r)

/-- BROADCAST_ACK_RECEIVED (R172, R173). -/
def execBroadcastAckReceived (r : Rec) (s : State) : Host.Outcome State Fault Refusal := .next (s.rxFrom (r.typ == tBroadcastAck) r)

/-- COMMAND_RECORD_RECEIVED (R404 to R406, R447, R489). -/
def execCommandRecordReceived (r : Rec) (s : State) : Host.Outcome State Fault Refusal := .next (s.rxFrom (r.typ == tCommand) r)

/-- REPLY_RECORD_RECEIVED (R405): `writesOk` is false where the write through OPTR fails. -/
def execReplyRecordReceived (r : Rec) (writesOk : Bool) (s : State) : Host.Outcome State Fault Refusal :=
  .next (s.rxRow (r.typ == tReply) (s.ifcTo r.src) r.src writesOk r)

/-- IMAGE_CHUNK_DATA (R428, R430). -/
def execImageChunkData (r : Rec) (s : State) : Host.Outcome State Fault Refusal :=
  .next (s.rxFrom (r.typ == tImageChunk && icMode r.body == 0) r)

/-- IMAGE_CHUNK_ACK (R428, R429). -/
def execImageChunkAck (r : Rec) (s : State) : Host.Outcome State Fault Refusal :=
  .next (s.rxFrom (r.typ == tImageChunk && icMode r.body == 1) r)

/-- START_REQ (R435). -/
def execStartReq (r : Rec) (s : State) : Host.Outcome State Fault Refusal :=
  .next (s.rxFrom (r.typ == tImageChunk && icMode r.body == 2) r)

/-- START_GRANT (R435). -/
def execStartGrant (r : Rec) (s : State) : Host.Outcome State Fault Refusal :=
  .next (s.rxFrom (r.typ == tImageChunk && icMode r.body == 3) r)

/-- START_DENY (R435). -/
def execStartDeny (r : Rec) (s : State) : Host.Outcome State Fault Refusal :=
  .next (s.rxFrom (r.typ == tImageChunk && icMode r.body == 4) r)

/-- START_DONE (R435). -/
def execStartDone (r : Rec) (s : State) : Host.Outcome State Fault Refusal :=
  .next (s.rxFrom (r.typ == tImageChunk && icMode r.body == 5) r)

/-! ### Frames (R113 to R118, R466, R487) -/

/-- Fields of a frame header (Table 4.5). -/
def fhOvff (b : List Byte) : Bool := bit (rd b 0 16) 120
def fhClass (b : List Byte) : Nat := bits (rd b 0 16) 119 118
def fhSrc (b : List Byte) : Laddr := BitVec.ofNat 18 (bits (rd b 0 16) 111 94)
def fhDst (b : List Byte) : Nat := bits (rd b 0 16) 93 76
def fhMask (b : List Byte) : Nat := bits (rd b 0 16) 63 0

/-- A frame whose hop check fails is counted, on a side link also for that link (R116). -/
def State.checkFail (i : Nat) (s : State) : State :=
  let s1 := s.bump cRecCheckFail
  if i = 0 then s1 else s1.bump (0xE0 + (i - 1))

/-- One record of a frame: its checks (R99, R118), then a re-send for a standby child goes on to it (R173), and any other record is
taken. -/
def State.frameRec (i : Nat) (via : Laddr) (standby : Nat) (s : State) (b : List Byte) : State :=
  match parseRec b with
  | none => s.bump cRecCheckFail
  | some r => if standby ≠ 0 ∧ r.typ = tBroadcast then s.relayStandby via standby r else s.takeRec i via true r

/-- A frame, with the overflow frame that followed it, is forwarded whole, or its records are taken (R113, R114, R117, R118). -/
def State.deliverFrame (i : Nat) (f : RxFrame) (ovf : Option (List Byte)) (s : State) : State :=
  match f.route with
  | .forward out dst =>
    s.pushFwd out.val (fhClass f.bytes) f.bytes (ovf.getD []) [{ ifc := out.val, dst := dst }]
  | .consume =>
    let p := frameRecords f.bytes ovf
    let standby := if fhDst f.bytes = 0x3FFFF then 0 else fhMask f.bytes
    p.1.foldl (State.frameRec i (fhSrc f.bytes) standby) (s.bumpN cRecCheckFail p.2)

/-- A data frame that waits for its overflow frame is delivered with it, or without where none follows (R113). -/
def State.endPair (i : Nat) (ovf : Option (List Byte)) (s : State) : State :=
  match (s.ifc i).rxPair with
  | some f => (s.modIfc i fun x => { x with rxPair := none }).deliverFrame i f ovf
  | none => s

/-- The receive buffer gives up a frame, and its credits return (R466). -/
def State.returnCredits (i len : Nat) (s : State) : State := s.emit (.credits i (flitsOf len))

/-- The check unit takes a frame (R116, R118). -/
def State.takeFrame (i : Nat) (s0 : State) (f : RxFrame) : State :=
  let s := s0.returnCredits i f.bytes.length
  if !frameGood f.bytes then (s.endPair i none).checkFail i
  else if fhOvff f.bytes then s.endPair i (some f.bytes)
  else
    let s1 := s.endPair i none
    if needsOverflow f.bytes then s1.modIfc i fun x => { x with rxPair := some f } else s1.deliverFrame i f none

/-- Frames that waited while ENG was stopped are taken, in order of arrival on each interface (R487). -/
def State.drainRx (s : State) : State :=
  if s.engUp then
    (List.range 17).foldl (fun t i =>
      let l := (t.ifc i).rx
      if l.isEmpty then t else l.foldl (State.takeFrame i) (t.modIfc i fun x => { x with rx := [] })) s
  else s

/-- A frame arrives on an interface (R24, R466, R487): one that ends with ABORT is discarded; while ENG is held in reset every flit is
discarded; while its clock is stopped the frame waits and is a demand. -/
def State.frameIn (i : Nat) (bytes : List Byte) (abort : Bool) (route : Routing) (s : State) : State :=
  if !s.linkOk i then s
  else if s.pow.engHeld then s.returnCredits i bytes.length
  else if s.engUp then
    if abort then (s.returnCredits i bytes.length).endPair i none else s.takeFrame i { bytes := bytes, route := route }
  else if abort then (s.returnCredits i bytes.length).demand.drainRx
  else ((s.modIfc i fun x => { x with rx := x.rx ++ [({ bytes := bytes, route := route } : RxFrame)] }).demand).drainRx

/-- DATA_FRAME_RECEIVED (R113 to R118, R487). -/
def execDataFrameReceived (ifc : Iface) (bytes : List Byte) (abort : Bool) (route : Routing) (s : State) :
    Host.Outcome State Fault Refusal := .next (s.frameIn ifc.val bytes abort route)

/-- OVERFLOW_FRAME_RECEIVED (R113): the frame after a data frame. -/
def execOverflowFrameReceived (ifc : Iface) (bytes : List Byte) (abort : Bool) (route : Routing) (s : State) :
    Host.Outcome State Fault Refusal := .next (s.frameIn ifc.val bytes abort route)

/-! ### Links (R141, R54) -/

/-- A link initialisation, and the JOIN of an unjoined die whose side link has come up (R20, Table 19.1). -/
def State.linkReady (i init : Nat) (s : State) : State :=
  let s1 := s.linkInit i init
  if i = 1 ∧ s1.pow.phase = .running then s1.askJoin else s1

/-- LINK_UP_RISE (R141): with the PORT domain out of reset, a link initialisation. -/
def execLinkUpRise (ifc : Iface) (initCred : BitVec 12) (peer : Laddr) (s : State) : Host.Outcome State Fault Refusal :=
  let i := ifc.val
  if (s.ifc i).linkUp then .next s
  else
    let s1 := s.modIfc i fun f => { f with linkUp := true, peer := peer, initCred := initCred.toNat }
    .next (if (s.ifc i).portReset then s1 else s1.linkReady i initCred.toNat)

/-- LINK_UP_FALL (R113, R141, R466): a data frame whose overflow frame cannot come any more is taken without it, the frame in progress
ends, the credits are void, queued frames stay. -/
def execLinkUpFall (ifc : Iface) (s : State) : Host.Outcome State Fault Refusal :=
  let i := ifc.val
  if (s.ifc i).linkUp then .next (((s.endPair i none).modIfc i fun f => { f with linkUp := false }).linkLost i) else .next s

/-- An interface's PORT domain leaves reset: an EPOCH record is owed on it (R54), and with LINK_UP high the link is initialised
(R141). -/
def State.ifcRelease (s : State) (i : Nat) : State :=
  if (s.ifc i).portReset then
    let s1 := s.modIfc i fun f => { f with portReset := false }
    let s2 : State := s1.modHop fun u => { u with out := u.out.map fun o => { o with ifcOwed := o.ifcOwed ++ [i] } }
    if (s.ifc i).linkUp then s2.linkReady i (s.ifc i).initCred else s2
  else s

/-- A PORT domain leaves reset. -/
def State.portRelease (p : Nat) (s : State) : State :=
  (portIfcs p).foldl State.ifcRelease (s.modPow fun u => { u with heldPorts := u.heldPorts.filter (· != p) })

/-- PORT_DOMAIN_RELEASE (R141, R54): a PORT domain that DOMAIN.RESET or firmware has reset leaves reset; a SIDE domain is released
for the link that is named. The host's resets hold their domains until they are released themselves. -/
def execPortDomainRelease (port : PortName) (initCred : BitVec 12) (s : State) : Host.Outcome State Fault Refusal :=
  let p := portNo port
  let held := s.pow.hostReset || (s.pow.warmReset && [0, 1, 5, 11, 13].contains p)
  if s.aoUp && !held && s.pow.phase == .running then
    match port with
    | .side l =>
      let s1 := (s.modIfc (l.val + 1) fun f => { f with initCred := initCred.toNat }).ifcRelease (l.val + 1)
      let rest := (portIfcs 3).any fun i => (s1.ifc i).portReset
      .next (if rest then s1 else s1.modPow fun u => { u with heldPorts := u.heldPorts.filter (· != 3) })
    | .fab => .next ((s.modIfc 0 fun f => { f with initCred := initCred.toNat }).portRelease p)
    | _ => .next (s.portRelease p)
  else .next s

/-! ### TAP, discrete inputs, epoch pulse -/

/-- A slot of a good beat beside its counters: engine hang events (R276), core activity (R377), and what the arrival hints rest on
(R241). -/
def State.tapEvent (s : State) (t : TapSlot) : State :=
  let w := t.word
  let ev := slotEvent w
  let inc := slotInc w
  let hint := fun (f : HintLog → HintLog) => s.modVerd fun u => { u with hints := f u.hints }
  if slotLevel w = 0 then
    if ev = 63 ∧ 0 < inc then s.engineHang (slotCore w) (slotEngine w)
    else if ev = 62 ∧ 0 < inc then s.engineResumed (slotCore w) (slotEngine w)
    else s
  else if slotLevel w = 1 then
    if ev = 0 then s.coreActive (slotCore w) inc
    else if ev = 12 ∧ 0 < inc then hint fun h => { h with preemptAt := some s.tb1Ns }
    else s
  else if (ev = 8 ∨ ev = 9) ∧ 0 < inc then hint fun h => { h with linkAt := some s.tb1Ns }
  else if ev = 7 then hint fun h =>
    { h with replays := (h.replays.filter fun x => decide (s.tb1Ns ≤ x.1 + 1000000000)) ++ [(s.tb1Ns, inc)] }
  else s

/-- TAP_BEAT (R76, R79, R80): the beat is counted; in die role its events go to Brake, the test sequencer and the Verdict unit. -/
def execTapBeat (slots : List TapSlot) (s : State) : Host.Outcome State Fault Refusal :=
  if s.portUp .tap || (s.aoUp && s.pow.phase == .roleLess) then
    let s1 := s.tapCount slots
    .next (if s.isDie then ((slots.take 16).filter slotGood).foldl State.tapEvent s1 else s1)
  else .next s

/-- DISC_CONDITIONED_CHANGE (R94 to R97, R349): input 0 is THERMAL_TRIP, whose conditioned state acts on the grant and is reported. -/
def execDiscConditionedChange (input : Fin 32) (level : Bool) (s : State) : Host.Outcome State Fault Refusal :=
  if s.aoUp && (s.portUp .disc || s.pow.phase != .running) then
    let active := level != (s.disc input.val).cfg.pol
    let s1 := s.discChange input.val active
    if input.val = 0 then
      let s2 := if active && !s.trip && s.isDie then s1.stage 0x0D03 .fault 0xFF 0 else s1
      .next s2.clampSettle
    else .next s1
  else .next s

/-- TB0 less the nearest whole second, in 2^-16 ns. -/
def State.pulseOff (s : State) : Int :=
  let sec := 1000000000 * 2 ^ 16
  let f := s.tb0Frac % sec
  if 2 * f < sec then (f : Int) else (f : Int) - (sec : Int)

/-- EPOCH_PULSE (R48, R54, R366): compared with TB0, an occasion of EPOCH records, and captured by Assay. -/
def execEpochPulse (s : State) : Host.Outcome State Fault Refusal :=
  if s.portUp .time then
    let d := s.pulseOff
    let bad := s.time.lock == .locked && decide (100 * 2 ^ 16 < d.natAbs)
    let s1 := if bad then (s.bump cPulseMismatch).stage 0x0101 .notice 0 (unsigned 64 (d / 2 ^ 16)) else s
    .next s1.epochEverywhere.metroPulse
  else .next s

/-! ### Correction tables (R64 to R66) -/

/-- CORRECTION_PUBLISH (R65, R66): the oldest solve is published within its deadline and is in force here. -/
def execCorrectionPublish (s : State) : Host.Outcome State Fault Refusal :=
  match s.time.solved with
  | t :: rest =>
    if s.engUp && decide (s.tb0Ns ≤ s.solveDeadline t) then
      let s1 := (s.modTime fun u => { u with solved := rest, nodes := joinNodes u.nodes t.entries }).holdTable (!s.isMaster) t
      .next (s1.publishCorr t s.sys.fwver.toNat).forwardAway.settleInsts
    else .next s
  | [] => .next s

/-- SOLVE_DEADLINE (R64, R65): a solve past its deadline is not published; its nodes are in HOLD for that epoch. -/
def execSolveDeadline (s : State) : Host.Outcome State Fault Refusal :=
  match s.time.solved with
  | t :: _ =>
    if s.engUp && decide (s.solveDeadline t < s.tb0Ns) then .next (s.solveLate t).settleInsts else .next s
  | [] => .next s

/-! ### Memory errors (R31 to R33, Table 1.9) -/

/-- A model that an uncorrectable word of its memory stops: outputs missing until it is reloaded, a pending activation gone (Table 1.9,
R199, R222). A load meets it as a failed check (Table 7.9; log entry 31). -/
def State.modelStop (mill : Bool) (i : Nat) (s : State) : State :=
  let arg := if mill then (match (s.mh i).model with | some m => m.modelId.toNat * 2 ^ 32 + m.modelVer.toNat | none => 0)
    else match (s.qh i).model with | some m => m.modelId.toNat * 2 ^ 32 + m.modelVer.toNat | none => 0
  if (s.hnd mill i).st = .empty then s
  else if (s.hnd mill i).st = .loading then (s.loadFail mill i stCheck).stage (if mill then 0x0701 else 0x0601) .fault i arg
  else
    let s1 := s.modHnd mill i fun h => { h with st := .stopped, actAt := none }
    let s2 :=
      if mill then
        let cs := (s1.model.chans.filter fun e => e.2.handle == i).map (·.1)
        cs.foldl (fun t c => (t.modChan c fun x => { x with pend := [], running := none }).voidRollouts c) s1
      else
        let p := (s1.qh i).pend
        (s1.modQ i fun q => { q with pend := [] }).deliverMissing i p
    s2.stage (if mill then 0x0701 else 0x0601) .fault i arg

/-- The queued record that an uncorrectable word of Hopper belongs to is dropped and entered in the books (R109). -/
def State.dropEcc (c k : Nat) (s : State) : State :=
  match (s.scfg c).queue[k]? with
  | some q => ((s.leave c q).modOut c fun o => { o with dropEcc := o.dropEcc + 1 }).dropMark c
  | none => s

/-- The action of Table 1.9 for an uncorrectable word of an array: `a` and `b` name its place. -/
def State.eccAction (array : EccArray) (a b : Nat) (s : State) : State :=
  match array with
  | .counters =>
    s.modColl fun c =>
      { c with counters := putCounter c.counters a { val := 0, wraps := 0 },
               sets := ((List.range c.sets.length).zip c.sets).map fun e =>
                 if inSet e.1 e.2.banks a then { e.2 with eccHit := e.2.eccHit ++ [a] } else e.2 }
  | .hopper => if a < 8 then s.dropEcc a b else s.traceEcc b
  | .quern => s.modelStop false a
  | .millrace => s.modelStop true a
  | .crown =>
    let mark := fun (o : Operand) => if o.key.rid == a && o.key.seg == b then { o with flaw := some causeLost } else o
    (s.modLevel false fun l => { l with operands := l.operands.map mark }).modLevel true fun l =>
      { l with operands := l.operands.map mark }
  | .ctl => if s.pow.ctlHeld then s else s.resetEntry 5 true true []
  | .hallmark =>
    match s.hall.ents[a]? with
    | some e =>
      ((s.modHall fun h0 =>
        let h := if e.begun && !e.written then h0.tear else h0
        { h with ents := h.ents.eraseIdx a, drop := satAdd 32 h.drop 1 }).bump cHallmarkDrop).reclaimFull.hallSettle
    | none => s
  | .tray => if s.sys.histBad.contains a then s else s.modSys fun u => { u with histBad := u.histBad ++ [a] }

/-- The number of an array in the light set (Table 3.5). -/
def eccIndex : EccArray → Nat
  | .counters => 0
  | .hopper => 1
  | .quern => 2
  | .millrace => 3
  | .crown => 4
  | .ctl => 5
  | .hallmark => 6
  | .tray => 7

/-- SCRUB_WORD (R31 to R33): one or two bits are corrected and counted, whether the corrected copy is written back or a functional write
came first (R32); three are detected, counted and acted upon. What four or more do the spec leaves open: nothing is seen. -/
def execScrubWord (hit : EccHit) (s : State) : Host.Outcome State Fault Refusal :=
  let n := eccIndex hit.array
  if !s.aoUp ∨ hit.errs = 0 ∨ 4 ≤ hit.errs then .next s
  else if hit.errs ≤ 2 then .next (s.bump (0x40 + 2 * n))
  else .next ((s.bump (0x41 + 2 * n)).eccAction hit.array hit.at1 hit.at2)

end Sys2Proof.Machine
end

