-- ==== Sys2Proof/Machine/PowerRows.lean ====
section
/-! DEFINITION. The events of the power states that let waiting frames in: the end of a drain, demands and the end of WAKE_HOLD
(R452 to R457). -/

namespace Sys2Proof.Machine

/-- DRAIN_END (R452, R453, R319): Tailrace's waiting records are offered, and the entry ends once every stream is empty or DRAIN_TO has
passed; what arrived meanwhile is a demand. -/
def execDrainEnd (s : State) : Host.Outcome State Fault Refusal := if s.aoUp then .next s.drainEnd.drainRx else .next s

/-- WAKE_DEMAND (R454, R455, Table 19.6). -/
def execWakeDemand (kind : Demand) (s : State) : Host.Outcome State Fault Refusal :=
  if s.aoUp && s.demandStands kind then
    .next (if kind = .doorbell then s.ctlWake else s.demand.drainRx)
  else .next s

/-- Demands that stand by themselves. -/
def standing : List Demand := [.brake, .samples, .discs, .hallmark, .assay, .aged]

/-- WAKE_HOLD_EXPIRY (R455): the hold has passed and every demand has been served. -/
def execWakeHoldExpiry (s : State) : Host.Outcome State Fault Refusal :=
  if s.aoUp && s.holdOver && !(standing.any s.demandStands) then .next (s.beginEntry s.pow.target) else .next s

end Sys2Proof.Machine
end

