-- ==== Sys2Proof/Machine/Startup.lean ====
section
/-! DEFINITION. AO power, the start-up sequence (R443 to R449, Tables 19.1 and 19.2), the reset inputs (R26, R275, R286). -/

namespace Sys2Proof.Machine

/-! ### AO reset (R443, Table 11.6) -/

/-- An interface after AO reset; what its pins show stays. -/
def ifcAoReset (rates : List Nat) (f : IfcSt) : IfcSt :=
  { ifcReset rates with linkUp := f.linkUp, peer := f.peer, initCred := f.initCred }

/-- AO, CTL, ENG and every PORT domain at their reset values; the flash, Assay in its own power domain and the pins stay. -/
def State.aoReset (r : Role) (s : State) : State :=
  { State.reset with
    sys := sysReset r,
    pow := { powReset with pgMetro := s.pow.pgMetro, metroHeld := s.pow.metroHeld },
    time := { timeReset with freeCount := s.time.freeCount },
    hop := { hopReset r with
      ifcs := match s.hop.ifcs with
        | f :: l => ifcAoReset (sluiceRate r) f :: l.map (ifcAoReset [8000, 8000, 8000, 8000])
        | [] => (hopReset r).ifcs },
    hall := hallReset s.hall.log,
    brake := { brakeReset with owed := if s.pow.aoHeld then s.brake.owed else [] },
    metro := s.metro,
    flash := s.flash,
    outs := s.outs,
    pending := s.pending }

/-- PG_AO_DEASSERT (R26): everything but METRO is in reset, without a last gasp. A die out of service is in service again, and
SERVICE_RESTORED is owed (R293). -/
def execPgAoDeassert (s : State) : Host.Outcome State Fault Refusal :=
  let t := (s.modHall HallUnit.tear).aoReset .invalid
  .next (if s.sys.oos then t.ownNotice 5 0xFF 0 0xFF 0xFF 0 0 0 else t)

/-! ### Steps 1 to 4 -/

/-- A slot found in WRITING is erased (R424). -/
def State.dirClean (s : State) : State :=
  (List.range 7).foldl (fun t i =>
    if (t.dirEnt i).st = .writing then
      (t.modDir i fun _ => dirErased).eraseSlot (if i < 2 then 0 else if i < 6 then 1 else 2) (if i < 2 then i else i - 2)
    else t) s

/-- An Ingot slot that is neither erased nor valid is reported (R302). -/
def State.ingotTorn (s : State) : State :=
  let tell := fun (i : Nat) (b : List Byte) (t : State) =>
    if !b.isEmpty && !ingotValid b then t.stage 0x0A04 .notice i 0 else t
  tell 2 s.flash.ingot2 (tell 1 s.flash.ingot1 (tell 0 s.flash.ingot0 s))

/-- The flash is reset and its SFDP table read; directory, log and Ingot slots are read (R424, R478). -/
def State.flashStart (s : State) : State :=
  ((((((s.xspiStart.readFlash (dirBase false) 260).readFlash (dirBase true) 260).readFlash hallArea 131072).readFlash (ingotBase 0)
    128).readFlash (ingotBase 1) 128).readFlash (ingotBase 2) 128)

/-- Steps 1 to 4 of Table 19.1: AO leaves reset, the strap is sampled, directory and log are read. Without reference clock edges AO runs
from its own oscillator (R72). -/
def State.aoStart (r : Role) (refclk : Bool) (s : State) : State :=
  let s1 := (s.aoReset r).modPow fun u => { u with aoHeld := false }
  let s2 := if refclk then s1 else (s1.modTime fun u => { u with refclk := false }).bump cRefclkLoss
  s2.flashStart.dirClean.hallScan.ingotTorn

/-! ### Steps 5 to 8 -/

/-- The running image's header is in force and FWVER shown (step 6). -/
def State.loadImage (s : State) : State :=
  let h := s.slotHdr s.hoist.running
  ((s.readFlash (regionBase 0 s.hoist.running) h.len).modHoist fun x => { x with hdr := h }).modSys fun u => { u with fwver := h.ver }

/-- The instants of last passes that the configuration holds (R376). -/
def State.loadTestDone (s : State) : State :=
  let b := s.section' 0x0100
  let l := (List.range (b.length / 8)).filterMap fun i => if rd b (8 * i) 8 = 0 then none else some (i, rd b (8 * i) 8)
  s.modTest fun t => { t with done := l }

/-- The stored Temper offset is applied once (R362): over the arbiter in die role, to the chip's own regulator in tray role. -/
def State.startOffset (s : State) : State :=
  let b := s.section' 0x0101
  let off := signed 8 (rd b 0 1)
  let take := fun (t : State) => t.modGov fun g => { g with off := off, offTb0 := rd b 1 8, offAt := s.tb1Ns }
  if b.length < 9 then s
  else if s.isDie then ((take s).modGov fun g => { g with startPlan := true }).agentPlan off
  else if s.isTray then
    let p := (s.tickFree).writeVout 0xFF Config.ownPmbus.1 Config.ownPmbus.2 Config.vnom.toNat off
      (Config.startRegulator s.time.freeCount)
    if p.2 = 0 then take p.1 else p.1
  else s

/-- CTL and ENG leave reset with their clocks running (steps 5 and 7); the grids of the heavy sets go on. -/
def State.clocksUp (s : State) : State :=
  (s.refill.tensorRefill.heavySets (heavyWake s.tb0Ns)).modPow fun u => { u with ctlHeld := false, engHeld := false, ctlOn := true, engOn := true }

/-- The RESTORE section is next (step 9). -/
def State.toRestore (s : State) : State := s.modPow fun u => { u with phase := .restoring 0 }

/-- PG_AO_ASSERT (R443, R445, R446): steps 1 to 8 of Table 19.1. `refclk` says that the reference clock shows its edges, `slotOk` that
the CONFIRMED slot passes HCRC and DIGEST, `selfOk` that the self-check passes. -/
def execPgAoAssert (strap : Role) (refclk : Bool) (slotOk : Bool) (selfOk : Bool) (s : State) :
    Host.Outcome State Fault Refusal :=
  if s.pow.aoHeld then
    let s1 := s.aoStart strap refclk
    if strap = .invalid then
      .next (s1.modPow fun u => { u with phase := .roleLess, heldPorts := u.heldPorts.filter (· != 2) })
    else
      let s2 := s1.modHoist fun h => { h with running := s1.confirmedSlot, restoreOk := true, selfOk := selfOk }
      if slotOk then .next s2.clocksUp.loadImage.readConf.migrate.loadTestDone.startOffset.toRestore
      else
        .next ((s2.readFlash (regionBase 0 s1.confirmedSlot) (s1.slotHdr s1.confirmedSlot).len).modPow fun u =>
          { u with phase := .badFirmware, intHold := true, heldPorts := u.heldPorts.filter (· != 2) })
  else .next s

/-! ### Steps 9 and 10 (R447) -/

/-- A command of the RESTORE section. -/
def restorePath : Path → Bool
  | .restore _ => true
  | _ => false

/-- The RESTORE section is being run. -/
def State.restoring (s : State) : Bool := match s.pow.phase with | .restoring _ => true | _ => false

/-- The RESTORE command that is due runs. -/
def State.restoreOne (s : State) (i : Nat) : State :=
  match s.restoreEntries[i]? with
  | some e => if s.pow.phase = .restoring i then s.runPacket (.restore i) e.1 [] e.2 true else s
  | none => s

/-- The commands of the RESTORE section that have not run yet, in their stored order. -/
def State.restoreAll (s : State) : State := (List.range s.restoreEntries.length).foldl State.restoreOne s

/-- PORT domains in reset are released, but for those that a reset input holds (step 10). -/
def State.releasePorts (s : State) : State :=
  (s.pow.heldPorts.filter fun p => !(s.pow.hostReset || (s.pow.warmReset && [0, 1, 5, 11, 13].contains p))).foldl
    (fun t p => t.portRelease p) s

/-- A RESTART event goes to a pair (R396). -/
def State.restartEvent (fab : Bool) (s : State) : State :=
  if (s.pair fab).en then
    s.putEvent fab (eventSlots 0x01E0 (be 4 (s.pair fab).cqHead.toNat ++ be 4 s.cmd.ctlResets))
      (be 4 s.sys.laddr.toNat ++ be 4 0)
  else s

/-- Streams that AO reset has restarted begin with their EPOCH record (R54, R104). -/
def State.restartStreams (s : State) : State :=
  (List.finRange 4).foldl (fun t c => if (t.out c.val).restart then t.settleEpoch c .every false else t) s

/-- The block is in RUN whatever its target; a lower target follows once WAKE_HOLD has passed (R449). -/
def State.backToRun (s : State) : State :=
  if s.pow.pstate = .run then
    (s.modPow fun u => { u with waking := u.target != .run, lastDemand := s.tb1Ns }).fullIfDue.offerHeld
  else s.exitRun

/-- What the end of the RESTORE section starts (steps 10 and 11, R285, R313, R396, R432). -/
def State.begin' (s : State) : State :=
  let s1 := (s.releasePorts.modPow fun u => { u with phase := .running }).restartStreams.backToRun
  let s2 := if s.pow.relCtl then (s1.restartEvent false).restartEvent true else s1
  let s3 := if s.pow.relEng then (s2.missedCuts false).missedCuts true else s2
  ((s3.pmbStart.modPow fun u => { u with relEng := false, relCtl := false }).startReply).askJoin

/-- RESTORE_DONE (R447): every RESTORE command has had its final reply. Those still due run first; while one of them is in ACCEPTED
state, nothing else happens. -/
def execRestoreDone (s : State) : Host.Outcome State Fault Refusal :=
  if s.restoring && s.ctlUp && s.engUp then
    let s1 := s.restoreAll
    if s1.restoring && s1.ctlUp && s1.engUp && !(s1.cmd.acc.any fun a => restorePath a.path) then .next s1.begin' else .next s1
  else .next s

/-! ### Resets that AO survives (R26, R275, R286, R449) -/

/-- RST_HOST_N_ASSERT (Table 1.7, R286, R291). -/
def execRstHostNAssert (s : State) : Host.Outcome State Fault Refusal :=
  if s.aoUp && !s.pow.hostReset then
    .next (((s.modPow fun u => { u with hostReset := true }).hostResetSeen).resetEntry 2 true true allPorts)
  else .next s

/-- The PORT domains of a host warm reset. -/
def warmPorts : List Nat := [0, 1, 5, 11, 13]

/-- RST_WARM_N_ASSERT (Table 1.7, R283). -/
def execRstWarmNAssert (s : State) : Host.Outcome State Fault Refusal :=
  if s.aoUp && !s.pow.warmReset then
    .next (warmPorts.foldl (fun t p => t.portReset p) ((s.modPow fun u => { u with warmReset := true }).warmResetSeen).testReset)
  else .next s

/-- RST_WARM_N_RELEASE (R275, R282): those domains are released unless a cold reset holds them. -/
def execRstWarmNRelease (s : State) : Host.Outcome State Fault Refusal :=
  if s.aoUp && s.pow.warmReset then
    let s1 := (s.modPow fun u => { u with warmReset := false }).warmReleased
    .next (if s.pow.hostReset || s.pow.phase != .running then s1 else warmPorts.foldl (fun t p => t.portRelease p) s1)
  else .next s

/-- ENG's part of a release: the withdrawal of every provisional verdict, and the steps that the reset left open (R236, R256). -/
def State.engRestart (s : State) : State :=
  if s.pow.relEng then (s.sendWithdrawal s.tb0Ns 0 0 0xFF 0 wdReset 0 0 0).sentryRestart else s

/-- What a release repeats (Table 19.2, R434): after a CTL reset image and configuration are read again; an image in trial falls back
where its self-check fails or its configuration is unreadable. -/
def State.ctlRestart (selfOk : Bool) (s : State) : State :=
  let s1 := (if s.pow.relCtl then s.loadImage else s).modHoist fun h =>
    { h with selfOk := selfOk, restoreOk := h.restoreOk || s.pow.relCtl }
  if !selfOk && s.hoist.trialAt.isSome then s1.fallBack 3
  else if s.pow.relCtl then
    let s2 := s1.readConf
    if s2.hoist.trialAt.isSome && s2.confUnreadable then s2.fallBack 2 else s2.migrate.toRestore
  else s1.toRestore

/-- RESET_RELEASE (R449, Table 19.2): the reset input is released, or the reset that AO made is over; not under a hold of CTL and ENG,
and not in OFF. -/
def execResetRelease (selfOk : Bool) (s : State) : Host.Outcome State Fault Refusal :=
  if s.aoUp && !s.pow.intHold && (s.pow.ctlHeld || s.pow.engHeld) && (s.pow.phase == .running || s.restoring)
      && s.pow.pstate != .off then
    let s1 := if s.pow.hostReset then (s.modPow fun u => { u with hostReset := false }).watchRelease else s
    .next (s1.clocksUp.engRestart.ctlRestart selfOk)
  else .next s

end Sys2Proof.Machine
end

