-- ==== Sys2Proof/Machine/Dispatch.lean ====
section
/-! DEFINITION. The meaning of every command: one arm per constructor. -/

namespace Sys2Proof.Machine

/-- The effect of a command on everything but the queue. -/
def exec (i : Instr) (s : State) : Host.Outcome State Fault Refusal :=
  match i with
  | .pgAoAssert strap refclk slotOk selfOk => Sys2Proof.Machine.execPgAoAssert strap refclk slotOk selfOk s
  | .restoreDone => Sys2Proof.Machine.execRestoreDone s
  | .pgAoDeassert => Sys2Proof.Machine.execPgAoDeassert s
  | .pgMetroAssert calEn => Sys2Proof.Machine.execPgMetroAssert calEn s
  | .pgMetroDeassert => Sys2Proof.Machine.execPgMetroDeassert s
  | .rstHostNAssert => Sys2Proof.Machine.execRstHostNAssert s
  | .rstWarmNAssert => Sys2Proof.Machine.execRstWarmNAssert s
  | .rstWarmNRelease => Sys2Proof.Machine.execRstWarmNRelease s
  | .resetRelease selfOk => Sys2Proof.Machine.execResetRelease selfOk s
  | .refclkLoss => Sys2Proof.Machine.execRefclkLoss s
  | .refclkReturn => Sys2Proof.Machine.execRefclkReturn s
  | .epochPulse => Sys2Proof.Machine.execEpochPulse s
  | .syncReceived m => Sys2Proof.Machine.execSyncReceived m s
  | .followUpReceived m => Sys2Proof.Machine.execFollowUpReceived m s
  | .delayRespReceived m => Sys2Proof.Machine.execDelayRespReceived m s
  | .announceReceived m => Sys2Proof.Machine.execAnnounceReceived m s
  | .delayReq => Sys2Proof.Machine.execDelayReq s
  | .syncTimeout => Sys2Proof.Machine.execSyncTimeout s
  | .tapBeat slots => Sys2Proof.Machine.execTapBeat slots s
  | .discConditionedChange input level => Sys2Proof.Machine.execDiscConditionedChange input level s
  | .chatterWindowEnd input => Sys2Proof.Machine.execChatterWindowEnd input s
  | .stuckTimeout input => Sys2Proof.Machine.execStuckTimeout input s
  | .hbPinBeat => Sys2Proof.Machine.execHbPinBeat s
  | .pwrReqChange req => Sys2Proof.Machine.execPwrReqChange req s
  | .linkUpRise ifc initCred peer => Sys2Proof.Machine.execLinkUpRise ifc initCred peer s
  | .linkUpFall ifc => Sys2Proof.Machine.execLinkUpFall ifc s
  | .creditReturn ifc n => Sys2Proof.Machine.execCreditReturn ifc n s
  | .linkErrorPulse port => Sys2Proof.Machine.execLinkErrorPulse port s
  | .insertionSlot port phase early => Sys2Proof.Machine.execInsertionSlot port phase early s
  | .stampPair port slot peer phase => Sys2Proof.Machine.execStampPair port slot peer phase s
  | .snoopFrame port f => Sys2Proof.Machine.execSnoopFrame port f s
  | .tracePacket p => Sys2Proof.Machine.execTracePacket p s
  | .stepMark p => Sys2Proof.Machine.execStepMark p s
  | .collMark p => Sys2Proof.Machine.execCollMark p s
  | .streamMark p => Sys2Proof.Machine.execStreamMark p s
  | .tensorPacket p => Sys2Proof.Machine.execTensorPacket p s
  | .smbalert status => Sys2Proof.Machine.execSmbalert status s
  | .pmbPoll readings => Sys2Proof.Machine.execPmbPoll readings s
  | .sideReadResponse data err => Sys2Proof.Machine.execSideReadResponse data err s
  | .sideReadTimeout => Sys2Proof.Machine.execSideReadTimeout s
  | .assayConversion => Sys2Proof.Machine.execAssayConversion s
  | .assaySamplePair v c => Sys2Proof.Machine.execAssaySamplePair v c s
  | .assayPairMissing => Sys2Proof.Machine.execAssayPairMissing s
  | .assayReadoutFrame => Sys2Proof.Machine.execAssayReadoutFrame s
  | .heartbeatWrite value => Sys2Proof.Machine.execHeartbeatWrite value s
  | .cqTailWrite fab value => Sys2Proof.Machine.execCqTailWrite fab value s
  | .rqHeadWrite fab value => Sys2Proof.Machine.execRqHeadWrite fab value s
  | .queuePairEnable fab rqLog2 cqLog2 => Sys2Proof.Machine.execQueuePairEnable fab rqLog2 cqLog2 s
  | .queuePairDisable fab => Sys2Proof.Machine.execQueuePairDisable fab s
  | .tsTb0LoRead wide => Sys2Proof.Machine.execTsTb0LoRead wide s
  | .loHalfRead off => Sys2Proof.Machine.execLoHalfRead off s
  | .w1cStatusWrite off value => Sys2Proof.Machine.execW1cStatusWrite off value s
  | .intEnableWrite value => Sys2Proof.Machine.execIntEnableWrite value s
  | .badAccess write off size => Sys2Proof.Machine.execBadAccess write off size s
  | .registerWrite off value => Sys2Proof.Machine.execRegisterWrite off value s
  | .commandFetch fab entry reads writesOk => Sys2Proof.Machine.execCommandFetch fab entry reads writesOk s
  | .replyWriteFail fab => Sys2Proof.Machine.execReplyWriteFail fab s
  | .asyncCommandDone path tag => Sys2Proof.Machine.execAsyncCommandDone path tag s
  | .fabricQueueEntry entry inl route => Sys2Proof.Machine.execFabricQueueEntry entry inl route s
  | .commandRecordReceived r => Sys2Proof.Machine.execCommandRecordReceived r s
  | .replyRecordReceived r writesOk => Sys2Proof.Machine.execReplyRecordReceived r writesOk s
  | .cmdRetryExpiry dest seq => Sys2Proof.Machine.execCmdRetryExpiry dest seq s
  | .seqGapSkip src issuer => Sys2Proof.Machine.execSeqGapSkip src issuer s
  | .sysIdentify c => Sys2Proof.Machine.execSysIdentify c s
  | .sysStatus c => Sys2Proof.Machine.execSysStatus c s
  | .sysAddress c => Sys2Proof.Machine.execSysAddress c s
  | .sysPhase c => Sys2Proof.Machine.execSysPhase c s
  | .sysPstate c => Sys2Proof.Machine.execSysPstate c s
  | .domainReset c => Sys2Proof.Machine.execDomainReset c s
  | .domainResetStart => Sys2Proof.Machine.execDomainResetStart s
  | .serviceRestore c => Sys2Proof.Machine.execServiceRestore c s
  | .trayDesignate c => Sys2Proof.Machine.execTrayDesignate c s
  | .sysInject c => Sys2Proof.Machine.execSysInject c s
  | .timeConfig c => Sys2Proof.Machine.execTimeConfig c s
  | .timeJob c => Sys2Proof.Machine.execTimeJob c s
  | .timeAsym c => Sys2Proof.Machine.execTimeAsym c s
  | .timeCal c => Sys2Proof.Machine.execTimeCal c s
  | .timeStatus c => Sys2Proof.Machine.execTimeStatus c s
  | .collectCounter c => Sys2Proof.Machine.execCollectCounter c s
  | .collectSet c => Sys2Proof.Machine.execCollectSet c s
  | .collectArm c => Sys2Proof.Machine.execCollectArm c s
  | .collectMap c => Sys2Proof.Machine.execCollectMap c s
  | .collectRead c => Sys2Proof.Machine.execCollectRead c s
  | .discConfig c => Sys2Proof.Machine.execDiscConfig c s
  | .collectStatus c => Sys2Proof.Machine.execCollectStatus c s
  | .streamConfig c => Sys2Proof.Machine.execStreamConfig c s
  | .streamShaper c => Sys2Proof.Machine.execStreamShaper c s
  | .streamGate c => Sys2Proof.Machine.execStreamGate c s
  | .streamLink c => Sys2Proof.Machine.execStreamLink c s
  | .streamStatus c => Sys2Proof.Machine.execStreamStatus c s
  | .reduceDefine c => Sys2Proof.Machine.execReduceDefine c s
  | .reduceDelete c => Sys2Proof.Machine.execReduceDelete c s
  | .cutConfig c => Sys2Proof.Machine.execCutConfig c s
  | .cutRead c => Sys2Proof.Machine.execCutRead c s
  | .cutRegister c => Sys2Proof.Machine.execCutRegister c s
  | .cutRelease c => Sys2Proof.Machine.execCutRelease c s
  | .treeInstall c => Sys2Proof.Machine.execTreeInstall c s
  | .bcastSend c => Sys2Proof.Machine.execBcastSend c s
  | .mapConfig c => Sys2Proof.Machine.execMapConfig c s
  | .reduceStatus c => Sys2Proof.Machine.execReduceStatus c s
  | .modelLoad c => Sys2Proof.Machine.execModelLoad c s
  | .modelActivate c => Sys2Proof.Machine.execModelActivate c s
  | .modelDeactivate c => Sys2Proof.Machine.execModelDeactivate c s
  | .modelUnload c => Sys2Proof.Machine.execModelUnload c s
  | .modelStatus c => Sys2Proof.Machine.execModelStatus c s
  | .channelOpen c => Sys2Proof.Machine.execChannelOpen c s
  | .channelClose c => Sys2Proof.Machine.execChannelClose c s
  | .channelReset c => Sys2Proof.Machine.execChannelReset c s
  | .channelForecast c => Sys2Proof.Machine.execChannelForecast c s
  | .modelParam c => Sys2Proof.Machine.execModelParam c s
  | .scoreSet c => Sys2Proof.Machine.execScoreSet c s
  | .scoreClear c => Sys2Proof.Machine.execScoreClear c s
  | .verdictWithdraw c => Sys2Proof.Machine.execVerdictWithdraw c s
  | .verdictConfig c => Sys2Proof.Machine.execVerdictConfig c s
  | .verdictBudget c => Sys2Proof.Machine.execVerdictBudget c s
  | .verdictDrill c => Sys2Proof.Machine.execVerdictDrill c s
  | .jobMembers c => Sys2Proof.Machine.execJobMembers c s
  | .jobEnd c => Sys2Proof.Machine.execJobEnd c s
  | .verdictParam c => Sys2Proof.Machine.execVerdictParam c s
  | .verdictStatus c => Sys2Proof.Machine.execVerdictStatus c s
  | .sentryWatch c => Sys2Proof.Machine.execSentryWatch c s
  | .sentryPartners c => Sys2Proof.Machine.execSentryPartners c s
  | .sentryGoal c => Sys2Proof.Machine.execSentryGoal c s
  | .sentryRollback c => Sys2Proof.Machine.execSentryRollback c s
  | .sentryRelease c => Sys2Proof.Machine.execSentryRelease c s
  | .sentryStatus c => Sys2Proof.Machine.execSentryStatus c s
  | .sentryParam c => Sys2Proof.Machine.execSentryParam c s
  | .heartbeatConfig c => Sys2Proof.Machine.execHeartbeatConfig c s
  | .ingotConfig c => Sys2Proof.Machine.execIngotConfig c s
  | .ingotTake c => Sys2Proof.Machine.execIngotTake c s
  | .ingotRead c => Sys2Proof.Machine.execIngotRead c s
  | .ingotClear c => Sys2Proof.Machine.execIngotClear c s
  | .contextResult c => Sys2Proof.Machine.execContextResult c s
  | .brakeStatus c => Sys2Proof.Machine.execBrakeStatus c s
  | .traceConfig c => Sys2Proof.Machine.execTraceConfig c s
  | .traceAuth c => Sys2Proof.Machine.execTraceAuth c s
  | .traceDeauth c => Sys2Proof.Machine.execTraceDeauth c s
  | .traceStatus c => Sys2Proof.Machine.execTraceStatus c s
  | .watchArm c => Sys2Proof.Machine.execWatchArm c s
  | .watchDisarm c => Sys2Proof.Machine.execWatchDisarm c s
  | .watchRate c => Sys2Proof.Machine.execWatchRate c s
  | .watchStatus c => Sys2Proof.Machine.execWatchStatus c s
  | .recorderRead c => Sys2Proof.Machine.execRecorderRead c s
  | .recorderStatus c => Sys2Proof.Machine.execRecorderStatus c s
  | .recorderClear c => Sys2Proof.Machine.execRecorderClear c s
  | .recorderNote c => Sys2Proof.Machine.execRecorderNote c s
  | .recorderConfig c => Sys2Proof.Machine.execRecorderConfig c s
  | .powerBudget c => Sys2Proof.Machine.execPowerBudget c s
  | .powerMember c => Sys2Proof.Machine.execPowerMember c s
  | .powerStatic c => Sys2Proof.Machine.execPowerStatic c s
  | .powerConfig c => Sys2Proof.Machine.execPowerConfig c s
  | .powerStatus c => Sys2Proof.Machine.execPowerStatus c s
  | .temperConfig c => Sys2Proof.Machine.execTemperConfig c s
  | .metroRead c => Sys2Proof.Machine.execMetroRead c s
  | .testConfig c => Sys2Proof.Machine.execTestConfig c s
  | .testGrant c => Sys2Proof.Machine.execTestGrant c s
  | .testDefer c => Sys2Proof.Machine.execTestDefer c s
  | .testDone c => Sys2Proof.Machine.execTestDone c s
  | .testClear c => Sys2Proof.Machine.execTestClear c s
  | .testStatus c => Sys2Proof.Machine.execTestStatus c s
  | .updateStage c => Sys2Proof.Machine.execUpdateStage c s
  | .updateChain c => Sys2Proof.Machine.execUpdateChain c s
  | .updateStart c => Sys2Proof.Machine.execUpdateStart c s
  | .updateConfirm c => Sys2Proof.Machine.execUpdateConfirm c s
  | .updateStatus c => Sys2Proof.Machine.execUpdateStatus c s
  | .dataFrameReceived ifc bytes abort route => Sys2Proof.Machine.execDataFrameReceived ifc bytes abort route s
  | .overflowFrameReceived ifc bytes abort route => Sys2Proof.Machine.execOverflowFrameReceived ifc bytes abort route s
  | .epochReceived r => Sys2Proof.Machine.execEpochReceived r s
  | .reconcileReceived r => Sys2Proof.Machine.execReconcileReceived r s
  | .lastGaspReceived r => Sys2Proof.Machine.execLastGaspReceived r s
  | .joinReceived ifc r => Sys2Proof.Machine.execJoinReceived ifc r s
  | .joinAnswerReceived r => Sys2Proof.Machine.execJoinAnswerReceived r s
  | .joinTimeout => Sys2Proof.Machine.execJoinTimeout s
  | .fabJoinRepeat => Sys2Proof.Machine.execFabJoinRepeat s
  | .stampPairsReceived r => Sys2Proof.Machine.execStampPairsReceived r s
  | .correctionReceived r => Sys2Proof.Machine.execCorrectionReceived r s
  | .featuresReceived r => Sys2Proof.Machine.execFeaturesReceived r s
  | .arrivalReceived r => Sys2Proof.Machine.execArrivalReceived r s
  | .batchReceived r => Sys2Proof.Machine.execBatchReceived r s
  | .expelVerdictReceived r => Sys2Proof.Machine.execExpelVerdictReceived r s
  | .healthyStepReceived r => Sys2Proof.Machine.execHealthyStepReceived r s
  | .replayReqReceived r => Sys2Proof.Machine.execReplayReqReceived r s
  | .replayDigestReceived r => Sys2Proof.Machine.execReplayDigestReceived r s
  | .refusedReceived r => Sys2Proof.Machine.execRefusedReceived r s
  | .jobReleaseReceived r => Sys2Proof.Machine.execJobReleaseReceived r s
  | .cutContribReceived r => Sys2Proof.Machine.execCutContribReceived r s
  | .broadcastReceived r => Sys2Proof.Machine.execBroadcastReceived r s
  | .broadcastAckReceived r => Sys2Proof.Machine.execBroadcastAckReceived r s
  | .ackTimerExpiry bid child => Sys2Proof.Machine.execAckTimerExpiry bid child s
  | .resendAckTimerExpiry bid target => Sys2Proof.Machine.execResendAckTimerExpiry bid target s
  | .imageChunkData r => Sys2Proof.Machine.execImageChunkData r s
  | .chunkWritten index => Sys2Proof.Machine.execChunkWritten index s
  | .imageChunkAck r => Sys2Proof.Machine.execImageChunkAck r s
  | .hoistRtoExpiry => Sys2Proof.Machine.execHoistRtoExpiry s
  | .hoistWaitExpiry => Sys2Proof.Machine.execHoistWaitExpiry s
  | .startReq r => Sys2Proof.Machine.execStartReq r s
  | .startGrant r => Sys2Proof.Machine.execStartGrant r s
  | .startDeny r => Sys2Proof.Machine.execStartDeny r s
  | .startDone r => Sys2Proof.Machine.execStartDone r s
  | .startReqTimeout => Sys2Proof.Machine.execStartReqTimeout s
  | .startGrantExpiry => Sys2Proof.Machine.execStartGrantExpiry s
  | .grantMessage m => Sys2Proof.Machine.execGrantMessage m s
  | .reportMessage link m => Sys2Proof.Machine.execReportMessage link m s
  | .plan link m w => Sys2Proof.Machine.execPlan link m w s
  | .planAck m => Sys2Proof.Machine.execPlanAck m s
  | .grantPeriodStart => Sys2Proof.Machine.execGrantPeriodStart s
  | .phase2Start => Sys2Proof.Machine.execPhase2Start s
  | .glToExpiry => Sys2Proof.Machine.execGlToExpiry s
  | .memberSilent link => Sys2Proof.Machine.execMemberSilent link s
  | .silentAccountRelease link => Sys2Proof.Machine.execSilentAccountRelease link s
  | .reportInterval => Sys2Proof.Machine.execReportInterval s
  | .grantRecBoundary => Sys2Proof.Machine.execGrantRecBoundary s
  | .planHoldRelease link w => Sys2Proof.Machine.execPlanHoldRelease link w s
  | .tmPeriodBoundary temp => Sys2Proof.Machine.execTmPeriodBoundary temp s
  | .temperMeasurementDone slack ros w => Sys2Proof.Machine.execTemperMeasurementDone slack ros w s
  | .sampleBoundary set drained => Sys2Proof.Machine.execSampleBoundary set drained s
  | .residWaitExpiry set => Sys2Proof.Machine.execResidWaitExpiry set s
  | .reconcilePeriod stream => Sys2Proof.Machine.execReconcilePeriod stream s
  | .epochRecordInterval stream => Sys2Proof.Machine.execEpochRecordInterval stream s
  | .frameSelection ifc late => Sys2Proof.Machine.execFrameSelection ifc late s
  | .fwdFrameStale ifc cls => Sys2Proof.Machine.execFwdFrameStale ifc cls s
  | .creditTimerExpiry ifc => Sys2Proof.Machine.execCreditTimerExpiry ifc s
  | .shaperRefill => Sys2Proof.Machine.execShaperRefill s
  | .sluiceRefill => Sys2Proof.Machine.execSluiceRefill s
  | .admissionRefill => Sys2Proof.Machine.execAdmissionRefill s
  | .teardownFlush => Sys2Proof.Machine.execTeardownFlush s
  | .correctionWindowEnd => Sys2Proof.Machine.execCorrectionWindowEnd s
  | .correctionPublish => Sys2Proof.Machine.execCorrectionPublish s
  | .solveDeadline => Sys2Proof.Machine.execSolveDeadline s
  | .cutWindowEnd fleet => Sys2Proof.Machine.execCutWindowEnd fleet s
  | .cutClose fleet => Sys2Proof.Machine.execCutClose fleet s
  | .quernEvalStart handle => Sys2Proof.Machine.execQuernEvalStart handle s
  | .quernEvalComplete handle => Sys2Proof.Machine.execQuernEvalComplete handle s
  | .eachWaitExpiry handle src => Sys2Proof.Machine.execEachWaitExpiry handle src s
  | .actAtReached millrace handle => Sys2Proof.Machine.execActAtReached millrace handle s
  | .modelLoadComplete millrace handle => Sys2Proof.Machine.execModelLoadComplete millrace handle s
  | .modelBroadcastWaitExpiry millrace handle => Sys2Proof.Machine.execModelBroadcastWaitExpiry millrace handle s
  | .millraceStepStart ch => Sys2Proof.Machine.execMillraceStepStart ch s
  | .millraceStepComplete ch => Sys2Proof.Machine.execMillraceStepComplete ch s
  | .rolloutComplete path tag => Sys2Proof.Machine.execRolloutComplete path tag s
  | .expelBucketRefill fleet => Sys2Proof.Machine.execExpelBucketRefill fleet s
  | .batchWaitExpiry job coll step => Sys2Proof.Machine.execBatchWaitExpiry job coll step s
  | .arrWaitExpiry job coll step => Sys2Proof.Machine.execArrWaitExpiry job coll step s
  | .silentToExpiry die => Sys2Proof.Machine.execSilentToExpiry die s
  | .disHoldExpiry die => Sys2Proof.Machine.execDisHoldExpiry die s
  | .snoopSettleExpiry step => Sys2Proof.Machine.execSnoopSettleExpiry step s
  | .replayToExpiry step => Sys2Proof.Machine.execReplayToExpiry step s
  | .heartbeatPeriodEnd => Sys2Proof.Machine.execHeartbeatPeriodEnd s
  | .bootToExpiry => Sys2Proof.Machine.execBootToExpiry s
  | .engConfToExpiry => Sys2Proof.Machine.execEngConfToExpiry s
  | .blockBeatPeriodEnd member => Sys2Proof.Machine.execBlockBeatPeriodEnd member s
  | .internalWatchPeriod ctlBeat engBeat => Sys2Proof.Machine.execInternalWatchPeriod ctlBeat engBeat s
  | .recovToExpiry => Sys2Proof.Machine.execRecovToExpiry s
  | .coldRung => Sys2Proof.Machine.execColdRung s
  | .reqToExpiry => Sys2Proof.Machine.execReqToExpiry s
  | .peerLinkDownTimeout ifc => Sys2Proof.Machine.execPeerLinkDownTimeout ifc s
  | .ingotCaptureEnd => Sys2Proof.Machine.execIngotCaptureEnd s
  | .ingotWriteDone => Sys2Proof.Machine.execIngotWriteDone s
  | .gpToExpiry => Sys2Proof.Machine.execGpToExpiry s
  | .trFlushExpiry cls => Sys2Proof.Machine.execTrFlushExpiry cls s
  | .syncPeriodBoundary => Sys2Proof.Machine.execSyncPeriodBoundary s
  | .authExpiry => Sys2Proof.Machine.execAuthExpiry s
  | .authLockoutEnd => Sys2Proof.Machine.execAuthLockoutEnd s
  | .tensorBucketRefill => Sys2Proof.Machine.execTensorBucketRefill s
  | .hallmarkFlashWriteDone => Sys2Proof.Machine.execHallmarkFlashWriteDone s
  | .rlBucketRefill code => Sys2Proof.Machine.execRlBucketRefill code s
  | .flashBucketRefill => Sys2Proof.Machine.execFlashBucketRefill s
  | .optTick => Sys2Proof.Machine.execOptTick s
  | .testDue core => Sys2Proof.Machine.execTestDue core s
  | .reaskExpiry => Sys2Proof.Machine.execReaskExpiry s
  | .testOverdue core => Sys2Proof.Machine.execTestOverdue core s
  | .winUsExpiry => Sys2Proof.Machine.execWinUsExpiry s
  | .selAckTimeout => Sys2Proof.Machine.execSelAckTimeout s
  | .scanSegmentEnd res => Sys2Proof.Machine.execScanSegmentEnd res s
  | .exitSequenceDone => Sys2Proof.Machine.execExitSequenceDone s
  | .stageComplete readBackOk => Sys2Proof.Machine.execStageComplete readBackOk s
  | .fwSelfConfirm => Sys2Proof.Machine.execFwSelfConfirm s
  | .fwHealthDeadline => Sys2Proof.Machine.execFwHealthDeadline s
  | .drainEnd => Sys2Proof.Machine.execDrainEnd s
  | .offFlashFlushDone => Sys2Proof.Machine.execOffFlashFlushDone s
  | .wakeDemand kind => Sys2Proof.Machine.execWakeDemand kind s
  | .wakeHoldExpiry => Sys2Proof.Machine.execWakeHoldExpiry s
  | .ctlIdleStop => Sys2Proof.Machine.execCtlIdleStop s
  | .crownPowered => Sys2Proof.Machine.execCrownPowered s
  | .scrubWord hit => Sys2Proof.Machine.execScrubWord hit s
  | .monitorWindowEnd counts => Sys2Proof.Machine.execMonitorWindowEnd counts s
  | .other1588Message => Sys2Proof.Machine.execOther1588Message s
  | .portClockStop port => Sys2Proof.Machine.execPortClockStop port s
  | .assayCalibrationWrite data => Sys2Proof.Machine.execAssayCalibrationWrite data s
  | .faultInjectionEnd fault => Sys2Proof.Machine.execFaultInjectionEnd fault s
  | .resetRequestRelease cold => Sys2Proof.Machine.execResetRequestRelease cold s
  | .portDomainRelease port initCred => Sys2Proof.Machine.execPortDomainRelease port initCred s

end Sys2Proof.Machine
end

