-- ==== Sys2Proof/Safety.lean ====
section
/-! DEFINITION. What claims about the block are stated in: which parts of it a step leaves alone, the invariant that every step keeps,
and the conditions under which a command packet is served and a record is used. -/

namespace Sys2Proof.Machine

/-- The parts of the state, one for each unit. -/
inductive Area where
  | sys | pow | time | coll | hop | hall | cmd | crown | model | verd | sentry | trace | brake | test | gov | temper | metro | assay
  | flash | conf | hoist | outs | pending
deriving DecidableEq, Repr

/-- Two states have one part in common. -/
def State.sameAt (s t : State) : Area → Prop
  | .sys => t.sys = s.sys
  | .pow => t.pow = s.pow
  | .time => t.time = s.time
  | .coll => t.coll = s.coll
  | .hop => t.hop = s.hop
  | .hall => t.hall = s.hall
  | .cmd => t.cmd = s.cmd
  | .crown => t.crown = s.crown
  | .model => t.model = s.model
  | .verd => t.verd = s.verd
  | .sentry => t.sentry = s.sentry
  | .trace => t.trace = s.trace
  | .brake => t.brake = s.brake
  | .test => t.test = s.test
  | .gov => t.gov = s.gov
  | .temper => t.temper = s.temper
  | .metro => t.metro = s.metro
  | .assay => t.assay = s.assay
  | .flash => t.flash = s.flash
  | .conf => t.conf = s.conf
  | .hoist => t.hoist = s.hoist
  | .outs => t.outs = s.outs
  | .pending => t.pending = s.pending

/-- Nothing outside the parts named differs between two states. -/
def Frame (ps : List Area) (s t : State) : Prop := ∀ p, ps.contains p = false → s.sameAt t p

/-- A command that gives a next state changes nothing outside the parts named. -/
def Touches (ps : List Area) (i : Instr) : Prop := ∀ s t, exec i s = .next t → Frame ps s t

/-! ### The invariant -/

/-- A counter table is canonical: indices strictly rising, and no entry that equals what an unlisted counter reads as. -/
def counterTableOk (t : List (Nat × Counter)) : Bool := tableWf t && t.all fun e => !(e.2.val == 0 && e.2.wraps == 0)

/-- Staging holds at most 64 records (R331), at most 64 codes have a bucket of their own (R334), and the flash log is canonical. -/
abbrev HallUnit.Ok (h : HallUnit) : Prop := h.ents.length ≤ 64 ∧ h.buckets.length ≤ 64 ∧ tableWf h.log = true

/-- At most 64 events wait in AO (R394), and at most 1,024 replies to fabric commands are kept (R406). -/
abbrev CmdUnit.Ok (c : CmdUnit) : Prop := c.events.length ≤ 64 ∧ c.store.length ≤ 1024

/-- The counter table is canonical; the staging areas of R457 hold at most 32 samples and 64 discrete records. -/
abbrev CollUnit.Ok (c : CollUnit) : Prop :=
  counterTableOk c.counters = true ∧ c.stageSamples.length ≤ 32 ∧ c.stageDisc.length ≤ 64

/-- The position of every outgoing stream counts the records it has emitted, modulo 2^24 (R104, R120). -/
abbrev HopUnit.Ok (h : HopUnit) : Prop := ∀ o ∈ h.out, o.pos = BitVec.ofNat 24 o.emit

/-- The AO side of Assay holds at most 4 readout frames (R368). -/
abbrev AssayAo.Ok (a : AssayAo) : Prop := a.frames.length ≤ 4

/-- The invariant that every step keeps. -/
abbrev State.Inv (s : State) : Prop := s.hall.Ok ∧ s.cmd.Ok ∧ s.coll.Ok ∧ s.hop.Ok ∧ s.assay.Ok

/-! ### Command packets -/

/-- A packet passes everything that does not depend on its opcode's own parameters and state: its path runs commands, the checks of
R397 that every command shares, ENG where the opcode needs it (R482), admission (R399), and room for one more command without its
final reply (R401). -/
abbrev Clean (o : OpSpec) (c : Cmd) (s : State) : Prop :=
  s.pathReady o.code c = true ∧ firstFail (baseChecks o c s) = none ∧ (o.served = true ∨ s.engUp = true)
    ∧ (o.admission = true → 0 < s.admitDue.hop.admission) ∧ s.acceptedNow < 64
    ∧ (fabPath c.path = true → (s.cmd.acc.filter fun a => fabPath a.path).length < 32)

/-- The packet brings no inline input (R405). -/
abbrev NoInput (c : Cmd) : Prop := inlinePath c.path = true → c.inl = []

/-- A command that fails one of the checks that every command shares is answered with the status of the first that fails, and has no
other effect (R397). -/
def RefusedFirst (o : Cmd → OpSpec) (mk : Cmd → Instr) : Prop :=
  ∀ c s k, s.pathReady (o c).code c = true → firstFail (baseChecks (o c) c s) = some k →
    exec (mk c) s = .next ((s.bump cCmdReceived).turnedAway (o c) c k.status k.detail)

/-! ### Records -/

/-- An arriving record is accepted into the books, straight from its source, and has been heard (R105, R247, R288): what is left is what
its unit does with it in state `t`. -/
abbrev Accepted (s : State) (r : Rec) (t : State) : Prop :=
  s.engUp = true ∧ (s.acceptRec r.src r).2 = true ∧ t = (s.acceptRec r.src r).1.heard (s.ifcTo r.src) r

end Sys2Proof.Machine
end

