-- ==== Sys2Proof/Certificates/Slice0/Obligations.lean ====
section
/-! DEFINITION. The statements for the provers: what the block is after reset, what each command does and leaves alone, and the
invariant that every step keeps. Each is a proposition over every state and every operand it names. -/

open Sys2Proof Sys2Proof.Machine

/-! ### Steps, time and the invariant -/

/-- A step on a state whose queue has a command in front is that command on the state with the queue's rest. -/
def Obligations.StepRunsFront : Prop :=
  ∀ c rest s, s.pending = c :: rest → step s = exec c { s with pending := rest }

/-- On an empty queue with AO out of reset one AO cycle passes, in which TB1 adds 419,430 units, 419,432 in the fifth cycle of a group,
and TB0 the same in its finer units with ADJ in the fifth (R39). That an empty queue passes a cycle is the model's choice
(log entry 4). -/
def Obligations.EmptyQueueTicks : Prop :=
  ∀ s, s.pending = [] → s.aoUp = true → ∃ t, step s = .next t ∧ t.pending = [] ∧
    (s.time.phase ≠ 4 → t.time.phase = s.time.phase + 1 ∧ t.time.tb1 = s.time.tb1 + 419430
      ∧ t.time.tb0 = s.time.tb0 + BitVec.ofNat 96 (419430 * 2 ^ 16) ∧ t.time.adj = s.time.adj) ∧
    (s.time.phase = 4 → t.time.phase = 0 ∧ t.time.tb1 = s.time.tb1 + 419432
      ∧ t.time.tb0 = s.time.tb0 + BitVec.ofNat 96 (419432 * 2 ^ 16) + BitVec.signExtend 96 s.time.adj
      ∧ t.time.adj = s.time.adjNext.getD s.time.adj)

/-- A group of five AO cycles on an empty queue is 32 ns of TB1, and 32 ns and ADJ of TB0 (R39; log entry 4 for the empty queue). -/
def Obligations.GroupOfFiveCycles : Prop :=
  ∀ s a b c d e, s.pending = [] → s.aoUp = true → s.time.phase = 0 → step s = .next a → step a = .next b → step b = .next c →
    step c = .next d → step d = .next e →
    e.time.phase = 0 ∧ e.time.tb1 = s.time.tb1 + 32 * 2 ^ 16
      ∧ e.time.tb0 = s.time.tb0 + BitVec.ofNat 96 (32 * 2 ^ 32) + BitVec.signExtend 96 s.time.adj

/-- Right after power-on AO is held in reset with every PORT domain, TB0, TB1 and TB2 are 0 in lock state FREE with no steps, no queue
pair is enabled and no interrupt, the admission bucket is full and the shapers, the flash log and the queue are empty. The values 0
of TB0 and TB1 are the model's where the spec gives none. -/
def Obligations.ResetValues : Prop :=
  State.reset.aoUp = false ∧ State.reset.ctlUp = false ∧ State.reset.engUp = false ∧ State.reset.time.tb0 = 0
    ∧ State.reset.time.tb1 = 0 ∧ State.reset.tb2Ns = 0 ∧ State.reset.time.lock = .free ∧ State.reset.time.steps = 0
    ∧ State.reset.cmd.loc.en = false ∧ State.reset.cmd.fab.en = false ∧ State.reset.cmd.intEnable = 0
    ∧ State.reset.hop.admission = 16 ∧ State.reset.hall.log = [] ∧ State.reset.pending = []

/-- The invariant holds after power-on: canonical counters and flash log, staging, events and replies within their sizes, every stream
position in step with its emitted count. -/
def Obligations.ResetMeetsInvariant : Prop := State.reset.Inv

/-- Every step keeps the invariant, whatever command is in front: counters and the flash log stay canonical, at most 64 staged records
(R331), 64 rate buckets (R334), 64 waiting events (R394), 1,024 kept replies (R406), 32 and 64 staged samples and inputs (R457), 4
readout frames (R368), and every stream position equals its emitted count modulo 2^24 (R104, R120). -/
def Obligations.StepKeepsInvariant : Prop := ∀ s t, s.Inv → step s = .next t → t.Inv

/-- No command changes the queue of the commands that wait: only the step takes one from its front. -/
def Obligations.CommandsLeaveQueue : Prop := ∀ c s t, exec c s = .next t → t.pending = s.pending

/-- A step on a queue with a command in front takes exactly that command from it, and never ends in a fault or a refusal: the model stops
on no command. -/
def Obligations.EveryStepGoesOn : Prop :=
  ∀ s, ∃ t, step s = .next t ∧ t.pending = s.pending.tail

/-- No command packet, whatever its opcode, parameters, data and path, changes Assay's METRO domain, its accumulators and calibration
(R364 to R368): what Assay measures is out of reach of the command protocol. -/
def Obligations.PacketsCannotReachMetro : Prop :=
  ∀ p b reads inl ok, ∀ s : State, (s.runPacket p b reads inl ok).metro = s.metro ∧ (s.runPacket p b reads inl ok).pending = s.pending

/-! ### Rules stated whole -/

/-- R142: the credit timer restarts at every credit return, runs for CRED_TO, from 1 to 1,000 ms with 100 ms after reset, while a credit
is outstanding; at its expiry every outstanding credit counts as returned, with a Hallmark NOTICE and the reclaimed count. Of each of
these forms it says that exec answers the next state given, for every state and operand that meet the conditions named: creditReturn,
creditTimerExpiry. -/
def Obligations.CreditTimer : Prop :=
  (∀ (i : Iface) n s, s.linkOk i.val = true →
    exec (.creditReturn i n) s = .next (s.modIfc i.val fun f =>
      { f with held := f.held + min n.toNat f.outstanding, outstanding := f.outstanding - min n.toNat f.outstanding,
               credStart := s.tb1Ns }))
  ∧ (∀ (i : Iface) s, s.linkOk i.val = true → 0 < (s.ifc i.val).outstanding →
    s.past1 ((s.ifc i.val).credStart + (s.ifc i.val).credTo * 1000000) = true →
    exec (.creditTimerExpiry i) s = .next ((s.modIfc i.val fun f =>
      { f with held := f.held + f.outstanding, outstanding := 0, reclaimed := satAdd 32 f.reclaimed f.outstanding }).stage 0x0402
        .notice (ifcArg i.val) (s.ifc i.val).outstanding))
  ∧ (∀ (i : Iface) s, ((s.ifc i.val).outstanding = 0 ∨
      s.past1 ((s.ifc i.val).credStart + (s.ifc i.val).credTo * 1000000) = false) →
    exec (.creditTimerExpiry i) s = .next s)
  ∧ (∀ c s k, s.pathReady opStreamLink.code c = true → firstFail (baseChecks opStreamLink c s) = none → NoInput c → cp c 0 1 ≤ 16 →
    (cp c 2 2 = 0 ∨ 1000 < cp c 2 2) → k = errDetail 0 0 2 →
    exec (.streamLink c) s = .next ((s.bump cCmdReceived).turnedAway opStreamLink c stRange k))
  ∧ ∀ r, ∀ f ∈ (hopReset r).ifcs, f.credTo = 100

/-- R147: a command of the registration or teardown kind that passes its checks takes one token of the admission bucket before its effect;
one that finds it empty is answered THROTTLED and has no effect; the bucket gains a token at each whole millisecond of TB1 that has
passed, holds at most 16 and is full after AO reset. Of each of these forms it says that exec answers the next state given, for every
state and operand that meet the conditions named: admissionRefill. -/
def Obligations.AdmissionBucket : Prop :=
  (∀ o ∈ [opTimeJob, opJobMembers, opJobEnd, opSentryWatch, opSentryPartners], o.admission = true ∧
    ∀ s : State, (s.begun o).hop.admission = s.admitDue.hop.admission - 1)
  ∧ (∀ c s, s.admitDue.hop.admission = 0 → s.pathReady opTimeJob.code c = true → firstFail (baseChecks opTimeJob c s) = none → s.engUp = true →
    NoInput c → exec (.timeJob c) s = .next ((s.bump cCmdReceived).turnedAway opTimeJob c stThrottled (errDetail 0 0 0xFF)))
  ∧ (∀ c s, s.admitDue.hop.admission = 0 → s.pathReady opJobEnd.code c = true → firstFail (baseChecks opJobEnd c s) = none → s.engUp = true →
    NoInput c → ((s.job (BitVec.ofNat 32 (cp c 0 4))).isSome = true ∨ s.sentry.job = some (BitVec.ofNat 32 (cp c 0 4))) →
    exec (.jobEnd c) s = .next ((s.bump cCmdReceived).turnedAway opJobEnd c stThrottled (errDetail 0 0 0xFF)))
  ∧ (∀ c s, s.admitDue.hop.admission = 0 → s.pathReady opSentryPartners.code c = true → firstFail (baseChecks opSentryPartners c s) = none →
    s.engUp = true → NoInput c → cp c 0 4 < 2 ^ 18 → cp c 4 4 < 2 ^ 18 →
    exec (.sentryPartners c) s = .next ((s.bump cCmdReceived).turnedAway opSentryPartners c stThrottled (errDetail 0 0 0xFF)))
  ∧ (∀ c s, s.admitDue.hop.admission = 0 → s.pathReady opSentryWatch.code c = true → firstFail (baseChecks opSentryWatch c s) = none →
    s.engUp = true → (ckData opSentryWatch c 0 (16 * cp c 4 1)).ok = true →
    (∀ i < cp c 4 1, watchOk (rd (cdata c 0) (16 * i) 16) = true) → BitVec.ofNat 64 (cp c 16 8) ≠ 0 → cp c 4 1 ≤ 64 →
    exec (.sentryWatch c) s = .next ((s.bump cCmdReceived).turnedAway opSentryWatch c stThrottled (errDetail 0 0 0xFF)))
  ∧ (∀ c s n old ms all, n = cp c 8 4 → ms = (List.range n).map (fun i => parseMember (cdata c 0) (16 * i)) →
    old = (match tget s.verd.jobs (cp c 0 4) with | some v => if cp c 12 1 = 1 then v.members else [] | none => []) →
    all = (old.filter fun m => !(ms.any fun x => x.addr == m.addr)) ++ ms → s.admitDue.hop.admission = 0 →
    s.pathReady opJobMembers.code c = true → firstFail (baseChecks opJobMembers c s) = none → s.engUp = true →
    (ckData opJobMembers c 0 (16 * n)).ok = true → cp c 4 4 < 2 ^ 18 → cp c 12 1 ≤ 1 →
    (∀ i < n, rd (cdata c 0) (16 * i) 4 < 2 ^ 18 ∧ rd (cdata c 0) (16 * i + 4) 1 ≤ 3 ∧ rd (cdata c 0) (16 * i + 5) 1 ≤ 1 ∧
      rd (cdata c 0) (16 * i + 6) 2 = 0) → ((tget s.verd.jobs (cp c 0 4)).isSome = true ∨ s.verd.jobs.length < 64) →
    ((s.verd.jobs.filter fun e => e.1 != cp c 0 4).map fun e => e.2.members.length).sum + all.length ≤ 131072 →
    exec (.jobMembers c) s = .next ((s.bump cCmdReceived).turnedAway opJobMembers c stThrottled (errDetail 0 0 0xFF)))
  ∧ (∀ s : State, s.admitDue = s.modHop fun u =>
      { u with admK := s.tb1Ns / 1000000, admission := min 16 (u.admission + (s.tb1Ns / 1000000 - u.admK)) })
  ∧ (∀ s, s.aoUp = true → exec .admissionRefill s = .next s.admitDue)
  ∧ (∀ s, s.tb1Ns / 1000000 = s.hop.admK → s.hop.admission ≤ 16 → exec .admissionRefill s = .next s)
  ∧ State.reset.hop.admission = 16 ∧ ∀ s t, exec .pgAoDeassert s = .next t → t.hop.admission = 16

/-- R415: a read of TS_TB0_LO of either width captures TB0, TB1, TB2 and the lock state and returns the captured value; the other snapshot
registers read the latest capture, whoever made it. Of each of these forms it says that exec answers the next state given, for every state
and operand that meet the conditions named: tsTb0LoRead. -/
def Obligations.SnapshotCapture : Prop :=
  (∀ s t wide, s.windowUp = true → exec (.tsTb0LoRead wide) s = .next t →
    t.cmd.snap.tb0 = BitVec.ofNat 64 s.tb0Ns ∧ t.cmd.snap.tb1 = BitVec.ofNat 64 s.tb1Ns
      ∧ t.cmd.snap.tb2 = BitVec.ofNat 64 s.tb0Ns - s.time.jobOrigin ∧ t.cmd.snap.lock = BitVec.ofNat 2 (lockCode s.time.lock)
      ∧ t.outs.head? = some (.readData (if wide then t.cmd.snap.tb0.toNat else t.cmd.snap.tb0.toNat % 2 ^ 32)))
  ∧ (∀ s wide, s.windowUp = true → ∃ t, exec (.tsTb0LoRead wide) s = .next t)
  ∧ (∀ s : State, s.windowUp = true → s.reg 0x0144 = s.cmd.snap.tb0.toNat / 2 ^ 32 ∧ s.reg 0x0148 = s.cmd.snap.tb1.toNat % 2 ^ 32
    ∧ s.reg 0x014C = s.cmd.snap.tb1.toNat / 2 ^ 32 ∧ s.reg 0x0150 = s.cmd.snap.tb2.toNat % 2 ^ 32
    ∧ s.reg 0x0154 = s.cmd.snap.tb2.toNat / 2 ^ 32 ∧ s.reg 0x0158 / 2 ^ 16 = s.cmd.snap.lock.toNat)

/-- R418: the command queue holds (CQ_TAIL - CQ_HEAD) mod n visible entries, at most n - 1; a write of CQ_TAIL of n or more, or while EN
is 0, is ignored and sets DBERR; any other write moves the tail. Of each of these forms it says that exec answers the next state given,
for every state and operand that meet the conditions named: cqTailWrite. -/
def Obligations.CommandQueuePointers : Prop :=
  (∀ p : QPair, p.cqHead.toNat < qSize p.cqLog2 →
    (p.visible : Int) = ((p.cqTail.toNat : Int) - (p.cqHead.toNat : Int)) % (qSize p.cqLog2 : Int) ∧ p.visible + 1 ≤ qSize p.cqLog2)
  ∧ (∀ fab v s p, s.windowUp = true → s.hasPair fab = true → p = s.pair fab →
    (p.en = true → v.toNat < qSize p.cqLog2 →
      exec (.cqTailWrite fab v) s = .next ((s.unlatch.modCmd fun u => { u with tailWas := u.tailWas ++ [(fab, p.cqTail)] }).modPair
        fab fun q => { q with cqTail := v }).ctlWake) ∧
    ((p.en = false ∨ qSize p.cqLog2 ≤ v.toNat) →
      exec (.cqTailWrite fab v) s = .next (s.unlatch.pairError fab 1 fun q => { q with dberr := true })))

/-- R419: the reply queue has n - 1 - (RQ_TAIL - RQ_HEAD) mod n free slots and a reply is written into no other; a write of RQ_HEAD of n
or more, or beyond the span from RQ_HEAD to RQ_TAIL, is ignored and sets DBERR; any other write moves the head. Of each of these forms it
says that exec answers the next state given, for every state and operand that meet the conditions named: rqHeadWrite. -/
def Obligations.ReplyQueuePointers : Prop :=
  (∀ p : QPair, p.rqHead.toNat < qSize p.rqLog2 →
    (p.freeSlots : Int) = (qSize p.rqLog2 : Int) - 1 - ((p.rqTail.toNat : Int) - (p.rqHead.toNat : Int)) % (qSize p.rqLog2 : Int))
  ∧ (∀ fab r tail (s : State), (s.pair fab).freeSlots = 0 → (s.putReply fab r tail).outs = s.outs ∧ (s.putReply fab r tail).pair fab = s.pair fab)
  ∧ (∀ fab l tail (s : State), (s.pair fab).freeSlots < l.length →
    (s.putEvent fab l tail).outs = s.outs ∧ (s.putEvent fab l tail).pair fab = s.pair fab)
  ∧ (∀ fab v s p n, s.windowUp = true → s.hasPair fab = true → p = s.pair fab → n = qSize p.rqLog2 →
    (v.toNat < n → (v.toNat + n - p.rqHead.toNat) % n ≤ (p.rqTail.toNat + n - p.rqHead.toNat) % n →
      exec (.rqHeadWrite fab v) s = .next ((s.unlatch.modPair fab fun q => { q with rqHead := v }).drainSlots fab 4096)) ∧
    ((n ≤ v.toNat ∨ (p.rqTail.toNat + n - p.rqHead.toNat) % n < (v.toNat + n - p.rqHead.toNat) % n) →
      exec (.rqHeadWrite fab v) s = .next (s.unlatch.pairError fab 1 fun q => { q with dberr := true })))

/-! ### Commands of the SYS group (Table 16.7) -/

/-- The commands of the SYS group that pass every check have their effect and are answered: IDENTIFY and STATUS read, ADDRESS and PHASE
write the identity, PSTATE sets the target, DOMAIN.RESET is noted, SERVICE.RESTORE ends OUT_OF_SERVICE, TRAY.DESIGNATE names a master or
an acting one, INJECT adds a fault (R9, R21, R26, R291, R387 to R397, R451, R459). Of each of these forms it says that exec answers the
next state given, for every state and operand that meet the conditions named: sysIdentify, sysStatus, sysAddress, sysPhase, sysPstate,
domainReset, serviceRestore, trayDesignate, sysInject. -/
def Obligations.SystemCommandsRun : Prop :=
  (∀ c s, Clean opSysIdentify c s → NoInput c →
    exec (.sysIdentify c) s = .next ((s.begun opSysIdentify).answered opSysIdentify c 0
      (be 4 Config.physId.toNat ++ be 4 s.sys.laddr.toNat ++ be 1 s.rolePh ++ be 1 0xB1 ++ zeros 2 ++ be 4 s.sys.fwver.toNat) []))
  ∧ (∀ c s, Clean opSysStatus c s → NoInput c →
    exec (.sysStatus c) s = .next ((s.begun opSysStatus).answered opSysStatus c 0
      (be 1 (pstateCode s.pow.pstate) ++ be 1 (lockCode s.time.lock) ++ be 2 (s.begun opSysStatus).sflags ++ be 4 s.cfgVer
        ++ be 4 s.cmd.evlost ++ be 2 s.acceptedNow) []))
  ∧ (∀ c s, Clean opSysAddress c s → NoInput c → cp c 0 4 < 2 ^ 18 → s.named = false →
    exec (.sysAddress c) s = .next ((((s.begun opSysAddress).modSys fun u =>
      { u with laddr := BitVec.ofNat 18 (cp c 0 4), laddrValid := true }).epochEverywhere).answered opSysAddress c 0 [] []))
  ∧ (∀ c s, Clean opSysPhase c s → NoInput c → cp c 0 1 ≤ 3 →
    exec (.sysPhase c) s = .next (((s.begun opSysPhase).modSys fun u =>
      { u with phaseRole := BitVec.ofNat 2 (cp c 0 1) }).answered opSysPhase c 0 [] []))
  ∧ (∀ c s, Clean opSysPstate c s → NoInput c → cp c 0 1 ≤ 3 → s.pstateForbidden (pstateOf (cp c 0 1)) = false →
    exec (.sysPstate c) s = .next (
      if pstateOf (cp c 0 1) = s.pow.pstate ∧ s.pow.entry.isNone then
        ((s.begun opSysPstate).targetTo (pstateOf (cp c 0 1))).answered opSysPstate c 0 (be 1 (cp c 0 1)) []
      else ((s.begun opSysPstate).takenOn opSysPstate c (cp c 0 1) none).targetTo (pstateOf (cp c 0 1))))
  ∧ (∀ c s, Clean opDomainReset c s → NoInput c → s.hangHold = false → cp c 0 1 < 16 → cp c 8 8 < 2 ^ 15 → bit (cp c 0 1) 0 = false →
    exec (.domainReset c) s = .next (((s.begun opDomainReset).modPow fun u =>
      { u with pend := some (BitVec.ofNat 8 (cp c 0 1), BitVec.ofNat 64 (cp c 8 8), s.tb1Ns) }).answered opDomainReset c 0 [] []))
  ∧ (∀ c s, Clean opServiceRestore c s → NoInput c → s.sys.oos = true →
    exec (.serviceRestore c) s = .next (((((s.begun opServiceRestore).modSys fun u => { u with oos := false }).modBrake fun b =>
      { b with reqCold := none, esc := [] }).ownNotice 5 0xFF 0 0xFF 0xFF 0 0 0).answered opServiceRestore c 0 [] []))
  ∧ (∀ c s, cp c 4 1 = 0 → Clean (opTrayDesignate 0) c s → (ckData (opTrayDesignate 0) c 0 0).ok = true → cp c 0 4 < 2 ^ 18 →
    exec (.trayDesignate c) s = .next (((s.begun (opTrayDesignate 0)).designated (BitVec.ofNat 18 (cp c 0 4))).answered
      (opTrayDesignate 0) c 0 [] []))
  ∧ (∀ c s, cp c 4 1 = 1 → Clean (opTrayDesignate 1) c s → (ckData (opTrayDesignate 1) c 0 (4 * cp c 5 1)).ok = true →
    cp c 0 4 < 2 ^ 18 → 1 ≤ cp c 5 1 → cp c 5 1 ≤ 16 → (∀ i < cp c 5 1, rd (cdata c 0) (4 * i) 4 < 2 ^ 18) →
    (s.modSys fun u => { u with acting := true, actMembers := parseAddrs (cp c 5 1) (cdata c 0) }).ratesOk = true →
    exec (.trayDesignate c) s = .next (
      if s.sys.acting then
        (((s.begun (opTrayDesignate 1)).floorReset.modSys fun u =>
          { u with actMembers := parseAddrs (cp c 5 1) (cdata c 0) }).modCrown fun u => { u with lastCut := none }).answered
            (opTrayDesignate 1) c 0 [] []
      else
        (((s.begun (opTrayDesignate 1)).floorReset.modSys fun u =>
          { u with crownWait := some (parseAddrs (cp c 5 1) (cdata c 0)) }).keepAcc (opTrayDesignate 1) c 0 none).restoreNext
            c.path))
  ∧ (∀ c s, Clean (opSysInject (cp c 4 1)) c s → NoInput c → cp c 4 1 ≤ 3 → (cp c 4 1 = 1 → cp c 5 1 ≤ 3) →
    (cp c 4 1 = 2 → cp c 5 1 ≤ 16) → s.drillCovers (cp c 0 4) s.tb0Ns (s.tb0Ns + cp c 8 4 * 1000) = true →
    ∃ t : State, exec (.sysInject c) s = .next (t.answered (opSysInject (cp c 4 1)) c 0 [] []) ∧
      t.sys.injects = s.sys.injects ++
        [{ drill := BitVec.ofNat 32 (cp c 0 4), fault := cp c 4 1, arg := cp c 5 1, until1 := s.tb1Ns + cp c 8 4 * 1000,
           left := cp c 5 1 }])

/-! ### Commands of the TIME group (Table 16.8) -/

/-- The commands of the TIME group that pass every check: CONFIG replaces the time configuration, JOB sets the origin of TB2 (R40), ASYM
and CAL hold their corrections, STATUS reads (R49, R50, R387 to R397, R483). Of each of these forms it says that exec answers the next
state given, for every state and operand that meet the conditions named: timeConfig, timeJob, timeAsym, timeCal, timeStatus. -/
def Obligations.TimeCommandsRun : Prop :=
  (∀ c s, Clean opTimeConfig c s → NoInput c → cp c 28 4 < 2 ^ 18 → cp c 0 1 ≤ 127 →
    (BitVec.ofNat 8 (cp c 1 1) = 0x7F ∨ (-7 ≤ (BitVec.ofNat 8 (cp c 1 1)).toInt ∧ (BitVec.ofNat 8 (cp c 1 1)).toInt ≤ 0)) →
    1 ≤ cp c 22 1 → cp c 22 1 ≤ 64 → 1 ≤ cp c 23 1 → cp c 23 1 ≤ 100 → 1 ≤ cp c 24 2 → cp c 24 2 ≤ 1000 →
    banksFit { s.bankNeed false with wc := cp c 23 1 * 1000000 } { s.bankNeed true with wc := cp c 23 1 * 1000000 } = true →
    exec (.timeConfig c) s = .next (((s.begun opTimeConfig).modTime fun u =>
      { u with wcNext := some (cp c 23 1, gridAt s.wcNs s.tb0Ns + s.wcNs), cfg :=
      { domain := BitVec.ofNat 8 (cp c 0 1), drq := BitVec.ofNat 8 (cp c 1 1), clkId := BitVec.ofNat 64 (cp c 4 8),
        origin := BitVec.ofNat 80 (cp c 12 10), tol := cp c 22 1, wcMs := s.wcNs / 1000000, pairIv := cp c 24 2,
        troot := some (BitVec.ofNat 18 (cp c 28 4)) } }).answered opTimeConfig c 0 [] []))
  ∧ (∀ c s, Clean opTimeJob c s → NoInput c →
    exec (.timeJob c) s = .next (((s.begun opTimeJob).modTime fun u =>
      { u with jobOrigin := BitVec.ofNat 64 (cp c 0 8) }).answered opTimeJob c 0 [] []))
  ∧ (∀ c s, Clean opTimeAsym c s → NoInput c → cp c 0 4 < 2 ^ 18 → cp c 4 4 < 2 ^ 18 → cp c 8 1 < 64 →
    exec (.timeAsym c) s = .next (((s.begun opTimeAsym).modTime fun u =>
      { u with asym := tput u.asym ((cp c 0 4 * 64 + cp c 8 1) * 2 ^ 18 + cp c 4 4) (signed 16 (cp c 10 2)) }).answered
        opTimeAsym c 0 [] []))
  ∧ (∀ c s, Clean opTimeCal c s → NoInput c → cp c 0 1 < 64 →
    exec (.timeCal c) s = .next (((s.begun opTimeCal).modPort (cp c 0 1) fun p =>
      { p with egress := BitVec.ofNat 16 (cp c 2 2), ingress := BitVec.ofNat 16 (cp c 4 2) }).answered opTimeCal c 0 [] []))
  ∧ (∀ c s, Clean opTimeStatus c s → NoInput c →
    exec (.timeStatus c) s = .next ((s.begun opTimeStatus).answered opTimeStatus c 0
      (be 1 (lockCode s.time.lock) ++ zeros 1 ++ be 2 s.time.steps.toNat ++ be 4 s.time.adj.toNat ++ be 8 (s.begun opTimeStatus).lastCorr)
      []))

/-- A command packet that fails one of the checks every command shares, OPCODE's issuers and roles, the packet and its reserved bytes, is
answered with the status of the first that fails and has no other effect: every row of Tables 16.7 to 16.21 but DOMAIN.RESET, which AO
serves under the hold of R294, and the two commands that may go on with a stage in progress, which have theirs below (R397). -/
def Obligations.RejectedCommandsHaveNoEffect : Prop :=
  RefusedFirst (fun _ => opSysIdentify) .sysIdentify
  ∧ RefusedFirst (fun _ => opSysStatus) .sysStatus
  ∧ RefusedFirst (fun _ => opSysAddress) .sysAddress
  ∧ RefusedFirst (fun _ => opSysPhase) .sysPhase
  ∧ RefusedFirst (fun _ => opSysPstate) .sysPstate
  ∧ RefusedFirst (fun _ => opServiceRestore) .serviceRestore
  ∧ RefusedFirst (fun c => opTrayDesignate (cp c 4 1)) .trayDesignate
  ∧ RefusedFirst (fun c => opSysInject (cp c 4 1)) .sysInject
  ∧ RefusedFirst (fun _ => opTimeConfig) .timeConfig
  ∧ RefusedFirst (fun _ => opTimeJob) .timeJob
  ∧ RefusedFirst (fun _ => opTimeAsym) .timeAsym
  ∧ RefusedFirst (fun _ => opTimeCal) .timeCal
  ∧ RefusedFirst (fun _ => opTimeStatus) .timeStatus
  ∧ RefusedFirst (fun _ => opCollectCounter) .collectCounter
  ∧ RefusedFirst (fun c => opCollectSet (cp c 0 1)) .collectSet
  ∧ RefusedFirst (fun _ => opCollectArm) .collectArm
  ∧ RefusedFirst (fun _ => opCollectMap) .collectMap
  ∧ RefusedFirst (fun _ => opCollectRead) .collectRead
  ∧ RefusedFirst (fun _ => opDiscConfig) .discConfig
  ∧ RefusedFirst (fun c => opCollectStatus (cp c 0 1)) .collectStatus
  ∧ RefusedFirst (fun _ => opStreamConfig) .streamConfig
  ∧ RefusedFirst (fun _ => opStreamShaper) .streamShaper
  ∧ RefusedFirst (fun _ => opStreamGate) .streamGate
  ∧ RefusedFirst (fun _ => opStreamLink) .streamLink
  ∧ RefusedFirst (fun _ => opStreamStatus) .streamStatus
  ∧ RefusedFirst (fun c => opReduceDefine (cp c 2 1)) .reduceDefine
  ∧ RefusedFirst (fun _ => opReduceDelete) .reduceDelete
  ∧ RefusedFirst (fun _ => opCutConfig) .cutConfig
  ∧ RefusedFirst (fun _ => opCutRead) .cutRead
  ∧ RefusedFirst (fun _ => opCutRegister) .cutRegister
  ∧ RefusedFirst (fun _ => opCutRelease) .cutRelease
  ∧ RefusedFirst (fun _ => opTreeInstall) .treeInstall
  ∧ RefusedFirst (fun _ => opBcastSend) .bcastSend
  ∧ RefusedFirst (fun _ => opMapConfig) .mapConfig
  ∧ RefusedFirst (fun _ => opReduceStatus) .reduceStatus
  ∧ RefusedFirst (fun _ => opModelLoad) .modelLoad
  ∧ RefusedFirst (fun _ => opModelActivate) .modelActivate
  ∧ RefusedFirst (fun _ => opModelDeactivate) .modelDeactivate
  ∧ RefusedFirst (fun _ => opModelUnload) .modelUnload
  ∧ RefusedFirst (fun _ => opModelStatus) .modelStatus
  ∧ RefusedFirst (fun _ => opChannelOpen) .channelOpen
  ∧ RefusedFirst (fun _ => opChannelClose) .channelClose
  ∧ RefusedFirst (fun _ => opChannelReset) .channelReset
  ∧ RefusedFirst (fun _ => opChannelForecast) .channelForecast
  ∧ RefusedFirst (fun _ => opModelParam) .modelParam
  ∧ RefusedFirst (fun _ => opScoreSet) .scoreSet
  ∧ RefusedFirst (fun _ => opScoreClear) .scoreClear
  ∧ RefusedFirst (fun _ => opVerdictWithdraw) .verdictWithdraw
  ∧ RefusedFirst (fun _ => opVerdictConfig) .verdictConfig
  ∧ RefusedFirst (fun _ => opVerdictBudget) .verdictBudget
  ∧ RefusedFirst (fun _ => opVerdictDrill) .verdictDrill
  ∧ RefusedFirst (fun _ => opJobMembers) .jobMembers
  ∧ RefusedFirst (fun _ => opJobEnd) .jobEnd
  ∧ RefusedFirst (fun _ => opVerdictParam) .verdictParam
  ∧ RefusedFirst (fun _ => opVerdictStatus) .verdictStatus
  ∧ RefusedFirst (fun _ => opSentryWatch) .sentryWatch
  ∧ RefusedFirst (fun _ => opSentryPartners) .sentryPartners
  ∧ RefusedFirst (fun _ => opSentryGoal) .sentryGoal
  ∧ RefusedFirst (fun _ => opSentryRollback) .sentryRollback
  ∧ RefusedFirst (fun _ => opSentryRelease) .sentryRelease
  ∧ RefusedFirst (fun _ => opSentryStatus) .sentryStatus
  ∧ RefusedFirst (fun _ => opSentryParam) .sentryParam
  ∧ RefusedFirst (fun _ => opHeartbeatConfig) .heartbeatConfig
  ∧ RefusedFirst (fun _ => opIngotConfig) .ingotConfig
  ∧ RefusedFirst (fun _ => opIngotTake) .ingotTake
  ∧ RefusedFirst (fun _ => opIngotRead) .ingotRead
  ∧ RefusedFirst (fun _ => opIngotClear) .ingotClear
  ∧ RefusedFirst (fun _ => opContextResult) .contextResult
  ∧ RefusedFirst (fun _ => opBrakeStatus) .brakeStatus
  ∧ RefusedFirst (fun _ => opTraceConfig) .traceConfig
  ∧ RefusedFirst (fun _ => opTraceAuth) .traceAuth
  ∧ RefusedFirst (fun _ => opTraceDeauth) .traceDeauth
  ∧ RefusedFirst (fun _ => opTraceStatus) .traceStatus
  ∧ RefusedFirst (fun _ => opWatchArm) .watchArm
  ∧ RefusedFirst (fun _ => opWatchDisarm) .watchDisarm
  ∧ RefusedFirst (fun _ => opWatchRate) .watchRate
  ∧ RefusedFirst (fun _ => opWatchStatus) .watchStatus
  ∧ RefusedFirst (fun _ => opRecorderRead) .recorderRead
  ∧ RefusedFirst (fun _ => opRecorderStatus) .recorderStatus
  ∧ RefusedFirst (fun _ => opRecorderClear) .recorderClear
  ∧ RefusedFirst (fun _ => opRecorderNote) .recorderNote
  ∧ RefusedFirst (fun _ => opRecorderConfig) .recorderConfig
  ∧ RefusedFirst (fun _ => opPowerBudget) .powerBudget
  ∧ RefusedFirst (fun _ => opPowerMember) .powerMember
  ∧ RefusedFirst (fun _ => opPowerStatic) .powerStatic
  ∧ RefusedFirst (fun _ => opPowerConfig) .powerConfig
  ∧ RefusedFirst (fun _ => opPowerStatus) .powerStatus
  ∧ RefusedFirst (fun _ => opTemperConfig) .temperConfig
  ∧ RefusedFirst (fun _ => opMetroRead) .metroRead
  ∧ RefusedFirst (fun _ => opTestConfig) .testConfig
  ∧ RefusedFirst (fun _ => opTestGrant) .testGrant
  ∧ RefusedFirst (fun _ => opTestDefer) .testDefer
  ∧ RefusedFirst (fun _ => opTestDone) .testDone
  ∧ RefusedFirst (fun _ => opTestClear) .testClear
  ∧ RefusedFirst (fun _ => opTestStatus) .testStatus
  ∧ RefusedFirst (fun _ => opUpdateStart) .updateStart
  ∧ RefusedFirst (fun _ => opUpdateConfirm) .updateConfirm
  ∧ RefusedFirst (fun _ => opUpdateStatus) .updateStatus
  ∧ (∀ c s k, s.hangHold = false → s.pathReady opDomainReset.code c = true → firstFail (baseChecks opDomainReset c s) = some k →
    exec (.domainReset c) s = .next ((s.bump cCmdReceived).turnedAway opDomainReset c k.status k.detail))
  ∧ (∀ c s k, s.hoist.stage = none → s.pathReady opUpdateStage.code c = true → firstFail (baseChecks opUpdateStage c s) = some k →
    exec (.updateStage c) s = .next ((s.bump cCmdReceived).turnedAway opUpdateStage c k.status k.detail))
  ∧ (∀ c s k, s.hoist.stage = none → s.pathReady opUpdateChain.code c = true → firstFail (baseChecks opUpdateChain c s) = some k →
    exec (.updateChain c) s = .next ((s.bump cCmdReceived).turnedAway opUpdateChain c k.status k.detail))

/-! ### Commands of the COLLECT and DISC groups (Table 16.9) -/

/-- The commands of the COLLECT and DISC groups that pass every check: COUNTER writes the configuration words, SET and MAP take effect at
the next boundary, ARM restarts the windows with the TAG of the command, READ captures its values in one cycle, STATUS reads, DISC.CONFIG
waits for the next chatter window with a new STUCK_TO at once (R83, R88, R90, R93, R97, R387 to R397, R491). Of each of these forms it
says that exec answers the next state given, for every state and operand that meet the conditions named: collectCounter, collectSet,
collectArm, collectMap, collectRead, collectStatus, discConfig. -/
def Obligations.CollectCommandsRun : Prop :=
  (∀ c s, Clean opCollectCounter c s → (ckData opCollectCounter c 0 (4 * cp c 2 2)).ok = true → 256 ≤ cp c 0 2 →
    cp c 0 2 + cp c 2 2 ≤ 16384 → (∀ i < cp c 2 2, counterWordOk (rd (cdata c 0) (4 * i) 4) = true) →
    ∃ cfg : List (Nat × Word), exec (.collectCounter c) s =
        .next (((s.begun opCollectCounter).modColl fun u => { u with cfg := cfg }).answered opCollectCounter c 0 [] []) ∧
      (∀ i < cp c 2 2, tget cfg (cp c 0 2 + i) = some (BitVec.ofNat 32 (rd (cdata c 0) (4 * i) 4)))
      ∧ ∀ k, (k < cp c 0 2 ∨ cp c 0 2 + cp c 2 2 ≤ k) → tget cfg k = tget (s.begun opCollectCounter).coll.cfg k)
  ∧ (∀ c s, Clean (opCollectSet (cp c 0 1)) c s → NoInput c → cp c 0 1 < 16 →
    (cp c 0 1 = 0 → cp c 8 8 = 0 ∧ cp c 4 4 % 10 = 0 ∧ 10 ≤ cp c 4 4) →
    (cp c 0 1 ≠ 0 → bit (cp c 8 8) 0 = false ∧ cp c 8 8 &&& s.otherBanks (cp c 0 1) = 0 ∧ cp c 4 4 % 100 = 0 ∧ 100 ≤ cp c 4 4) →
    cp c 4 4 ≤ 10000000 →
    ∀ f : SampleSet → SampleSet, f = (fun x =>
      { x with winNext := some (cp c 4 4 * 1000),
               banksNext := if cp c 0 1 ≠ 0 ∧ (BitVec.ofNat 64 (cp c 8 8) ≠ x.banks ∨ x.banksNext.isSome)
                 then some (BitVec.ofNat 64 (cp c 8 8)) else none }) → (s.modSet (cp c 0 1) f).ratesOk = true →
    exec (.collectSet c) s = .next (((s.begun (opCollectSet (cp c 0 1))).modSet (cp c 0 1) f).answered
      (opCollectSet (cp c 0 1)) c 0 [] []))
  ∧ (∀ c s i x u, Clean opCollectArm c s → NoInput c → i = cp c 0 1 → 1 ≤ i → i < 16 → x = s.set i → u = s.begun opCollectArm →
    exec (.collectArm c) s = .next (((
      if x.running && !x.baseline && x.banksNext.isNone then
        (u.emitSample i s.tb0Ns (s.armWindows i) true).afterSample i (s.armWindows i) x.winStart x true
      else if x.baseline && decide (0 < s.unsampled i) then
        u.sendSample s.tb0Ns 0 (asleepBody i x.tag (s.unsampled i) x.winStart)
      else u).armReset i c.tag).answered opCollectArm c 0 [] []))
  ∧ (∀ c s, Clean opCollectMap c s → (ckData opCollectMap c 0 (16 * cp c 2 2)).ok = true → cp c 0 1 < 16 → cp c 2 2 ≤ 1024 →
    (∀ k < cp c 2 2, descOk (cp c 0 1) ((s.set (cp c 0 1)).banksNext.getD (s.set (cp c 0 1)).banks)
      (BitVec.ofNat 128 (rd (cdata c 0) (16 * k) 16)) = true) → s.otherMaps (cp c 0 1) + cp c 2 2 ≤ 4096 →
    exec (.collectMap c) s = .next (((s.begun opCollectMap).modSet (cp c 0 1) fun x =>
      { x with mapNext := some (s.tb0Ns, (List.range (cp c 2 2)).map fun k => BitVec.ofNat 128 (rd (cdata c 0) (16 * k) 16)) }).answered
        opCollectMap c 0 [] []))
  ∧ (∀ c s, Clean opCollectRead c s → NoInput c → (ckWrite opCollectRead c 0).ok = true → cp c 0 2 + cp c 2 2 ≤ 16384 →
    exec (.collectRead c) s = .next ((s.begun opCollectRead).takenOn opCollectRead c (cp c 0 2) (some
      { status := stOk, detail := 0, result := be 8 s.tb0Ns,
        out := ((List.range (cp c 2 2)).map fun i =>
          be 8 (getCounter (s.begun opCollectRead).coll.counters (cp c 0 2 + i)).val.toNat).flatten })))
  ∧ (∀ c s, Clean (opCollectStatus (cp c 0 1)) c s → NoInput c → cp c 0 1 < 16 →
    exec (.collectStatus c) s = .next ((s.begun (opCollectStatus (cp c 0 1))).answered (opCollectStatus (cp c 0 1)) c 0
      (be 4 ((s.set (cp c 0 1)).win / 1000) ++ be 4 (s.set (cp c 0 1)).nlate ++ be 8 (s.set (cp c 0 1)).lastStamp) []))
  ∧ (∀ c s, Clean opDiscConfig c s → NoInput c → cp c 0 1 < 32 → cp c 1 1 ≤ 1 → 1 ≤ cp c 2 2 → cp c 2 2 ≤ 1000 → 1 ≤ cp c 4 2 →
    cp c 4 2 ≤ 4095 → cp c 6 2 ≤ cp c 4 2 → cp c 8 4 ≤ 3600000 →
    exec (.discConfig c) s = .next (((s.begun opDiscConfig).modDisc (cp c 0 1) fun x =>
      { x with cfgNext := some { pol := cp c 1 1 == 1, winMs := cp c 2 2, chatMax := cp c 4 2, chatExit := cp c 6 2,
                                 stuckMs := cp c 8 4 },
               cfg := { x.cfg with stuckMs := cp c 8 4 } }).answered opDiscConfig c 0 [] []))

/-! ### Commands of the STREAM group (Table 16.10) -/

/-- The commands of the STREAM group that pass every check: CONFIG sets quota, ratio, polynomial and reconciliation period, SHAPER and
GATE leave a word and a schedule that wait for the next selection and the next gate cycle, LINK sets the credit timer, STATUS reads (R107,
R110, R121, R133, R136, R138, R142, R387 to R397). Of each of these forms it says that exec answers the next state given, for every state
and operand that meet the conditions named: streamConfig, streamShaper, streamGate, streamLink, streamStatus. -/
def Obligations.StreamCommandsRun : Prop :=
  (∀ c s, Clean opStreamConfig c s → NoInput c → cp c 0 1 < 8 → cp c 1 1 ≤ 1 → cp c 2 1 ≤ 3 → 128 ≤ cp c 4 4 → cp c 4 4 ≤ 245760 →
    cp c 4 4 % 64 = 0 → 1 ≤ cp c 8 2 → cp c 8 2 ≤ 1000 → s.otherQuotas (cp c 0 1) + cp c 4 4 ≤ 245760 →
    exec (.streamConfig c) s = .next (((s.begun opStreamConfig).modCfg (cp c 0 1) fun g =>
      { g with quota := cp c 4 4, ratio := cp c 1 1 == 1, poly := BitVec.ofNat 2 (cp c 2 1), reconNext := some (cp c 8 2) }).answered
        opStreamConfig c 0 [] []))
  ∧ (∀ c s, Clean opStreamShaper c s → NoInput c → cp c 0 1 ≤ 16 → cp c 1 1 < 4 → bits (cp c 8 8) 61 58 = 0 →
    1 ≤ bits (cp c 8 8) 57 40 → bits (cp c 8 8) 57 40 ≤ s.rateMax (cp c 0 1) (cp c 1 1) → 16384 ≤ bits (cp c 8 8) 39 16 →
    bits (cp c 8 8) 39 16 ≤ 8388608 → bits (cp c 8 8) 15 8 ≠ 0 → bits (cp c 8 8) 7 0 ≠ 0 →
    exec (.streamShaper c) s = .next (((s.begun opStreamShaper).modClass (cp c 0 1) (cp c 1 1) fun x =>
      { x with next := some (BitVec.ofNat 64 (cp c 8 8)) }).answered opStreamShaper c 0 [] []))
  ∧ (∀ c s es, Clean opStreamGate c s → (ckData opStreamGate c 0 (8 * cp c 1 1)).ok = true →
    es = (List.range (cp c 1 1)).map (fun j => BitVec.ofNat 64 (rd (cdata c 0) (8 * j) 8)) → cp c 0 1 ≤ 16 → cp c 1 1 ≤ 8 →
    10000 ≤ cp c 4 4 * 100 → cp c 4 4 * 100 ≤ 1000000000 → (∀ e ∈ es, gateRsvdOk e.toNat = true) →
    gatesOverlap (es.filter gateValid) = false →
    (∀ e ∈ es, gateValid e = true → gateStart e + gateLen e ≤ cp c 4 4 * 100) →
    (∀ k < 4, gatesLong (es.filter gateValid) (cp c 4 4 * 100) (flitPs (cp c 0 1)) k = true) →
    exec (.streamGate c) s = .next ((((s.begun opStreamGate).gateRoll (cp c 0 1)).modIfc (cp c 0 1) fun f =>
      { f with gateNext := some (cp c 4 4 * 100, es), gateLast := s.tb0Ns / f.gateCyc }).answered opStreamGate c 0 [] []))
  ∧ (∀ c s, Clean opStreamLink c s → NoInput c → cp c 0 1 ≤ 16 → 1 ≤ cp c 2 2 → cp c 2 2 ≤ 1000 →
    exec (.streamLink c) s = .next (((s.begun opStreamLink).modIfc (cp c 0 1) fun f => { f with credTo := cp c 2 2 }).answered
      opStreamLink c 0 [] []))
  ∧ (∀ c s, Clean opStreamStatus c s → NoInput c → cp c 0 1 ≤ 16 → cp c 1 1 < 4 →
    exec (.streamStatus c) s = .next ((s.begun opStreamStatus).answered opStreamStatus c 0
      (be 4 ((s.ifc (cp c 0 1)).classQ (cp c 1 1)).tokens ++ be 4 (s.framesQueued (cp c 0 1) (cp c 1 1))
        ++ be 4 (s.ifc (cp c 0 1)).overrun ++ be 4 (s.ifc (cp c 0 1)).reclaimed) []))

/-! ### Commands of the REDUCE, CUT, TREE, BCAST and MAP groups (Table 16.11) -/

/-- The reduction and cut commands that pass every check: DEFINE, DELETE and the period of CUT.CONFIG wait for a cut boundary, READ
delivers the published cut, REGISTER and RELEASE manage the two halves of a reader, STATUS reads (R151, R153 to R163, R167, R168). Of each
of these forms it says that exec answers the next state given, for every state and operand that meet the conditions named: reduceDefine,
reduceDelete, cutConfig, cutRead, cutRegister, cutRelease, reduceStatus. -/
def Obligations.CutCommandsRun : Prop :=
  (∀ c s lv d o, lv = cp c 2 1 → o = opReduceDefine lv → d = parseRedn c → Clean o c s → (ckData o c 0 (cp c 24 4)).ok = true → lv ≤ 1 →
    1 ≤ d.op → d.op ≤ 7 → d.typesOk = true → d.cls < 4 → 1 ≤ d.nelem →
    cp c 24 4 = (if d.op = 6 then 24 + 8 * (d.nb + 1) else 24) → d.fieldsOk = true → rd (cdata c 0) 6 2 = 0 →
    rd (cdata c 0) 17 7 = 0 → (d.op = 6 → edgesOk d.etype d.edges = true) →
    (applyDefs (applyDefs (s.level (lv == 1)).defs (s.level (lv == 1)).defsNext) [(d.rid, some d)]).length ≤ 256 →
    banksFit { s.bankNeed (lv == 1) with
      defs := applyDefs (applyDefs (s.level (lv == 1)).defs (s.level (lv == 1)).defsNext) [(d.rid, some d)] }
      (s.bankNeed !(lv == 1)) = true →
    exec (.reduceDefine c) s = .next (((s.begun o).modLevel (lv == 1) fun x =>
      { x with defsNext := x.defsNext ++ [(d.rid, some d)] }).answered o c 0 [] []))
  ∧ (∀ c s, Clean opReduceDelete c s → NoInput c → cp c 2 1 ≤ 1 →
    (applyDefs (s.level (cp c 2 1 == 1)).defs (s.level (cp c 2 1 == 1)).defsNext).any (fun d => d.rid == cp c 0 2) = true →
    exec (.reduceDelete c) s = .next (((s.begun opReduceDelete).modLevel (cp c 2 1 == 1) fun x =>
      { x with defsNext := x.defsNext ++ [(cp c 0 2, none)] }).answered opReduceDelete c 0 [] []))
  ∧ (∀ c s f p g h, f = (cp c 0 1 == 1) → p = cp c 4 4 * 1000000 → g = cp c 8 4 * 100 → h = cp c 12 2 * 100000 →
    Clean opCutConfig c s → NoInput c → cp c 0 1 ≤ 1 → 1 ≤ cp c 4 4 → cp c 4 4 ≤ 10000 →
    (if f then p % s.nextP (!f) = 0 else s.nextP (!f) % p = 0) → 100 ≤ g → 4 * g ≤ p → 1 ≤ cp c 12 2 → cp c 12 2 ≤ 1000 →
    banksFit { s.bankNeed f with period := p, settle := h } (s.bankNeed !f) = true →
    (s.modLevel f fun x => { x with periodNext := some p }).ratesOk = true →
    exec (.cutConfig c) s = .next (((s.begun opCutConfig).modLevel f fun x =>
      { x with periodNext := if p = s.cutP f then none else some p, guard := g, settle := h }).answered opCutConfig c 0 [] []))
  ∧ (∀ c s n img, Clean opCutRead c s → NoInput c → (ckWrite opCutRead c 0).ok = true → cp c 0 1 ≤ 1 →
    (s.level (cp c 0 1 == 1)).published = some (n, img) → img.length ≤ cp c 4 4 →
    exec (.cutRead c) s = .next ((s.begun opCutRead).takenOn opCutRead c (s.time.tb1.toNat * 2 ^ 33 + cp c 4 4 * 2 + cp c 0 1)
      (some { status := stOk, detail := 0, result := be 8 n ++ be 4 img.length, out := img })))
  ∧ (∀ c s, Clean opCutRegister c s → NoInput c → cp c 0 1 ≤ 1 → cp c 8 8 % 8 = 0 → cp c 16 8 % 8 = 0 →
    exec (.cutRegister c) s = .next (((s.begun opCutRegister).modLevel (cp c 0 1 == 1) fun l =>
      { l with reader := some { path := c.path, tag := c.tag, hlen := cp c 4 4, h0 := BitVec.ofNat 64 (cp c 8 8),
                                h1 := BitVec.ofNat 64 (cp c 16 8), held0 := false, held1 := false, missed := 0,
                                missedAt := 0, owed := false } }).answered opCutRegister c 0 [] []))
  ∧ (∀ c s r q t, Clean opCutRelease c s → NoInput c → cp c 0 1 ≤ 1 → cp c 1 1 ≤ 1 → (s.level (cp c 0 1 == 1)).reader = some r →
    q = { r with held0 := r.held0 && cp c 1 1 != 0, held1 := r.held1 && cp c 1 1 != 1,
                 missed := if r.owed && r.missedAt == s.time.tb1.toNat && decide (0 < r.missed) then r.missed - 1 else r.missed } →
    t = ((s.begun opCutRelease).modLevel (cp c 0 1 == 1) fun l => { l with reader := some q }) →
    exec (.cutRelease c) s = .next ((match (s.level (cp c 0 1 == 1)).published with
      | some (n, img) => if r.owed ∧ img.length ≤ r.hlen then t.writeHalf (cp c 0 1 == 1) n img (cp c 1 1 == 1) else t
      | none => t).answered opCutRelease c 0 [] []))
  ∧ (∀ c s, Clean opReduceStatus c s → NoInput c → cp c 0 1 ≤ 1 →
    exec (.reduceStatus c) s = .next ((s.begun opReduceStatus).answered opReduceStatus c 0
      (be 8 (s.level (cp c 0 1 == 1)).pubEpoch ++ be 4 (s.level (cp c 0 1 == 1)).late) []))

/-- The tree, broadcast and map commands that pass every check: TREE.INSTALL waits for a cut boundary, BCAST.SEND starts the broadcast
under the next identifier of the root, MAP.CONFIG sets the map of a spine block (R169 to R175). Of each of these forms it says that exec
answers the next state given, for every state and operand that meet the conditions named: treeInstall, bcastSend, mapConfig. -/
def Obligations.BroadcastCommandsRun : Prop :=
  (∀ c s p x t, Clean opTreeInstall c s → (ckData opTreeInstall c 0 (cp c 24 4)).ok = true →
    p = parseChildren (cp c 12 1) (cdata c 0) → cp c 8 4 < 2 ^ 18 →
    (s.isSpine = true ∨ (cp c 8 4 ≠ 0 ∧ cp c 8 4 ≠ s.sys.laddr.toNat)) → p.2.1 = cp c 24 4 → p.2.2 = true → cp c 0 1 < 16 → cp c 12 1 ≤ 64 →
    cp c 28 4 ≤ 100000 →
    x = { gen := BitVec.ofNat 32 (cp c 4 4),
          parent := if cp c 8 4 = 0 ∨ cp c 8 4 = s.sys.laddr.toNat then none else some (fldAddr (cp c 8 4)),
          ackTo := if cp c 28 4 = 0 then 20000000 else cp c 28 4 * 100000, children := p.1 } →
    t = (s.modCrown fun u => { u with treesNext := tput u.treesNext (cp c 0 1) x }) → t.ratesOk = true → t.pairsFit t.below = true →
    banksFit (t.bankNeed false) (t.bankNeed true) = true →
    exec (.treeInstall c) s = .next (((s.begun opTreeInstall).modCrown fun u =>
      { u with treesNext := tput u.treesNext (cp c 0 1) x }).answered opTreeInstall c 0 [] []))
  ∧ (∀ c s x, Clean opBcastSend c s → (ckData opBcastSend c 0 (cp c 4 4)).ok = true → (ckWrite opBcastSend c 1).ok = true →
    cp c 1 1 ≤ 4 → cp c 1 1 ≠ 3 → (cp c 1 1 = 4 → 64 ≤ cp c 4 4 ∧ cp c 4 4 ≤ 1988) → cp c 0 1 < 16 → s.tree (cp c 0 1) = some x →
    x.parent = none → (s.crown.bcasts.filter fun x => x.upTo.isNone).length < 4 →
    ∃ t u : State, t = ((s.begun opBcastSend).bcastStart (cp c 0 1) x (cp c 1 1) (cdata c 0)).takenOn opBcastSend c
        (cp c 24 4 * 2 ^ 32 + s.crown.bidNext.toNat) none
      ∧ u = (if t.crown.bidNext = s.crown.bidNext then t else t.bcastSettle s.sys.laddr s.crown.bidNext)
      ∧ exec (.bcastSend c) s = .next u)
  ∧ (∀ c s es, Clean opMapConfig c s → (ckData opMapConfig c 0 (8 * cp c 4 2)).ok = true →
    es = (List.range (cp c 4 2)).map (fun i => parseMapEnt (cdata c 0) (8 * i)) →
    (cp c 4 2 ≠ 0 → cp c 6 2 < cp c 8 2 ∧ cp c 8 2 < cp c 10 2 ∧
      (s.set (cp c 2 1)).winNext.getD (s.set (cp c 2 1)).win = cp c 0 2 * 100000) →
    (∀ e ∈ es, e.port < 64 ∧ e.queue < 8 ∧
      ∀ k ∈ [(e.maxc, 2), (e.sumc, 0), (e.dropc, 0)], bits (tgetD s.coll.cfg k.1 0).toNat 30 29 = k.2 ∧
        inSet (cp c 2 1) ((s.set (cp c 2 1)).banksNext.getD (s.set (cp c 2 1)).banks) k.1 = true) →
    1 ≤ cp c 0 2 → cp c 0 2 ≤ 1000 → 1 ≤ cp c 2 1 → cp c 2 1 < 16 → cp c 4 2 ≤ 512 →
    exec (.mapConfig c) s = .next (((s.begun opMapConfig).modCrown fun u =>
      { u with mp := cp c 0 2 * 100000, map := if cp c 4 2 = 0 then none
        else some { set := cp c 2 1, ents := es, th1 := cp c 6 2, th2 := cp c 8 2, th3 := cp c 10 2 } }).answered opMapConfig
          c 0 [] []))

/-! ### Commands of the MODEL and CHANNEL groups (Table 16.12) -/

/-- The MODEL commands that pass every check: LOAD takes the handle to LOADING, ACTIVATE switches on at once or holds the instant,
DEACTIVATE goes back to LOADED, UNLOAD empties the handle once no evaluation runs, STATUS reads, PARAM sets the two waits (R188, R191 to
R194, R210, R219, R220). Of each of these forms it says that exec answers the next state given, for every state and operand that meet the
conditions named: modelLoad, modelActivate, modelDeactivate, modelUnload, modelStatus, modelParam. -/
def Obligations.ModelCommandsRun : Prop :=
  (∀ c s mill i src image, mill = (cp c 0 1 == 1) → i = cp c 1 1 → src = cp c 2 1 →
    image = (if src = 0 then lget s.flash.models (cp c 3 1) [] else if src = 1 then cdata c 0 else []) →
    Clean opModelLoad c s → (ckData opModelLoad c 0 (if src = 1 then cp c 4 4 else 0)).ok = true → cp c 0 1 ≤ 1 → src ≤ 2 →
    (src = 1 → c.path = .localQueue) → i < 16 → (src = 0 → cp c 3 1 ≤ 3 ∧ (s.dirEnt (2 + cp c 3 1)).st = .valid) →
    (s.hnd mill i).st = .empty → s.loadFits mill i src image (cp c 4 4) = true →
    exec (.modelLoad c) s = .next ((((if src = 0 then (s.begun opModelLoad).readFlash (regionBase 1 (cp c 3 1)) image.length
        else s.begun opModelLoad)).modHnd mill i fun _ =>
      { handleReset with st := .loading, lsrc := src, slot := cp c 3 1,
                         len := if src = 2 then cp c 4 4 else (millLen image).getD 0,
                         bid := BitVec.ofNat 32 (cp c 16 4), image := if src = 1 then image else [],
                         loadAt := s.tb1Ns }).takenOn opModelLoad c (hndObj mill i) none))
  ∧ (∀ c s i m r at1, i = cp c 1 1 → cp c 0 1 = 0 → r = (if cp c 2 1 = 0xFF then none else some (cp c 2 1)) → Clean opModelActivate c s →
    NoInput c → i < 16 → (s.qh i).model = some m → (m.inmode ≠ 0 → s.isDie = false ∨ s.sys.acting = true) →
    (m.inmode = 0 → m.nfeat ≤ (match (s.set m.set).mapNext with | some x => x.2.length | none => (s.set m.set).map.length)) →
    (∀ o, r = some o → o < 16 ∧ (s.hnd false o).st = .active ∧
      ∃ n, (s.qh o).model = some n ∧ n.inmode = m.inmode ∧ n.set = m.set) →
    (s.hnd false i).st = .loaded → (s.hnd false i).actAt = none → s.asIfActive false i r = true →
    at1 = (if cp c 8 8 = 0 then s.tb0Ns else cp c 8 8) →
    exec (.modelActivate c) s = .next ((((((s.begun opModelActivate).modHnd false i fun h =>
      { h with repl := r, actAt := some at1 }).moveIf false i at1 r).switchIfDue false i).answered opModelActivate c 0 [] [])))
  ∧ (∀ c s i r at1, i = cp c 1 1 → cp c 0 1 = 1 → r = (if cp c 2 1 = 0xFF then none else some (cp c 2 1)) → Clean opModelActivate c s →
    NoInput c → i < 16 → (∀ o, r = some o → o < 16 ∧ (s.hnd true o).st = .active) →
    (s.hnd true i).st = .loaded → (s.hnd true i).actAt = none → s.asIfActive true i r = true →
    at1 = (if cp c 8 8 = 0 then s.tb0Ns else cp c 8 8) →
    exec (.modelActivate c) s = .next ((((((s.begun opModelActivate).modHnd true i fun h =>
      { h with repl := r, actAt := some at1 }).moveIf true i at1 r).switchIfDue true i).answered opModelActivate c 0 [] [])))
  ∧ (∀ c s i t, i = cp c 1 1 → Clean opModelDeactivate c s → NoInput c → cp c 0 1 ≤ 1 → i < 16 →
    (s.hnd (cp c 0 1 == 1) i).st = .active →
    t = ((s.begun opModelDeactivate).modHnd (cp c 0 1 == 1) i fun h =>
      { h with st := .loaded, til := none }).modModel (ModelUnit.forget (cp c 0 1 == 1) i) →
    exec (.modelDeactivate c) s = .next ((if cp c 0 1 = 1 then
        t.modModel fun u => { u with chans := tmap u.chans fun _ x => if x.handle = i then { x with pend := [], gapNext := true } else x }
      else (t.modQ i fun q => { q with pend := [] }).deliverMissing i (s.qh i).pend).answered opModelDeactivate c 0 [] []))
  ∧ (∀ c s i, i = cp c 1 1 → Clean opModelUnload c s → NoInput c → cp c 0 1 ≤ 1 → i < 16 →
    ((s.hnd (cp c 0 1 == 1) i).st = .loaded ∨ (s.hnd (cp c 0 1 == 1) i).st = .stopped) →
    (cp c 0 1 = 1 → ∀ e ∈ s.model.chans, e.2.handle ≠ i) →
    exec (.modelUnload c) s = .next (
      if cp c 0 1 = 1 then
        (((s.begun opModelUnload).modM i fun _ => { h := handleReset, model := none }).modModel fun u =>
          { u with chans := tmap u.chans fun _ x => { x with moves := x.moves.filter fun e => e.1 != i } }).takenOn opModelUnload c (hndObj true i)
          (some (finOk 0 [] []))
      else if (s.qh i).run = [] then
        ((s.begun opModelUnload).modQ i fun _ => emptyQ).takenOn opModelUnload c (hndObj false i) (some (finOk 0 [] []))
      else ((s.begun opModelUnload).modQ i fun q => { q with h := { q.h with unloading := true } }).takenOn opModelUnload c
        (hndObj false i) none))
  ∧ (∀ c s i, i = cp c 1 1 → Clean opModelStatus c s → NoInput c → cp c 0 1 = 0 → i < 16 →
    exec (.modelStatus c) s = .next ((s.begun opModelStatus).answered opModelStatus c 0
      (be 1 (handleCode (s.qh i).h.st) ++ zeros 3 ++ (match (s.qh i).model with
        | some m => be 4 m.modelId.toNat ++ be 4 m.modelVer.toNat
        | none => zeros 8) ++ be 4 (s.qh i).skip) []))
  ∧ (∀ c s i, i = cp c 1 1 → Clean opModelStatus c s → NoInput c → cp c 0 1 = 1 → i < 16 →
    exec (.modelStatus c) s = .next ((s.begun opModelStatus).answered opModelStatus c 0
      (be 1 (handleCode (s.mh i).h.st) ++ zeros 3 ++ (match (s.mh i).model with
        | some m => be 4 m.modelId.toNat ++ be 4 m.modelVer.toNat
        | none => zeros 8) ++ zeros 4) []))
  ∧ (∀ c s, Clean opModelParam c s → NoInput c → 1 ≤ cp c 0 2 → cp c 0 2 ≤ 1000 → 1 ≤ cp c 2 2 → cp c 2 2 ≤ 1000 →
    exec (.modelParam c) s = .next (((s.begun opModelParam).modModel fun u =>
      { u with eachWait := cp c 0 2 * 10000, residWait := cp c 2 2 * 1000 }).answered opModelParam c 0 [] []))

/-- The CHANNEL commands that pass every check: OPEN installs the binding, CLOSE removes it and voids its rollouts, RESET starts the
context anew at once or after the step in progress, FORECAST copies the context of the last complete step (R212 to R215, R221, R225). Of
each of these forms it says that exec answers the next state given, for every state and operand that meet the conditions named:
channelOpen, channelClose, channelReset, channelForecast. -/
def Obligations.ChannelCommandsRun : Prop :=
  (∀ c s b k, b = cdata c 0 → k = parseBinding b (s.mh (rd b 2 1)).model (s.movesOf 16 (rd b 2 1)) → Clean opChannelOpen c s →
    (ckData opChannelOpen c 0 80).ok = true → (k.kind = 1 → s.isDie = false ∨ s.sys.acting = true) → (k.kind = 2 → s.isDie = true) →
    bindingOk b k = true → rd b 0 2 < 4096 → rd b 2 1 < 16 → k.set < 16 → k.stream < 4096 →
    (∀ j ∈ k.idx, if k.kind = 2 then j ≤ 4 else j < 1024) → (k.kind = 2 → 1 ≤ k.rate ∧ k.rate ≤ 1048576) →
    (k.kind = 1 → 0 < k.rate) →
    (k.kind = 0 → ∀ j ∈ k.idx, ∀ d, (match (s.set k.set).mapNext with | some x => x.2 | none => (s.set k.set).map)[j]? = some d →
      dOp d ≠ 9) →
    (k.kind = 1 → ∀ j ∈ k.idx, Config.remoteResid s.time.freeCount k.src.toNat k.set j = false) →
    s.chan (rd b 0 2) = none → ((s.mh (rd b 2 1)).h.st = .loaded ∨ (s.mh (rd b 2 1)).h.st = .active) →
    (s.modModel fun u => { u with chans := tput u.chans (rd b 0 2) k }).millBytes ≤ 8388608 →
    ((s.mh (rd b 2 1)).h.st = .active → s.millAdmits (s.model.chans.map (·.2) ++ [k]) s.millActive = true) →
    exec (.channelOpen c) s = .next (((s.begun opChannelOpen).tickFree.modModel fun u =>
      { u with chans := tput u.chans (rd b 0 2) k }).answered opChannelOpen c 0 [] []))
  ∧ (∀ c s, Clean opChannelClose c s → NoInput c → cp c 0 2 < 4096 → (s.chan (cp c 0 2)).isSome = true →
    exec (.channelClose c) s = .next ((((s.begun opChannelClose).voidRollouts (cp c 0 2)).modModel fun u =>
      { u with chans := tdel u.chans (cp c 0 2) }).millSettleAll.answered opChannelClose c 0 [] []))
  ∧ (∀ c s k, Clean opChannelReset c s → NoInput c → cp c 0 2 < 4096 → s.chan (cp c 0 2) = some k →
    exec (.channelReset c) s = .next ((if k.running.isSome then
        (s.begun opChannelReset).modChan (cp c 0 2) fun x => { x with resetDue := true }
      else (s.begun opChannelReset).resetChan (cp c 0 2)).answered opChannelReset c 0 [] []))
  ∧ (∀ c s k m f d, Clean opChannelForecast c s → NoInput c → (ckWrite opChannelForecast c 0).ok = true → cp c 0 2 < 4096 →
    1 ≤ cp c 2 2 → cp c 2 2 ≤ 4096 → s.chan (cp c 0 2) = some k → (s.mh k.handle).model = some m → (s.mh k.handle).h.st ≠ .stopped →
    k.ctx.f = some f → k.diverged = false → k.done.getLast? = some d → s.model.rollouts.length < 64 →
    exec (.channelForecast c) s = .next (((s.begun opChannelForecast).modModel fun u =>
      { u with rollouts := u.rollouts ++ [{ path := c.path, tag := c.tag, ch := cp c 0 2, stamp := d.stamp, cep := k.ctx.cep,
                                            n := k.ctx.n, vals := rolloutVals m (cp c 2 2) k.ctx.x f k.ctx.last }] }).takenOn opChannelForecast c (cp c 0 2) none))

/-! ### Commands of the SCORE, VERDICT and JOB groups (Table 16.13) -/

/-- The SCORE and VERDICT commands that pass every check: SCORE.SET installs a descriptor and restarts the score where its terms or
thresholds changed, CLEAR removes it, WITHDRAW withdraws an open verdict, CONFIG names the tree, BUDGET keeps the tokens up to the new
depth, DRILL adds or removes a drill, PARAM sets the waits, STATUS reads (R227, R231, R238, R240, R241, R246, R247). Of each of these
forms it says that exec answers the next state given, for every state and operand that meet the conditions named: scoreSet, scoreClear,
verdictWithdraw, verdictConfig, verdictBudget, verdictDrill, verdictParam, verdictStatus. -/
def Obligations.VerdictCommandsRun : Prop :=
  (∀ c s b d q, b = cdata c 0 → d = parseScore b → Clean opScoreSet c s → (ckData opScoreSet c 0 88).ok = true → scoreOk b d = true →
    d.ssh ≤ 8 → 2 ≤ d.confWin → d.confWin ≤ 16 → d.confWin ≤ d.wdWin → d.wdWin ≤ 64 → 1 ≤ rd b 7 1 → rd b 7 1 ≤ 8 →
    s.qModel d.handle = some q → (∀ t ∈ d.terms, (t.typ = 1 → t.k < q.k) ∧ (t.typ = 3 → q.inmode = 0 ∧ s.isDie = true)) →
    exec (.scoreSet c) s = .next (((match tget s.verd.scores (rd b 0 1) with
      | some o => if o.handle = d.handle ∧ o.drift = d.drift ∧ o.thW = d.thW ∧ o.thS = d.thS ∧ o.thE = d.thE then s.begun opScoreSet
        else (s.begun opScoreSet).restartScore (rd b 0 1)
      | none => s.begun opScoreSet).modVerd fun u => { u with scores := tput u.scores (rd b 0 1) d }).answered opScoreSet c 0 [] []))
  ∧ (∀ c s, Clean opScoreClear c s → NoInput c → (tget s.verd.scores (cp c 0 1)).isSome = true →
    exec (.scoreClear c) s = .next ((((s.begun opScoreClear).restartScore (cp c 0 1)).modVerd fun u =>
      { u with scores := tdel u.scores (cp c 0 1) }).answered opScoreClear c 0 [] []))
  ∧ (∀ c s p v, Clean opVerdictWithdraw c s → NoInput c → cp c 4 4 < 2 ^ 18 →
    s.openPair (BitVec.ofNat 32 (cp c 0 4)) (BitVec.ofNat 18 (cp c 4 4)) = some p → p.v = some v →
    exec (.verdictWithdraw c) s = .next (((s.begun opVerdictWithdraw).withdrawPair
      (tgetD s.verd.scores p.score (parseScore [])) p v wdOwner s.tb0Ns).answered opVerdictWithdraw c 0 [] []))
  ∧ (∀ c s v, Clean opVerdictWithdraw c s → NoInput c → cp c 4 4 < 2 ^ 18 →
    s.openPair (BitVec.ofNat 32 (cp c 0 4)) (BitVec.ofNat 18 (cp c 4 4)) = none →
    s.verd.own.find? (fun v => v.vid == BitVec.ofNat 32 (cp c 0 4) && v.subj == BitVec.ofNat 18 (cp c 4 4)) = some v →
    exec (.verdictWithdraw c) s = .next (((((s.begun opVerdictWithdraw).withdrawOwn v 2 wdOwner).hangClosed v).sentrySettle).answered
      opVerdictWithdraw c 0 [] []))
  ∧ (∀ c s m, m = (fun (v : VRec) => v.vid == BitVec.ofNat 32 (cp c 0 4) && v.subj == BitVec.ofNat 18 (cp c 4 4)) →
    Clean opVerdictWithdraw c s → NoInput c → cp c 4 4 < 2 ^ 18 →
    s.openPair (BitVec.ofNat 32 (cp c 0 4)) (BitVec.ofNat 18 (cp c 4 4)) = none →
    s.verd.own.find? (fun v => v.vid == BitVec.ofNat 32 (cp c 0 4) && v.subj == BitVec.ofNat 18 (cp c 4 4)) = none →
    (s.verd.tray.demoted.any m = true ∨ s.verd.fleet.demoted.any m = true) →
    exec (.verdictWithdraw c) s = .next ((((s.begun opVerdictWithdraw).modHolder false fun h =>
        { h with demoted := h.demoted.filter fun v => !m v }).modHolder true fun h =>
        { h with demoted := h.demoted.filter fun v => !m v }).answered opVerdictWithdraw c 0 [] []))
  ∧ (∀ c s, Clean opVerdictConfig c s → NoInput c → cp c 0 1 < 16 →
    exec (.verdictConfig c) s = .next (((s.begun opVerdictConfig).modVerd fun u => { u with vtree := some (cp c 0 1) }).answered
      opVerdictConfig c 0 [] []))
  ∧ (∀ c s, Clean opVerdictBudget c s → NoInput c → cp c 0 1 ≤ 1 → cp c 4 4 ≤ 1000000 → 1 ≤ cp c 8 2 → cp c 8 2 ≤ 4096 →
    exec (.verdictBudget c) s = .next (((s.begun opVerdictBudget).modHolder (cp c 0 1 == 1) fun h =>
      { h with rate := cp c 4 4, depth := cp c 8 2, tokens := min h.tokens (cp c 8 2 * 3600000) }).answered opVerdictBudget c 0 [] []))
  ∧ (∀ c s, Clean opVerdictDrill c s → (ckData opVerdictDrill c 0 (4 * cp c 4 4)).ok = true →
    (∀ i < cp c 4 4, rd (cdata c 0) (4 * i) 4 < 2 ^ 18) → (cp c 4 4 ≠ 0 → cp c 8 8 < cp c 16 8) →
    (cp c 4 4 ≠ 0 → (tget s.verd.drills (cp c 0 4)).isSome = true ∨ s.verd.drills.length < 16) →
    exec (.verdictDrill c) s = .next (((s.begun opVerdictDrill).modVerd fun u =>
      { u with drills := if cp c 4 4 = 0 then tdel u.drills (cp c 0 4)
        else tput u.drills (cp c 0 4) ⟨BitVec.ofNat 32 (cp c 0 4), cp c 8 8, cp c 16 8,
          (List.range (cp c 4 4)).map fun i => BitVec.ofNat 18 (rd (cdata c 0) (4 * i) 4)⟩ }).answered opVerdictDrill c 0 [] []))
  ∧ (∀ c s, Clean opVerdictParam c s → NoInput c → 1 ≤ cp c 0 4 → cp c 0 4 ≤ 10000 → 1 ≤ cp c 4 4 → cp c 4 4 ≤ 1000000 →
    10 ≤ cp c 8 4 → cp c 8 4 ≤ 10000 → 1 ≤ cp c 12 4 → cp c 12 4 ≤ 6000 → 1 ≤ cp c 16 2 → cp c 16 2 ≤ 65535 → 3 ≤ cp c 18 1 →
    cp c 18 1 ≤ 64 → 1 ≤ cp c 19 1 → cp c 19 1 ≤ 64 →
    exec (.verdictParam c) s = .next (((s.begun opVerdictParam).modVerd fun u =>
      { u with arrWait := cp c 0 4 * 1000000, lateMin := cp c 4 4 * 1000, silentTo := cp c 8 4 * 1000000,
               disHold := cp c 12 4 * 10000000, repMin := cp c 16 2, cohortMin := cp c 18 1, lateMult := cp c 19 1 }).answered
        opVerdictParam c 0 [] []))
  ∧ (∀ c s p v, Clean opVerdictStatus c s → NoInput c → cp c 0 4 < 2 ^ 18 →
    p = (s.verd.pairs.find? fun x => x.score == cp c 4 1 && x.subj == BitVec.ofNat 18 (cp c 0 4)).getD
      (pairNew (cp c 4 1) (BitVec.ofNat 18 (cp c 0 4))) →
    v = p.v.getD { vid := 0, v := 0, hold := 0, age := 0, raiseT := 0, drill := false } →
    exec (.verdictStatus c) s = .next ((s.begun opVerdictStatus).answered opVerdictStatus c 0
      (be 4 p.h ++ be 1 p.s ++ be 1 v.v ++ be 1 (b2n p.v.isSome) ++ be 1 v.hold ++ be 1 v.age ++ zeros 3 ++ be 4 v.vid.toNat) []))

/-- JOB.MEMBERS and JOB.END that pass every check: the view holds the members given, added to or replacing the old ones; the view, its
instances and its marks are gone at the end of the job, whose watch entries no longer watch (R240 to R243, R248, R265). Of each of these
forms it says that exec answers the next state given, for every state and operand that meet the conditions named: jobMembers, jobEnd. -/
def Obligations.JobCommandsRun : Prop :=
  (∀ c s n old ms all, n = cp c 8 4 → ms = (List.range n).map (fun i => parseMember (cdata c 0) (16 * i)) →
    old = (match tget s.verd.jobs (cp c 0 4) with | some v => if cp c 12 1 = 1 then v.members else [] | none => []) →
    all = (old.filter fun m => !(ms.any fun x => x.addr == m.addr)) ++ ms → Clean opJobMembers c s →
    (ckData opJobMembers c 0 (16 * n)).ok = true → cp c 4 4 < 2 ^ 18 → cp c 12 1 ≤ 1 →
    (∀ i < n, rd (cdata c 0) (16 * i) 4 < 2 ^ 18 ∧ rd (cdata c 0) (16 * i + 4) 1 ≤ 3 ∧ rd (cdata c 0) (16 * i + 5) 1 ≤ 1 ∧
      rd (cdata c 0) (16 * i + 6) 2 = 0) →
    ((tget s.verd.jobs (cp c 0 4)).isSome = true ∨ s.verd.jobs.length < 64) →
    ((s.verd.jobs.filter fun e => e.1 != cp c 0 4).map fun e => e.2.members.length).sum + all.length ≤ 131072 →
    ∃ t u : State, t = (s.begun opJobMembers).modVerd (fun u =>
        { u with jobs := tput u.jobs (cp c 0 4) ⟨BitVec.ofNat 32 (cp c 0 4), BitVec.ofNat 18 (cp c 4 4), all⟩,
                 dies := (all.filter fun m => s.ownTray m.addr).foldl (fun d m =>
                   if (tget d m.addr.toNat).isSome then d else tput d m.addr.toNat (dieNew s.tb1Ns)) u.dies })
      ∧ u = ((all.foldl (fun v m => v.reviewDie m.addr) t).raiseThrough (BitVec.ofNat 32 (cp c 0 4))).settleInsts
      ∧ exec (.jobMembers c) s = .next (u.answered opJobMembers c 0 [] []))
  ∧ (∀ c s, Clean opJobEnd c s → NoInput c →
    ((s.job (BitVec.ofNat 32 (cp c 0 4))).isSome = true ∨ s.sentry.job = some (BitVec.ofNat 32 (cp c 0 4))) →
    ∃ t : State, exec (.jobEnd c) s = .next (t.answered opJobEnd c 0 [] []) ∧
      (∀ x ∈ t.sentry.throughs, x.job ≠ BitVec.ofNat 32 (cp c 0 4)) ∧
      (s.sentry.job = some (BitVec.ofNat 32 (cp c 0 4)) → t.sentry.watchNext = none ∧ ∀ e ∈ t.sentry.watch, weEn e.2 = false))

/-! ### Commands of the SENTRY group (Table 16.14) -/

/-- The commands of the SENTRY group that pass every check: WATCH waits for the next step and starts a new job, PARTNERS and PARAM set
their fields, GOAL waits for the next step, ROLLBACK lowers LT, RELEASE raises it to the step and commits, STATUS reads (R252, R257, R268
to R270). Of each of these forms it says that exec answers the next state given, for every state and operand that meet the conditions
named: sentryWatch, sentryPartners, sentryGoal, sentryRollback, sentryRelease, sentryStatus, sentryParam. -/
def Obligations.SentryCommandsRun : Prop :=
  (∀ c s t, Clean opSentryWatch c s → (ckData opSentryWatch c 0 (16 * cp c 4 1)).ok = true →
    (∀ i < cp c 4 1, watchOk (rd (cdata c 0) (16 * i) 16) = true) → BitVec.ofNat 64 (cp c 16 8) ≠ 0 → cp c 4 1 ≤ 64 →
    t = (if s.sentry.job = some (BitVec.ofNat 32 (cp c 0 4)) then s.begun opSentryWatch
      else (((s.begun opSentryWatch).discardSteps fun _ => true).modSentry fun u =>
        { u with job := some (BitVec.ofNat 32 (cp c 0 4)), first := BitVec.ofNat 64 (cp c 16 8),
                 through := BitVec.ofNat 64 (cp c 16 8) - 1, lt := BitVec.ofNat 64 (cp c 16 8) - 1, unsettled := [],
                 prevs := [], readmit := none, released := none }).intSet 2) →
    ∃ es : List (Nat × BitVec 128), es.length = cp c 4 1 ∧
      (∀ i < cp c 4 1, es[i]? = some (i, BitVec.ofNat 128 (rd (cdata c 0) (16 * i) 16))) ∧
      exec (.sentryWatch c) s = .next ((t.modSentry fun u => { u with watchNext := some es }).answered opSentryWatch c 0 [] []))
  ∧ (∀ c s, Clean opSentryPartners c s → NoInput c → cp c 0 4 < 2 ^ 18 → cp c 4 4 < 2 ^ 18 →
    exec (.sentryPartners c) s = .next (((s.begun opSentryPartners).modSentry fun u =>
      { u with partner := some (BitVec.ofNat 18 (cp c 0 4), BitVec.ofNat 18 (cp c 4 4)) }).answered opSentryPartners c 0 [] []))
  ∧ (∀ c s g, g = BitVec.ofNat 64 (cp c 0 8) → Clean opSentryGoal c s → NoInput c → 0 < goalModulus g →
    (bits g.toNat 63 62 = 0 → bits g.toNat 61 49 ≤ 4096) →
    (bits g.toNat 63 62 ≠ 0 → 1 ≤ bits g.toNat 31 16 ∧ 1 ≤ bits g.toNat 15 0) →
    exec (.sentryGoal c) s = .next (((s.begun opSentryGoal).modSentry fun u => { u with goalNext := some g }).answered
      opSentryGoal c 0 [] []))
  ∧ (∀ c s good low, good = BitVec.ofNat 64 (cp c 8 8) → low = (if good < s.sentry.through then s.sentry.through else good) →
    Clean opSentryRollback c s → NoInput c → s.sentry.job = some (BitVec.ofNat 32 (cp c 0 4)) →
    exec (.sentryRollback c) s = .next (((((s.begun opSentryRollback).modSentry fun u =>
      { u with lt := if low < u.lt then low else u.lt, readmit := if good < low then some good else none,
               unsettled := u.unsettled.filter fun q => decide (q ≤ good) }).discardSteps fun x =>
        decide (good < x.step)).sentrySettle).answered opSentryRollback c 0 [] []))
  ∧ (∀ c s step, step = BitVec.ofNat 64 (cp c 0 8) → Clean opSentryRelease c s → NoInput c → (∀ q ∈ s.sentry.unsettled, step < q) →
    exec (.sentryRelease c) s = .next ((((((s.begun opSentryRelease).modSentry fun u =>
      { u.dropSteps (TStep.past step) with lt := if u.lt < step then step else u.lt }).commitTo step).stage 0x0902
        .notice 0 step.toNat).sentrySettle).answered opSentryRelease c 0 [] []))
  ∧ (∀ c s, Clean opSentryStatus c s → NoInput c →
    exec (.sentryStatus c) s = .next ((s.begun opSentryStatus).answered opSentryStatus c
      (BitVec.ofNat 64 ((s.sentry.suspended.map fun w => 2 ^ w).sum)) (be 8 s.sentry.through.toNat ++ be 8 s.sentry.lt.toNat) []))
  ∧ (∀ c s, Clean opSentryParam c s → NoInput c → 1 ≤ cp c 0 2 → cp c 0 2 ≤ 10000 → 1 ≤ cp c 2 1 → cp c 2 1 ≤ 255 → 1 ≤ cp c 4 4 →
    cp c 4 4 ≤ 600000 → 1 ≤ cp c 8 2 → cp c 8 2 ≤ 1440 →
    exec (.sentryParam c) s = .next (((s.begun opSentryParam).modSentry fun u =>
      { u with settle := cp c 0 2 * 1000, faMax := cp c 2 1, replayTo := cp c 4 4 * 1000000,
               faWin := cp c 8 2 * 60000000000 }).answered opSentryParam c 0 [] []))

/-! ### Commands of the HEARTBEAT, INGOT, CONTEXT and BRAKE groups (Table 16.15) -/

/-- The recovery commands that pass every check: HEARTBEAT.CONFIG takes the parameters and the watch its ACT names, INGOT.CONFIG the
regions, TAKE starts a capture with CAUSE OWNER, READ delivers the bytes of a slot, CLEAR erases one or waits for the capture in progress,
CONTEXT.RESULT moves the search on or closes it, BRAKE.STATUS reads (R275, R295 to R298, R304). Of each of these forms it says that exec
answers the next state given, for every state and operand that meet the conditions named: heartbeatConfig, ingotConfig, ingotTake,
ingotRead, ingotClear, contextResult, brakeStatus. -/
def Obligations.RecoveryCommandsRun : Prop :=
  (∀ c s t, Clean opHeartbeatConfig c s → NoInput c → cp c 0 1 ≤ 2 → cp c 1 1 ≤ 2 → 1 ≤ cp c 2 1 → cp c 2 1 ≤ 15 →
    cp c 2 1 + 1 ≤ cp c 3 1 → cp c 3 1 ≤ 64 → 1 ≤ cp c 4 2 → cp c 4 2 ≤ 10000 → 1 ≤ cp c 6 2 → cp c 6 2 ≤ 6000 → 1 ≤ cp c 8 2 →
    cp c 8 2 ≤ 1000 → 1 ≤ cp c 10 1 → cp c 10 1 ≤ 100 → cp c 11 1 ≤ 1 → 1 ≤ cp c 12 2 → cp c 12 2 ≤ 1000 → 1 ≤ cp c 14 2 →
    cp c 14 2 ≤ 1000 → 1 ≤ cp c 16 1 → cp c 16 1 ≤ 16 → 1 ≤ cp c 18 2 → cp c 18 2 ≤ 1440 → cp c 20 1 ≤ 1 → 1 ≤ cp c 21 1 →
    cp c 21 1 ≤ 100 → 1 ≤ cp c 22 1 → cp c 22 1 ≤ 100 → cp c 23 1 ≤ 1 → 1 ≤ cp c 24 2 → cp c 24 2 ≤ 60000 →
    t = (s.begun opHeartbeatConfig).brakeCfg (parseBrake c) →
    exec (.heartbeatConfig c) s = .next ((if cp c 0 1 = 0 then t.watchTo .off else if cp c 0 1 = 1 then t.watchTo .armed
      else t).answered opHeartbeatConfig c 0 [] []))
  ∧ (∀ c s l, l = (List.range (cp c 0 1)).map (fun i => parseRegion (cdata c 0) (16 * i)) → Clean opIngotConfig c s →
    (ckData opIngotConfig c 0 (16 * cp c 0 1)).ok = true → cp c 8 8 < 2 ^ 48 → cp c 0 1 ≤ 64 →
    (∀ r ∈ l, r.level ≤ 2 ∧ r.addr < 2 ^ 48 ∧ 8 ≤ r.len ∧ r.len ≤ 1048576 ∧ r.len % 8 = 0) →
    (∀ i < cp c 0 1, rd (cdata c 0) (16 * i + 3) 1 = 0) →
    exec (.ingotConfig c) s = .next (((s.begun opIngotConfig).modBrake fun u =>
      { u with regions := l, ctxBase := cp c 8 8 }).answered opIngotConfig c 0 [] []))
  ∧ (∀ c s, Clean opIngotTake c s → NoInput c → s.brake.capture = none → s.brake.writing = none →
    exec (.ingotTake c) s = .next (((s.begun opIngotTake).takenOn opIngotTake c 2 none).captureStart 5 0 0xFF 0xFF false
      s.brake.regions))
  ∧ (∀ c s d, d = ((s.ingotImage (cp c 0 1)).drop (cp c 4 4)).take (cp c 8 4) → Clean opIngotRead c s → NoInput c →
    (ckWrite opIngotRead c 0).ok = true → (cp c 0 1 = 0 → s.isDie = true) → cp c 0 1 ≤ 3 →
    exec (.ingotRead c) s = .next ((if cp c 0 1 ≤ 2 then (s.begun opIngotRead).readFlash (ingotBase (cp c 0 1) + cp c 4 4) d.length
      else s.begun opIngotRead).takenOn opIngotRead c 0
      (some { status := stOk, detail := 0, result := be 4 d.length, out := d })))
  ∧ (∀ c s, Clean opIngotClear c s → NoInput c → cp c 0 1 ≤ 2 →
    exec (.ingotClear c) s = .next ((if cp c 0 1 = 0 ∧ (s.brake.capture.isSome ∨ s.brake.writing.isSome) then
        (s.begun opIngotClear).modBrake fun b => { b with clearDue := true }
      else (s.begun opIngotClear).clearIngot (cp c 0 1)).answered opIngotClear c 0 [] []))
  ∧ (∀ c s q, Clean opContextResult c s → NoInput c → s.brake.search = some q → q.cur.toNat = cp c 0 4 → cp c 4 1 ≤ 1 →
    exec (.contextResult c) s = .next ((if cp c 4 1 = 0 then (s.begun opContextResult).searchNext q
      else (s.begun opContextResult).guilty q).answered opContextResult c 0 [] []))
  ∧ (∀ c s, Clean opBrakeStatus c s → NoInput c →
    exec (.brakeStatus c) s = .next ((s.begun opBrakeStatus).answered opBrakeStatus c 0
      (be 1 (min s.brake.miss 255) ++ be 1 s.brakeState ++ be 1 (min s.nesc 255) ++ zeros 5 ++ be 8 s.brake.lastBeat) []))

/-! ### Commands of the TRACE and WATCH groups (Tables 16.16 and 16.17) -/

/-- The commands of the TRACE and WATCH groups that pass every check: CONFIG takes its masks, thresholds and periods, AUTH an
authorisation that lasts the seconds named or is refused and counted, DEAUTH ends it, the STATUS commands read, ARM posts WATCH_ARMED for
the next step, DISARM ends a watch, RATE keeps the tokens up to the new depth (R311 to R317, R321, R324). Of each of these forms it says
that exec answers the next state given, for every state and operand that meet the conditions named: traceConfig, traceAuth, traceDeauth,
traceStatus, watchArm, watchDisarm, watchRate, watchStatus. -/
def Obligations.TraceCommandsRun : Prop :=
  (∀ c s, Clean opTraceConfig c s → NoInput c → cp c 32 1 < 16 → cp c 33 1 ≤ 1 → cp c 34 1 ≤ cp c 35 1 → cp c 35 1 ≤ cp c 36 1 →
    cp c 36 1 ≤ 64 → 1 ≤ cp c 38 2 → cp c 38 2 ≤ 1000 → 1 ≤ cp c 40 2 → cp c 40 2 ≤ 10000 →
    exec (.traceConfig c) s = .next (((s.begun opTraceConfig).modTrace fun u =>
      { u with mask := BitVec.ofNat 256 (cp c 0 32), tcmap := BitVec.ofNat 4 (cp c 32 1), mout := cp c 33 1 == 1,
               th3 := cp c 34 1, th2 := cp c 35 1, th1 := cp c 36 1, flush := cp c 38 2 * 10000, syncNext := some (cp c 40 2 * 100000) }).answered opTraceConfig c 0 [] []))
  ∧ (∀ c s, Clean opTraceAuth c s → NoInput c → 1 ≤ cp c 8 4 → cp c 8 4 ≤ 86400 → s.authRefused c = false →
    exec (.traceAuth c) s = .next ((((s.begun opTraceAuth).modTrace fun u =>
      { u with auth := some { mask := BitVec.ofNat 256 (cp c 12 32), since := s.time.tb1.toNat, before := s.authMask,
                                til := s.tb0Ns + cp c 8 4 * 1000000000 } }).authRecords 0x0B02
        (BitVec.ofNat 256 (cp c 12 32))).answered opTraceAuth c 0 [] []))
  ∧ (∀ c s l, Clean opTraceAuth c s → NoInput c → 1 ≤ cp c 8 4 → cp c 8 4 ≤ 86400 → s.badToken c = true → s.authLocked = false →
    l = (if s.trace.lockAt.isSome then [] else s.trace.refusals.filter fun t => decide (s.tb1Ns < t + hourNs)) ++ [s.tb1Ns] →
    exec (.traceAuth c) s = .next ((((s.bump cCmdReceived).turnedAway opTraceAuth c stAuth (errDetail 0 0 0xFF)).modTrace fun u =>
      { u with refusals := l, lockAt := if 4 ≤ l.length then some s.tb1Ns else none }).stage 0x0B01 .notice l.length 0))
  ∧ (∀ c s, Clean opTraceAuth c s → NoInput c → 1 ≤ cp c 8 4 → cp c 8 4 ≤ 86400 → s.badToken c = false → s.authLocked = true →
    exec (.traceAuth c) s = .next ((s.bump cCmdReceived).turnedAway opTraceAuth c stAuth (errDetail 0 0 0xFF)))
  ∧ (∀ c s, Clean opTraceDeauth c s → NoInput c →
    exec (.traceDeauth c) s = .next ((s.begun opTraceDeauth).endAuth.answered opTraceDeauth c 0 [] []))
  ∧ (∀ c s, Clean opTraceStatus c s → NoInput c →
    exec (.traceStatus c) s = .next ((s.begun opTraceStatus).answered opTraceStatus c 0
      (be 4 (s.tsrc (cp c 0 1)).excl ++ be 4 (s.tsrc (cp c 0 1)).drops ++ be 4 (s.tsrc (cp c 0 1)).syncw
        ++ be 4 (match s.trace.auth with | some a => (a.til - s.tb0Ns) / 1000000000 | none => 0)) []))
  ∧ (∀ c s e w, e = parseWatch (cdata c 0) → w = rd (cdata c 0) 0 1 → Clean opWatchArm c s → (ckData opWatchArm c 0 64).ok = true →
    watchEntOk (cdata c 0) e = true → w < 64 → 1 ≤ e.cap → e.cap ≤ 268435456 → 1 ≤ e.nelem →
    exec (.watchArm c) s = .next ((((s.begun opWatchArm).putTwatch w { s.twatch w with next := some e }).event 0x0BE0 e.raw).answered
      opWatchArm c 0 [] []))
  ∧ (∀ c s, Clean opWatchDisarm c s → NoInput c → cp c 0 1 < 64 → (tget s.trace.watches (cp c 0 1)).isSome = true →
    exec (.watchDisarm c) s = .next (((s.begun opWatchDisarm).disarm (cp c 0 1) 0).answered opWatchDisarm c 0 [] []))
  ∧ (∀ c s, Clean opWatchRate c s → NoInput c → 1 ≤ cp c 0 2 → cp c 0 2 ≤ 1000 → 1 ≤ cp c 2 1 → cp c 2 1 ≤ 64 →
    exec (.watchRate c) s = .next (((s.begun opWatchRate).modTrace fun u =>
      { u with twRate := cp c 0 2, twDepth := cp c 2 1 * 1048576, tokens := min u.tokens (cp c 2 1 * 1048576) }).answered
        opWatchRate c 0 [] []))
  ∧ (∀ c s, Clean opWatchStatus c s → NoInput c → cp c 0 1 < 64 →
    ∃ k ≤ 2, exec (.watchStatus c) s = .next ((s.begun opWatchStatus).answered opWatchStatus c 0
      (be 1 (Config.watchState k) ++ zeros 3 ++ be 4 (s.twatch (cp c 0 1)).dumps ++ be 4 (s.twatch (cp c 0 1)).disc.sum
        ++ be 4 s.trace.tokens) []))

/-! ### Commands of the RECORDER group (Table 16.18) -/

/-- The commands of the RECORDER group that pass every check: READ delivers records at or after FROM, STATUS reads, CLEAR stages its own
record and is throttled for 60 s, NOTE stages a record and returns its SEQ, CONFIG sets the limits (R341 to R343). Of each of these forms
it says that exec answers the next state given, for every state and operand that meet the conditions named: recorderRead, recorderStatus,
recorderClear, recorderNote, recorderConfig. -/
def Obligations.RecorderCommandsRun : Prop :=
  (∀ c s r, Clean opRecorderRead c s → NoInput c → (ckWrite opRecorderRead c 0).ok = true → cp c 6 1 ≤ 1 →
    r = s.recorderRead (cp c 0 4) (cp c 4 2) (cp c 6 1 == 1) →
    exec (.recorderRead c) s = .next ((s.begun opRecorderRead).takenOn opRecorderRead c 0
      (some { status := stOk, detail := 0, result := be 2 r.1.length ++ zeros 2 ++ be 4 r.2, out := (r.1.map hrecBytes).flatten })))
  ∧ (∀ c s, Clean opRecorderStatus c s → NoInput c →
    exec (.recorderStatus c) s = .next ((s.begun opRecorderStatus).answered opRecorderStatus c 0
      (be 1 s.hall.head ++ be 1 ((s.hall.head + 1) % 32) ++ be 2 s.hall.sorted.length
        ++ be 1 (s.hall.ents.filter fun e => !e.written).length ++ zeros 3 ++ be 4 s.hall.drop ++ be 4 (clearSeq s.hall.all)) []))
  ∧ (∀ c s, Clean opRecorderClear c s → NoInput c → (∀ t, s.hall.lastClear = some t → t + 60000000000 ≤ s.tb1Ns) →
    exec (.recorderClear c) s = .next ((((s.begun opRecorderClear).modHall fun h => { h with lastClear := some s.tb1Ns }).stage 0x0C03
      .notice (s.clearPath c.path).1 (s.hall.lastSeq.toNat * 2 ^ 32 + (s.clearPath c.path).2.toNat)).answered opRecorderClear c 0
        (be 4 s.hall.lastSeq.toNat) []))
  ∧ (∀ c s p, Clean opRecorderNote c s → NoInput c → cp c 1 1 ≤ 1 → 0x80 ≤ cp c 0 1 →
    p = (s.begun opRecorderNote).stageSeq (BitVec.ofNat 16 (0x1100 + cp c 0 1)) (if cp c 1 1 = 0 then .info else .notice) (cp c 2 1)
      (cp c 8 8) false →
    exec (.recorderNote c) s = .next (p.1.answered opRecorderNote c 0 (be 4 p.2.toNat) []))
  ∧ (∀ c s, Clean opRecorderConfig c s → NoInput c → 1 ≤ cp c 0 1 → cp c 0 1 ≤ 64 → 1 ≤ cp c 1 1 → cp c 1 1 ≤ 16 → 1 ≤ cp c 2 2 →
    cp c 2 2 ≤ 3600 → 16 ≤ cp c 4 2 → cp c 4 2 ≤ 512 → cp c 4 2 % 16 = 0 →
    exec (.recorderConfig c) s = .next (((s.begun opRecorderConfig).modHall fun h =>
      { h with rlDepth := cp c 0 1, flRate := cp c 1 1, rlInt := cp c 2 2, flDepth := cp c 4 2,
               flash := min h.flash (cp c 4 2),
               buckets := h.buckets.map fun b =>
                 { b with tokens := min b.tokens (cp c 0 1), nextAt := refillAt (cp c 2 2) s.tb1Ns } }).answered opRecorderConfig c 0 [] []))

/-! ### Commands of the POWER, TEMPER and METRO groups (Tables 16.19 and 16.20) -/

/-- The commands of the POWER, TEMPER and METRO groups that pass every check: BUDGET and MEMBER wait for the next grant period, STATIC
sets the fallback grant and FLOOR_R to 2,047, CONFIG and TEMPER.CONFIG their parameters, STATUS and METRO.READ read (R346, R349, R353,
R355, R360, R368). Of each of these forms it says that exec answers the next state given, for every state and operand that meet the
conditions named: powerBudget, powerMember, powerStatic, powerConfig, powerStatus, temperConfig, metroRead. -/
def Obligations.PowerCommandsRun : Prop :=
  (∀ c s, Clean opPowerBudget c s → NoInput c → cp c 0 2 ≤ 1920 → s.gov.sumFloor 16 0 ≤ cp c 0 2 →
    exec (.powerBudget c) s = .next ((((s.begun opPowerBudget).modGov fun g => { g with budgetNext := some (cp c 0 2) }).stage 0x0D01
      .notice 0 (s.gov.budgetNext.getD s.gov.budget * 2 ^ 32 + cp c 0 2)).answered opPowerBudget c 0 [] []))
  ∧ (∀ c s m, m = MemberCfg.mk (BitVec.ofNat 18 (cp c 4 4)) (cp c 8 2) (cp c 10 2) (cp c 12 1) (cp c 13 1) (cp c 14 1) →
    Clean opPowerMember c s → NoInput c → cp c 4 4 < 2 ^ 18 → cp c 0 1 < 16 → cp c 8 2 ≤ cp c 10 2 → cp c 10 2 ≤ 1920 →
    1 ≤ cp c 12 1 → cp c 13 1 < 128 → s.gov.sumFloor (cp c 0 1) (cp c 8 2) ≤ s.gov.budgetNext.getD s.gov.budget →
    exec (.powerMember c) s = .next (((s.begun opPowerMember).modMem (cp c 0 1) fun x => { x with cfgNext := some m }).answered
      opPowerMember c 0 [] []))
  ∧ (∀ c s, Clean opPowerStatic c s → NoInput c → cp c 0 2 ≤ 1920 →
    exec (.powerStatic c) s = .next (((s.begun opPowerStatic).modGov fun g => { g with static := cp c 0 2 }).floorReset.answered
      opPowerStatic c 0 [] []))
  ∧ (∀ c s, Clean opPowerConfig c s → NoInput c → 5 ≤ cp c 0 2 → cp c 0 2 ≤ 500 →
    (s.isTray = true → 1 ≤ cp c 2 2 ∧ cp c 2 2 ≤ 10000 ∧ 1 ≤ cp c 4 2 ∧ cp c 4 2 ≤ 10000 ∧ cp c 6 1 ≤ 2) →
    exec (.powerConfig c) s = .next (((s.begun opPowerConfig).modGov fun g =>
      if s.isTray then { g with glTo := cp c 0 2 * 20000, grantRec := cp c 2 2, poll := cp c 4 2, speed := cp c 6 1 }
      else { g with glTo := cp c 0 2 * 20000 }).answered opPowerConfig c 0 [] []))
  ∧ (∀ c s, Clean opPowerStatus c s → NoInput c → s.isTray = false → (s.isDie = false → cp c 0 1 < 16) →
    exec (.powerStatus c) s = .next ((s.begun opPowerStatus).answered opPowerStatus c 0
      (be 2 s.geff ++ be 2 s.gov.req ++ be 2 s.fb ++ be 2 s.gov.static ++ be 1 (offByte s.gov.off) ++ zeros 7) []))
  ∧ (∀ c s m, m = s.mem (cp c 0 1) → Clean opPowerStatus c s → NoInput c → s.isTray = true → cp c 0 1 < 16 →
    exec (.powerStatus c) s = .next ((s.begun opPowerStatus).answered opPowerStatus c 0
      (be 2 m.acct ++ be 2 m.tgt ++ be 2 (match m.last with | some r => r.req | none => 0) ++ be 2 m.err ++ be 2 m.read.iout.toNat
        ++ be 2 m.read.vout.toNat ++ be 2 m.read.temp.toNat ++ zeros 2) []))
  ∧ (∀ c s, Clean opTemperConfig c s → NoInput c → 1 ≤ cp c 0 2 → cp c 0 2 ≤ 1440 → 4 ≤ cp c 2 1 → cp c 2 1 ≤ 80 → 1 ≤ cp c 3 1 →
    cp c 3 1 ≤ 16 → 1 ≤ cp c 4 1 → cp c 4 1 ≤ 255 → 1 ≤ cp c 5 1 → cp c 5 1 ≤ 64 → 1 ≤ cp c 6 1 → cp c 6 1 ≤ 64 → 1 ≤ cp c 8 2 →
    cp c 8 2 ≤ 2000 →
    exec (.temperConfig c) s = .next (((s.begun opTemperConfig).modTemper fun u =>
      { u with periodNext := some (cp c 0 2), band := cp c 2 1, qn := cp c 3 1, tgt := cp c 4 1, hyst := cp c 5 1, tps := cp c 6 1,
               warn := cp c 8 2 }).answered opTemperConfig c 0 [] []))
  ∧ (∀ c s, Clean opMetroRead c s → NoInput c → (ckWrite opMetroRead c 0).ok = true → cp c 0 1 ≤ 4 →
    exec (.metroRead c) s = .next ((s.begun opMetroRead).takenOn opMetroRead c 0
      (some { status := stOk, detail := 0, result := be 1 (s.assay.frames.take (cp c 0 1)).length,
              out := ((s.assay.frames.take (cp c 0 1)).map (·.bytes)).flatten })))

/-! ### Commands of the TEST group (Table 16.20) -/

/-- The commands of the TEST group that pass every check: CONFIG sets the plan that follows the one in progress, GRANT opens the window of
the pending request, DEFER leaves it pending, DONE compares the signature and closes the window, CLEAR lets a FAILED core be asked for,
STATUS reads (R375 to R377, R380, R382, R385). Of each of these forms it says that exec answers the next state given, for every state and
operand that meet the conditions named: testConfig, testGrant, testDefer, testDone, testClear, testStatus. -/
def Obligations.TestCommandsRun : Prop :=
  (∀ c s d ids, d = testInputs c (cp c 6 1) → ids = (List.range (cp c 6 1)).map (fun i => BitVec.ofNat 32 (rd d.2 (4 * i) 4)) →
    Clean opTestConfig c s →
    (if inlinePath c.path then (ckData opTestConfig c 0 (32 + 4 * cp c 6 1)).ok = true
      else (ckData opTestConfig c 0 32).ok = true ∧ (ckData opTestConfig c 1 (4 * cp c 6 1)).ok = true) →
    (∀ i ∈ ids, (s.item i).isSome = true) → 1 ≤ cp c 0 2 → cp c 0 2 ≤ 2160 → 1 ≤ cp c 2 2 → cp c 2 2 ≤ 720 → 1 ≤ cp c 4 2 →
    cp c 4 2 ≤ 1440 → cp c 6 1 ≤ 64 →
    exec (.testConfig c) s = .next (((s.begun opTestConfig).modTest fun u =>
      { u with tint := cp c 0 2, maxdef := cp c 2 2, reask := cp c 4 2, mask := d.1, planNext := some ids,
               req := if u.win.isNone then none else u.req }).askNext.answered opTestConfig c 0 [] []))
  ∧ (∀ c s r, Clean opTestGrant c s → NoInput c → s.test.req = some r → r.core = cp c 0 1 → 1000 ≤ cp c 4 4 → cp c 4 4 ≤ 10000000 →
    r.est ≤ cp c 4 4 → (∀ t, (s.tcore (cp c 0 1)).activeAt = some t → t + 103 < s.tb1Ns) →
    exec (.testGrant c) s = .next (((s.begun opTestGrant).openWindow r (cp c 4 4) (BitVec.ofNat 64 (cp c 8 8))).answered
      opTestGrant c 0 [] []))
  ∧ (∀ c s r, Clean opTestDefer c s → NoInput c → s.test.req = some r → r.core = cp c 0 1 →
    exec (.testDefer c) s = .next ((s.begun opTestDefer).answered opTestDefer c 0 [] []))
  ∧ (∀ c s w, Clean opTestDone c s → NoInput c → s.test.win = some w → w.kind = 0 → w.core = cp c 0 1 →
    exec (.testDone c) s = .next ((if cp c 8 8 = w.ksig.toNat then (s.begun opTestDone).closeWindow 0 0xFFFFFFFF 0
      else (s.begun opTestDone).closeWindow 1 0xFFFFFFFF (popcount64 (cp c 8 8 ^^^ w.ksig.toNat))).answered opTestDone c 0 [] []))
  ∧ (∀ c s, Clean opTestClear c s → NoInput c →
    exec (.testClear c) s = .next (((s.begun opTestClear).modTcore (cp c 0 1) fun x =>
      { x with failed := false, failed1 := false, overdue := false, dueAt := some s.tb0Ns }).askNext.answered opTestClear c 0 [] []))
  ∧ (∀ c s, Clean opTestStatus c s → NoInput c →
    ∃ st ≤ 3, exec (.testStatus c) s = .next ((s.begun opTestStatus).answered opTestStatus c 0
      (be 1 st ++ be 1 (s.tcore (cp c 0 1)).last ++ be 1 ((s.tcore (cp c 0 1)).pos % 64) ++ zeros 5
        ++ be 8 ((s.dueAt (cp c 0 1)).getD 0)) [])
      ∧ (st = 2 ↔ ∃ w, s.test.win = some w ∧ w.core = cp c 0 1))

/-! ### Commands of the UPDATE group (Table 16.21) -/

/-- The commands of the UPDATE group that pass every check: STAGE begins a stage of the slot it names, CHAIN sets the place of the block
in a chain, START asks the tray master or starts the trial, CONFIRM confirms a TRIAL image, STATUS reads (R425 to R435). Of each of these
forms it says that exec answers the next state given, for every state and operand that meet the conditions named: updateStage,
updateChain, updateStart, updateConfirm, updateStatus. -/
def Obligations.UpdateCommandsRun : Prop :=
  (∀ c s kind slot len, kind = cp c 0 1 → slot = cp c 1 1 → len = cp c 4 4 → Clean opUpdateStage c s → kind ≤ 3 →
    kindSlotOk kind slot = true → cp c 2 1 ≤ 1 → (cp c 2 1 = 0 → inlinePath c.path = false ∧ (ckData opUpdateStage c 0 len).ok = true) →
    (cp c 2 1 = 1 → NoInput c ∧ (s.chain kind slot).isSome = true) → len ≤ regionSize kind →
    (kind = 0 → slot ≠ s.hoist.running ∧ (s.dirEnt (dirIndex kind slot)).st ≠ .confirmed ∧ (s.dirEnt (dirIndex kind slot)).st ≠ .trial) →
    s.hoist.stage = none →
    ∃ t : State, ∃ g : Stage, g.kind = kind ∧ g.slot = slot ∧ g.src = cp c 2 1 ∧ g.len = len ∧ g.ended = false
      ∧ g.bytes = (if cp c 2 1 = 0 then cdata c 0 else []) ∧ t.hoist.stage = some g
      ∧ exec (.updateStage c) s = .next (State.stageStart (t.takenOn opUpdateStage c 0 none)))
  ∧ (∀ c s, Clean opUpdateChain c s → NoInput c → cp c 0 1 ≤ 3 → kindSlotOk (cp c 0 1) (cp c 1 1) = true → cp c 4 4 < 2 ^ 18 →
    cp c 8 4 < 2 ^ 18 →
    exec (.updateChain c) s = .next (State.pumpStage (((s.begun opUpdateChain).modHoist fun h =>
      { h with chains := (h.chains.filter fun x => !(x.kind == cp c 0 1 && x.slot == cp c 1 1)) ++
          [{ kind := cp c 0 1, slot := cp c 1 1, prev := BitVec.ofNat 18 (cp c 4 4), next := BitVec.ofNat 18 (cp c 8 4) }] }).answered
      opUpdateChain c 0 [] [])))
  ∧ (∀ c s t, Clean opUpdateStart c s → NoInput c → cp c 0 1 < 2 →
    ((s.dirEnt (cp c 0 1)).st = .valid ∨ (s.dirEnt (cp c 0 1)).st = .trial) → cp c 0 1 ≠ s.hoist.running →
    (s.isMaster = true → s.grantStands = false) → s.hoist.waitStart = none → s.hoist.trialAt = none →
    t = ((s.begun opUpdateStart).modHoist fun h =>
      { h with waitStart := some (cp c 0 1, s.tb1Ns, c.path, c.tag) }).takenOn opUpdateStart c 1 none →
    exec (.updateStart c) s = .next (if s.asksMaster then t.sendChunk (t.sys.master.getD 0) 2 0 (cp c 0 1) 0 0 0 0 0 []
      else t.startTrial (cp c 0 1) c.path c.tag))
  ∧ (∀ c s, Clean opUpdateConfirm c s → NoInput c → s.hoist.trialAt.isSome = true → s.fallDue = false →
    exec (.updateConfirm c) s = .next ((s.begun opUpdateConfirm).confirmTrial.answered opUpdateConfirm c 0 [] []))
  ∧ (∀ c s, Clean opUpdateStatus c s → NoInput c →
    exec (.updateStatus c) s = .next ((s.begun opUpdateStatus).answered opUpdateStatus c 0
      (be 1 s.hoist.running ++ be 1 s.hoist.fwState ++ zeros 2 ++ be 4 s.sys.fwver.toNat ++ be 4 s.cfgVer ++ be 4 s.healthLeft) []))

/-! ### What time does at the links (chapters 3 and 4 to 5) -/

/-- The rows of the links and streams, each once it is due: a pair's overflow frame leaves directly after the first, else a selection is
made, after the refills, shaper words and gate schedule that are due; a stale FWD head is dropped whole and counted; each microsecond of
TB1 gives the shapers RATE bytes up to BURST and the Sluice buckets their rates up to their depth, none while ENG does not run; a deferred
flush is made; a reconciliation or epoch record is due (R119, R121, R129 to R133, R138, R145, R148, R149, R54). Of each of these forms it
says that exec answers the next state given, for every state and operand that meet the conditions named: frameSelection, fwdFrameStale,
shaperRefill, sluiceRefill, teardownFlush, reconcilePeriod, epochRecordInterval. -/
def Obligations.LinkRowsRun : Prop :=
  (∀ (i : Iface) late s p, s.engUp = true → s.linkOk i.val = true → s.pow.phase = .running → (s.ifc i.val).second = some p →
    exec (.frameSelection i late) s = .next ((s.beforeSelection i.val).sendSecond i.val p late))
  ∧ (∀ (i : Iface) late s t, s.engUp = true → s.linkOk i.val = true → s.pow.phase = .running → (s.ifc i.val).second = none →
    t = s.beforeSelection i.val →
    exec (.frameSelection i late) s = .next (t.selectFrom i.val late (5 * (1 + ((t.hop.cfg.map fun g => g.queue.length).sum)
      + (((t.ifc i.val).cls.map fun k => k.fwd.length).sum))) [0, 1, 2, 3]))
  ∧ (∀ (i : Iface) (k : Fin 4) s f rest, s.engUp = true → ((s.ifc i.val).classQ k.val).fwd = f :: rest →
    f.arrived + 2000000000 < s.tb1Ns →
    exec (.fwdFrameStale i k) s = .next (((s.modClass i.val k.val ClassQ.fwdDrop).freeFwd f.cells).bump (0xF4 + k.val))
      ∧ ((ClassQ.fwdDrop ((s.ifc i.val).classQ k.val)).fwd = rest))
  ∧ (∀ x s n, (x = Instr.shaperRefill ∨ x = Instr.sluiceRefill) → s.aoUp = true → s.engUp = true → n = s.tb1Ns / 1000 →
    exec x s = .next (s.modHop fun u =>
      { u with shaperK := n, sluiceK := n,
               ifcs := s.hop.ifcs.map fun f =>
                 { f with cls := f.cls.map fun k => { k with tokens := min k.burst (k.tokens + (n - s.hop.shaperK) * k.rate) } },
               sluice := (s.hop.sluice.zip (sluiceAll s.sys.strap :: sluiceRate s.sys.strap)).map fun b =>
                 min (sluiceDepth s.sys.strap) (b.1 + (n - s.hop.sluiceK) * b.2) }))
  ∧ (∀ x s, (x = Instr.shaperRefill ∨ x = Instr.sluiceRefill) → s.aoUp = true → s.engUp = false →
    exec x s = .next (s.modHop fun u => { u with shaperK := s.tb1Ns / 1000, sluiceK := s.tb1Ns / 1000 }))
  ∧ (∀ s f rest, s.engUp = true → s.hop.flushes = f :: rest → (s.class1Empty = true ∨ f.2.1 + 2000000000 ≤ s.tb1Ns) →
    exec .teardownFlush s = .next (f.2.2.foldl (fun t q => t.send q) (s.modHop fun u => { u with flushes := rest })))
  ∧ (∀ (c : Fin 8) s b t, b = gridAt ((s.scfg c.val).reconMs * 1000000) s.tb0Ns → s.engUp = true → (s.scfg c.val).reconLast < b →
    t = (s.modCfg c.val fun x => { x with reconLast := b, reconMs := x.reconNext.getD x.reconMs, reconNext := none }) →
    exec (.reconcilePeriod c) s = .next (if h : c.val < 4 then
        (if c.val = 1 then State.consumerRecons else id)
          (if (s.out c.val).carried then
            (if ((t.settleEpoch ⟨c.val, h⟩ .every false).out c.val).carried then
              (t.settleEpoch ⟨c.val, h⟩ .every false).putRecon ⟨c.val, h⟩ else t.settleEpoch ⟨c.val, h⟩ .every false)
          else t)
      else t))
  ∧ (∀ (c : Fin 4) s, s.aoUp = true → (s.out c.val).lastEpoch + 999000000 ≤ s.tb1Ns → s.pow.phase = .running →
    exec (.epochRecordInterval c) s = .next (if s.engUp then s.putEpoch c
      else s.modOut c.val fun x => { x with epochOwed := true }))

/-! ### Models, cuts and channels in time (chapters 6 to 8) -/

/-- The rows of cuts and models, each once it is due: a cut window ends, the oldest cut closes, an evaluation starts or delivers, an
activation instant is reached, a load has been read or gave up, a Millrace step starts or ends, a rollout ends, a wait is over (R151,
R162, R164, R184, R188, R190, R192, R197, R206, R210, R214, R217, R220, R224, R431). Of each of these forms it says that exec answers the
next state given, for every state and operand that meet the conditions named: cutWindowEnd, cutClose, quernEvalStart, quernEvalComplete,
actAtReached, modelLoadComplete, modelBroadcastWaitExpiry, millraceStepStart, millraceStepComplete, rolloutComplete, residWaitExpiry,
eachWaitExpiry, sampleBoundary. -/
def Obligations.ModelRowsRun : Prop :=
  (∀ fleet s t, s.engUp = true → s.pow.phase = .running → t = s.skipWindows fleet →
    exec (.cutWindowEnd fleet) s = .next
      (t.windowsTo fleet ((s.tb0Ns - (t.level fleet).lastT) / 1000000 + 1)).handOver)
  ∧ (∀ fleet s t, s.engUp = true → s.combines = true → t = s.switchDue.closeAll fleet →
    exec (.cutClose fleet) s = .next (t.finishCuts fleet (t.level fleet).closing.length).quernSettleAll)
  ∧ (∀ (i : Fin 16) s v key, key = (fun (j : Nat) (w : QVec) => (w.stamp * 16 + j) * 2 ^ 18 + w.src.toNat) → s.engUp = true →
    (s.qh i.val).h.st = .active → v ∈ (s.qh i.val).pend →
    (∀ j < 16, (s.qh j).h.st = .active → ∀ w ∈ (s.qh j).pend, (j = i.val ∧ w = v) ∨ key i.val v < key j w) →
    (s.model.quern.map fun q => q.run.length).sum < 64 →
    exec (.quernEvalStart i) s = .next (s.modQ i.val fun x =>
      { x with pend := dropFirst (fun y => y == v) x.pend, run := x.run ++ [v] }))
  ∧ (∀ (i : Fin 16) s v rest m, s.engUp = true → (s.qh i.val).run = v :: rest → (s.qh i.val).model = some m →
    exec (.quernEvalComplete i) s = .next (((if (s.qh i.val).h.st = .stopped then
        (s.modQ i.val fun x => { x with run := rest }).deliver i.val v true [] 0
      else (s.modQ i.val fun x => { x with run := rest }).deliver i.val v false (m.eval v.codes)
        ((v.codes.filter (· == 0xFFFF)).length)).quernSettleAll).unloadSettle i.val))
  ∧ (∀ mill (i : Fin 16) s a, s.engUp = true → (s.hnd mill i.val).actAt = some a → a ≤ s.tb0Ns →
    (s.hnd mill i.val).st = .loaded →
    exec (.actAtReached mill i) s = .next (s.switchOn mill i.val a).quernSettleAll.millSettleAll)
  ∧ (∀ mill (i : Fin 16) s h, h = s.hnd mill i.val → s.engUp = true → h.st = .loading → h.lsrc ≠ 2 →
    exec (.modelLoadComplete mill i) s = .next (s.loadCheck mill i.val (if h.lsrc = 0 then lget s.flash.models h.slot [] else h.image)))
  ∧ (∀ mill (i : Fin 16) s h, h = s.hnd mill i.val → s.engUp = true → h.st = .loading → h.lsrc = 2 → h.next = 0 →
    h.loadAt + s.hoistWait ≤ s.tb1Ns →
    exec (.modelBroadcastWaitExpiry mill i) s = .next (s.loadFail mill i.val stTimeout))
  ∧ (∀ (ch : Fin 4096) s c i m, s.engUp = true → s.chan ch.val = some c → c.running = none → i ∈ c.pend →
    (∀ e ∈ s.model.chans, e.2.running = none → ∀ j ∈ e.2.pend,
      (e.1 = ch.val ∧ j = i) ∨ i.stamp * 4096 + ch.val < j.stamp * 4096 + e.1) →
    s.millActive (c.stepHandle i.stamp) = some m →
    exec (.millraceStepStart ch) s = .next (s.stepStart ch.val i).millSettleAll ∧
      ∃ x, (s.stepStart ch.val i).chan ch.val = some x ∧ x.running = some i ∧ x.pend = dropFirst (fun y => y == i) c.pend
        ∧ x.handle = c.stepHandle i.stamp)
  ∧ (∀ (ch : Fin 4096) s c i, s.engUp = true → s.chan ch.val = some c → c.running = some i →
    exec (.millraceStepComplete ch) s = .next (s.stepDone ch.val).heldSettle.millSettleAll)
  ∧ (∀ path tag s r, s.engUp = true → s.model.rollouts.find? (fun x => x.path == path && x.tag == tag) = some r →
    exec (.rolloutComplete path tag) s = .next (
      (s.modModel fun u => { u with rollouts := u.rollouts.filter fun x => !(x.path == path && x.tag == tag) }).modCmd fun c =>
        { c with acc := c.acc.map fun a => if a.path == path && a.tag == tag && a.opcode == 0x0608 then
            { a with ready := some (finOk 0 (be 8 r.stamp ++ be 4 r.cep ++ be 4 r.n) (r.vals.map (be 4)).flatten) } else a }))
  ∧ (∀ (i : Fin 16) s due, due = (fun (v : HeldVec) => v.set == i.val && s.past0 (v.stamp + s.model.residWait)) →
    s.engUp = true → s.model.held.any due = true →
    exec (.residWaitExpiry i) s = .next ((s.model.held.filter due).foldl (fun t v => t.releaseVec v)
        (s.modModel fun u => { u with held := u.held.filter fun v => !due v })).quernSettleAll)
  ∧ (∀ (i : Fin 16) src s due t, due = (s.model.remote.filter fun a => a.src == src && s.past0 (a.stamp + s.model.eachWait)) →
    t = due.foldl (fun t a => if (t.eachTakers a).contains i.val then t.startEach i.val a else t) s.switchDue → s.engUp = true →
    exec (.eachWaitExpiry i src) s = .next (due.foldl (fun t a =>
      (t.remoteTakers a).foldl (fun u e => u.millRemote e.1 a) t) t).quernSettleAll.millSettleAll)
  ∧ (∀ (i : Fin 16) s t x b n, t = s.switchDue → x = t.set i.val → b = gridAt x.win t.tb0Ns → n = x.passed t.tb0Ns + x.merged →
    t.aoUp = true → x.lastK < b → (i.val ≠ 0 → t.engUp = true ∧ t.pow.pstate = .run ∧ t.pow.entry = none) → x.running = true →
    x.baseline = false →
    exec (.sampleBoundary i true) s = .next ((((t.modSet i.val fun y => { y with lastK := b }).emitSample i.val t.tb0Ns n false).afterSample
      i.val n x.winStart x false).setApply i.val) ∧
    exec (.sampleBoundary i false) s = .next (((t.modSet i.val fun y => { y with lastK := b }).modSet i.val fun y =>
      { y with merged := n, nlate := satAdd 32 y.nlate 1 }).bump cSampleLate))
  ∧ (∀ (i : Fin 16) drained s t x b, t = s.switchDue → x = t.set i.val → b = gridAt x.win t.tb0Ns → t.aoUp = true → x.lastK < b →
    (i.val ≠ 0 → t.engUp = true ∧ t.pow.pstate = .run ∧ t.pow.entry = none) →
    x.running = false → exec (.sampleBoundary i drained) s = .next (
      (if x.banks = 0 then t.modSet i.val fun y => { y with lastK := b }
       else (t.modSet i.val fun y => { y with lastK := b }).baselineCopy i.val).setApply i.val))
  ∧ (∀ (i : Fin 16) drained s t x b n, t = s.switchDue → x = t.set i.val → b = gridAt x.win t.tb0Ns →
    n = x.passed t.tb0Ns + x.merged → t.aoUp = true → x.lastK < b →
    (i.val ≠ 0 → t.engUp = true ∧ t.pow.pstate = .run ∧ t.pow.entry = none) → x.running = true → x.baseline = true →
    exec (.sampleBoundary i drained) s = .next (
      (((t.modSet i.val fun y => { y with lastK := b }).sendSample t.tb0Ns 0 (asleepBody i.val x.tag n x.winStart)).baselineCopy
        i.val).setApply i.val))

/-! ### Verdicts and the sentry in time (chapters 9 and 10) -/

/-- The rows of Verdict and Touchstone that time brings, each once it is due: a bucket refills and releases a demoted entry, an instance
closes or sends its batch, a die falls silent or disagrees, a step settles, a replay gives up (R238, R240, R242, R243, R247, R254, R260).
Of each of these forms it says that exec answers the next state given, for every state and operand that meet the conditions named:
expelBucketRefill, arrWaitExpiry, batchWaitExpiry, silentToExpiry, disHoldExpiry, snoopSettleExpiry, replayToExpiry. -/
def Obligations.VerdictRowsRun : Prop :=
  (∀ fleet s t, s.aoUp = true → ((s.holder fleet).k + 1) * 1000000000 ≤ s.tb1Ns → (s.holder fleet).demoted = [] →
    t = (s.modHolder fleet fun h => { h with k := h.k + 1, tokens := min (h.depth * 3600000) (h.tokens + h.rate) }) →
    exec (.expelBucketRefill fleet) s = .next t)
  ∧ (∀ fleet s t v rest, t = s.expelRefill fleet → t.engUp = true → (t.holder fleet).demoted = v :: rest →
    3600000 ≤ (t.holder fleet).tokens → t.past1 ((t.holder fleet).k * 1000000000) = true →
    exec (.expelBucketRefill fleet) s = .next ((t.modHolder fleet fun h => { h with demoted := rest }).takeExpel fleet t.tb0Ns
      { v with vflags := if v.vflags / 4 % 2 = 1 then v.vflags else v.vflags + vfReleased }))
  ∧ (∀ job coll step s i, s.engUp = true → s.judges job = true → s.verd.insts.find? (sameInst job coll step) = some i →
    s.past0 (i.opened + s.verd.arrWait) = true → exec (.arrWaitExpiry job coll step) s = .next (s.closeInst i))
  ∧ (∀ job coll step s i, s.engUp = true → s.judges job = false → s.verd.insts.find? (sameInst job coll step) = some i →
    i.opened + s.verd.arrWait / 4 ≤ s.tb0Ns → s.arrivalsReady i = true → (∃ a ∈ i.arrivals, a.addr ∉ i.sent) →
    exec (.batchWaitExpiry job coll step) s = .next (s.sendBatch i))
  ∧ (∀ die s, s.engUp = true → exec (.silentToExpiry die) s = .next (s.reviewDie die))
  ∧ (∀ die s t d due, s.engUp = true → s.isMaster = true → t = s.reviewDie die → tget t.verd.dies die.toNat = some d →
    due = (d.dis.filter fun x => !x.onset && s.past1 (x.since1 + s.verd.disHold)) →
    exec (.disHoldExpiry die) s = .next ((due.foldl (fun u x =>
        u.sendDisagree die x (t.deadBasis die == 0) (t.deadBasis die != 0) false (t.deadBasis die)) t).modVerd fun u =>
      { u with dies := tmod u.dies die.toNat fun v =>
        { v with dis := v.dis.map fun x => if due.contains x then { x with onset := true } else x } }))
  ∧ (∀ step s x e, s.engUp = true → s.tstep step = some x → x.closed = false → x.ended = some e → s.past1 (e + s.sentry.settle) = true →
    ∃ t : State, t = s.closeStep step false ∧
    exec (.snoopSettleExpiry step) s = .next ((t.sentry.hosted.filter fun h => h.step == step && h.running && (match h.ended with
      | some e => s.past1 (e + s.sentry.settle) | none => false)).foldl (fun t h => t.answerReplay h) t))
  ∧ (∀ step s x, s.engUp = true → s.tstep step = some x → (x.rep = .partner ∨ x.rep = .alternate) → s.past1 (x.asked + s.sentry.replayTo) = true →
    exec (.replayToExpiry step) s = .next ((s.modSentry fun u => { u with hosted := u.hosted.filter fun h =>
      !(h.step == step && s.past1 (h.asked + s.sentry.replayTo)) }).refused x))

/-! ### What the die shows the sentry and the trace unit (chapters 10 and 12) -/

/-- Markers and packets of the TRC port, each well formed: a frame of a watched WID counts in the step its LO names, a step marker drives
the sentry, the replays and the watches, a collective marker records an arrival, a stream marker gives its channels an input, a packet of
a source goes to the trace, one with a bad parity is counted (R241, R250, R255, R256, R260, R308, R309, R311, R322). Of each of these
forms it says that exec answers the next state given, for every state and operand that meet the conditions named: snoopFrame, tracePacket,
tensorPacket, stepMark, collMark, streamMark. -/
def Obligations.TracePortRowsRun : Prop :=
  (∀ port f s x, s.isDie = true → s.engUp = true → s.portUp .stamp = true → f.replay = false →
    (s.sentry.steps.find? fun y => !y.closed && y.step.toNat % 256 == f.stepLo.toNat && y.stats.any fun w => w.wid == f.wid.toNat)
      = some x →
    exec (.snoopFrame port f) s = .next (s.modTstep x.step fun y =>
      { y with stats := y.stats.map fun w => if w.wid == f.wid.toNat then w.frame f else w }))
  ∧ (∀ p s, s.trcReady = true → tpGood p = true → tpKind p < 3 →
    exec (.tracePacket p) s = .next (s.traceEntry p (tpClass p) (tpPriv p)))
  ∧ (∀ p s, s.trcReady = true → tpGood p = false →
    exec (.tracePacket p) s = .next (s.bump cTapParity) ∧ exec (.tensorPacket p) s = .next (s.tensorRefill.bump cTapParity)
      ∧ exec (.stepMark p) s = .next (s.bump cTapParity) ∧ exec (.collMark p) s = .next (s.bump cTapParity)
      ∧ exec (.streamMark p) s = .next (s.bump cTapParity))
  ∧ (∀ p s t job step, s.trcReady = true → tpGood p = true → tpKind p = 0x10 → bit (tpArg p) 38 = false → bit (tpArg p) 39 = false →
    job = BitVec.ofNat 32 (tpWord p 0 / 2 ^ 32) → step = BitVec.ofNat 64 (tpWord p 1) →
    t = (s.modTrace fun u => { u with lastStep := step }).sentryMark job step false false (BitVec.ofNat 18 (tpWord p 0)) →
    exec (.stepMark p) s = .next ((t.watchIds.foldl (fun u w => u.watchBegin w job step) t).markCopy p))
  ∧ (∀ p s t job step, s.trcReady = true → tpGood p = true → tpKind p = 0x10 → bit (tpArg p) 38 = false → bit (tpArg p) 39 = true →
    job = BitVec.ofNat 32 (tpWord p 0 / 2 ^ 32) → step = BitVec.ofNat 64 (tpWord p 1) →
    t = s.sentryMark job step true false (BitVec.ofNat 18 (tpWord p 0)) →
    exec (.stepMark p) s = .next ((t.watchIds.foldl (fun u w => u.watchEnd w job step) t).markCopy p))
  ∧ (∀ p s t job step subj, s.trcReady = true → tpGood p = true → tpKind p = 0x10 → bit (tpArg p) 38 = true →
    job = BitVec.ofNat 32 (tpWord p 0 / 2 ^ 32) → step = BitVec.ofNat 64 (tpWord p 1) → subj = BitVec.ofNat 18 (tpWord p 0) →
    t = (s.modTrace fun u =>
      { u with replays := if bit (tpArg p) 39 then u.replays.filter fun x => !(x == (job, step, subj))
          else if u.replays.contains (job, step, subj) then u.replays else u.replays ++ [(job, step, subj)] }).sentryMark job step
        (bit (tpArg p) 39) true subj →
    exec (.stepMark p) s = .next ((if bit (tpArg p) 39 then t else t.watchIds.foldl (fun u w => u.watchApply w) t).markCopy p))
  ∧ (∀ p s job, s.trcReady = true → tpGood p = true → tpKind p = 0x11 → s.isMaster = false →
    job = BitVec.ofNat 32 (tpWord p 0 / 2 ^ 32) →
    exec (.collMark p) s = .next (((s.modVerd fun u => { u with marks := tput u.marks job.toNat (s.tb0Ns, s.tb1Ns) }).send
      { dst := .up, cls := 1, typ := tLateness, unit := uVerdict, flags := 0, stamp := some s.tb0Ns,
        body := be 4 job.toNat ++ be 2 (BitVec.ofNat 16 (tpArg p)).toNat ++ be 1 0 ++ be 1 0
          ++ be 8 (BitVec.ofNat 64 (tpWord p 1)).toNat ++ be 1 (s.arrivalHints job) }).markCopy p))
  ∧ (∀ p s t, s.trcReady = true → tpGood p = true → tpKind p = 0x12 → t = s.switchDue →
    (∀ e ∈ t.model.chans, e.2.kind = 2 → e.2.stream ≠ bits (tpArg p) 35 24) → exec (.streamMark p) s = .next (t.markCopy p))
  ∧ (∀ p s t e v, s.trcReady = true → tpGood p = true → tpKind p = 0x12 → t = s.switchDue → t.model.chans = [e] → e.2.kind = 2 →
    e.2.stream = bits (tpArg p) 35 24 →
    v = (fun (i : Nat) => if i = 1 then tpWord p 1 / 2 ^ 32 else if i = 2 then tpWord p 1 % 2 ^ 32
      else if i = 3 then tpWord p 2 / 2 ^ 32 else tpWord p 2 % 2 ^ 32) →
    exec (.streamMark p) s = .next (((t.pushInput e.1
      { stamp := s.tb0Ns, gap := (match e.2.prev with | some q => q.2 + 1 != tpWord p 0 | none => false),
        raws := e.2.idx.map fun j => if j = 0 then e.2.prev.map fun q => (s.tb0Ns : Int) - q.1 else some ((v j : Nat) : Int) }).modChan
          e.1 fun x => { x with prev := some (s.tb0Ns, tpWord p 0) }).markCopy p))
  ∧ (∀ p s t w d e, t = s.tensorRefill → t.trcReady = true → tpGood p = true → tpKind p = 0x20 → w = bits (tpArg p) 39 34 →
    (t.twatch w).ent = some e → (t.twatch w).open' = some d → t.trace.replays ≠ [] →
    exec (.tensorPacket p) s = .next (t.discardTensor w 0))
  ∧ (∀ p s t w data e d k, t = s.tensorRefill → t.trcReady = true → tpGood p = true → tpKind p = 0x20 → w = bits (tpArg p) 39 34 →
    (t.twatch w).ent = some e → (t.twatch w).open' = some d → k = snoopSize e.etype →
    data = ((p.words.drop 1).map fun v => be 8 v.toNat).flatten → t.trace.replays = [] →
    t.traceOcc + 8 + 8 * tpNw p ≤ t.trace.limit (tpClass p) → e.posLo ≤ tpArg p % 2 ^ 24 →
    tpArg p % 2 ^ 24 ≤ e.posHi → e.offLo ≤ tpWord p 0 → tpWord p 0 + data.length / k ≤ e.offLo + e.nelem → data.length ≤ d.left →
    data.length ≤ t.trace.tokens → d.data = [] →
    ∃ r : Dump × State,
      r = State.pumpDump w e false (bit (tpArg p) 33) (data.length + 2)
        { d with pos := tpArg p % 2 ^ 24, off := tpWord p 0, data := data, pkts := d.pkts ++ [data.length],
                 left := d.left - data.length }
        (t.modTrace fun u => { u with tokens := u.tokens - data.length }) ∧
      exec (.tensorPacket p) s = .next (r.2.putTwatch w { r.2.twatch w with open' := some r.1 }))

/-! ### The trace unit, the recorder, Temper and Assay in time (chapters 12 to 14) -/

/-- The rows of Tailrace that time brings, each once it is due (R312, R313, R316, R324). Of each of these forms it says that exec answers
the next state given, for every state and operand that meet the conditions named: syncPeriodBoundary, trFlushExpiry, tensorBucketRefill,
authExpiry, authLockoutEnd. -/
def Obligations.TraceRowsRun : Prop :=
  (∀ s k t, k = gridAt s.trace.syncP s.tb0Past → s.engUp = true → s.trcReady = true → s.trace.syncK < k →
    t = (s.modTrace fun u => { u with syncK := k, syncP := u.syncNext.getD u.syncP, syncNext := none }).fullIfDue →
    exec .syncPeriodBoundary s = .next (if t.trace.inUse false || t.trace.inUse true then t.placeSync false s.tb0Ns else t))
  ∧ (∀ cls s r, s.engUp = true → (if cls then s.trace.open3 else s.trace.open2) = some r →
    s.past1 (r.opened + s.trace.flush) = true → exec (.trFlushExpiry cls) s = .next (s.closeTrace cls))
  ∧ (∀ s, exec .tensorBucketRefill s = .next (s.modTrace fun u =>
      { u with twK := s.tb1Ns / 1000,
               tokens := if s.engUp then min u.twDepth (u.tokens + (s.tb1Ns / 1000 - u.twK) * u.twRate) else u.tokens }))
  ∧ (∀ s a, s.aoUp = true → s.trace.auth = some a → a.til ≤ s.tb0Ns → exec .authExpiry s = .next s.endAuth)
  ∧ (∀ s t, s.aoUp = true → s.trace.lockAt = some t → t + hourNs ≤ s.tb1Ns →
    exec .authLockoutEnd s = .next (s.modTrace fun u => { u with lockAt := none, refusals := [] }))

/-- The rows of Hallmark that time brings, each once it is due: the record being written is in the log and its entry WRITTEN, with the
head reclaimed once it is full; the buckets gain their tokens; the operating time counts, with HOURS every 80 units (R334 to R337, R339).
Of each of these forms it says that exec answers the next state given, for every state and operand that meet the conditions named:
hallmarkFlashWriteDone, rlBucketRefill, flashBucketRefill, optTick. -/
def Obligations.RecorderRowsRun : Prop :=
  (∀ s e t, s.aoUp = true → s.hall.ents.find? (fun x => x.begun && !x.written) = some e → s.hall.nextSlot + 1 < 128 →
    t = ((s.programRec (s.hall.head * 128 + s.hall.nextSlot) e.r).modHall fun h =>
      { h with log := tput h.log (h.head * 128 + h.nextSlot) (.holds e.r), nextSlot := h.nextSlot + 1,
               ents := markEnt h.ents e.r.seq fun x => { x with written := true } }) →
    exec .hallmarkFlashWriteDone s = .next t.hallSettle)
  ∧ (∀ s e t u, s.aoUp = true → s.hall.ents.find? (fun x => x.begun && !x.written) = some e → s.hall.nextSlot = 127 →
    t = ((s.programRec (s.hall.head * 128 + s.hall.nextSlot) e.r).modHall fun h =>
      { h with log := tput h.log (h.head * 128 + h.nextSlot) (.holds e.r), nextSlot := h.nextSlot + 1,
               ents := markEnt h.ents e.r.seq fun x => { x with written := true } }) →
    u = (List.range (carryList t.hall.log (clearSeq t.hall.all) ((t.hall.head + 2) % 32)).length).foldl (fun v i =>
      match (carryList t.hall.log (clearSeq t.hall.all) ((t.hall.head + 2) % 32))[i]? with
      | some x => v.programRec ((t.hall.head + 1) % 32 * 128 + i) { x with carried := true }
      | none => v) t →
    exec .hallmarkFlashWriteDone s = .next ((((u.eraseFlash (hallArea + (t.hall.head + 2) % 32 * 4096) 4096).modHall fun h =>
      h.reclaim.1).overwriteLoss t.hall.reclaim.2.1 t.hall.reclaim.2.2).hallSettle))
  ∧ (∀ code s b n, s.aoUp = true → s.hall.buckets.find? (fun x => x.code == code) = some b → b.nextAt ≤ s.tb1Ns →
    (∀ x ∈ s.hall.buckets, x.code = code → x = b) → n = (s.tb1Ns - b.nextAt) / (s.hall.rlInt * 1000000000) + 1 →
    exec (.rlBucketRefill code) s = .next ((s.modHall fun h => { h with buckets := h.buckets.map fun x =>
      if x.code == code then { x with tokens := min h.rlDepth (x.tokens + n), supp := 0,
                                      nextAt := x.nextAt + n * (h.rlInt * 1000000000) } else x }).suppressed true b))
  ∧ (∀ code s b n, s.aoUp = true → s.hall.buckets.find? (fun x => x.code == code) = none → b = s.hall.common → b.nextAt ≤ s.tb1Ns →
    n = (s.tb1Ns - b.nextAt) / 1000000000 + 1 →
    exec (.rlBucketRefill code) s = .next ((s.modHall fun h => { h with common :=
      { b with tokens := min 16 (b.tokens + n), supp := 0, nextAt := b.nextAt + n * 1000000000 } }).suppressed true b))
  ∧ (∀ s, s.aoUp = true → s.hall.flashAt + 1000000000 ≤ s.tb1Ns →
    exec .flashBucketRefill s = .next (s.modHall fun h =>
      HallUnit.beginWrite { h with flash := min h.flDepth (h.flash + h.flRate), flashAt := h.flashAt + 1000000000 }))
  ∧ (∀ s o t, s.aoUp = true → s.hall.optAt + 360000000000 ≤ s.tb1Ns → o = satAdd 24 s.hall.opt.toNat 1 →
    t = (s.modHall fun h => { h with opt := BitVec.ofNat 24 o, optAt := h.optAt + 360000000000 }) →
    exec .optTick s = .next (if o % 80 = 0 then t.stage 0x0C02 .info 0 0 else t))

/-- The rows of Temper: a period boundary begins a measurement inside the band, and the measurement ends in one record and at most one
plan (R360, R361). Of each of these forms it says that exec answers the next state given, for every state and operand that meet the
conditions named: tmPeriodBoundary, temperMeasurementDone. -/
def Obligations.TemperRowsRun : Prop :=
  (∀ temp s b, b = gridAt (s.temper.period * 60000000000) s.tb0Ns → s.aoUp = true → s.ctlUp = true → s.engUp = true →
    s.temper.lastK < b → (∀ w, s.test.win = some w → w.kind = 0) → temp - Config.temperT0 ≤ (s.temper.band : Int) →
    Config.temperT0 - temp ≤ (s.temper.band : Int) →
    exec (.tmPeriodBoundary temp) s = .next (s.modTemper fun t =>
      { t with lastK := b, period := t.periodNext.getD t.period, periodNext := none, busy := some temp }))
  ∧ (∀ slack ros w s temp, s.temper.busy = some temp → s.ctlUp = true → s.engUp = true →
    ∃ t : State, ∃ body : List Byte, exec (.temperMeasurementDone slack ros w) s =
        .next (t.send { dst := .up, cls := 2, typ := tTemperPlan, unit := uTemper, flags := 0, stamp := none, body := body })
      ∧ t.temper.busy = none ∧ t.temper.mseq = s.temper.mseq + 1
      ∧ t.temper.noAnswer = s.temper.noAnswer + (slack.filter Option.isNone).length)

/-- The rows of Assay: METRO comes up and goes down, a calibration bank is written, a conversion starts each 125 microseconds, a pair
within 100 microseconds is accumulated, a missing one is stood in for or counted as a gap, and a readout frame leaves (R26, R364 to R368,
R475). Of each of these forms it says that exec answers the next state given, for every state and operand that meet the conditions named:
pgMetroAssert, pgMetroDeassert, assayCalibrationWrite, assayConversion, assaySamplePair, assayPairMissing, assayReadoutFrame. -/
def Obligations.AssayRowsRun : Prop :=
  (∀ calEn s, s.metro.up = false →
    exec (.pgMetroAssert calEn) s = .next ((s.modMetro fun _ => { metroReset s.metro.banks with up := true, calOpen := calEn }).modPow
      fun u => { u with pgMetro := true, metroHeld := false }))
  ∧ (∀ s, exec .pgMetroDeassert s = .next ((s.modMetro fun _ => metroReset s.metro.banks).modPow fun u =>
      { u with pgMetro := false, metroHeld := true }))
  ∧ (∀ data s, s.metro.up = true → s.metro.calOpen = true → s.metro.banks.length < 4 → data.length = 52 →
    exec (.assayCalibrationWrite data) s = .next (s.modMetro fun m => { m with banks := m.banks ++
      [{ offV := signed 32 (rd data 0 4), offI := signed 32 (rd data 4 4), ke := rd data 8 8, kv := rd data 16 10,
         ki := rd data 26 10, key := slice data 36 16 }] }))
  ∧ (∀ s, s.metro.up = true → s.metro.convK < s.metro.ns / 125000 → s.metro.conv = none →
    exec .assayConversion s = .next (s.modMetro fun m => { m with convK := m.ns / 125000, conv := some m.ns }))
  ∧ (∀ s t, s.metro.up = true → s.metro.convK < s.metro.ns / 125000 → s.metro.conv = some t →
    exec .assayConversion s = .next (s.modMetro fun m => { m.missPair with convK := m.ns / 125000, conv := some m.ns }))
  ∧ (∀ v i s t cv ci k p, s.metro.up = true → s.metro.conv = some t → s.metro.ns ≤ t + 100000 → cv = signed 24 v.toNat →
    ci = signed 24 i.toNat → k = s.metro.cal → p = (cv - k.offV) * (ci - k.offI) →
    exec (.assaySamplePair v i) s = .next (s.modMetro fun m =>
      { m with accImp := if 0 < p then (m.accImp + p.toNat) % 2 ^ 128 else m.accImp,
               accExp := if p < 0 then (m.accExp + (-p).toNat) % 2 ^ 128 else m.accExp,
               pmax := some (match m.pmax with | some q => max q p | none => p), conv := none, lastP := p, missRun := 0,
               sense := false, nsamp := m.nsamp + 1, clipV := m.clipV || clipped cv, clipI := m.clipI || clipped ci,
               sumV := m.sumV + (cv - k.offV), sumI := m.sumI + (ci - k.offI), n := m.n + 1 }))
  ∧ (∀ s t, s.metro.up = true → s.metro.conv = some t → t + 100000 < s.metro.ns →
    exec .assayPairMissing s = .next (s.modMetro fun m =>
      if m.sense then { m with conv := none, nmiss := satAdd 32 m.nmiss 1, missRun := m.missRun + 1, gapPairs := m.gapPairs + 1 }
      else { m.accumulate m.lastP with conv := none, nmiss := satAdd 32 m.nmiss 1, missRun := m.missRun + 1,
                                       sense := decide (8 ≤ m.missRun + 1) }))
  ∧ (∀ s b, s.metro.up = true → (s.metro.pulseDue = true ∨ s.metro.lastFrame + 1250000000 ≤ s.metro.ns) →
    b = s.metro.frame (s.metro.rseq + 1) →
    exec .assayReadoutFrame s = .next (((s.modMetro fun m =>
      { m with rseq := m.rseq + 1, lastFrame := m.ns, pulseDue := false, clipV := false, clipI := false, sumV := 0, sumI := 0,
               n := 0, pmax := none }).emit (.readout b)).assayTake b))

/-! ### The Recovery Brake in time (chapter 11) -/

/-- The rows of the Brake, each once it is due (R274 to R304): a beat, the end of a period of the firmware, of a block and of the internal
watch, the waits of the boot, of the engine confirmation, of the ladder and of its requests, of a peer's link, of a capture, of its side
reads and its write, of the context search. Of each of these forms it says that exec answers the next state given, for every state and
operand that meet the conditions named: hbPinBeat, heartbeatPeriodEnd, bootToExpiry, engConfToExpiry, blockBeatPeriodEnd,
internalWatchPeriod, recovToExpiry, coldRung, reqToExpiry, resetRequestRelease. -/
def Obligations.BrakeRowsRun : Prop :=
  (∀ s, s.portUp .hb = true → s.brake.cfg.src ≠ 0 → s.hbStopped = false → exec .hbPinBeat s = .next s.takeBeat)
  ∧ (∀ s k t, k = gridAt s.brake.cfg.period s.tb0Past → s.aoUp = true → s.brake.hbK < k →
    t = (s.modBrake fun b =>
      { b with hbK := k, hbSteps := s.time.steps, beaten := false, cfg := { b.cfg with period := b.hbNext.getD b.cfg.period },
               hbNext := none }) →
    exec .heartbeatPeriodEnd s = .next (if s.brake.watch = .armed then
      t.judgePeriod (s.brake.beaten || s.time.steps != s.brake.hbSteps) else t))
  ∧ (∀ s t, s.aoUp = true → s.brake.watch = .waiting (some t) → s.past1 (t + s.brake.cfg.bootTo) = true →
    exec .bootToExpiry s = .next (s.modBrake fun b => { b with watch := .armed, miss := 0, closed := false, beaten := true }))
  ∧ (∀ s e, s.aoUp = true → s.brake.eng = some e → s.past1 (e.since + s.brake.cfg.engConfTo) = true →
    exec .engConfToExpiry s = .next ((match s.engHangV with | some v => s.confirmHang v | none => s).modBrake fun b =>
      { b with eng := none }))
  ∧ (∀ m s b k, k = gridAt (s.brake.blkP b.k) s.tb0Past → s.brake.blocks.find? (fun x => x.addr == m) = some b → s.aoUp = true →
    s.isMaster = true → s.sys.members.any (fun x => x.addr == m) = true → b.k < k →
    exec (.blockBeatPeriodEnd m) s = .next (s.judgeBlock b k))
  ∧ (∀ s k, k = s.tb1Ns / 1000000 → s.aoUp = true → k ≠ s.brake.intK → s.ctlUp = true → s.brake.ctlMiss = 3 →
    ∃ t : State, exec (.internalWatchPeriod false true) s = .next (t.confirmInternal 3) ∧ t.brake.intK = k ∧ t.brake.ctlMiss = 4)
  ∧ (∀ s k, k = s.tb1Ns / 1000000 → s.aoUp = true → k ≠ s.brake.intK →
    ∃ t : State, exec (.internalWatchPeriod true true) s = .next t ∧ t.brake.intK = k ∧ t.brake.ctlMiss = 0 ∧ t.brake.engMiss = 0)
  ∧ (∀ s l t, s.aoUp = true → s.brake.ladder = some l → l.rung = .recover t → s.past1 (t + s.brake.cfg.recovTo) = true →
    exec .recovToExpiry s = .next (s.setRung .coldWait).tryCold)
  ∧ (∀ s, s.aoUp = true → exec .coldRung s = .next s.tryCold)
  ∧ (∀ s t, s.aoUp = true → s.ignored s.brake.reqWarm = true → s.ignored s.brake.reqCold = false → s.brake.ladder = none →
    t = (s.modBrake fun b => { b with reqWarm := none }).stage 0x0A02 .fault 0 0 →
    exec .reqToExpiry s = .next (t.ownNotice 6 0xFF 0 0xFF 0xFF dWarm 0 0))
  ∧ (∀ s t, s.aoUp = true → s.ignored s.brake.reqWarm = false → s.ignored s.brake.reqCold = true → s.sys.oos = false →
    s.brake.ladder = none → t = (s.modBrake fun b => { b with reqCold := none }).stage 0x0A02 .fault 1 0 →
    exec .reqToExpiry s = .next (t.ownNotice 6 0xFF 0 0xFF 0xFF dCold 0 0).endLadder)
  ∧ (∀ s, s.aoUp = true → s.sys.oos = false → s.mayRelease s.brake.reqCold = true →
    exec (.resetRequestRelease true) s = .next (s.modBrake fun b => { b with reqCold := none }))
  ∧ (∀ s, s.aoUp = true → s.mayRelease s.brake.reqWarm = true →
    exec (.resetRequestRelease false) s = .next (s.modBrake fun b => { b with reqWarm := none }))

/-- The rows that follow a confirmed hang or a lost peer, each once it is due (R288, R295 to R304, R472). Of each of these forms it says
that exec answers the next state given, for every state and operand that meet the conditions named: peerLinkDownTimeout, sideReadResponse,
sideReadTimeout, ingotCaptureEnd, ingotWriteDone, gpToExpiry. -/
def Obligations.RecoveryRowsRun : Prop :=
  (∀ (i : Iface) s t m, s.engUp = true → s.isMaster = true → (s.ifc i.val).downAt = some t →
    s.sys.members.find? (fun m => m.ifc == i.val && i.val != 0) = some m → s.past1 (t + 10000) = true →
    (match tget s.verd.dies m.addr.toNat with | some d => t ≤ d.lastFab | none => False) →
    exec (.peerLinkDownTimeout i) s = .next (s.modIfc i.val fun f => { f with downAt := none }))
  ∧ (∀ (i : Iface) s t m, s.engUp = true → s.isMaster = true → (s.ifc i.val).downAt = some t →
    s.sys.members.find? (fun m => m.ifc == i.val && i.val != 0) = some m → s.past1 (t + 10000) = true →
    (∀ d, tget s.verd.dies m.addr.toNat = some d → d.lastFab < t) → (s.peer m.addr).gone = false →
    exec (.peerLinkDownTimeout i) s = .next (((((s.modIfc i.val fun f => { f with downAt := none }).resetSeen m.addr s.tb0Ns).peerNotice
      m.addr 0 dNoGasp s.tb0Ns 0).putPeer m.addr { gone := true, epochs := [] })))
  ∧ (∀ s x data, s.aoUp = true → s.brake.side = some x → data.length = x.len →
    exec (.sideReadResponse data none) s = .next (s.sideDone (some data) 0))
  ∧ (∀ s x data ecc, s.aoUp = true → s.brake.side = some x →
    exec (.sideReadResponse data (some ecc)) s = .next (s.sideDone none (if ecc then 4 else 2)))
  ∧ (∀ s x, s.aoUp = true → s.brake.side = some x → x.since + sideTimeout ≤ s.time.tb1p1.toNat →
    exec .sideReadTimeout s = .next (s.sideDone none 1))
  ∧ (∀ s c, s.aoUp = true → s.brake.capture = some c → s.past1 (c.start1 + s.brake.cfg.budget) = true →
    exec .ingotCaptureEnd s = .next s.captureEnd)
  ∧ (∀ s w t, s.ctlUp = true → s.brake.writing = some w →
    t = (s.programFlash (ingotBase 0) (w.image.take 124)).programFlash (ingotBase 0 + 124) (slice (withValid w.image) 124 4) →
    exec .ingotWriteDone s = .next (((((if s.brake.clearDue then t.clearIngot 0
      else t.modFlash fun u => { u with ingot0 := withValid w.image }).modBrake fun b =>
        { b with writing := none, clearDue := false }).ingotReady w.image w.vid w.source w.drill 0).tryCold)))
  ∧ (∀ s q, s.ctlUp = true → s.brake.search = some q → s.past1 (q.since + s.brake.cfg.gpTo) = true →
    exec .gpToExpiry s = .next (s.guilty q))

/-! ### The power Governor (chapter 14) -/

/-- The rows of a die's agent, each valid and due (R348 to R350, R363): REQ changes at once, a GRANT is applied and answered by a report,
one with a bad parity is counted; without a GRANT for GL_TO the agent falls back; it reports at the boundaries no GRANT came before; a
PLAN_ACK passes the outcome on. Of each of these forms it says that exec answers the next state given, for every state and operand that
meet the conditions named: pwrReqChange, grantMessage, planAck, glToExpiry, reportInterval. -/
def Obligations.AgentRowsRun : Prop :=
  (∀ req s, s.aoUp = true → exec (.pwrReqChange req) s = .next (s.modGov fun g => { g with req := req.toNat }).clampSettle)
  ∧ (∀ m s w, w = m.word.toNat → s.isDie = true → s.portUp .pwr = true → govOk w = true → bits w 63 60 = 1 →
    exec (.grantMessage m) s = .next ((s.modGov fun g =>
      { g with g := bits w 55 45, floorR := bits w 44 34, ackSeq := BitVec.ofNat 4 (bits w 59 56), lastGrant := some s.tb1Ns,
               fallback := false }).clampSettle).agentReport)
  ∧ (∀ m s, s.isDie = true → s.portUp .pwr = true → govOk m.word.toNat = false →
    exec (.grantMessage m) s = .next (s.modGov fun g => { g with err := satAdd 16 g.err 1 }) ∧
    exec (.planAck m) s = .next (s.modGov fun g => { g with err := satAdd 16 g.err 1 }))
  ∧ (∀ s, s.isDie = true → s.aoUp = true → s.gov.fallback = false → s.past1 (s.gov.lastGrant.getD 0 + s.gov.glTo) = true →
    exec .glToExpiry s = .next (s.modGov fun g => { g with fallback := true }).clampSettle)
  ∧ (∀ s b t, b = gridAt 20000 s.tb1Ns → s.isDie = true → s.portUp .pwr = true → s.gov.lastRep < b →
    t = (s.modGov fun g => { g with lastRep := b }) →
    ((∀ u, s.gov.lastGrant = some u → u + 20000 ≤ b) → exec .reportInterval s = .next t.agentReport) ∧
    (∀ u, s.gov.lastGrant = some u → b < u + 20000 → exec .reportInterval s = .next t))
  ∧ (∀ m s w, w = m.word.toNat → s.isDie = true → s.portUp .pwr = true → govOk w = true → bits w 63 60 = 4 → bits w 39 32 = 0 →
    s.gov.startPlan = false → exec (.planAck m) s = .next (s.ownApplied (signed 8 (bits w 59 52))))

/-- The rows of a tray's arbiter, each valid and due (R346, R352 to R356, R359, R362): the period's start with phase 1, phase 2, a report
with the grant it acknowledges, a silent member and its account, the record of the period, a plan applied or held, the regulators' alert
and poll. Of each of these forms it says that exec answers the next state given, for every state and operand that meet the conditions
named: grantPeriodStart, phase2Start, reportMessage, plan, memberSilent, silentAccountRelease, grantRecBoundary, planHoldRelease, pmbPoll,
smbalert. -/
def Obligations.ArbiterRowsRun : Prop :=
  (∀ s k t, k = s.tb1Ns / 20000 → s.isTray = true → s.aoUp = true → s.gov.period < k →
    t = ((if s.gov.changed then s.sendGrantRec s.gov.recBody else s).modGov fun g =>
      { g.budgetStart with members := g.members.map fun m => m.periodStart s.tb1Ns g.glTo, period := k, phase := 1,
                           endBody := s.gov.recBody }).boundSettle →
    exec .grantPeriodStart s = .next (t.gov.targets.foldl State.phase1 t))
  ∧ (∀ s, s.isTray = true → s.aoUp = true → s.gov.phase = 1 →
    ((∀ m ∈ s.gov.members, m.waitAck.isSome = true → s.inPhase1 m = true → m.silent = true) ∨
      s.past1 (s.gov.period * 20000 + 12000) = true) →
    exec .phase2Start s = .next (((List.range 16).foldl State.phase2 s).modGov fun g => { g with phase := 2 }))
  ∧ (∀ (i : Fin 16) m s r t, s.isTray = true → s.portUp .pwr = true → govOk m.word.toNat = true → bits m.word.toNat 63 60 = 2 →
    r = parseReport m.word.toNat →
    t = (s.modMem i.val fun x =>
      { x with last := some r, lastAt := s.tb1Ns, back := x.silent,
               acct := match x.waitAck with | some (q, t) => if q.toNat = r.ackSeq then t else x.acct | none => x.acct,
               waitAck := match x.waitAck with
                 | some (q, t) => if q.toNat = r.ackSeq then none else some (q, t)
                 | none => none }).boundSettle →
    exec (.reportMessage i m) s = .next (if r.trip = true ∧ (∀ o, (s.mem i.val).last = some o → o.trip = false) then
      t.stage 0x0D03 .fault i.val 0 else t))
  ∧ (∀ (i : Fin 16) m w s, s.isTray = true → s.portUp .pwr = true → govOk m.word.toNat = false →
    exec (.reportMessage i m) s = .next (s.linkErr i.val) ∧ exec (.plan i m w) s = .next (s.linkErr i.val))
  ∧ (∀ (i : Fin 16) s c, s.isTray = true → s.aoUp = true → (s.mem i.val).cfg = some c → (s.mem i.val).silent = false →
    s.past1 ((s.mem i.val).lastAt + s.gov.glTo) = true →
    exec (.memberSilent i) s = .next ((s.modMem i.val fun x =>
      { x with silent := true, back := false, released := false, waitAck := none }).stage 0x0D02 .notice i.val c.addr.toNat))
  ∧ (∀ (i : Fin 16) s, s.isTray = true → s.aoUp = true → (s.mem i.val).cfg.isSome = true → (s.mem i.val).silent = true →
    (s.mem i.val).released = false → (s.mem i.val).sentAt + s.gov.glTo + 3000 ≤ s.tb1Ns →
    exec (.silentAccountRelease i) s = .next (s.modMem i.val fun x =>
      { x with released := true, acct := match x.last with | some r => r.fb | none => 0 }).boundSettle)
  ∧ (∀ s b, b = gridAt (s.gov.grantRec * 1000000) s.tb1Ns → s.isTray = true → s.aoUp = true → s.gov.lastRec < b →
    exec .grantRecBoundary s = .next ((s.sendGrantRec (if s.gov.period * 20000 < b then s.gov.recBody else s.gov.endBody)).modGov fun g =>
      { g with lastRec := b }))
  ∧ (∀ (i : Fin 16) m w s p c x, x = m.word.toNat → s.isTray = true → s.portUp .pwr = true → govOk x = true → bits x 63 60 = 3 →
    p = s.windowClamp (signed 8 (bits x 59 52)) → (s.mem i.val).cfg = some c →
    exec (.plan i m w) s = .next (if p.2 = (s.mem i.val).offset then p.1.rewritePlan i.val c p.2 (bits x 51 40) w
      else if s.tb1Ns < (s.mem i.val).offsetAt + sixHours then
      (p.1.modMem i.val fun y => { y with held := some (p.2, bits x 51 40) }).planAck i.val 1
      else p.1.applyPlan i.val c p.2 (bits x 51 40) w))
  ∧ (∀ (i : Fin 17) w s o, i.val = 16 → s.aoUp = true → s.gov.heldPlan = some o → s.gov.offAt + sixHours ≤ s.tb1Ns →
    exec (.planHoldRelease i w) s = .next (s.ownPlan o w))
  ∧ (∀ (i : Fin 17) w s o v c, i.val < 16 → s.isTray = true → s.aoUp = true → (s.mem i.val).held = some (o, v) →
    (s.mem i.val).cfg = some c → (s.mem i.val).offsetAt + sixHours ≤ s.tb1Ns →
    exec (.planHoldRelease i w) s = .next (s.applyPlan i.val c o v w))
  ∧ (∀ r s, s.isTray = true → s.portUp .pwr = true → s.gov.lastPoll + s.gov.poll * 1000000 ≤ s.tb1Ns →
    exec (.pmbPoll r) s = .next (s.pages.foldl (State.pollOne r) (s.modGov fun g => { g with lastPoll := s.tb1Ns })))
  ∧ (∀ st s, s.isTray = true → s.portUp .pwr = true →
    exec (.smbalert st) s = .next (((List.range s.pages.length).zip s.pages).foldl (fun t e =>
      match st[e.1]? with
      | some w => ((t.paged e.2.2.pmaddr e.2.2.page 0x79 0).modMem e.2.1 fun m =>
          { m with read := { m.read with status := w } }).pmbStatus e.2.1 e.2.2 w
      | none => ((t.paged e.2.2.pmaddr e.2.2.page 0x79 0).paged e.2.2.pmaddr e.2.2.page 0x79 0).pageFailed e.2.1) s))

/-! ### In-field test and firmware in time (chapters 15 and 18) -/

/-- The rows of the in-field test, each once it is due: a core that is due is asked for, a request is repeated or is overdue, a window
ends in time, at its SELECT, at the end of its segment, and closes once its exit sequence is done (R373, R376, R377, R379 to R382). Of
each of these forms it says that exec answers the next state given, for every state and operand that meet the conditions named: testDue,
reaskExpiry, testOverdue, winUsExpiry, selAckTimeout, scanSegmentEnd, exitSequenceDone. -/
def Obligations.TestRowsRun : Prop :=
  (∀ core s, s.planApply.pickCore = some core.toNat → exec (.testDue core) s = .next s.askNext)
  ∧ (∀ s q, s.ctlUp = true → s.libReady = true → s.test.req = some q → q.asked + s.test.reask * 60000000000 ≤ s.tb1Ns →
    exec .reaskExpiry s = .next (s.postRequest q))
  ∧ (∀ core s d t, s.isDie = true → s.aoUp = true → s.testCore core.toNat = true → (s.tcore core.toNat).failed = false →
    (s.tcore core.toNat).overdue = false → s.test.plan ≠ [] → s.dueAt core.toNat = some d →
    s.past0 (d + s.test.maxdef * 3600000000000) = true →
    t = (((s.bump cTestOverdue).stage 0x1201 .notice core.toNat d).modTcore core.toNat fun y => { y with overdue := true }) →
    exec (.testOverdue core) s = .next (match t.test.req with
      | some q => if t.ctlUp && t.libReady then t.postRequest q else t
      | none => t.askNext))
  ∧ (∀ s w, s.aoUp = true → s.test.win = some w → w.leaving = none → s.past1 (w.open1 + w.winUs * 1000) = true →
    exec .winUsExpiry s = .next (s.endWindow 7))
  ∧ (∀ s w, s.aoUp = true → s.test.win = some w → w.kind = 1 → w.leaving = none → exec .selAckTimeout s = .next (s.endWindow 7))
  ∧ (∀ s w, s.aoUp = true → s.test.win = some w → w.kind = 1 → w.leaving = none →
    exec (.scanSegmentEnd .pass) s = .next (s.leaveWindow 0 0xFFFFFFFF 0) ∧
    ∀ op n, exec (.scanSegmentEnd (.fail op n)) s = .next (s.leaveWindow 1 op.toNat n.toNat))
  ∧ (∀ s w r f n, s.aoUp = true → s.test.win = some w → w.leaving = some (r, f, n) →
    exec .exitSequenceDone s = .next (s.closeWindow r f n))

/-- The rows of Hoist, each once it is due: a chunk is written and acknowledged, unacknowledged ones go again up to five rounds, a stage
that hears nothing ends, a whole image is checked and its slot VALID, a start is confirmed, denied or given up (R425 to R435, R439). Of
each of these forms it says that exec answers the next state given, for every state and operand that meet the conditions named:
chunkWritten, hoistRtoExpiry, hoistWaitExpiry, stageComplete, fwSelfConfirm, fwHealthDeadline, startReqTimeout, startGrantExpiry. -/
def Obligations.HoistRowsRun : Prop :=
  (∀ i s g t, s.ctlUp = true → s.hoist.stage = some g → g.ended = false → g.dup = false → i.toNat = g.written → g.written < g.expect →
    s.eraseReady g = true →
    t = (if g.kind = 2 ∧ g.erased = false then s.eraseSlot 2 0 else s) →
    exec (.chunkWritten i) s = .next ((((if g.kind = 3 then t
      else t.programFlash (regionBase g.kind g.slot + 2000 * g.written) ((g.bytes.drop (2000 * g.written)).take 2000)).modStage fun x =>
      { x with written := x.written + 1, erased := true }).sendAck g (g.written + 1))))
  ∧ (∀ s g, s.ctlUp = true → s.hoist.stage = some g → g.broken = false → g.acked < g.sent → s.past1 (g.lastAck + s.hoistRto) = true →
    (g.rounds < 5 → exec .hoistRtoExpiry s = .next (((List.range (g.sent - g.acked)).foldl (fun t i => t.sendData g (g.acked + i))
      s).modStage fun x => { x with rounds := x.rounds + 1, lastAck := s.tb1Ns })) ∧
    (5 ≤ g.rounds → exec .hoistRtoExpiry s = .next (((s.modStage fun x => { x with broken := true }).stage 0x1007 .notice 0
      (s.stageNext g).toNat).stageDrop)))
  ∧ (∀ s g, s.ctlUp = true → s.hoist.stage = some g → g.src = 1 → g.ended = false → (g.xfer = none ∨ g.expect < chunkCount g.len) →
    s.past1 (g.lastChunk + s.hoistWait) = true → exec .hoistWaitExpiry s = .next (s.stageFail g stTimeout))
  ∧ (∀ ok s g st, s.ctlUp = true → s.hoist.stage = some g → g.ended = false → g.dup = false → g.expect = chunkCount g.len →
    g.bytes.length = g.len → (g.src ≠ 0 → g.written = chunkCount g.len ∧ g.xfer.isSome = true) → s.eraseReady g = true →
    st = (if ok then s.imageStatus g.kind g.bytes else stCheck) → st ≠ stOk →
    exec (.stageComplete ok) s = .next ((s.stageWritten g).stageFail { g with erased := true } st))
  ∧ (∀ s g t, s.ctlUp = true → s.hoist.stage = some g → g.ended = false → g.dup = false → g.expect = chunkCount g.len →
    g.bytes.length = g.len → (g.src ≠ 0 → g.written = chunkCount g.len ∧ g.xfer.isSome = true) → s.eraseReady g = true →
    s.imageStatus g.kind g.bytes = stOk → g.kind < 2 →
    t = (((s.stageWritten g).putImage g.kind g.slot g.bytes).modDir (dirIndex g.kind g.slot) fun _ =>
      { st := .valid, ver := imageVer g.kind g.bytes, len := g.len, digest := rd g.bytes 32 8, tstage := s.tb0Ns }) →
    exec (.stageComplete true) s = .next (t.stageOk { g with erased := true } (imageVer g.kind g.bytes)))
  ∧ (∀ s, s.aoUp = true → s.healthy433 = true → exec .fwSelfConfirm s = .next s.confirmTrial)
  ∧ (∀ s t, s.aoUp = true → s.hoist.trialAt = some t → t + healthDeadline ≤ s.tb1Ns →
    exec .fwHealthDeadline s = .next (if s.healthy433 then s.confirmTrial else s.fallBack 0))
  ∧ (∀ s w, s.ctlUp = true → s.hoist.waitStart = some w → s.past1 (w.2.1 + 100000000) = true → exec .startReqTimeout s = .next s.startBusy)
  ∧ (∀ s g, s.ctlUp = true → s.hoist.grant = some g → s.past1 (g.2 + 660000000000) = true →
    exec .startGrantExpiry s = .next (s.modHoist fun h => { h with grant := none }))

/-! ### Records that arrive (chapter 20) -/

/-- What each unit does with a record that is accepted, by the row of its kind: the stamp extension and restarts, the books, last gasps,
joins, stamp pairs and corrections, features, arrivals and batches, verdicts, the four kinds of sentry digest (R55, R63, R66, R105, R122,
R188, R239 to R244, R258, R261, R264, R288). A record that is not accepted changes the books alone. Of each of these forms it says that
exec answers the next state given, for every state and operand that meet the conditions named: epochReceived, reconcileReceived,
lastGaspReceived, joinAnswerReceived, stampPairsReceived, correctionReceived, featuresReceived, arrivalReceived, batchReceived,
expelVerdictReceived, healthyStepReceived, replayReqReceived, replayDigestReceived, refusedReceived, jobReleaseReceived, joinReceived. -/
def Obligations.RecordRowsRun : Prop :=
  (∀ s r t, Accepted s r t →
    (r.typ = tEpoch → exec (.epochReceived r) s = .next (t.useEpoch r))
    ∧ (r.typ = tReconcile → exec (.reconcileReceived r) s = .next t)
    ∧ (r.typ = tLastGasp → exec (.lastGaspReceived r) s = .next (t.rxGasp r))
    ∧ (r.typ = tJoin → s.isDie = true → exec (.joinAnswerReceived r) s = .next (t.rxJoin (s.ifcTo r.src) r))
    ∧ (r.typ = tStampPairs → exec (.stampPairsReceived r) s = .next (t.rxStampPairs r))
    ∧ (r.typ = tCorrection → exec (.correctionReceived r) s = .next (t.useCorrection r))
    ∧ (r.typ = tFeatures → exec (.featuresReceived r) s = .next (t.rxFeatures r))
    ∧ (r.typ = tLateness → rd r.body 6 1 = 0 → exec (.arrivalReceived r) s = .next (t.rxArrival r))
    ∧ (r.typ = tLateness → rd r.body 6 1 = 1 → exec (.batchReceived r) s = .next (t.rxBatch r))
    ∧ (r.typ = tVerdict → exec (.expelVerdictReceived r) s = .next ((t.rxVerdict r).rxHealthy r))
    ∧ (r.typ = tVerdict → rd r.body 8 1 = 3 → exec (.healthyStepReceived r) s = .next ((t.rxVerdict r).rxHealthy r))
    ∧ (r.typ = tSentryDigest → rd r.body 4 1 = 3 → exec (.replayReqReceived r) s = .next (t.rxSentry r))
    ∧ (r.typ = tSentryDigest → rd r.body 4 1 = 1 → exec (.replayDigestReceived r) s = .next (t.rxSentry r))
    ∧ (r.typ = tSentryDigest → rd r.body 4 1 = 4 → exec (.refusedReceived r) s = .next (t.rxSentry r))
    ∧ (r.typ = tSentryDigest → rd r.body 4 1 = 2 → exec (.jobReleaseReceived r) s = .next (t.rxSentry r)))
  ∧ (∀ s r i, s.engUp = true → r.typ = tJoin → (s.acceptRec r.src r).2 = true →
    exec (.joinReceived i r) s = .next (((s.acceptRec r.src r).1.heard i.val r).rxJoin i.val r))
  ∧ (∀ s r, s.engUp = true → (s.acceptRec r.src r).2 = false → r.typ = tEpoch →
    exec (.epochReceived r) s = .next (s.acceptRec r.src r).1)

/-- What Crown, the transport and Hoist do with a record that is accepted, by the row of its kind: cut contributions, broadcasts and their
acknowledgements, commands and replies over the fabric, the image chunks and the four start messages (R152, R163, R171 to R173, R404 to
R407, R428 to R435). Of each of these forms it says that exec answers the next state given, for every state and operand that meet the
conditions named: cutContribReceived, broadcastAckReceived, commandRecordReceived, replyRecordReceived, imageChunkData, imageChunkAck,
startReq, startGrant, startDeny, startDone, broadcastReceived. -/
def Obligations.TransferRecordsRun : Prop :=
  (∀ s r t, Accepted s r t →
    (r.typ = tCutContrib → exec (.cutContribReceived r) s = .next (t.rxContrib r))
    ∧ (r.typ = tBroadcastAck → exec (.broadcastAckReceived r) s = .next (t.rxAck r))
    ∧ (r.typ = tCommand → exec (.commandRecordReceived r) s = .next (t.rxCommand r))
    ∧ (∀ ok, r.typ = tReply → t.ctlUp = true → exec (.replyRecordReceived r ok) s = .next (t.rxReply r ok))
    ∧ (r.typ = tImageChunk → t.ctlUp = true →
      (icMode r.body = 0 → exec (.imageChunkData r) s = .next (t.rxImage r))
      ∧ (icMode r.body = 1 → exec (.imageChunkAck r) s = .next (t.rxImage r))
      ∧ (icMode r.body = 2 → exec (.startReq r) s = .next (t.rxImage r))
      ∧ (icMode r.body = 3 → exec (.startGrant r) s = .next (t.rxImage r))
      ∧ (icMode r.body = 4 → exec (.startDeny r) s = .next (t.rxImage r))
      ∧ (icMode r.body = 5 → exec (.startDone r) s = .next (t.rxImage r))))
  ∧ (∀ s r x hop, s.engUp = true → r.typ = tBroadcast → s.tree (bcTree r.body) = some x → hop = x.parent.getD r.src →
    (s.acceptRec hop r).2 = true →
    exec (.broadcastReceived r) s = .next (((s.acceptRec hop r).1.heard (s.ifcTo hop) r).rxBcast hop r))

/-! ### The ports (chapters 2, 3, 5, 20) -/

/-- What the ports bring: a frame that is whole goes through its check, with its credits returned, and its data frame waits for the
overflow frame it announces; a link rises and falls, a PORT domain leaves reset; a TAP beat is counted; a conditioned input changes; an
epoch pulse is compared; a word is scrubbed (R31, R48, R76, R94, R113, R118, R141, R466). Of each of these forms it says that exec answers
the next state given, for every state and operand that meet the conditions named: dataFrameReceived, overflowFrameReceived, linkUpRise,
linkUpFall, portDomainRelease, tapBeat, discConditionedChange, chatterWindowEnd, stuckTimeout, epochPulse, scrubWord. -/
def Obligations.PortRowsRun : Prop :=
  (∀ (i : Iface) b route s t, s.linkOk i.val = true → s.pow.engHeld = false → s.engUp = true → t = s.emit (.credits i.val (flitsOf b.length)) →
    (frameGood b = false →
      exec (.dataFrameReceived i b false route) s = .next ((t.endPair i.val none).checkFail i.val)) ∧
    (frameGood b = true → fhOvff b = false → needsOverflow b = false →
      exec (.dataFrameReceived i b false route) s = .next ((t.endPair i.val none).deliverFrame i.val { bytes := b, route := route } none)) ∧
    (frameGood b = true → fhOvff b = false → needsOverflow b = true →
      exec (.dataFrameReceived i b false route) s = .next ((t.endPair i.val none).modIfc i.val fun x =>
        { x with rxPair := some { bytes := b, route := route } })) ∧
    (frameGood b = true → fhOvff b = true →
      exec (.overflowFrameReceived i b false route) s = .next (t.endPair i.val (some b))) ∧
    exec (.dataFrameReceived i b true route) s = .next (t.endPair i.val none))
  ∧ (∀ (i : Iface) cr peer s t, (s.ifc i.val).linkUp = false →
    t = (s.modIfc i.val fun f => { f with linkUp := true, peer := peer, initCred := cr.toNat }) →
    exec (.linkUpRise i cr peer) s = .next (if (s.ifc i.val).portReset then t else t.linkReady i.val cr.toNat))
  ∧ (∀ (i : Iface) s, (s.ifc i.val).linkUp = true →
    exec (.linkUpFall i) s = .next (((s.endPair i.val none).modIfc i.val fun f => { f with linkUp := false }).linkLost i.val))
  ∧ (∀ p cr s, s.aoUp = true → s.pow.hostReset = false →
    (s.pow.warmReset = true → portNo p ∉ [0, 1, 5, 11, 13]) → s.pow.phase = .running → p ≠ .fab →
    (∀ l, p ≠ .side l) → exec (.portDomainRelease p cr) s = .next (s.portRelease (portNo p)))
  ∧ (∀ cr s, s.aoUp = true → s.pow.hostReset = false → s.pow.phase = .running →
    exec (.portDomainRelease .fab cr) s = .next ((s.modIfc 0 fun f => { f with initCred := cr.toNat }).portRelease (portNo .fab)))
  ∧ (∀ (l : Fin 16) cr s t, s.aoUp = true → s.pow.hostReset = false → s.pow.phase = .running →
    t = (s.modIfc (l.val + 1) fun f => { f with initCred := cr.toNat }).ifcRelease (l.val + 1) →
    exec (.portDomainRelease (.side l) cr) s = .next (if (portIfcs 3).any (fun i => (t.ifc i).portReset) then t
      else t.modPow fun u => { u with heldPorts := u.heldPorts.filter (· != 3) }))
  ∧ (∀ slots s, (s.portUp .tap = true ∨ s.aoUp = true ∧ s.pow.phase = .roleLess) →
    exec (.tapBeat slots) s = .next (if s.isDie then ((slots.take 16).filter slotGood).foldl State.tapEvent (s.tapCount slots)
      else s.tapCount slots))
  ∧ (∀ (i : Fin 32) level s, s.aoUp = true → (s.portUp .disc = true ∨ s.pow.phase ≠ .running) → i.val ≠ 0 →
    exec (.discConditionedChange i level) s = .next (s.discChange i.val (level != (s.disc i.val).cfg.pol)))
  ∧ (∀ level s active, active = (level != (s.disc 0).cfg.pol) → s.aoUp = true → (s.portUp .disc = true ∨ s.pow.phase ≠ .running) →
    exec (.discConditionedChange 0 level) s = .next (if active = true ∧ s.trip = false ∧ s.isDie = true then
      (s.discChange 0 active).stage 0x0D03 .fault 0xFF 0 else s.discChange 0 active).clampSettle)
  ∧ (∀ (i : Fin 32) s d b, d = s.disc i.val → b = gridAt (d.cfg.winMs * 1000000) s.tb0Past → s.aoUp = true → d.lastWin < b →
    d.mode ≠ .chatter → exec (.chatterWindowEnd i) s = .next (s.modDisc i.val fun x =>
      { x with lastWin := b, count := 0, cfg := x.cfgNext.getD x.cfg, cfgNext := none, mode := x.mode }))
  ∧ (∀ (i : Fin 32) s d b, d = s.disc i.val → b = gridAt (d.cfg.winMs * 1000000) s.tb0Past → s.aoUp = true → d.lastWin < b →
    d.mode = .chatter → exec (.chatterWindowEnd i) s = .next (((s.bump cDiscChatter).sendDisc
        (discReq i.val 1 (d.state.getD false) (min d.count 0xFFFF) 0 s.tb0Ns)).modDisc i.val fun x =>
      { x with lastWin := b, count := 0, cfg := x.cfgNext.getD x.cfg, cfgNext := none,
               mode := if x.mode = .chatter ∧ d.count ≤ d.cfg.chatExit then .normal else x.mode }))
  ∧ (∀ (i : Fin 32) s d t, d = s.disc i.val → s.aoUp = true → 0 < d.cfg.stuckMs → d.mode ≠ .stuck → d.activeSince = some t →
    s.past1 (t + d.cfg.stuckMs * 1000000) = true →
    exec (.stuckTimeout i) s = .next ((s.modDisc i.val fun x => { x with mode := .stuck }).sendDisc (discReq i.val 2 true 0 0 s.tb0Ns)))
  ∧ (∀ s, s.portUp .time = true → (s.time.lock = .locked → s.pulseOff.natAbs ≤ 100 * 2 ^ 16) →
    exec .epochPulse s = .next s.epochEverywhere.metroPulse)
  ∧ (∀ s, s.portUp .time = true → s.time.lock = .locked → 100 * 2 ^ 16 < s.pulseOff.natAbs →
    exec .epochPulse s = .next (((s.bump cPulseMismatch).stage 0x0101 .notice 0
      (unsigned 64 (s.pulseOff / 2 ^ 16))).epochEverywhere.metroPulse))
  ∧ (∀ hit s, s.aoUp = true → 1 ≤ hit.errs →
    (hit.errs ≤ 2 → exec (.scrubWord hit) s = .next (s.bump (0x40 + 2 * eccIndex hit.array))) ∧
    (hit.errs = 3 → exec (.scrubWord hit) s = .next ((s.bump (0x41 + 2 * eccIndex hit.array)).eccAction hit.array hit.at1 hit.at2)))

/-! ### Time (chapter 2) -/

/-- The rows of the time source, the port being up: Sync, Follow_Up and Delay_Resp measure, messages that do not belong are discarded and
counted, a request leaves while it may, 3 s without a Sync loosen the lock, the reference is lost and comes back (R43 to R46, R72). Of
each of these forms it says that exec answers the next state given, for every state and operand that meet the conditions named:
syncReceived, followUpReceived, delayRespReceived, announceReceived, other1588Message, delayReq, syncTimeout, refclkLoss, refclkReturn. -/
def Obligations.TimeRowsRun : Prop :=
  (∀ m s, s.portUp .time = true → s.ptpOk m = true → -7 ≤ m.interval → m.interval ≤ 0 →
    (m.twoStep = true → exec (.syncReceived m) s = .next (s.syncAccepted.modTime fun u =>
      { u with syncTwoStep := some m.seq, syncT2 := (s.tb0Frac : Int) - m.corr })) ∧
    (m.twoStep = false → exec (.syncReceived m) s = .next ((s.syncAccepted.modTime fun u => { u with syncTwoStep := none }).syncMeasured
      ((s.tb0Frac : Int) - m.corr - s.ptp m.ts))))
  ∧ (∀ m s, s.portUp .time = true → s.ptpOk m = true → s.time.syncTwoStep = some m.seq →
    exec (.followUpReceived m) s = .next ((s.modTime fun u => { u with syncTwoStep := none }).syncMeasured
      (s.time.syncT2 - (s.ptp m.ts + m.corr))))
  ∧ (∀ m s t3 d, s.portUp .time = true → s.ptpOk m = true → s.time.delayReqAt = some t3 → s.time.msDiff = some d →
    ∃ delay : Int, delay = (d + (s.ptp m.ts - m.corr - t3)) / 2 ∧
      exec (.delayRespReceived m) s = .next (if s.time.lock = .free then
        (s.modTime fun u => { u with delayNs := some delay, delayReqAt := none }).applyOffset (d - delay)
        else s.modTime fun u => { u with delayNs := some delay, delayReqAt := none }))
  ∧ (∀ m s, s.portUp .time = true → s.ptpOk m = true → exec (.announceReceived m) s = .next s)
  ∧ (∀ m s, s.portUp .time = true → s.ptpOk m = false →
    exec (.syncReceived m) s = .next s.ptpDiscard ∧ exec (.followUpReceived m) s = .next s.ptpDiscard
      ∧ exec (.delayRespReceived m) s = .next s.ptpDiscard ∧ exec (.announceReceived m) s = .next s.ptpDiscard)
  ∧ (∀ s, s.portUp .time = true → exec .other1588Message s = .next s.ptpDiscard)
  ∧ (∀ s, s.mayDelayReq = true → exec .delayReq s = .next ((s.modTime fun u =>
      { u with delayReqAt := some (s.tb0Frac : Int), reqDue := false, drqLast := s.tb1Ns }).emit .delayReq))
  ∧ (∀ s t, s.aoUp = true → s.time.lastSync = some t → t + 3000000000 ≤ s.tb1Ns →
    (s.time.lock = .acquire → exec .syncTimeout s = .next (s.setLock .free)) ∧
    (s.time.lock = .locked → exec .syncTimeout s = .next (s.setLock .holdover)))
  ∧ (∀ s t, s.aoUp = true → s.time.refclk = true →
    t = (s.modTime fun u =>
      { u with refclk := false, refReturn := none, adjNext := none, lastSync := none, delayNs := none, delayReqAt := none, msDiff := none,
               syncTwoStep := none, reqDue := false }) →
    exec .refclkLoss s = .next ((if s.time.lock = .free then t.epochEverywhere else t.setLock .free).bump cRefclkLoss))
  ∧ (∀ s, s.aoUp = true → s.time.refclk = false → exec .refclkReturn s = .next (s.modTime fun u =>
      if s.time.phase = 0 then { u with refclk := true, refReturn := none } else { u with refReturn := some s.tb1Ns }))

/-- The rows of stamps and corrections: a frame's slot is filled with the phase of its port, the first pair after each interval boundary
is kept, a window ends in one solve, which is published within its deadline or not at all; regions are watched (R51, R53, R58 to R65, R70,
R73, R470). Of each of these forms it says that exec answers the next state given, for every state and operand that meet the conditions
named: insertionSlot, stampPair, portClockStop, linkErrorPulse, monitorWindowEnd, correctionWindowEnd, correctionPublish, solveDeadline. -/
def Obligations.StampRowsRun : Prop :=
  (∀ (p : Fin 64) phase s t, s.portUp .stamp = true → (s.stampPort p.val).holdTx = 0 → t = (s.bump cSlotLate).emit
      (.slotFill p.val 0xFFFFFFFFFFFFFFFF) →
    exec (.insertionSlot p phase true) s = .next t ∧
    exec (.insertionSlot p phase false) s = .next ((s.modPort p.val fun x => { x with fseq := x.fseq + 1 }).emit (.slotFill p.val
      (BitVec.ofNat 64 (2 ^ 62 + p.val * 2 ^ 56 + (s.stampPort p.val).fseq.toNat * 2 ^ 40 + lockCode s.time.lock * 2 ^ 34
        + s.stampQ phase (s.stampPort p.val).egress % 2 ^ 34)))))
  ∧ (∀ (p : Fin 64) slot peer phase s x k, x = s.stampPort p.val → k = gridAt (s.time.cfg.pairIv * 16000) s.tb0Ns → s.portUp .stamp = true →
    x.holdRx = 0 → x.holdTx = 0 → bits slot.toNat 63 62 = 1 → s.pow.pstate = .run →
    ((∀ j, x.keptAt = some j → j < k) → exec (.stampPair p slot peer phase) s = .next ((s.modPort p.val fun y =>
      { y with keptAt := some k }).keepPair (s.ownPair p.val slot peer (s.stampQ phase x.ingress)))) ∧
    (∀ j, x.keptAt = some j → k ≤ j → exec (.stampPair p slot peer phase) s = .next s))
  ∧ (∀ (p : Fin 64) s, s.portUp .stamp = true →
    exec (.portClockStop p) s = .next (s.modPort p.val fun x => { x with holdTx := 16, holdRx := 16 }) ∧
    exec (.linkErrorPulse p) s = .next (s.bump (0x80 + p.val)))
  ∧ (∀ l s cs, s.aoUp = true → 1024 ≤ s.time.monCycles → cs = l.filter (fun r => decide (r.1 < 272)) →
    exec (.monitorWindowEnd l) s = .next (cs.foldl State.regionWindow ((s.keepMon cs).modTime fun u =>
      { u with monCycles := u.monCycles - 1024 })))
  ∧ (∀ s w r, w = s.windowDue → r = s.solve (w.1 - w.2) w.2 → s.engUp = true → s.solver = true →
    (s.isMaster = true ∨ s.time.cfg.troot.isSome = true) → s.time.windowsDone < w.1 →
    exec .correctionWindowEnd s = .next ((s.bumpN cLinkExcl r.2).modTime fun u =>
      { u with solved := u.solved ++ [r.1], windowsDone := w.1, pairs := u.pairs.filter fun p => decide (w.1 * 4 ≤ p.rx) }))
  ∧ (∀ s t rest, s.engUp = true → s.time.solved = t :: rest → s.tb0Ns ≤ s.solveDeadline t →
    exec .correctionPublish s = .next ((((s.modTime fun u => { u with solved := rest, nodes := joinNodes u.nodes t.entries }).holdTable
      (!s.isMaster) t).publishCorr t s.sys.fwver.toNat).forwardAway.settleInsts))
  ∧ (∀ s t rest, s.engUp = true → s.time.solved = t :: rest → s.solveDeadline t < s.tb0Ns →
    exec .solveDeadline s = .next (s.solveLate t).settleInsts)

/-! ### The register window (chapter 17) -/

/-- Accesses of the register window, the window being up: EN rises with good bases and sizes or sets CFGERR and falls with the pair
stopped, ones clear status bits, INT_ENABLE takes its value, a 32-bit read gives the register or its latched half, a bad access sets
BADACC, a beat is taken, a register of a pair takes a word (R273, R394, R408 to R420, R477, R495). Of each of these forms it says that
exec answers the next state given, for every state and operand that meet the conditions named: queuePairEnable, queuePairDisable,
replyWriteFail, loHalfRead, w1cStatusWrite, intEnableWrite, badAccess, heartbeatWrite, registerWrite. -/
def Obligations.RegisterRowsRun : Prop :=
  (∀ fab r c s p, s.windowUp = true → s.hasPair fab = true → p = s.pair fab → p.en = false →
    (baseOk p.cqBase = true → baseOk p.rqBase = true → log2Ok r = true → log2Ok c = true →
      exec (.queuePairEnable fab r c) s = .next ((s.unlatch.modPair fab fun q =>
        { q with en := true, rqLog2 := r, cqLog2 := c, cqHead := 0, cqTail := 0, rqHead := 0, rqTail := 0, phase := true,
                 idle := false }).drainSlots fab 4096)) ∧
    ((baseOk p.cqBase && baseOk p.rqBase && log2Ok r && log2Ok c) = false →
      exec (.queuePairEnable fab r c) s = .next (s.unlatch.pairError fab 2 fun q => { q with cfgerr := true })))
  ∧ (∀ fab s, s.windowUp = true → s.hasPair fab = true → (s.pair fab).en = true →
    exec (.queuePairDisable fab) s = .next ((s.unlatch.stopPair fab).tailUndone fab))
  ∧ (∀ fab s, s.portUp .cmd = true → s.hasPair fab = true → (s.pair fab).en = true →
    exec (.replyWriteFail fab) s = .next ((s.stopPair fab).pairError fab 3 fun q => { q with wrerr := true }))
  ∧ (∀ off s v, s.windowUp = true → off.toNat % 4 = 0 → off.toNat ≠ 0x0140 →
    v = (match tget s.cmd.latch winPath with
      | some l => if l.1 = off.toNat then l.2.toNat else s.reg off.toNat
      | none => s.reg off.toNat) →
    exec (.loHalfRead off) s = .next ((match hiOf off.toNat with
      | some h => s.unlatch.modCmd fun c => { c with latch := tput c.latch winPath (h, BitVec.ofNat 32 (s.reg h)) }
      | none => s.unlatch).emit (.readData v)))
  ∧ (∀ (v : Word) s, s.windowUp = true →
    ∃ x : Nat, (∀ i < 11, bit x i = (bit v.toNat i && !s.cmd.fresh.contains i)) ∧
      exec (.w1cStatusWrite 0x0200 v) s = .next (State.intWritten (s.unlatch.modCmd fun c =>
        { c with intStatus := c.intStatus &&& ~~~(BitVec.ofNat 11 x) })))
  ∧ (∀ (v : Word) fab s, s.windowUp = true → (fab = true → s.isTray = true) →
    ∃ x : Nat, (∀ i < 11, bit x i = (bit v.toNat i && !s.cmd.fresh.contains ((if fab then 24 else 16) + i))) ∧
      exec (.w1cStatusWrite (if fab then 0x1134 else 0x1034) v) s = .next (s.unlatch.modPair fab fun p =>
        { p with wrerr := p.wrerr && !bit x 3, cfgerr := p.cfgerr && !bit x 2, dberr := p.dberr && !bit x 1 }))
  ∧ (∀ v s, s.windowUp = true → exec (.intEnableWrite v) s = .next (State.intWritten (s.unlatch.modCmd fun c =>
      { c with intEnable := BitVec.ofNat 11 v.toNat })))
  ∧ (∀ off n s, s.windowUp = true → ((n = 4 ∨ n = 8) → off.toNat % n ≠ 0) →
    exec (.badAccess true off n) s = .next (s.unlatch.intSet 10) ∧
    exec (.badAccess false off n) s = .next ((s.unlatch.intSet 10).emit (.readData 0)))
  ∧ (∀ v s, s.windowUp = true → s.portUp .hb = true → s.brake.cfg.src ≠ 1 → s.hbStopped = false →
    exec (.heartbeatWrite v) s = .next s.unlatch.takeBeat)
  ∧ (∀ off v s, s.windowUp = true →
    (0x1000 ≤ off.toNat → off.toNat < 0x1038 →
      exec (.registerWrite off v) s = .next (s.unlatch.modPair false (QPair.write (off.toNat - 0x1000) v))) ∧
    (0x1100 ≤ off.toNat → off.toNat < 0x1138 → s.isTray = true →
      exec (.registerWrite off v) s = .next (s.unlatch.modPair true (QPair.write (off.toNat - 0x1100) v))) ∧
    (off.toNat < 0x1000 → exec (.registerWrite off v) s = .next s.unlatch))

/-! ### The command transport (chapter 16) -/

/-- The rows of the transport: an entry is fetched, its head moves on, and it is run or taken by the gateway; a command without an answer
goes again up to three times, a gap in the order is skipped in time, the final reply of an accepted command is written once its work is
done (R390, R392, R404, R406, R488). Of each of these forms it says that exec answers the next state given, for every state and operand
that meet the conditions named: commandFetch, fabricQueueEntry, cmdRetryExpiry, seqGapSkip, asyncCommandDone. -/
def Obligations.TransportRowsRun : Prop :=
  (∀ s b reads ok, s.fetchReady false = true → s.ctlUp = true → s.fenceHolds false b = false →
    exec (.commandFetch false (some b) reads ok) s = .next ((s.advanceHead false).runPacket .localQueue b reads [] ok))
  ∧ (∀ s b reads ok, s.fetchReady true = true → s.ctlUp = true → s.fenceHolds true b = false →
    exec (.commandFetch true (some b) reads ok) s = .next ((s.advanceHead true).gwTake b (reads.getD 0 none) true))
  ∧ (∀ s fab reads ok, s.fetchReady fab = true → s.ctlUp = true →
    exec (.commandFetch fab none reads ok) s = .next ((s.advanceHead fab).readFailed fab (s.pair fab).cqHead.toNat))
  ∧ (∀ s b inl route, s.fetchReady true = true → s.ctlUp = true → s.fenceHolds true b = false →
    exec (.fabricQueueEntry b inl route) s = .next ((s.advanceHead true).gwTake b inl route))
  ∧ (∀ dest seq s f, s.ctlUp = true → s.cmd.flight.find? (flightIs dest seq) = some f → f.answered = false →
    f.lastSent + s.cmdRetry cmdRetryDflt ≤ s.tb1Ns →
    (f.sent < 3 → exec (.cmdRetryExpiry dest seq) s = .next ((s.modCmd fun c =>
      { c with flight := c.flight.map fun x =>
        if flightIs dest seq x then { x with sent := x.sent + 1, lastSent := s.tb1Ns } else x }).sendFlight f)) ∧
    (3 ≤ f.sent → exec (.cmdRetryExpiry dest seq) s = .next (State.gwPump ((s.modCmd fun c =>
      { c with flight := c.flight.filter fun x => !flightIs dest seq x }).gwError f.tag f.opcode stTimeout (errDetail 0 0 0xFF)))))
  ∧ (∀ src iss s o t h l, s.ctlUp = true → s.pow.phase = .running → s.cmd.orderOf src iss = some o → o.gapAt = some t →
    s.cmd.heldOf src iss = h :: l → t + 3 * s.cmdRetry cmdRetryDflt ≤ s.tb1Ns →
    exec (.seqGapSkip src iss) s = .next ((s.modCmd fun c => c.putOrder { o with expect := (l.foldl (fun (m : Held) x =>
      if (x.seq - o.expect).toNat < (m.seq - o.expect).toNat then x else m) h).seq }).releaseCmds src iss releaseFuel))
  ∧ (∀ path tag s a f, s.ctlUp = true → s.cmd.acc.find? (fun a => a.path == path && a.tag == tag && a.ready.isSome) = some a →
    a.ready = some f → exec (.asyncCommandDone path tag) s = .next (s.finish a f).gwPump)

/-! ### Power-up, resets and power states (chapters 1 and 19) -/

/-- Power and resets: a power-up runs the start-up sequence, which waits without a role and without good firmware, and begins once the
RESTORE commands are done; power lost resets everything; the reset inputs and the noted reset take their domains, and let them go (R26,
R275, R282, R283, R286, R443 to R449). Of each of these forms it says that exec answers the next state given, for every state and operand
that meet the conditions named: pgAoAssert, pgAoDeassert, restoreDone, rstHostNAssert, rstWarmNAssert, rstWarmNRelease, resetRelease,
domainResetStart. -/
def Obligations.ResetRowsRun : Prop :=
  (∀ role clk self s t, s.pow.aoHeld = true → role ≠ .invalid →
    t = ((s.aoStart role clk).modHoist fun h =>
      { h with running := (s.aoStart role clk).confirmedSlot, restoreOk := true, selfOk := self }) →
    exec (.pgAoAssert role clk true self) s = .next t.clocksUp.loadImage.readConf.migrate.loadTestDone.startOffset.toRestore ∧
    exec (.pgAoAssert role clk false self) s = .next ((t.readFlash (regionBase 0 (s.aoStart role clk).confirmedSlot)
      ((s.aoStart role clk).slotHdr (s.aoStart role clk).confirmedSlot).len).modPow fun u =>
      { u with phase := .badFirmware, intHold := true, heldPorts := u.heldPorts.filter (· != 2) }))
  ∧ (∀ clk ok self s, s.pow.aoHeld = true →
    exec (.pgAoAssert .invalid clk ok self) s = .next ((s.aoStart .invalid clk).modPow fun u =>
      { u with phase := .roleLess, heldPorts := u.heldPorts.filter (· != 2) }))
  ∧ (∀ s t, t = (s.modHall HallUnit.tear).aoReset .invalid →
    (s.sys.oos = false → exec .pgAoDeassert s = .next t) ∧
    (s.sys.oos = true → exec .pgAoDeassert s = .next (t.ownNotice 5 0xFF 0 0xFF 0xFF 0 0 0)))
  ∧ (∀ s t, s.restoring = true → s.ctlUp = true → s.engUp = true → t = s.restoreAll → t.restoring = true → t.ctlUp = true →
    t.engUp = true → (∀ a ∈ t.cmd.acc, restorePath a.path = false) → exec .restoreDone s = .next t.begin')
  ∧ (∀ s, s.aoUp = true → s.pow.hostReset = false →
    exec .rstHostNAssert s = .next (((s.modPow fun u => { u with hostReset := true }).hostResetSeen).resetEntry 2 true true allPorts))
  ∧ (∀ s, s.aoUp = true → s.pow.warmReset = false →
    exec .rstWarmNAssert s = .next (warmPorts.foldl (fun t p => t.portReset p)
      ((s.modPow fun u => { u with warmReset := true }).warmResetSeen).testReset))
  ∧ (∀ s t, s.aoUp = true → s.pow.warmReset = true → t = (s.modPow fun u => { u with warmReset := false }).warmReleased →
    exec .rstWarmNRelease s = .next (if s.pow.hostReset || s.pow.phase != .running then t
      else warmPorts.foldl (fun t p => t.portRelease p) t))
  ∧ (∀ self s, s.aoUp = true → s.pow.intHold = false → (s.pow.ctlHeld = true ∨ s.pow.engHeld = true) →
    (s.pow.phase = .running ∨ s.restoring = true) →
    s.pow.pstate ≠ .off →
    exec (.resetRelease self) s = .next ((if s.pow.hostReset then (s.modPow fun u => { u with hostReset := false }).watchRelease
      else s).clocksUp.engRestart.ctlRestart self))
  ∧ (∀ s p eng ctl, s.pow.pend = some p → ctl = bit p.1.toNat 3 → eng = (ctl || bit p.1.toNat 2) →
    exec .domainResetStart s = .next ((s.modPow fun u =>
      { u with pend := none, intHold := u.intHold && !(eng && s.hangHold) }).resetEntry 4 ctl eng
        ((List.range portCount).filter fun i => bit p.2.1.toNat i)))

/-- Power states: an entry drains and ends, flash is flushed before OFF, a demand wakes, a hold that served every demand goes back, CTL
stops in SLEEP once nothing is left to serve (R452 to R455). Of each of these forms it says that exec answers the next state given, for
every state and operand that meet the conditions named: drainEnd, offFlashFlushDone, wakeDemand, wakeHoldExpiry, ctlIdleStop. -/
def Obligations.PowerStateRowsRun : Prop :=
  (∀ s, s.aoUp = true → exec .drainEnd s = .next s.drainEnd.drainRx)
  ∧ (∀ s, s.aoUp = true → s.pow.offFlush = true → (∀ e ∈ s.hall.ents, e.written = true) →
    exec .offFlashFlushDone s = .next (s.modPow fun u => { u with offFlush := false, offReq := true }))
  ∧ (∀ k s, s.aoUp = true → s.demandStands k = true →
    exec (.wakeDemand k) s = .next (if k = .doorbell then s.ctlWake else s.demand.drainRx))
  ∧ (∀ s, s.aoUp = true → s.holdOver = true → (∀ k ∈ standing, s.demandStands k = false) →
    exec .wakeHoldExpiry s = .next (s.beginEntry s.pow.target))
  ∧ (∀ s t, s.aoUp = true → s.pow.ctlAwake = some t → s.pow.pstate = .sleep → s.past1 (t + 1000000) = true → s.cmd.loc.busy = false →
    s.cmd.fab.busy = false → (∀ a ∈ s.cmd.acc, pairPath a.path = false) →
    exec .ctlIdleStop s = .next (s.modPow fun u => { u with ctlOn := false, ctlAwake := none }))

/-- Crown and joining: an acting master is ready, an unanswered JOIN is given up and repeated over FAB, an injected fault ends, a silent
child of a broadcast is gone around and then listed missing (R20, R173, R458, R459). Of each of these forms it says that exec answers the
next state given, for every state and operand that meet the conditions named: crownPowered, joinTimeout, fabJoinRepeat, faultInjectionEnd,
ackTimerExpiry, resendAckTimerExpiry. -/
def Obligations.TrayRowsRun : Prop :=
  (∀ s l, s.ctlUp = true → s.engUp = true → s.sys.crownWait = some l →
    exec .crownPowered s = .next ((s.modSys fun u =>
      { u with crownWait := none, acting := true, actingAt := s.tb0Ns, actMembers := l, joinAt := none,
               fabJoinAt := none }).finishAll 0x0107 0 (finOk 0 [] [])))
  ∧ (∀ s t, s.aoUp = true → s.sys.joinAt = some t → s.past1 (t + 100000000) = true →
    exec .joinTimeout s = .next (s.modSys fun u =>
      { u with joinAt := none, fabJoinAt := if u.designated then none else some s.tb1Ns }))
  ∧ (∀ s t v, s.engUp = true → s.isDie = true → s.sys.joined = false → s.sys.designated = false → s.sys.fabJoinAt = some t →
    t ≤ s.tb1Ns → v = (s.modSys fun u => { u with joinDst := s.gateways }) →
    exec .fabJoinRepeat s = .next ((v.gateways.foldl (fun u a => u.send (u.joinReq (.block a))) v).modSys fun u =>
      { u with fabJoinAt := some (t + 1000000000) }))
  ∧ (∀ f s, s.aoUp = true → f ≠ 2 →
    exec (.faultInjectionEnd f) s = .next (s.modSys fun u => { u with injects := u.injects.filter fun j =>
      !(j.fault == f && decide (j.until1 ≤ s.tb1Ns)) }))
  ∧ (∀ s out, s.aoUp = true → out = (fun (j : Inject) => j.fault == 2 && decide (j.until1 ≤ s.tb1Ns)) →
    exec (.faultInjectionEnd 2) s = .next ((s.sys.injects.filter out).foldl (fun t j =>
      if t.linkOk j.arg then t.modIfc j.arg fun x => { x with downAt := none } else t)
        (s.modSys fun u => { u with injects := u.injects.filter fun j => !out j })))
  ∧ (∀ bid (ch : Fin 64) s x t w c, s.engUp = true →
    s.crown.bcasts.find? (fun x => x.bid == bid && x.waits.any fun w => w.index == ch.val && !w.done && !w.resent) = some x →
    x.held = some t → x.waits.find? (fun w => w.index == ch.val) = some w → t.children[ch.val]? = some c → x.ended = true →
    s.past1 (w.since + t.ackTo * (w.height + 1)) = true →
    ∃ u : State, ∃ ws : List Wait, ws.length = (targetsOf c).length ∧ (∀ v ∈ ws, v.resent = true) ∧
      exec (.ackTimerExpiry bid ch) s = .next ((u.modBcast x.src bid fun y =>
        { y with waits := (y.waits.filter fun v => v.index != ch.val) ++ ws }).bcastSettle x.src bid))
  ∧ (∀ bid a s x t w, s.engUp = true →
    s.crown.bcasts.find? (fun x => x.bid == bid && x.waits.any fun w => w.addr == a && w.resent && !w.done) = some x →
    x.held = some t → x.waits.find? (fun w => w.addr == a && w.resent && !w.done) = some w →
    s.past1 (w.since + t.ackTo * (w.height + 2)) = true →
    ∃ reason, (reason = missTimeout ∨ reason = missUnreached) ∧
      exec (.resendAckTimerExpiry bid a) s = .next ((s.modBcast x.src bid fun y =>
        { y with waits := y.waits.map fun v =>
          if v.addr == a && v.resent && !v.done then { v with done := true, miss := [missWord reason a] } else v }).bcastSettle
            x.src bid))

/-! ### What the commands leave alone -/

/-- Frames of the commands of the SYS to CHANNEL groups: what each may change, whatever its packet; every other part is as before. -/
def Obligations.FramesOfSystemToModelCommands : Prop :=
  (∀ a0, Touches [.pow, .coll, .hop, .hall, .cmd, .hoist, .outs] (.sysIdentify a0))
  ∧ (∀ a0, Touches [.pow, .coll, .hop, .hall, .cmd, .hoist, .outs] (.sysStatus a0))
  ∧ (∀ a0, Touches [.sys, .pow, .coll, .hop, .hall, .cmd, .hoist, .outs] (.sysAddress a0))
  ∧ (∀ a0, Touches [.sys, .pow, .coll, .hop, .hall, .cmd, .hoist, .outs] (.sysPhase a0))
  ∧ (∀ a0, Touches [.pow, .coll, .hop, .hall, .cmd, .crown, .model, .verd, .trace, .brake, .test, .assay, .flash,
      .conf, .hoist, .outs] (.sysPstate a0))
  ∧ (∀ a0, Touches [.pow, .coll, .hop, .hall, .cmd, .hoist, .outs] (.domainReset a0))
  ∧ (∀ a0, Touches [.sys, .pow, .coll, .hop, .hall, .cmd, .brake, .hoist, .outs] (.serviceRestore a0))
  ∧ (∀ a0, Touches [.sys, .pow, .coll, .hop, .hall, .cmd, .crown, .verd, .brake, .gov, .hoist, .outs] (.trayDesignate a0))
  ∧ (∀ a0, Touches [.sys, .pow, .coll, .hop, .hall, .cmd, .crown, .hoist, .outs] (.sysInject a0))
  ∧ (∀ a0, Touches [.pow, .time, .coll, .hop, .hall, .cmd, .hoist, .outs] (.timeConfig a0))
  ∧ (∀ a0, Touches [.pow, .time, .coll, .hop, .hall, .cmd, .hoist, .outs] (.timeJob a0))
  ∧ (∀ a0, Touches [.pow, .time, .coll, .hop, .hall, .cmd, .hoist, .outs] (.timeAsym a0))
  ∧ (∀ a0, Touches [.pow, .time, .coll, .hop, .hall, .cmd, .hoist, .outs] (.timeCal a0))
  ∧ (∀ a0, Touches [.pow, .coll, .hop, .hall, .cmd, .hoist, .outs] (.timeStatus a0))
  ∧ (∀ a0, Touches [.pow, .coll, .hop, .hall, .cmd, .hoist, .outs] (.collectCounter a0))
  ∧ (∀ a0, Touches [.pow, .coll, .hop, .hall, .cmd, .hoist, .outs] (.collectSet a0))
  ∧ (∀ a0, Touches [.pow, .time, .coll, .hop, .hall, .cmd, .crown, .model, .verd, .brake, .hoist, .outs] (.collectArm a0))
  ∧ (∀ a0, Touches [.pow, .coll, .hop, .hall, .cmd, .hoist, .outs] (.collectMap a0))
  ∧ (∀ a0, Touches [.pow, .coll, .hop, .hall, .cmd, .hoist, .outs] (.collectRead a0))
  ∧ (∀ a0, Touches [.pow, .coll, .hop, .hall, .cmd, .hoist, .outs] (.discConfig a0))
  ∧ (∀ a0, Touches [.pow, .coll, .hop, .hall, .cmd, .hoist, .outs] (.collectStatus a0))
  ∧ (∀ a0, Touches [.pow, .coll, .hop, .hall, .cmd, .hoist, .outs] (.streamConfig a0))
  ∧ (∀ a0, Touches [.pow, .coll, .hop, .hall, .cmd, .hoist, .outs] (.streamShaper a0))
  ∧ (∀ a0, Touches [.pow, .coll, .hop, .hall, .cmd, .hoist, .outs] (.streamGate a0))
  ∧ (∀ a0, Touches [.pow, .coll, .hop, .hall, .cmd, .hoist, .outs] (.streamLink a0))
  ∧ (∀ a0, Touches [.pow, .coll, .hop, .hall, .cmd, .hoist, .outs] (.streamStatus a0))
  ∧ (∀ a0, Touches [.pow, .coll, .hop, .hall, .cmd, .crown, .hoist, .outs] (.reduceDefine a0))
  ∧ (∀ a0, Touches [.pow, .coll, .hop, .hall, .cmd, .crown, .hoist, .outs] (.reduceDelete a0))
  ∧ (∀ a0, Touches [.pow, .coll, .hop, .hall, .cmd, .crown, .hoist, .outs] (.cutConfig a0))
  ∧ (∀ a0, Touches [.pow, .coll, .hop, .hall, .cmd, .hoist, .outs] (.cutRead a0))
  ∧ (∀ a0, Touches [.pow, .coll, .hop, .hall, .cmd, .crown, .hoist, .outs] (.cutRegister a0))
  ∧ (∀ a0, Touches [.pow, .coll, .hop, .hall, .cmd, .crown, .hoist, .outs] (.cutRelease a0))
  ∧ (∀ a0, Touches [.pow, .coll, .hop, .hall, .cmd, .crown, .hoist, .outs] (.treeInstall a0))
  ∧ (∀ a0, Touches [.pow, .coll, .hop, .hall, .cmd, .crown, .hoist, .outs] (.bcastSend a0))
  ∧ (∀ a0, Touches [.pow, .coll, .hop, .hall, .cmd, .crown, .hoist, .outs] (.mapConfig a0))
  ∧ (∀ a0, Touches [.pow, .coll, .hop, .hall, .cmd, .hoist, .outs] (.reduceStatus a0))
  ∧ (∀ a0, Touches [.pow, .coll, .hop, .hall, .cmd, .model, .hoist, .outs] (.modelLoad a0))
  ∧ (∀ a0, Touches [.pow, .coll, .hop, .hall, .cmd, .model, .verd, .hoist, .outs] (.modelActivate a0))
  ∧ (∀ a0, Touches [.pow, .coll, .hop, .hall, .cmd, .crown, .model, .verd, .brake, .hoist, .outs] (.modelDeactivate a0))
  ∧ (∀ a0, Touches [.pow, .coll, .hop, .hall, .cmd, .model, .hoist, .outs] (.modelUnload a0))
  ∧ (∀ a0, Touches [.pow, .coll, .hop, .hall, .cmd, .hoist, .outs] (.modelStatus a0))
  ∧ (∀ a0, Touches [.pow, .time, .coll, .hop, .hall, .cmd, .model, .hoist, .outs] (.channelOpen a0))
  ∧ (∀ a0, Touches [.pow, .coll, .hop, .hall, .cmd, .model, .hoist, .outs] (.channelClose a0))
  ∧ (∀ a0, Touches [.pow, .coll, .hop, .hall, .cmd, .model, .hoist, .outs] (.channelReset a0))
  ∧ (∀ a0, Touches [.pow, .coll, .hop, .hall, .cmd, .model, .hoist, .outs] (.channelForecast a0))
  ∧ (∀ a0, Touches [.pow, .coll, .hop, .hall, .cmd, .model, .hoist, .outs] (.modelParam a0))

/-- Frames of the commands of the SCORE to UPDATE groups: what each may change, whatever its packet; every other part is as before. -/
def Obligations.FramesOfVerdictToUpdateCommands : Prop :=
  (∀ a0, Touches [.pow, .coll, .hop, .hall, .cmd, .verd, .brake, .hoist, .outs] (.scoreSet a0))
  ∧ (∀ a0, Touches [.pow, .coll, .hop, .hall, .cmd, .verd, .brake, .hoist, .outs] (.scoreClear a0))
  ∧ (∀ a0, Touches [.pow, .coll, .hop, .hall, .cmd, .verd, .sentry, .brake, .hoist, .outs] (.verdictWithdraw a0))
  ∧ (∀ a0, Touches [.pow, .coll, .hop, .hall, .cmd, .verd, .hoist, .outs] (.verdictConfig a0))
  ∧ (∀ a0, Touches [.pow, .coll, .hop, .hall, .cmd, .verd, .hoist, .outs] (.verdictBudget a0))
  ∧ (∀ a0, Touches [.pow, .coll, .hop, .hall, .cmd, .verd, .hoist, .outs] (.verdictDrill a0))
  ∧ (∀ a0, Touches [.pow, .coll, .hop, .hall, .cmd, .verd, .sentry, .hoist, .outs] (.jobMembers a0))
  ∧ (∀ a0, Touches [.pow, .coll, .hop, .hall, .cmd, .verd, .sentry, .trace, .brake, .hoist, .outs] (.jobEnd a0))
  ∧ (∀ a0, Touches [.pow, .coll, .hop, .hall, .cmd, .verd, .hoist, .outs] (.verdictParam a0))
  ∧ (∀ a0, Touches [.pow, .coll, .hop, .hall, .cmd, .hoist, .outs] (.verdictStatus a0))
  ∧ (∀ a0, Touches [.pow, .coll, .hop, .hall, .cmd, .verd, .sentry, .brake, .hoist, .outs] (.sentryWatch a0))
  ∧ (∀ a0, Touches [.pow, .coll, .hop, .hall, .cmd, .sentry, .hoist, .outs] (.sentryPartners a0))
  ∧ (∀ a0, Touches [.pow, .coll, .hop, .hall, .cmd, .sentry, .hoist, .outs] (.sentryGoal a0))
  ∧ (∀ a0, Touches [.pow, .coll, .hop, .hall, .cmd, .verd, .sentry, .brake, .hoist, .outs] (.sentryRollback a0))
  ∧ (∀ a0, Touches [.pow, .coll, .hop, .hall, .cmd, .verd, .sentry, .brake, .hoist, .outs] (.sentryRelease a0))
  ∧ (∀ a0, Touches [.pow, .coll, .hop, .hall, .cmd, .hoist, .outs] (.sentryStatus a0))
  ∧ (∀ a0, Touches [.pow, .coll, .hop, .hall, .cmd, .sentry, .hoist, .outs] (.sentryParam a0))
  ∧ (∀ a0, Touches [.pow, .coll, .hop, .hall, .cmd, .verd, .brake, .hoist, .outs] (.heartbeatConfig a0))
  ∧ (∀ a0, Touches [.pow, .coll, .hop, .hall, .cmd, .brake, .hoist, .outs] (.ingotConfig a0))
  ∧ (∀ a0, Touches [.sys, .pow, .coll, .hop, .hall, .cmd, .verd, .brake, .flash, .hoist, .outs] (.ingotTake a0))
  ∧ (∀ a0, Touches [.pow, .coll, .hop, .hall, .cmd, .hoist, .outs] (.ingotRead a0))
  ∧ (∀ a0, Touches [.pow, .coll, .hop, .hall, .cmd, .brake, .flash, .hoist, .outs] (.ingotClear a0))
  ∧ (∀ a0, Touches [.pow, .coll, .hop, .hall, .cmd, .brake, .hoist, .outs] (.contextResult a0))
  ∧ (∀ a0, Touches [.pow, .coll, .hop, .hall, .cmd, .hoist, .outs] (.brakeStatus a0))
  ∧ (∀ a0, Touches [.pow, .coll, .hop, .hall, .cmd, .trace, .hoist, .outs] (.traceConfig a0))
  ∧ (∀ a0, Touches [.pow, .coll, .hop, .hall, .cmd, .trace, .hoist, .outs] (.traceAuth a0))
  ∧ (∀ a0, Touches [.pow, .coll, .hop, .hall, .cmd, .trace, .hoist, .outs] (.traceDeauth a0))
  ∧ (∀ a0, Touches [.pow, .coll, .hop, .hall, .cmd, .hoist, .outs] (.traceStatus a0))
  ∧ (∀ a0, Touches [.pow, .coll, .hop, .hall, .cmd, .trace, .hoist, .outs] (.watchArm a0))
  ∧ (∀ a0, Touches [.pow, .coll, .hop, .hall, .cmd, .trace, .hoist, .outs] (.watchDisarm a0))
  ∧ (∀ a0, Touches [.pow, .coll, .hop, .hall, .cmd, .trace, .hoist, .outs] (.watchRate a0))
  ∧ (∀ a0, Touches [.pow, .coll, .hop, .hall, .cmd, .hoist, .outs] (.watchStatus a0))
  ∧ (∀ a0, Touches [.pow, .coll, .hop, .hall, .cmd, .hoist, .outs] (.recorderRead a0))
  ∧ (∀ a0, Touches [.pow, .coll, .hop, .hall, .cmd, .hoist, .outs] (.recorderStatus a0))
  ∧ (∀ a0, Touches [.pow, .coll, .hop, .hall, .cmd, .hoist, .outs] (.recorderClear a0))
  ∧ (∀ a0, Touches [.pow, .coll, .hop, .hall, .cmd, .hoist, .outs] (.recorderNote a0))
  ∧ (∀ a0, Touches [.pow, .coll, .hop, .hall, .cmd, .hoist, .outs] (.recorderConfig a0))
  ∧ (∀ a0, Touches [.pow, .coll, .hop, .hall, .cmd, .gov, .hoist, .outs] (.powerBudget a0))
  ∧ (∀ a0, Touches [.pow, .coll, .hop, .hall, .cmd, .gov, .hoist, .outs] (.powerMember a0))
  ∧ (∀ a0, Touches [.pow, .coll, .hop, .hall, .cmd, .verd, .gov, .hoist, .outs] (.powerStatic a0))
  ∧ (∀ a0, Touches [.pow, .coll, .hop, .hall, .cmd, .gov, .hoist, .outs] (.powerConfig a0))
  ∧ (∀ a0, Touches [.pow, .coll, .hop, .hall, .cmd, .hoist, .outs] (.powerStatus a0))
  ∧ (∀ a0, Touches [.pow, .coll, .hop, .hall, .cmd, .temper, .hoist, .outs] (.temperConfig a0))
  ∧ (∀ a0, Touches [.pow, .coll, .hop, .hall, .cmd, .hoist, .outs] (.metroRead a0))
  ∧ (∀ a0, Touches [.pow, .coll, .hop, .hall, .cmd, .test, .hoist, .outs] (.testConfig a0))
  ∧ (∀ a0, Touches [.pow, .coll, .hop, .hall, .cmd, .brake, .test, .flash, .conf, .hoist, .outs] (.testGrant a0))
  ∧ (∀ a0, Touches [.pow, .coll, .hop, .hall, .cmd, .hoist, .outs] (.testDefer a0))
  ∧ (∀ a0, Touches [.pow, .coll, .hop, .hall, .cmd, .brake, .test, .flash, .conf, .hoist, .outs] (.testDone a0))
  ∧ (∀ a0, Touches [.pow, .coll, .hop, .hall, .cmd, .test, .hoist, .outs] (.testClear a0))
  ∧ (∀ a0, Touches [.pow, .coll, .hop, .hall, .cmd, .hoist, .outs] (.testStatus a0))
  ∧ (∀ a0, Touches [.pow, .coll, .hop, .hall, .cmd, .brake, .flash, .hoist, .outs] (.updateStage a0))
  ∧ (∀ a0, Touches [.pow, .coll, .hop, .hall, .cmd, .brake, .hoist, .outs] (.updateChain a0))
  ∧ (∀ a0, Touches [.sys, .pow, .time, .coll, .hop, .hall, .cmd, .crown, .model, .verd, .sentry, .trace, .brake, .test,
      .temper, .flash, .conf, .hoist, .outs] (.updateStart a0))
  ∧ (∀ a0, Touches [.pow, .coll, .hop, .hall, .cmd, .brake, .flash, .conf, .hoist, .outs] (.updateConfirm a0))
  ∧ (∀ a0, Touches [.pow, .coll, .hop, .hall, .cmd, .hoist, .outs] (.updateStatus a0))

/-- Frames of the rows that are no packets, from power-up to the received records: what each may change; every other part is as before. TB0 to TB3, the models or the flash are in few of them. -/
def Obligations.FramesOfFirstRows : Prop :=
  (∀ a0 a1 a2 a3, Touches [.sys, .pow, .time, .coll, .hop, .hall, .cmd, .crown, .model, .verd, .sentry, .trace, .brake,
      .test, .gov, .temper, .assay, .flash, .conf, .hoist, .outs] (.pgAoAssert a0 a1 a2 a3))
  ∧ Touches [.sys, .pow, .time, .coll, .hop, .hall, .cmd, .crown, .model, .verd, .sentry, .trace, .brake, .test, .gov,
      .temper, .assay, .flash, .conf, .hoist, .outs] .restoreDone
  ∧ Touches [.sys, .pow, .time, .coll, .hop, .hall, .cmd, .crown, .model, .verd, .sentry, .trace, .brake, .test, .gov,
      .temper, .assay, .conf, .hoist, .outs] .pgAoDeassert
  ∧ (∀ a0, Touches [.pow, .metro] (.pgMetroAssert a0))
  ∧ Touches [.pow, .metro] .pgMetroDeassert
  ∧ Touches [.sys, .pow, .time, .coll, .hop, .hall, .cmd, .crown, .model, .verd, .sentry, .trace, .brake, .test,
      .temper, .flash, .conf, .hoist, .outs] .rstHostNAssert
  ∧ Touches [.pow, .time, .coll, .hop, .hall, .cmd, .brake, .test, .flash, .conf, .outs] .rstWarmNAssert
  ∧ Touches [.sys, .pow, .coll, .hop, .hall, .cmd, .verd, .brake, .outs] .rstWarmNRelease
  ∧ (∀ a0, Touches [.sys, .pow, .time, .coll, .hop, .hall, .cmd, .crown, .model, .verd, .sentry, .trace, .brake, .test,
      .temper, .flash, .conf, .hoist, .outs] (.resetRelease a0))
  ∧ Touches [.time, .coll, .hop, .hall, .cmd, .outs] .refclkLoss
  ∧ Touches [.time] .refclkReturn
  ∧ Touches [.coll, .hop, .hall, .cmd, .metro, .outs] .epochPulse
  ∧ (∀ a0, Touches [.time, .coll, .hop, .hall, .cmd, .outs] (.syncReceived a0))
  ∧ (∀ a0, Touches [.time, .coll, .hop, .hall, .cmd, .outs] (.followUpReceived a0))
  ∧ (∀ a0, Touches [.time, .coll, .hop, .hall, .cmd, .outs] (.delayRespReceived a0))
  ∧ (∀ a0, Touches [.coll] (.announceReceived a0))
  ∧ Touches [.time, .outs] .delayReq
  ∧ Touches [.time, .coll, .hop, .hall, .cmd, .outs] .syncTimeout
  ∧ (∀ a0, Touches [.sys, .coll, .hop, .hall, .cmd, .verd, .brake, .test, .flash, .conf, .hoist, .outs] (.tapBeat a0))
  ∧ (∀ a0 a1, Touches [.coll, .hop, .hall, .cmd, .verd, .gov, .outs] (.discConditionedChange a0 a1))
  ∧ (∀ a0, Touches [.coll, .hop, .hall, .cmd, .outs] (.chatterWindowEnd a0))
  ∧ (∀ a0, Touches [.coll, .hop, .hall, .cmd, .outs] (.stuckTimeout a0))
  ∧ Touches [.coll, .hop, .hall, .cmd, .brake, .outs] .hbPinBeat
  ∧ (∀ a0, Touches [.coll, .verd, .gov] (.pwrReqChange a0))
  ∧ (∀ a0 a1 a2, Touches [.sys, .coll, .hop, .hall, .cmd, .brake, .outs] (.linkUpRise a0 a1 a2))
  ∧ (∀ a0, Touches [.sys, .pow, .time, .coll, .hop, .hall, .cmd, .crown, .model, .verd, .sentry, .trace, .brake, .test,
      .gov, .temper, .assay, .flash, .conf, .hoist, .outs] (.linkUpFall a0))
  ∧ (∀ a0 a1, Touches [.hop] (.creditReturn a0 a1))
  ∧ (∀ a0, Touches [.coll] (.linkErrorPulse a0))
  ∧ (∀ a0 a1 a2, Touches [.time, .coll, .outs] (.insertionSlot a0 a1 a2))
  ∧ (∀ a0 a1 a2 a3, Touches [.time, .coll, .hop, .hall, .cmd, .outs] (.stampPair a0 a1 a2 a3))
  ∧ (∀ a0 a1, Touches [.coll, .hop, .hall, .cmd, .sentry, .outs] (.snoopFrame a0 a1))
  ∧ (∀ a0, Touches [.coll, .hop, .hall, .cmd, .trace, .outs] (.tracePacket a0))
  ∧ (∀ a0, Touches [.coll, .hop, .hall, .cmd, .verd, .sentry, .trace, .brake, .outs] (.stepMark a0))
  ∧ (∀ a0, Touches [.coll, .hop, .hall, .cmd, .verd, .trace, .outs] (.collMark a0))
  ∧ (∀ a0, Touches [.coll, .hop, .hall, .cmd, .model, .verd, .trace, .outs] (.streamMark a0))
  ∧ (∀ a0, Touches [.coll, .hop, .hall, .cmd, .trace, .outs] (.tensorPacket a0))
  ∧ (∀ a0, Touches [.coll, .hop, .hall, .cmd, .gov, .outs] (.smbalert a0))
  ∧ (∀ a0, Touches [.coll, .hop, .hall, .cmd, .gov, .outs] (.pmbPoll a0))
  ∧ (∀ a0 a1, Touches [.sys, .coll, .hop, .hall, .cmd, .verd, .brake, .flash, .hoist, .outs] (.sideReadResponse a0 a1))
  ∧ Touches [.sys, .coll, .hop, .hall, .cmd, .verd, .brake, .flash, .hoist, .outs] .sideReadTimeout
  ∧ Touches [.metro] .assayConversion
  ∧ (∀ a0 a1, Touches [.metro] (.assaySamplePair a0 a1))
  ∧ Touches [.metro] .assayPairMissing
  ∧ Touches [.coll, .hop, .hall, .cmd, .metro, .assay, .outs] .assayReadoutFrame
  ∧ (∀ a0, Touches [.coll, .hop, .hall, .cmd, .brake, .outs] (.heartbeatWrite a0))
  ∧ (∀ a0 a1, Touches [.pow, .cmd, .outs] (.cqTailWrite a0 a1))
  ∧ (∀ a0 a1, Touches [.cmd, .outs] (.rqHeadWrite a0 a1))
  ∧ (∀ a0 a1 a2, Touches [.cmd, .outs] (.queuePairEnable a0 a1 a2))
  ∧ (∀ a0, Touches [.cmd, .outs] (.queuePairDisable a0))
  ∧ (∀ a0, Touches [.cmd, .outs] (.tsTb0LoRead a0))
  ∧ (∀ a0, Touches [.cmd, .outs] (.loHalfRead a0))
  ∧ (∀ a0 a1, Touches [.cmd, .outs] (.w1cStatusWrite a0 a1))
  ∧ (∀ a0, Touches [.cmd, .outs] (.intEnableWrite a0))
  ∧ (∀ a0 a1 a2, Touches [.cmd, .outs] (.badAccess a0 a1 a2))
  ∧ (∀ a0 a1, Touches [.cmd] (.registerWrite a0 a1))
  ∧ (∀ a0 a1 a2 a3, Touches [.sys, .pow, .time, .coll, .hop, .hall, .cmd, .crown, .model, .verd, .sentry, .trace,
      .brake, .test, .gov, .temper, .assay, .flash, .conf, .hoist, .outs] (.commandFetch a0 a1 a2 a3))
  ∧ (∀ a0, Touches [.cmd, .outs] (.replyWriteFail a0))
  ∧ (∀ a0 a1, Touches [.sys, .pow, .time, .coll, .hop, .hall, .cmd, .crown, .model, .verd, .sentry, .trace, .brake,
      .test, .gov, .temper, .assay, .flash, .conf, .hoist, .outs] (.asyncCommandDone a0 a1))
  ∧ (∀ a0 a1 a2, Touches [.sys, .pow, .time, .coll, .hop, .hall, .cmd, .crown, .model, .verd, .sentry, .trace, .brake,
      .test, .gov, .temper, .assay, .flash, .conf, .hoist, .outs] (.fabricQueueEntry a0 a1 a2))
  ∧ (∀ a0, Touches [.sys, .pow, .time, .coll, .hop, .hall, .cmd, .crown, .model, .verd, .sentry, .trace, .brake, .test,
      .gov, .temper, .assay, .flash, .conf, .hoist, .outs] (.commandRecordReceived a0))
  ∧ (∀ a0 a1, Touches [.sys, .pow, .time, .coll, .hop, .hall, .cmd, .crown, .model, .verd, .sentry, .trace, .brake,
      .test, .gov, .temper, .assay, .flash, .conf, .hoist, .outs] (.replyRecordReceived a0 a1))
  ∧ (∀ a0 a1, Touches [.sys, .pow, .time, .coll, .hop, .hall, .cmd, .crown, .model, .verd, .sentry, .trace, .brake,
      .test, .gov, .temper, .assay, .flash, .conf, .hoist, .outs] (.cmdRetryExpiry a0 a1))
  ∧ (∀ a0 a1, Touches [.sys, .pow, .time, .coll, .hop, .hall, .cmd, .crown, .model, .verd, .sentry, .trace, .brake,
      .test, .gov, .temper, .assay, .flash, .conf, .hoist, .outs] (.seqGapSkip a0 a1))
  ∧ Touches [.sys, .pow, .time, .coll, .hop, .hall, .cmd, .crown, .model, .verd, .sentry, .trace, .brake, .test,
      .temper, .flash, .conf, .hoist, .outs] .domainResetStart
  ∧ (∀ a0 a1 a2 a3, Touches [.sys, .pow, .time, .coll, .hop, .hall, .cmd, .crown, .model, .verd, .sentry, .trace,
      .brake, .test, .gov, .temper, .assay, .flash, .conf, .hoist, .outs] (.dataFrameReceived a0 a1 a2 a3))
  ∧ (∀ a0 a1 a2 a3, Touches [.sys, .pow, .time, .coll, .hop, .hall, .cmd, .crown, .model, .verd, .sentry, .trace,
      .brake, .test, .gov, .temper, .assay, .flash, .conf, .hoist, .outs] (.overflowFrameReceived a0 a1 a2 a3))
  ∧ (∀ a0, Touches [.sys, .pow, .time, .coll, .hop, .hall, .cmd, .crown, .model, .verd, .sentry, .trace, .brake, .test,
      .gov, .temper, .assay, .flash, .conf, .hoist, .outs] (.epochReceived a0))
  ∧ (∀ a0, Touches [.sys, .pow, .time, .coll, .hop, .hall, .cmd, .crown, .model, .verd, .sentry, .trace, .brake, .test,
      .gov, .temper, .assay, .flash, .conf, .hoist, .outs] (.reconcileReceived a0))
  ∧ (∀ a0, Touches [.sys, .pow, .time, .coll, .hop, .hall, .cmd, .crown, .model, .verd, .sentry, .trace, .brake, .test,
      .gov, .temper, .assay, .flash, .conf, .hoist, .outs] (.lastGaspReceived a0))
  ∧ (∀ a0 a1, Touches [.sys, .pow, .time, .coll, .hop, .hall, .cmd, .crown, .model, .verd, .sentry, .trace, .brake,
      .test, .gov, .temper, .assay, .flash, .conf, .hoist, .outs] (.joinReceived a0 a1))
  ∧ (∀ a0, Touches [.sys, .pow, .time, .coll, .hop, .hall, .cmd, .crown, .model, .verd, .sentry, .trace, .brake, .test,
      .gov, .temper, .assay, .flash, .conf, .hoist, .outs] (.joinAnswerReceived a0))
  ∧ Touches [.sys] .joinTimeout
  ∧ Touches [.sys, .coll, .hop, .hall, .cmd, .outs] .fabJoinRepeat
  ∧ (∀ a0, Touches [.sys, .pow, .time, .coll, .hop, .hall, .cmd, .crown, .model, .verd, .sentry, .trace, .brake, .test,
      .gov, .temper, .assay, .flash, .conf, .hoist, .outs] (.stampPairsReceived a0))
  ∧ (∀ a0, Touches [.sys, .pow, .time, .coll, .hop, .hall, .cmd, .crown, .model, .verd, .sentry, .trace, .brake, .test,
      .gov, .temper, .assay, .flash, .conf, .hoist, .outs] (.correctionReceived a0))
  ∧ (∀ a0, Touches [.sys, .pow, .time, .coll, .hop, .hall, .cmd, .crown, .model, .verd, .sentry, .trace, .brake, .test,
      .gov, .temper, .assay, .flash, .conf, .hoist, .outs] (.featuresReceived a0))
  ∧ (∀ a0, Touches [.sys, .pow, .time, .coll, .hop, .hall, .cmd, .crown, .model, .verd, .sentry, .trace, .brake, .test,
      .gov, .temper, .assay, .flash, .conf, .hoist, .outs] (.arrivalReceived a0))
  ∧ (∀ a0, Touches [.sys, .pow, .time, .coll, .hop, .hall, .cmd, .crown, .model, .verd, .sentry, .trace, .brake, .test,
      .gov, .temper, .assay, .flash, .conf, .hoist, .outs] (.batchReceived a0))
  ∧ (∀ a0, Touches [.sys, .pow, .time, .coll, .hop, .hall, .cmd, .crown, .model, .verd, .sentry, .trace, .brake, .test,
      .gov, .temper, .assay, .flash, .conf, .hoist, .outs] (.expelVerdictReceived a0))
  ∧ (∀ a0, Touches [.sys, .pow, .time, .coll, .hop, .hall, .cmd, .crown, .model, .verd, .sentry, .trace, .brake, .test,
      .gov, .temper, .assay, .flash, .conf, .hoist, .outs] (.healthyStepReceived a0))
  ∧ (∀ a0, Touches [.sys, .pow, .time, .coll, .hop, .hall, .cmd, .crown, .model, .verd, .sentry, .trace, .brake, .test,
      .gov, .temper, .assay, .flash, .conf, .hoist, .outs] (.replayReqReceived a0))
  ∧ (∀ a0, Touches [.sys, .pow, .time, .coll, .hop, .hall, .cmd, .crown, .model, .verd, .sentry, .trace, .brake, .test,
      .gov, .temper, .assay, .flash, .conf, .hoist, .outs] (.replayDigestReceived a0))
  ∧ (∀ a0, Touches [.sys, .pow, .time, .coll, .hop, .hall, .cmd, .crown, .model, .verd, .sentry, .trace, .brake, .test,
      .gov, .temper, .assay, .flash, .conf, .hoist, .outs] (.refusedReceived a0))
  ∧ (∀ a0, Touches [.sys, .pow, .time, .coll, .hop, .hall, .cmd, .crown, .model, .verd, .sentry, .trace, .brake, .test,
      .gov, .temper, .assay, .flash, .conf, .hoist, .outs] (.jobReleaseReceived a0))
  ∧ (∀ a0, Touches [.sys, .pow, .time, .coll, .hop, .hall, .cmd, .crown, .model, .verd, .sentry, .trace, .brake, .test,
      .gov, .temper, .assay, .flash, .conf, .hoist, .outs] (.cutContribReceived a0))
  ∧ (∀ a0, Touches [.sys, .pow, .time, .coll, .hop, .hall, .cmd, .crown, .model, .verd, .sentry, .trace, .brake, .test,
      .gov, .temper, .assay, .flash, .conf, .hoist, .outs] (.broadcastReceived a0))
  ∧ (∀ a0, Touches [.sys, .pow, .time, .coll, .hop, .hall, .cmd, .crown, .model, .verd, .sentry, .trace, .brake, .test,
      .gov, .temper, .assay, .flash, .conf, .hoist, .outs] (.broadcastAckReceived a0))
  ∧ (∀ a0 a1, Touches [.coll, .hop, .hall, .cmd, .crown, .outs] (.ackTimerExpiry a0 a1))
  ∧ (∀ a0 a1, Touches [.coll, .hop, .hall, .cmd, .crown, .outs] (.resendAckTimerExpiry a0 a1))
  ∧ (∀ a0, Touches [.sys, .pow, .time, .coll, .hop, .hall, .cmd, .crown, .model, .verd, .sentry, .trace, .brake, .test,
      .gov, .temper, .assay, .flash, .conf, .hoist, .outs] (.imageChunkData a0))
  ∧ (∀ a0, Touches [.coll, .hop, .hall, .cmd, .brake, .flash, .hoist, .outs] (.chunkWritten a0))
  ∧ (∀ a0, Touches [.sys, .pow, .time, .coll, .hop, .hall, .cmd, .crown, .model, .verd, .sentry, .trace, .brake, .test,
      .gov, .temper, .assay, .flash, .conf, .hoist, .outs] (.imageChunkAck a0))
  ∧ Touches [.coll, .hop, .hall, .cmd, .brake, .hoist, .outs] .hoistRtoExpiry
  ∧ Touches [.coll, .hop, .hall, .cmd, .flash, .hoist, .outs] .hoistWaitExpiry
  ∧ (∀ a0, Touches [.sys, .pow, .time, .coll, .hop, .hall, .cmd, .crown, .model, .verd, .sentry, .trace, .brake, .test,
      .gov, .temper, .assay, .flash, .conf, .hoist, .outs] (.startReq a0))

/-- Frames of the remaining rows that are no packets: what each may change; every other part is as before. -/
def Obligations.FramesOfOtherRows : Prop :=
  (∀ a0, Touches [.sys, .pow, .time, .coll, .hop, .hall, .cmd, .crown, .model, .verd, .sentry, .trace, .brake, .test,
      .gov, .temper, .assay, .flash, .conf, .hoist, .outs] (.startGrant a0))
  ∧ (∀ a0, Touches [.sys, .pow, .time, .coll, .hop, .hall, .cmd, .crown, .model, .verd, .sentry, .trace, .brake, .test,
      .gov, .temper, .assay, .flash, .conf, .hoist, .outs] (.startDeny a0))
  ∧ (∀ a0, Touches [.sys, .pow, .time, .coll, .hop, .hall, .cmd, .crown, .model, .verd, .sentry, .trace, .brake, .test,
      .gov, .temper, .assay, .flash, .conf, .hoist, .outs] (.startDone a0))
  ∧ Touches [.coll, .hop, .hall, .cmd, .hoist, .outs] .startReqTimeout
  ∧ Touches [.hoist] .startGrantExpiry
  ∧ (∀ a0, Touches [.coll, .verd, .gov, .outs] (.grantMessage a0))
  ∧ (∀ a0 a1, Touches [.coll, .hop, .hall, .cmd, .gov, .outs] (.reportMessage a0 a1))
  ∧ (∀ a0 a1 a2, Touches [.coll, .hop, .hall, .cmd, .gov, .outs] (.plan a0 a1 a2))
  ∧ (∀ a0, Touches [.coll, .hop, .hall, .cmd, .gov, .flash, .conf, .outs] (.planAck a0))
  ∧ Touches [.coll, .hop, .hall, .cmd, .gov, .outs] .grantPeriodStart
  ∧ Touches [.gov, .outs] .phase2Start
  ∧ Touches [.coll, .verd, .gov] .glToExpiry
  ∧ (∀ a0, Touches [.coll, .hop, .hall, .cmd, .gov, .outs] (.memberSilent a0))
  ∧ (∀ a0, Touches [.gov] (.silentAccountRelease a0))
  ∧ Touches [.gov, .outs] .reportInterval
  ∧ Touches [.coll, .hop, .hall, .cmd, .gov, .outs] .grantRecBoundary
  ∧ (∀ a0 a1, Touches [.coll, .hop, .hall, .cmd, .gov, .flash, .conf, .outs] (.planHoldRelease a0 a1))
  ∧ (∀ a0, Touches [.temper] (.tmPeriodBoundary a0))
  ∧ (∀ a0 a1 a2, Touches [.coll, .hop, .hall, .cmd, .gov, .temper, .flash, .conf, .outs] (.temperMeasurementDone a0 a1 a2))
  ∧ (∀ a0 a1, Touches [.time, .coll, .hop, .hall, .cmd, .crown, .model, .verd, .brake, .outs] (.sampleBoundary a0 a1))
  ∧ (∀ a0, Touches [.coll, .hop, .hall, .cmd, .crown, .model, .verd, .brake, .outs] (.residWaitExpiry a0))
  ∧ (∀ a0, Touches [.coll, .hop, .hall, .cmd, .outs] (.reconcilePeriod a0))
  ∧ (∀ a0, Touches [.coll, .hop, .hall, .cmd, .outs] (.epochRecordInterval a0))
  ∧ (∀ a0 a1, Touches [.sys, .coll, .hop, .outs] (.frameSelection a0 a1))
  ∧ (∀ a0 a1, Touches [.coll, .hop] (.fwdFrameStale a0 a1))
  ∧ (∀ a0, Touches [.coll, .hop, .hall, .cmd, .outs] (.creditTimerExpiry a0))
  ∧ Touches [.hop] .shaperRefill
  ∧ Touches [.hop] .sluiceRefill
  ∧ Touches [.hop] .admissionRefill
  ∧ Touches [.coll, .hop, .hall, .cmd, .outs] .teardownFlush
  ∧ Touches [.time, .coll] .correctionWindowEnd
  ∧ Touches [.time, .coll, .hop, .hall, .cmd, .verd, .outs] .correctionPublish
  ∧ Touches [.time, .coll, .hop, .hall, .cmd, .verd, .outs] .solveDeadline
  ∧ (∀ a0, Touches [.sys, .coll, .hop, .hall, .cmd, .crown, .outs] (.cutWindowEnd a0))
  ∧ (∀ a0, Touches [.sys, .coll, .hop, .hall, .cmd, .crown, .model, .verd, .brake, .outs] (.cutClose a0))
  ∧ (∀ a0, Touches [.model] (.quernEvalStart a0))
  ∧ (∀ a0, Touches [.coll, .hop, .hall, .cmd, .crown, .model, .verd, .brake, .outs] (.quernEvalComplete a0))
  ∧ (∀ a0 a1, Touches [.coll, .hop, .hall, .cmd, .crown, .model, .verd, .brake, .outs] (.eachWaitExpiry a0 a1))
  ∧ (∀ a0 a1, Touches [.model, .verd] (.actAtReached a0 a1))
  ∧ (∀ a0 a1, Touches [.cmd, .model] (.modelLoadComplete a0 a1))
  ∧ (∀ a0 a1, Touches [.cmd, .model] (.modelBroadcastWaitExpiry a0 a1))
  ∧ (∀ a0, Touches [.cmd, .model] (.millraceStepStart a0))
  ∧ (∀ a0, Touches [.coll, .hop, .hall, .cmd, .crown, .model, .verd, .brake, .outs] (.millraceStepComplete a0))
  ∧ (∀ a0 a1, Touches [.cmd, .model] (.rolloutComplete a0 a1))
  ∧ (∀ a0, Touches [.coll, .hop, .hall, .cmd, .verd, .brake, .outs] (.expelBucketRefill a0))
  ∧ (∀ a0 a1 a2, Touches [.coll, .hop, .hall, .cmd, .verd, .outs] (.batchWaitExpiry a0 a1 a2))
  ∧ (∀ a0 a1 a2, Touches [.coll, .hop, .hall, .cmd, .verd, .outs] (.arrWaitExpiry a0 a1 a2))
  ∧ (∀ a0, Touches [.coll, .hop, .hall, .cmd, .verd, .outs] (.silentToExpiry a0))
  ∧ (∀ a0, Touches [.coll, .hop, .hall, .cmd, .verd, .outs] (.disHoldExpiry a0))
  ∧ (∀ a0, Touches [.coll, .hop, .hall, .cmd, .verd, .sentry, .brake, .outs] (.snoopSettleExpiry a0))
  ∧ (∀ a0, Touches [.coll, .hop, .hall, .cmd, .verd, .sentry, .brake, .outs] (.replayToExpiry a0))
  ∧ Touches [.sys, .coll, .hop, .hall, .cmd, .verd, .brake, .flash, .hoist, .outs] .heartbeatPeriodEnd
  ∧ Touches [.brake] .bootToExpiry
  ∧ Touches [.sys, .coll, .hop, .hall, .cmd, .verd, .brake, .flash, .hoist, .outs] .engConfToExpiry
  ∧ (∀ a0, Touches [.sys, .coll, .hop, .hall, .cmd, .verd, .brake, .flash, .hoist, .outs] (.blockBeatPeriodEnd a0))
  ∧ (∀ a0 a1, Touches [.sys, .pow, .time, .coll, .hop, .hall, .cmd, .crown, .model, .verd, .sentry, .trace, .brake,
      .test, .temper, .flash, .conf, .hoist, .outs] (.internalWatchPeriod a0 a1))
  ∧ Touches [.sys, .coll, .hop, .hall, .cmd, .verd, .brake, .outs] .recovToExpiry
  ∧ Touches [.sys, .coll, .hop, .hall, .cmd, .verd, .brake, .outs] .coldRung
  ∧ Touches [.sys, .coll, .hop, .hall, .cmd, .verd, .brake, .outs] .reqToExpiry
  ∧ (∀ a0, Touches [.coll, .hop, .hall, .cmd, .crown, .brake, .outs] (.peerLinkDownTimeout a0))
  ∧ Touches [.sys, .coll, .hop, .hall, .cmd, .verd, .brake, .flash, .hoist, .outs] .ingotCaptureEnd
  ∧ Touches [.sys, .coll, .hop, .hall, .cmd, .verd, .brake, .flash, .hoist, .outs] .ingotWriteDone
  ∧ Touches [.coll, .hop, .hall, .cmd, .brake, .outs] .gpToExpiry
  ∧ (∀ a0, Touches [.coll, .hop, .hall, .cmd, .trace, .outs] (.trFlushExpiry a0))
  ∧ Touches [.coll, .hop, .hall, .cmd, .trace, .outs] .syncPeriodBoundary
  ∧ Touches [.coll, .hop, .hall, .cmd, .trace, .outs] .authExpiry
  ∧ Touches [.trace] .authLockoutEnd
  ∧ Touches [.trace] .tensorBucketRefill
  ∧ Touches [.coll, .hop, .hall, .cmd, .outs] .hallmarkFlashWriteDone
  ∧ (∀ a0, Touches [.coll, .hop, .hall, .cmd, .outs] (.rlBucketRefill a0))
  ∧ Touches [.hall] .flashBucketRefill
  ∧ Touches [.coll, .hop, .hall, .cmd, .outs] .optTick
  ∧ (∀ a0, Touches [.cmd, .test, .outs] (.testDue a0))
  ∧ Touches [.cmd, .test, .outs] .reaskExpiry
  ∧ (∀ a0, Touches [.coll, .hop, .hall, .cmd, .test, .outs] (.testOverdue a0))
  ∧ Touches [.coll, .hop, .hall, .cmd, .brake, .test, .flash, .conf, .outs] .winUsExpiry
  ∧ Touches [.coll, .hop, .hall, .cmd, .brake, .test, .flash, .conf, .outs] .selAckTimeout
  ∧ (∀ a0, Touches [.test] (.scanSegmentEnd a0))
  ∧ Touches [.coll, .hop, .hall, .cmd, .brake, .test, .flash, .conf, .outs] .exitSequenceDone
  ∧ (∀ a0, Touches [.coll, .hop, .hall, .cmd, .test, .flash, .conf, .hoist, .outs] (.stageComplete a0))
  ∧ Touches [.coll, .hop, .hall, .cmd, .brake, .flash, .conf, .hoist, .outs] .fwSelfConfirm
  ∧ Touches [.sys, .pow, .time, .coll, .hop, .hall, .cmd, .crown, .model, .verd, .sentry, .trace, .brake, .test,
      .temper, .flash, .conf, .hoist, .outs] .fwHealthDeadline
  ∧ Touches [.sys, .pow, .time, .coll, .hop, .hall, .cmd, .crown, .model, .verd, .sentry, .trace, .brake, .test, .gov,
      .temper, .assay, .flash, .conf, .hoist, .outs] .drainEnd
  ∧ Touches [.pow] .offFlashFlushDone
  ∧ (∀ a0, Touches [.sys, .pow, .time, .coll, .hop, .hall, .cmd, .crown, .model, .verd, .sentry, .trace, .brake, .test,
      .gov, .temper, .assay, .flash, .conf, .hoist, .outs] (.wakeDemand a0))
  ∧ Touches [.pow, .coll, .hop, .hall, .cmd, .crown, .model, .verd, .trace, .brake, .test, .flash, .conf, .outs] .wakeHoldExpiry
  ∧ Touches [.pow] .ctlIdleStop
  ∧ Touches [.sys, .coll, .hop, .hall, .cmd, .hoist, .outs] .crownPowered
  ∧ (∀ a0, Touches [.sys, .pow, .time, .coll, .hop, .hall, .cmd, .crown, .model, .verd, .sentry, .trace, .brake, .test,
      .temper, .flash, .conf, .hoist, .outs] (.scrubWord a0))
  ∧ (∀ a0, Touches [.time, .coll] (.monitorWindowEnd a0))
  ∧ Touches [.coll] .other1588Message
  ∧ (∀ a0, Touches [.time] (.portClockStop a0))
  ∧ (∀ a0, Touches [.metro] (.assayCalibrationWrite a0))
  ∧ (∀ a0, Touches [.sys, .hop] (.faultInjectionEnd a0))
  ∧ (∀ a0, Touches [.brake] (.resetRequestRelease a0))
  ∧ (∀ a0 a1, Touches [.sys, .pow, .coll, .hop, .hall, .cmd, .brake, .outs] (.portDomainRelease a0 a1))
end

