-- ==== Sys2Proof/Laws/Moves.lean ====
section
/-! SUPPORT. How one operation moves the state: which areas it may change, and that it keeps the invariant. The lemma of every operation
over `Moves` says once everything of that kind; a later proof chains them. -/

namespace Sys2Proof.Machine

/-- Areas of one list that all lie in another. -/
def subAreas (qs ps : List Area) : Bool := qs.all fun q => ps.contains q

/-- From `s` to `t` only the areas named change, and the invariant is kept. -/
def Moves (ps : List Area) (s t : State) : Prop := Frame ps s t ∧ (s.Inv → t.Inv)

theorem Frame.refl (ps : List Area) (s : State) : Frame ps s s := by intro p _; cases p <;> rfl

theorem State.sameAt_trans {s t u : State} {p : Area} (h : s.sameAt t p) (h' : t.sameAt u p) : s.sameAt u p := by
  cases p <;> exact Eq.trans h' h

theorem Frame.trans {ps : List Area} {s t u : State} (h : Frame ps s t) (h' : Frame ps t u) : Frame ps s u :=
  fun p hp => State.sameAt_trans (h p hp) (h' p hp)

theorem Frame.mono {ps qs : List Area} {s t : State} (h : Frame ps s t) (hq : subAreas ps qs = true) : Frame qs s t := by
  intro p hp
  refine h p ?_
  cases hc : ps.contains p with
  | false => rfl
  | true =>
    have hm : p ∈ ps := by simpa using hc
    have := List.all_eq_true.mp hq p hm
    rw [hp] at this
    exact absurd this (by simp)

theorem Moves.refl {ps : List Area} (s : State) : Moves ps s s := ⟨Frame.refl ps s, id⟩

theorem Moves.trans {ps : List Area} {s t u : State} (h : Moves ps s t) (h' : Moves ps t u) : Moves ps s u :=
  ⟨h.1.trans h'.1, fun i => h'.2 (h.2 i)⟩

theorem Moves.mono {ps qs : List Area} {s t : State} (h : Moves ps s t) (hq : subAreas ps qs = true) : Moves qs s t :=
  ⟨h.1.mono hq, h.2⟩

/-- A chain goes on: `u` to `s`, then `s` to `t` within fewer areas. -/
theorem Moves.next {ps qs : List Area} {u s t : State} (h : Moves ps u s) (h' : Moves qs s t) (hq : subAreas qs ps = true) :
    Moves ps u t := h.trans (h'.mono hq)

theorem Moves.fold {α : Type} {ps : List Area} {u : State} {f : State → α → State} {l : List α}
    (hf : ∀ t x, Moves ps u t → Moves ps u (f t x)) : ∀ {s : State}, Moves ps u s → Moves ps u (l.foldl f s) := by
  induction l with
  | nil => exact fun h => h
  | cons x l ih => exact fun h => ih (hf _ _ h)

theorem Moves.ite {ps : List Area} {u : State} {c : Prop} {i : Decidable c} {s t : State} (h : Moves ps u s) (h' : Moves ps u t) :
    Moves ps u (if c then s else t) := by split <;> assumption

theorem Moves.sys {ps : List Area} {u s : State} {x : SysUnit} (h : Moves ps u s) (hp : ps.contains .sys = true) :
    Moves ps u { s with sys := x } := by
  refine h.trans ⟨fun p q => ?_, fun i => i⟩
  cases p <;> first | rfl | (exact absurd (hp.symm.trans q) (by simp))

theorem Moves.pow {ps : List Area} {u s : State} {x : PowUnit} (h : Moves ps u s) (hp : ps.contains .pow = true) :
    Moves ps u { s with pow := x } := by
  refine h.trans ⟨fun p q => ?_, fun i => i⟩
  cases p <;> first | rfl | (exact absurd (hp.symm.trans q) (by simp))

theorem Moves.time {ps : List Area} {u s : State} {x : TimeUnit} (h : Moves ps u s) (hp : ps.contains .time = true) :
    Moves ps u { s with time := x } := by
  refine h.trans ⟨fun p q => ?_, fun i => i⟩
  cases p <;> first | rfl | (exact absurd (hp.symm.trans q) (by simp))

theorem Moves.coll {ps : List Area} {u s : State} {x : CollUnit} (ok : s.coll.Ok → x.Ok) (h : Moves ps u s)
    (hp : ps.contains .coll = true) : Moves ps u { s with coll := x } := by
  refine h.trans ⟨fun p q => ?_, fun i => ?_⟩
  · cases p <;> first | rfl | (exact absurd (hp.symm.trans q) (by simp))
  · obtain ⟨a, b, c, d, e⟩ := i
    exact ⟨a, b, ok c, d, e⟩

theorem Moves.hop {ps : List Area} {u s : State} {x : HopUnit} (ok : s.hop.Ok → x.Ok) (h : Moves ps u s)
    (hp : ps.contains .hop = true) : Moves ps u { s with hop := x } := by
  refine h.trans ⟨fun p q => ?_, fun i => ?_⟩
  · cases p <;> first | rfl | (exact absurd (hp.symm.trans q) (by simp))
  · obtain ⟨a, b, c, d, e⟩ := i
    exact ⟨a, b, c, ok d, e⟩

theorem Moves.hall {ps : List Area} {u s : State} {x : HallUnit} (ok : s.hall.Ok → x.Ok) (h : Moves ps u s)
    (hp : ps.contains .hall = true) : Moves ps u { s with hall := x } := by
  refine h.trans ⟨fun p q => ?_, fun i => ?_⟩
  · cases p <;> first | rfl | (exact absurd (hp.symm.trans q) (by simp))
  · obtain ⟨a, b, c, d, e⟩ := i
    exact ⟨ok a, b, c, d, e⟩

theorem Moves.cmd {ps : List Area} {u s : State} {x : CmdUnit} (ok : s.cmd.Ok → x.Ok) (h : Moves ps u s)
    (hp : ps.contains .cmd = true) : Moves ps u { s with cmd := x } := by
  refine h.trans ⟨fun p q => ?_, fun i => ?_⟩
  · cases p <;> first | rfl | (exact absurd (hp.symm.trans q) (by simp))
  · obtain ⟨a, b, c, d, e⟩ := i
    exact ⟨a, ok b, c, d, e⟩

theorem Moves.crown {ps : List Area} {u s : State} {x : CrownUnit} (h : Moves ps u s) (hp : ps.contains .crown = true) :
    Moves ps u { s with crown := x } := by
  refine h.trans ⟨fun p q => ?_, fun i => i⟩
  cases p <;> first | rfl | (exact absurd (hp.symm.trans q) (by simp))

theorem Moves.model {ps : List Area} {u s : State} {x : ModelUnit} (h : Moves ps u s) (hp : ps.contains .model = true) :
    Moves ps u { s with model := x } := by
  refine h.trans ⟨fun p q => ?_, fun i => i⟩
  cases p <;> first | rfl | (exact absurd (hp.symm.trans q) (by simp))

theorem Moves.verd {ps : List Area} {u s : State} {x : VerdictUnit} (h : Moves ps u s) (hp : ps.contains .verd = true) :
    Moves ps u { s with verd := x } := by
  refine h.trans ⟨fun p q => ?_, fun i => i⟩
  cases p <;> first | rfl | (exact absurd (hp.symm.trans q) (by simp))

theorem Moves.sentry {ps : List Area} {u s : State} {x : SentryUnit} (h : Moves ps u s) (hp : ps.contains .sentry = true) :
    Moves ps u { s with sentry := x } := by
  refine h.trans ⟨fun p q => ?_, fun i => i⟩
  cases p <;> first | rfl | (exact absurd (hp.symm.trans q) (by simp))

theorem Moves.trace {ps : List Area} {u s : State} {x : TraceUnit} (h : Moves ps u s) (hp : ps.contains .trace = true) :
    Moves ps u { s with trace := x } := by
  refine h.trans ⟨fun p q => ?_, fun i => i⟩
  cases p <;> first | rfl | (exact absurd (hp.symm.trans q) (by simp))

theorem Moves.brake {ps : List Area} {u s : State} {x : BrakeUnit} (h : Moves ps u s) (hp : ps.contains .brake = true) :
    Moves ps u { s with brake := x } := by
  refine h.trans ⟨fun p q => ?_, fun i => i⟩
  cases p <;> first | rfl | (exact absurd (hp.symm.trans q) (by simp))

theorem Moves.test {ps : List Area} {u s : State} {x : TestUnit} (h : Moves ps u s) (hp : ps.contains .test = true) :
    Moves ps u { s with test := x } := by
  refine h.trans ⟨fun p q => ?_, fun i => i⟩
  cases p <;> first | rfl | (exact absurd (hp.symm.trans q) (by simp))

theorem Moves.gov {ps : List Area} {u s : State} {x : GovUnit} (h : Moves ps u s) (hp : ps.contains .gov = true) :
    Moves ps u { s with gov := x } := by
  refine h.trans ⟨fun p q => ?_, fun i => i⟩
  cases p <;> first | rfl | (exact absurd (hp.symm.trans q) (by simp))

theorem Moves.temper {ps : List Area} {u s : State} {x : TemperUnit} (h : Moves ps u s) (hp : ps.contains .temper = true) :
    Moves ps u { s with temper := x } := by
  refine h.trans ⟨fun p q => ?_, fun i => i⟩
  cases p <;> first | rfl | (exact absurd (hp.symm.trans q) (by simp))

theorem Moves.metro {ps : List Area} {u s : State} {x : MetroUnit} (h : Moves ps u s) (hp : ps.contains .metro = true) :
    Moves ps u { s with metro := x } := by
  refine h.trans ⟨fun p q => ?_, fun i => i⟩
  cases p <;> first | rfl | (exact absurd (hp.symm.trans q) (by simp))

theorem Moves.assay {ps : List Area} {u s : State} {x : AssayAo} (ok : s.assay.Ok → x.Ok) (h : Moves ps u s)
    (hp : ps.contains .assay = true) : Moves ps u { s with assay := x } := by
  refine h.trans ⟨fun p q => ?_, fun i => ?_⟩
  · cases p <;> first | rfl | (exact absurd (hp.symm.trans q) (by simp))
  · obtain ⟨a, b, c, d, e⟩ := i
    exact ⟨a, b, c, d, ok e⟩

theorem Moves.flash {ps : List Area} {u s : State} {x : FlashUnit} (h : Moves ps u s) (hp : ps.contains .flash = true) :
    Moves ps u { s with flash := x } := by
  refine h.trans ⟨fun p q => ?_, fun i => i⟩
  cases p <;> first | rfl | (exact absurd (hp.symm.trans q) (by simp))

theorem Moves.conf {ps : List Area} {u s : State} {x : ConfUnit} (h : Moves ps u s) (hp : ps.contains .conf = true) :
    Moves ps u { s with conf := x } := by
  refine h.trans ⟨fun p q => ?_, fun i => i⟩
  cases p <;> first | rfl | (exact absurd (hp.symm.trans q) (by simp))

theorem Moves.hoist {ps : List Area} {u s : State} {x : HoistUnit} (h : Moves ps u s) (hp : ps.contains .hoist = true) :
    Moves ps u { s with hoist := x } := by
  refine h.trans ⟨fun p q => ?_, fun i => i⟩
  cases p <;> first | rfl | (exact absurd (hp.symm.trans q) (by simp))

theorem Moves.outs {ps : List Area} {u s : State} {x : List Out} (h : Moves ps u s) (hp : ps.contains .outs = true) :
    Moves ps u { s with outs := x } := by
  refine h.trans ⟨fun p q => ?_, fun i => i⟩
  cases p <;> first | rfl | (exact absurd (hp.symm.trans q) (by simp))

theorem Moves.pending {ps : List Area} {u s : State} {x : List Instr} (h : Moves ps u s) (hp : ps.contains .pending = true) :
    Moves ps u { s with pending := x } := by
  refine h.trans ⟨fun p q => ?_, fun i => i⟩
  cases p <;> first | rfl | (exact absurd (hp.symm.trans q) (by simp))

theorem Moves.iteFst {α : Type} {ps : List Area} {u : State} {c : Prop} {i : Decidable c} {s t : State × α} (h : Moves ps u s.1)
    (h' : Moves ps u t.1) : Moves ps u (if c then s else t).1 := by split <;> assumption

/-- Every next state that an outcome answers is reached by such a move. -/
def OutMoves (ps : List Area) (s : State) (o : Host.Outcome State Fault Refusal) : Prop := ∀ t, o = .next t → Moves ps s t

theorem OutMoves.next {ps : List Area} {s t : State} (h : Moves ps s t) : OutMoves ps s (.next t) := by
  intro u e
  cases e
  exact h

theorem OutMoves.ite {ps : List Area} {s : State} {c : Prop} {i : Decidable c} {a b : Host.Outcome State Fault Refusal}
    (h : OutMoves ps s a) (h' : OutMoves ps s b) : OutMoves ps s (if c then a else b) := by split <;> assumption

/-- An update of hall that leaves alone what the invariant reads of it. -/
theorem Moves.hallSame {ps : List Area} {u s : State} {x : HallUnit} (e0 : x.ents = s.hall.ents) (e1 : x.buckets = s.hall.buckets) (e2 : x.log = s.hall.log)
    (h : Moves ps u s) (hp : ps.contains .hall = true) : Moves ps u { s with hall := x } :=
  Moves.hall (fun k => by unfold HallUnit.Ok at *; rw [e0, e1, e2]; exact k) h hp

/-- An update of cmd that leaves alone what the invariant reads of it. -/
theorem Moves.cmdSame {ps : List Area} {u s : State} {x : CmdUnit} (e0 : x.events = s.cmd.events) (e1 : x.store = s.cmd.store)
    (h : Moves ps u s) (hp : ps.contains .cmd = true) : Moves ps u { s with cmd := x } :=
  Moves.cmd (fun k => by unfold CmdUnit.Ok at *; rw [e0, e1]; exact k) h hp

/-- An update of coll that leaves alone what the invariant reads of it. -/
theorem Moves.collSame {ps : List Area} {u s : State} {x : CollUnit} (e0 : x.counters = s.coll.counters) (e1 : x.stageSamples = s.coll.stageSamples) (e2 : x.stageDisc = s.coll.stageDisc)
    (h : Moves ps u s) (hp : ps.contains .coll = true) : Moves ps u { s with coll := x } :=
  Moves.coll (fun k => by unfold CollUnit.Ok at *; rw [e0, e1, e2]; exact k) h hp

/-- An update of hop that leaves alone what the invariant reads of it. -/
theorem Moves.hopSame {ps : List Area} {u s : State} {x : HopUnit} (e0 : x.out = s.hop.out)
    (h : Moves ps u s) (hp : ps.contains .hop = true) : Moves ps u { s with hop := x } :=
  Moves.hop (fun k => by unfold HopUnit.Ok at *; rw [e0]; exact k) h hp

/-- An update of assay that leaves alone what the invariant reads of it. -/
theorem Moves.assaySame {ps : List Area} {u s : State} {x : AssayAo} (e0 : x.frames = s.assay.frames)
    (h : Moves ps u s) (hp : ps.contains .assay = true) : Moves ps u { s with assay := x } :=
  Moves.assay (fun k => by unfold AssayAo.Ok at *; rw [e0]; exact k) h hp

/-! ### The update of one unit -/

theorem State.modSys_moves {f : SysUnit → SysUnit} {s : State} : Moves [.sys] s (s.modSys f) := Moves.sys (Moves.refl s) rfl

theorem State.modPow_moves {f : PowUnit → PowUnit} {s : State} : Moves [.pow] s (s.modPow f) := Moves.pow (Moves.refl s) rfl

theorem State.modTime_moves {f : TimeUnit → TimeUnit} {s : State} : Moves [.time] s (s.modTime f) := Moves.time (Moves.refl s) rfl

theorem State.modColl_same {f : CollUnit → CollUnit} {s : State} (e0 : (f s.coll).counters = s.coll.counters) (e1 : (f s.coll).stageSamples = s.coll.stageSamples) (e2 : (f s.coll).stageDisc = s.coll.stageDisc) :
    Moves [.coll] s (s.modColl f) := Moves.collSame e0 e1 e2 (Moves.refl s) rfl

theorem State.modColl_moves {f : CollUnit → CollUnit} {s : State} (h : s.coll.Ok → (f s.coll).Ok) : Moves [.coll] s (s.modColl f) :=
  Moves.coll h (Moves.refl s) rfl

theorem State.modHop_same {f : HopUnit → HopUnit} {s : State} (e0 : (f s.hop).out = s.hop.out) :
    Moves [.hop] s (s.modHop f) := Moves.hopSame e0 (Moves.refl s) rfl

theorem State.modHop_moves {f : HopUnit → HopUnit} {s : State} (h : s.hop.Ok → (f s.hop).Ok) : Moves [.hop] s (s.modHop f) :=
  Moves.hop h (Moves.refl s) rfl

theorem State.modHall_same {f : HallUnit → HallUnit} {s : State} (e0 : (f s.hall).ents = s.hall.ents) (e1 : (f s.hall).buckets = s.hall.buckets) (e2 : (f s.hall).log = s.hall.log) :
    Moves [.hall] s (s.modHall f) := Moves.hallSame e0 e1 e2 (Moves.refl s) rfl

theorem State.modHall_moves {f : HallUnit → HallUnit} {s : State} (h : s.hall.Ok → (f s.hall).Ok) : Moves [.hall] s (s.modHall f) :=
  Moves.hall h (Moves.refl s) rfl

theorem State.modCmd_same {f : CmdUnit → CmdUnit} {s : State} (e0 : (f s.cmd).events = s.cmd.events) (e1 : (f s.cmd).store = s.cmd.store) :
    Moves [.cmd] s (s.modCmd f) := Moves.cmdSame e0 e1 (Moves.refl s) rfl

theorem State.modCmd_moves {f : CmdUnit → CmdUnit} {s : State} (h : s.cmd.Ok → (f s.cmd).Ok) : Moves [.cmd] s (s.modCmd f) :=
  Moves.cmd h (Moves.refl s) rfl

theorem State.modCrown_moves {f : CrownUnit → CrownUnit} {s : State} : Moves [.crown] s (s.modCrown f) := Moves.crown (Moves.refl s) rfl

theorem State.modModel_moves {f : ModelUnit → ModelUnit} {s : State} : Moves [.model] s (s.modModel f) := Moves.model (Moves.refl s) rfl

theorem State.modVerd_moves {f : VerdictUnit → VerdictUnit} {s : State} : Moves [.verd] s (s.modVerd f) := Moves.verd (Moves.refl s) rfl

theorem State.modSentry_moves {f : SentryUnit → SentryUnit} {s : State} : Moves [.sentry] s (s.modSentry f) := Moves.sentry (Moves.refl s) rfl

theorem State.modTrace_moves {f : TraceUnit → TraceUnit} {s : State} : Moves [.trace] s (s.modTrace f) := Moves.trace (Moves.refl s) rfl

theorem State.modBrake_moves {f : BrakeUnit → BrakeUnit} {s : State} : Moves [.brake] s (s.modBrake f) := Moves.brake (Moves.refl s) rfl

theorem State.modTest_moves {f : TestUnit → TestUnit} {s : State} : Moves [.test] s (s.modTest f) := Moves.test (Moves.refl s) rfl

theorem State.modGov_moves {f : GovUnit → GovUnit} {s : State} : Moves [.gov] s (s.modGov f) := Moves.gov (Moves.refl s) rfl

theorem State.modTemper_moves {f : TemperUnit → TemperUnit} {s : State} : Moves [.temper] s (s.modTemper f) := Moves.temper (Moves.refl s) rfl

theorem State.modMetro_moves {f : MetroUnit → MetroUnit} {s : State} : Moves [.metro] s (s.modMetro f) := Moves.metro (Moves.refl s) rfl

theorem State.modAssay_same {f : AssayAo → AssayAo} {s : State} (e0 : (f s.assay).frames = s.assay.frames) :
    Moves [.assay] s (s.modAssay f) := Moves.assaySame e0 (Moves.refl s) rfl

theorem State.modAssay_moves {f : AssayAo → AssayAo} {s : State} (h : s.assay.Ok → (f s.assay).Ok) : Moves [.assay] s (s.modAssay f) :=
  Moves.assay h (Moves.refl s) rfl

theorem State.modFlash_moves {f : FlashUnit → FlashUnit} {s : State} : Moves [.flash] s (s.modFlash f) := Moves.flash (Moves.refl s) rfl

theorem State.modConf_moves {f : ConfUnit → ConfUnit} {s : State} : Moves [.conf] s (s.modConf f) := Moves.conf (Moves.refl s) rfl

theorem State.modHoist_moves {f : HoistUnit → HoistUnit} {s : State} : Moves [.hoist] s (s.modHoist f) := Moves.hoist (Moves.refl s) rfl

theorem Moves.modHall {ps : List Area} {u s : State} {f : HallUnit → HallUnit} (h : Moves ps u s) (e0 : (f s.hall).ents = s.hall.ents) (e1 : (f s.hall).buckets = s.hall.buckets) (e2 : (f s.hall).log = s.hall.log)
    (hq : subAreas [.hall] ps = true) : Moves ps u (s.modHall f) := h.next (State.modHall_same e0 e1 e2) hq

theorem Moves.modCmd {ps : List Area} {u s : State} {f : CmdUnit → CmdUnit} (h : Moves ps u s) (e0 : (f s.cmd).events = s.cmd.events) (e1 : (f s.cmd).store = s.cmd.store)
    (hq : subAreas [.cmd] ps = true) : Moves ps u (s.modCmd f) := h.next (State.modCmd_same e0 e1) hq

theorem Moves.modColl {ps : List Area} {u s : State} {f : CollUnit → CollUnit} (h : Moves ps u s) (e0 : (f s.coll).counters = s.coll.counters) (e1 : (f s.coll).stageSamples = s.coll.stageSamples) (e2 : (f s.coll).stageDisc = s.coll.stageDisc)
    (hq : subAreas [.coll] ps = true) : Moves ps u (s.modColl f) := h.next (State.modColl_same e0 e1 e2) hq

theorem Moves.modHop {ps : List Area} {u s : State} {f : HopUnit → HopUnit} (h : Moves ps u s) (e0 : (f s.hop).out = s.hop.out)
    (hq : subAreas [.hop] ps = true) : Moves ps u (s.modHop f) := h.next (State.modHop_same e0) hq

theorem Moves.modAssay {ps : List Area} {u s : State} {f : AssayAo → AssayAo} (h : Moves ps u s) (e0 : (f s.assay).frames = s.assay.frames)
    (hq : subAreas [.assay] ps = true) : Moves ps u (s.modAssay f) := h.next (State.modAssay_same e0) hq

theorem Moves.hallOk {ps : List Area} {u s : State} {f : HallUnit → HallUnit} (h : Moves ps u s) (k : s.hall.Ok → (f s.hall).Ok)
    (hq : subAreas [.hall] ps = true) : Moves ps u (s.modHall f) := h.next (State.modHall_moves k) hq

theorem Moves.cmdOk {ps : List Area} {u s : State} {f : CmdUnit → CmdUnit} (h : Moves ps u s) (k : s.cmd.Ok → (f s.cmd).Ok)
    (hq : subAreas [.cmd] ps = true) : Moves ps u (s.modCmd f) := h.next (State.modCmd_moves k) hq

theorem Moves.collOk {ps : List Area} {u s : State} {f : CollUnit → CollUnit} (h : Moves ps u s) (k : s.coll.Ok → (f s.coll).Ok)
    (hq : subAreas [.coll] ps = true) : Moves ps u (s.modColl f) := h.next (State.modColl_moves k) hq

theorem Moves.hopOk {ps : List Area} {u s : State} {f : HopUnit → HopUnit} (h : Moves ps u s) (k : s.hop.Ok → (f s.hop).Ok)
    (hq : subAreas [.hop] ps = true) : Moves ps u (s.modHop f) := h.next (State.modHop_moves k) hq

theorem Moves.assayOk {ps : List Area} {u s : State} {f : AssayAo → AssayAo} (h : Moves ps u s) (k : s.assay.Ok → (f s.assay).Ok)
    (hq : subAreas [.assay] ps = true) : Moves ps u (s.modAssay f) := h.next (State.modAssay_moves k) hq

end Sys2Proof.Machine
end

