-- ==== Sys2Proof/Laws/Table.lean ====
section
/-! SUPPORT. Tables keep their canonical form, and read what was written. -/

namespace Sys2Proof.Machine

/-- Every key of a table is at least a bound. -/
def keysFrom {α : Type} (b : Nat) (t : Table α) : Prop := ∀ e ∈ t, b ≤ e.1

theorem tableWf_cons {α : Type} {a : Nat × α} {t : Table α} :
    tableWf (a :: t) = true ↔ keysFrom (a.1 + 1) t ∧ tableWf t = true := by
  induction t generalizing a with
  | nil => simp [tableWf, keysFrom]
  | cons b t ih =>
    have hb := @ih b
    constructor
    · intro h
      simp only [tableWf, Bool.and_eq_true, decide_eq_true_eq] at h
      refine ⟨?_, h.2⟩
      intro e he
      rcases List.mem_cons.mp he with rfl | he
      · exact h.1
      · have := (hb.mp h.2).1 e he
        omega
    · intro h
      simp only [tableWf, Bool.and_eq_true, decide_eq_true_eq]
      exact ⟨h.1 b (List.mem_cons_self ..), h.2⟩

theorem keysFrom_tput {α : Type} {b k : Nat} {v : α} {t : Table α} (h : keysFrom b t) (hk : b ≤ k) : keysFrom b (tput t k v) := by
  induction t with
  | nil => intro e he; simp only [tput, List.mem_singleton] at he; subst he; exact hk
  | cons a t ih =>
    have h1 : b ≤ a.1 := h a (List.mem_cons_self ..)
    have h2 : keysFrom b t := fun e he => h e (List.mem_cons_of_mem _ he)
    unfold tput
    split
    · intro e he
      rcases List.mem_cons.mp he with rfl | he
      · exact hk
      · exact h e he
    · split
      · intro e he
        rcases List.mem_cons.mp he with rfl | he
        · exact hk
        · exact h2 e he
      · intro e he
        rcases List.mem_cons.mp he with rfl | he
        · exact h1
        · exact ih h2 e he

theorem tableWf_tput {α : Type} {t : Table α} {k : Nat} {v : α} (h : tableWf t = true) : tableWf (tput t k v) = true := by
  induction t with
  | nil => rfl
  | cons a t ih =>
    have h1 := tableWf_cons.mp h
    unfold tput
    split
    · refine tableWf_cons.mpr ⟨?_, h⟩
      intro e he
      rcases List.mem_cons.mp he with rfl | he
      · exact Nat.succ_le_of_lt ‹k < _›
      · have := h1.1 e he
        have := ‹k < _›
        simp only at *
        omega
    · split
      · have hk : k = a.1 := ‹k = _›
        exact tableWf_cons.mpr ⟨by simpa [hk] using h1.1, h1.2⟩
      · refine tableWf_cons.mpr ⟨keysFrom_tput h1.1 ?_, ih h1.2⟩
        have h3 : ¬ k < a.1 := ‹¬ k < _›
        have h4 : ¬ k = a.1 := ‹¬ k = _›
        show a.1 + 1 ≤ k
        omega

theorem tableWf_sublist {α : Type} {t u : Table α} (h : tableWf t = true) (hs : u.Sublist t) : tableWf u = true := by
  induction hs with
  | slnil => rfl
  | cons a _ ih => exact ih (tableWf_cons.mp h).2
  | @cons_cons l₁ l₂ a hs ih =>
    have h1 := tableWf_cons.mp h
    exact tableWf_cons.mpr ⟨fun e he => h1.1 e (hs.subset he), ih h1.2⟩

theorem tdel_sublist {α : Type} (t : Table α) (k : Nat) : (tdel t k).Sublist t := by
  induction t with
  | nil => exact List.Sublist.slnil
  | cons a t ih =>
    unfold tdel
    split
    · exact List.sublist_cons_self ..
    · exact ih.cons_cons _

theorem tget_tput_self {α : Type} (t : Table α) (k : Nat) (v : α) : tget (tput t k v) k = some v := by
  induction t with
  | nil => simp [tput, tget]
  | cons a t ih =>
    unfold tput
    split
    · simp [tget]
    · split
      · simp [tget]
      · have h : ¬ a.1 = k := fun e => ‹¬ k = _› e.symm
        simp [tget, h, ih]

theorem tget_tput_ne {α : Type} (t : Table α) {k j : Nat} (v : α) (h : j ≠ k) : tget (tput t k v) j = tget t j := by
  induction t with
  | nil => simp [tput, tget, Ne.symm h]
  | cons a t ih =>
    unfold tput
    split
    · simp [tget, Ne.symm h]
    · split
      · have e : k = a.1 := ‹k = _›
        have h1 : ¬ k = j := fun x => h x.symm
        have h2 : ¬ a.1 = j := fun x => h1 (e.trans x)
        simp [tget, h1, h2]
      · simp only [tget, ih]

theorem mem_tput {α : Type} {t : Table α} {k : Nat} {v : α} {e : Nat × α} (h : e ∈ tput t k v) : e = (k, v) ∨ e ∈ t := by
  induction t with
  | nil => exact Or.inl (by simpa [tput] using h)
  | cons a t ih =>
    unfold tput at h
    split at h
    · rcases List.mem_cons.mp h with h | h
      · exact Or.inl h
      · exact Or.inr h
    · split at h
      · rcases List.mem_cons.mp h with h | h
        · exact Or.inl h
        · exact Or.inr (List.mem_cons_of_mem _ h)
      · rcases List.mem_cons.mp h with h | h
        · exact Or.inr (h ▸ List.mem_cons_self ..)
        · rcases ih h with h | h
          · exact Or.inl h
          · exact Or.inr (List.mem_cons_of_mem _ h)

theorem mem_lmod {α : Type} {l : List α} {n : Nat} {f : α → α} {x : α} (h : x ∈ lmod l n f) : x ∈ l ∨ ∃ y ∈ l, x = f y := by
  induction l generalizing n with
  | nil => exact Or.inl h
  | cons a l ih =>
    cases n with
    | zero =>
      rcases List.mem_cons.mp h with h | h
      · exact Or.inr ⟨a, List.mem_cons_self .., h⟩
      · exact Or.inl (List.mem_cons_of_mem _ h)
    | succ n =>
      rcases List.mem_cons.mp h with h | h
      · exact Or.inl (h ▸ List.mem_cons_self ..)
      · rcases ih h with h | ⟨y, hy, h⟩
        · exact Or.inl (List.mem_cons_of_mem _ h)
        · exact Or.inr ⟨y, List.mem_cons_of_mem _ hy, h⟩

end Sys2Proof.Machine
end

