-- ==== Sys2Proof/Laws/HallBase.lean ====
section
/-! SUPPORT. What the data operations of Machine/HallBase.lean keep: the bounds of the staging area and of the buckets. -/

namespace Sys2Proof.Machine

theorem dropFirst_length {α : Type} {p : α → Bool} {l : List α} (h : ∃ x ∈ l, p x = true) : (dropFirst p l).length + 1 = l.length := by
  induction l with
  | nil => simp at h
  | cons a l ih =>
    unfold dropFirst
    split
    · rfl
    · next hp =>
      obtain ⟨x, hx, hpx⟩ := h
      rcases List.mem_cons.mp hx with rfl | hx
      · exact absurd hpx hp
      · simp [ih ⟨x, hx, hpx⟩]

/-- The severity picked is that of an entry which may be discarded. -/
theorem lowestSev_mem {l : List HEnt} {v : Sev} (h : lowestSev l = some v) :
    ∃ e ∈ l, (!(e.begun && !e.written) && e.r.sev == v) = true := by
  induction l generalizing v with
  | nil => simp [lowestSev] at h
  | cons a l ih =>
    unfold lowestSev at h
    cases hl : lowestSev l with
    | none => rw [hl] at h; simp only at h; split at h
              · cases h
              · next hc =>
                cases h
                exact ⟨a, List.mem_cons_self, by cases hb : a.begun <;> simp_all⟩
    | some w =>
      rw [hl] at h
      simp only at h
      obtain ⟨e, he, hp⟩ := ih hl
      split at h
      · exact ⟨e, List.mem_cons_of_mem a he, by cases h; exact hp⟩
      · split at h
        · next hc _ =>
          cases h
          exact ⟨a, List.mem_cons_self, by cases hb : a.begun <;> simp_all⟩
        · exact ⟨e, List.mem_cons_of_mem a he, by cases h; exact hp⟩

theorem lowestSev_isSome {l : List HEnt} {e : HEnt} (he : e ∈ l) (hb : e.begun = false) : lowestSev l ≠ none := by
  induction l with
  | nil => simp at he
  | cons a l ih =>
    unfold lowestSev
    rcases List.mem_cons.mp he with rfl | he
    · cases lowestSev l with
      | none => simp [hb]
      | some v => simp only [hb]; repeat' split
                  all_goals simp
    · cases hl : lowestSev l with
      | none => exact absurd hl (ih he)
      | some v => simp only; repeat' split
                  all_goals simp

/-- Staging never exceeds its 64 entries (R331, R332). -/
theorem placeEnt_length {l : List HEnt} {e : HEnt} (h : l.length ≤ 64) (hb : e.begun = false) : (placeEnt l e).1.length ≤ 64 := by
  unfold placeEnt
  split
  · simp; omega
  · split
    · next hf =>
      have := dropFirst_length (List.any_eq_true.mp hf)
      simp
      omega
    · unfold discardOne
      cases hv : lowestSev (l ++ [e]) with
      | none => exact absurd hv (lowestSev_isSome (List.mem_append_right l (List.mem_singleton.mpr rfl)) hb)
      | some v =>
        have := dropFirst_length (lowestSev_mem hv)
        simp at this ⊢
        omega

theorem markEnt_length (l : List HEnt) (q : Word) (f : HEnt → HEnt) : (markEnt l q f).length = l.length := by simp [markEnt]

theorem HallUnit.beginWrite_ok {h : HallUnit} (k : h.Ok) : h.beginWrite.Ok := by
  unfold HallUnit.beginWrite
  repeat' split
  all_goals first | exact k | exact ⟨by simpa [markEnt_length] using k.1, k.2⟩

theorem HallUnit.limit_ok {h : HallUnit} {code : BitVec 16} {sev : Sev} {a b : Nat} (k : h.Ok) : (h.limit code sev a b).1.Ok := by
  unfold HallUnit.limit
  obtain ⟨k1, k2, k3⟩ := k
  split
  · exact ⟨k1, by simpa using k2, k3⟩
  · dsimp only
    split
    · exact ⟨k1, by simp; omega, k3⟩
    · split
      · exact ⟨k1, by simpa using k2, k3⟩
      · exact ⟨k1, k2, k3⟩

theorem HallUnit.beginWrite_flash {h : HallUnit} {n : Nat} (k : h.Ok) : ({ h with flash := n } : HallUnit).beginWrite.Ok :=
  HallUnit.beginWrite_ok k

theorem HallUnit.tear_ok {h : HallUnit} (k : h.Ok) : h.tear.Ok := by
  unfold HallUnit.tear
  split
  · exact ⟨k.1, k.2.1, tableWf_tput k.2.2⟩
  · exact k

theorem HallUnit.tearIf_ok {h : HallUnit} {c : Prop} {i : Decidable c} (k : h.Ok) : (if c then h.tear else h).Ok := by
  split
  · exact HallUnit.tear_ok k
  · exact k

end Sys2Proof.Machine
end

