-- ==== Sys2Proof/Laws/Ops.lean ====
section
/-! SUPPORT. What the operations of Machine/Ops.lean can change, and that they keep the invariant. -/

namespace Sys2Proof.Machine

theorem State.emit_moves {o : Out} {s : State} : Moves [.outs] s (s.emit o) := Moves.outs (Moves.refl s) rfl

/-! ### Counters -/

theorem counterTableOk_iff {t : List (Nat × Counter)} :
    counterTableOk t = true ↔ tableWf t = true ∧ ∀ e ∈ t, ¬ (e.2.val = 0 ∧ e.2.wraps = 0) := by
  simp only [counterTableOk, Bool.and_eq_true, List.all_eq_true, Bool.not_eq_true', Bool.and_eq_false_imp, beq_iff_eq]
  constructor
  · rintro ⟨a, b⟩
    exact ⟨a, fun e he h => by simpa [h.2] using b e he h.1⟩
  · rintro ⟨a, b⟩
    exact ⟨a, fun e he h => by simpa using fun h' => b e he ⟨h, h'⟩⟩

theorem counterTableOk_sublist {t u : List (Nat × Counter)} (h : counterTableOk t = true) (hs : u.Sublist t) :
    counterTableOk u = true := by
  rw [counterTableOk_iff] at *
  exact ⟨tableWf_sublist h.1 hs, fun e he => h.2 e (hs.subset he)⟩

theorem counterTableOk_put {t : List (Nat × Counter)} {i : Nat} {c : Counter} (h : counterTableOk t = true) :
    counterTableOk (putCounter t i c) = true := by
  unfold putCounter
  split
  · exact counterTableOk_sublist h (tdel_sublist t i)
  · rw [counterTableOk_iff] at *
    refine ⟨tableWf_tput h.1, fun e he => ?_⟩
    rcases mem_tput he with rfl | he
    · assumption
    · exact h.2 e he

theorem State.bumpN_moves {i n : Nat} {s : State} : Moves [.coll] s (s.bumpN i n) :=
  State.modColl_moves fun h => ⟨counterTableOk_put h.1, h.2⟩

theorem State.bump_moves {i : Nat} {s : State} : Moves [.coll] s (s.bump i) := State.bumpN_moves

/-! ### Interrupts -/

theorem State.intSet_moves {i : Nat} {s : State} : Moves [.cmd, .outs] s (s.intSet i) := by
  unfold State.intSet
  dsimp only
  split
  · exact Moves.ite (Moves.next (Moves.next (Moves.refl s) (State.modCmd_same (by rfl) (by rfl)) rfl) State.emit_moves rfl)
      (Moves.next (Moves.refl s) (State.modCmd_same (by rfl) (by rfl)) rfl)
  · exact Moves.refl s

theorem State.stageRaw_moves {code : BitVec 16} {sev : Sev} {argb : Nat} {arg : Nat} {drill supp : Bool} {t : Nat} {s : State} :
    Moves [.coll, .hall, .cmd, .outs] s (State.stageRaw code sev argb arg drill supp t s) := by
  unfold State.stageRaw
  dsimp only
  generalize hr : (HEnt.mk _ false false false) = e
  have key : Moves [.coll, .hall, .cmd, .outs] s (s.modHall fun h =>
      { h with ents := (placeEnt s.hall.ents e).1, seq := nextSeq h.seq, lastSeq := h.seq,
               drop := if (placeEnt s.hall.ents e).2 = true then h.drop + 1 else h.drop }) :=
    (State.modHall_moves fun k => ⟨placeEnt_length k.1 (by rw [← hr]), k.2⟩).mono (by decide)
  refine Moves.ite (Moves.ite ?_ key) (Moves.next (Moves.ite ?_ key) State.intSet_moves (by decide))
  all_goals exact key.next State.bump_moves (by decide)

theorem State.stageQuiet_moves {code : BitVec 16} {sev : Sev} {argb arg : Nat} {s : State} :
    Moves [.coll, .hall, .cmd, .outs] s (State.stageQuiet code sev argb arg s) := by
  unfold State.stageQuiet
  dsimp only
  have key : Moves [.coll, .hall, .cmd, .outs] s (s.modHall fun _ => (s.hall.limit code sev s.tb1Ns s.tb0Ns).1) :=
    (State.modHall_moves fun k => HallUnit.limit_ok k).mono (by decide)
  refine Moves.ite (Moves.ite ?_ key) (Moves.refl s)
  exact (key.next State.stageRaw_moves (by decide)).next (State.modHall_moves HallUnit.beginWrite_ok) (by decide)

/-! ### Streams -/

theorem State.modIfc_moves {i : Nat} {f : IfcSt → IfcSt} {s : State} : Moves [.hop] s (s.modIfc i f) :=
  State.modHop_same rfl

theorem State.modOut_moves {c : Nat} {f : OutStream → OutStream} {s : State}
    (hf : ∀ o : OutStream, o.pos = BitVec.ofNat 24 o.emit → (f o).pos = BitVec.ofNat 24 (f o).emit) :
    Moves [.hop] s (s.modOut c f) := by
  refine State.modHop_moves fun h o ho => ?_
  rcases mem_lmod ho with ho | ⟨y, hy, rfl⟩
  · exact h o ho
  · exact hf y (h y hy)

theorem Moves.modOut {ps : List Area} {u s : State} {c : Nat} {f : OutStream → OutStream} (h : Moves ps u s)
    (hf : ∀ o : OutStream, o.pos = BitVec.ofNat 24 o.emit → (f o).pos = BitVec.ofNat 24 (f o).emit)
    (hq : subAreas [.hop] ps = true) : Moves ps u (s.modOut c f) := h.next (State.modOut_moves hf) hq

theorem State.modCfg_moves {c : Nat} {f : StreamCfg → StreamCfg} {s : State} : Moves [.hop] s (s.modCfg c f) :=
  State.modHop_same rfl

theorem State.dropMark_moves {c : Nat} {s : State} : Moves [.coll, .hop] s (s.dropMark c) :=
  Moves.next (Moves.next (Moves.next (Moves.refl s) State.bump_moves rfl) State.bump_moves rfl)
    (State.modOut_moves fun _ h => h) rfl

theorem State.modClass_moves {i c : Nat} {f : ClassQ → ClassQ} {s : State} : Moves [.hop] s (s.modClass i c f) :=
  State.modIfc_moves

/-- A position one further is that of one more record emitted. -/
theorem pos_step {o : OutStream} (h : o.pos = BitVec.ofNat 24 o.emit) : o.pos + 1 = BitVec.ofNat 24 (o.emit + 1) := by
  rw [h]
  apply BitVec.eq_of_toNat_eq
  simp [BitVec.toNat_add]

theorem State.place_moves {q : Req} {s : State} : Moves [.coll, .hop] s (s.place q).1 := by
  unfold State.place
  dsimp only
  have h : Moves [.coll, .hop] s ((s.modOut q.cls.val fun o =>
      { o with pos := o.pos + 1, emit := o.emit + 1, loss := false, carried := true }).bump cRecEmitted) :=
    Moves.next (Moves.modOut (Moves.refl s) (fun _ k => pos_step k) (by decide)) State.bump_moves (by decide)
  repeat' first
    | with_reducible apply Moves.refl
    | with_reducible exact h
    | ((with_reducible apply Moves.next (h' := State.dropMark_moves)); (case hq => decide))
    | ((with_reducible apply Moves.next (h' := State.modCfg_moves)); (case hq => decide))
    | ((with_reducible apply Moves.modHop); (case hq => decide); (case e0 => with_reducible rfl))
    | ((with_reducible apply Moves.modOut); (case hq => decide); (case hf => exact fun _ k => k))
    | with_reducible apply Moves.iteFst

theorem State.recount_moves {s : State} :
    Moves [.coll, .hop, .hall, .cmd, .outs] s (State.recount s) := by
  unfold State.recount
  try dsimp only
  repeat' first
    | with_reducible apply Moves.refl
    | assumption
    | ((with_reducible apply Moves.next (h' := State.stageQuiet_moves)); (case hq => decide))
    | ((with_reducible apply Moves.next (h' := State.bump_moves)); (case hq => decide))
    | ((with_reducible apply Moves.modHop); (case hq => decide); (case e0 => with_reducible rfl))
    | with_reducible apply Moves.ite
    | split

theorem State.putRecon_moves {c : Fin 4} {s : State} :
    Moves [.coll, .hop, .hall, .cmd, .outs] s (State.putRecon c s) := by
  unfold State.putRecon
  try dsimp only
  repeat' first
    | with_reducible apply Moves.refl
    | assumption
    | ((with_reducible apply Moves.next (h' := State.recount_moves)); (case hq => decide))
    | ((with_reducible apply Moves.next (h' := State.place_moves)); (case hq => decide))
    | ((with_reducible apply Moves.modOut); (case hq => decide); (case hf => exact fun _ k => k))
    | with_reducible apply Moves.ite
    | split

theorem State.putEpochTo_moves {d : Dest} {c : Fin 4} {s : State} :
    Moves [.coll, .hop] s (State.putEpochTo d c s) := by
  unfold State.putEpochTo
  try dsimp only
  repeat' first
    | with_reducible apply Moves.refl
    | assumption
    | ((with_reducible apply Moves.next (h' := State.place_moves)); (case hq => decide))
    | ((with_reducible apply Moves.modOut); (case hq => decide); (case hf => exact fun _ k => k))
    | with_reducible apply Moves.ite
    | split

theorem State.putEpoch_moves {c : Fin 4} {s : State} :
    Moves [.coll, .hop, .hall, .cmd, .outs] s (State.putEpoch c s) := by
  unfold State.putEpoch
  try dsimp only
  repeat' first
    | with_reducible apply Moves.refl
    | assumption
    | ((with_reducible apply Moves.next (h' := State.putEpochTo_moves)); (case hq => decide))
    | ((with_reducible apply Moves.modOut); (case hq => decide); (case hf => exact fun _ k => k))
    | ((with_reducible apply Moves.next (h' := State.putRecon_moves)); (case hq => decide))
    | with_reducible apply Moves.ite
    | split

theorem State.settleEpoch_moves {c : Fin 4} {d : Dest} {join : Bool} {s : State} :
    Moves [.coll, .hop, .hall, .cmd, .outs] s (State.settleEpoch c d join s) := by
  unfold State.settleEpoch
  try dsimp only
  repeat' first
    | with_reducible apply Moves.refl
    | assumption
    | ((with_reducible apply Moves.next (h' := State.putEpoch_moves)); (case hq => decide))
    | ((with_reducible apply Moves.next (h' := State.putEpochTo_moves)); (case hq => decide))
    | with_reducible apply Moves.ite
    | split

theorem State.admit_moves {s : State} :
    Moves [.hop] s (State.admitDue s) := by
  unfold State.admitDue
  try dsimp only
  repeat' first
    | with_reducible apply Moves.refl
    | assumption
    | ((with_reducible apply Moves.modHop); (case hq => decide); (case e0 => with_reducible rfl))
    | with_reducible apply Moves.ite
    | split

theorem State.offer_moves {q : Req} {s : State} :
    Moves [.coll, .hop, .hall, .cmd, .outs] s (State.offer q s).1 := by
  unfold State.offer
  try dsimp only
  repeat' first
    | with_reducible apply Moves.refl
    | assumption
    | with_reducible apply Moves.iteFst
    | ((with_reducible apply Moves.next (h' := State.place_moves)); (case hq => decide))
    | ((with_reducible apply Moves.next (h' := State.settleEpoch_moves)); (case hq => decide))
    | with_reducible apply Moves.ite
    | split

theorem State.send_moves {q : Req} {s : State} :
    Moves [.coll, .hop, .hall, .cmd, .outs] s (State.send q s) := by
  unfold State.send
  try dsimp only
  repeat' first
    | with_reducible apply Moves.refl
    | assumption
    | ((with_reducible apply Moves.next (h' := State.offer_moves)); (case hq => decide))
    | with_reducible apply Moves.ite
    | split

theorem State.sendOwed_moves {q : Req} {s : State} :
    Moves [.coll, .hop, .hall, .cmd, .brake, .outs] s (State.sendOwed q s) := by
  unfold State.sendOwed
  try dsimp only
  repeat' first
    | with_reducible apply Moves.refl
    | assumption
    | ((with_reducible apply Moves.next (h' := State.send_moves)); (case hq => decide))
    | ((with_reducible apply Moves.next (h' := State.modBrake_moves)); (case hq => decide))
    | with_reducible apply Moves.ite
    | split

theorem State.flushOwed_moves {s : State} :
    Moves [.coll, .hop, .hall, .cmd, .brake, .outs] s (State.flushOwed s) := by
  unfold State.flushOwed
  try dsimp only
  repeat' first
    | with_reducible apply Moves.refl
    | assumption
    | ((with_reducible apply Moves.next (h' := State.send_moves)); (case hq => decide))
    | ((with_reducible apply Moves.next (h' := State.modBrake_moves)); (case hq => decide))
    | with_reducible apply Moves.ite
    | ((with_reducible apply Moves.fold); (intro t x m))
    | split

theorem State.epochEverywhere_moves {s : State} :
    Moves [.coll, .hop, .hall, .cmd, .outs] s (State.epochEverywhere s) := by
  unfold State.epochEverywhere
  split
  · exact Moves.fold (fun t c m => Moves.next m State.putEpoch_moves (by decide)) (Moves.refl s)
  · refine Moves.hopOk (Moves.refl s) (fun h o ho => ?_) (by decide)
    obtain ⟨x, hx, rfl⟩ := List.mem_map.mp ho
    exact h x hx

theorem State.flushStream_moves {c : Nat} {s : State} :
    Moves [.coll, .hop] s (State.flushStream c s) := by
  unfold State.flushStream
  try dsimp only
  repeat' first
    | with_reducible apply Moves.refl
    | assumption
    | ((with_reducible apply Moves.modOut); (case hq => decide); (case hf => exact fun _ k => k))
    | ((with_reducible apply Moves.next (h' := State.modCfg_moves)); (case hq => decide))
    | ((with_reducible apply Moves.next (h' := State.bumpN_moves)); (case hq => decide))
    | with_reducible apply Moves.ite
    | split

theorem State.flushAll_moves {s : State} :
    Moves [.coll, .hop] s (State.flushAll s) := by
  unfold State.flushAll
  try dsimp only
  repeat' first
    | with_reducible apply Moves.refl
    | assumption
    | ((with_reducible apply Moves.next (h' := State.flushStream_moves)); (case hq => decide))
    | ((with_reducible apply Moves.modHop); (case hq => decide); (case e0 => with_reducible rfl))
    | with_reducible apply Moves.ite
    | ((with_reducible apply Moves.fold); (intro t x m))
    | split

theorem State.tickFree_moves {s : State} :
    Moves [.time] s (State.tickFree s) := by
  unfold State.tickFree
  try dsimp only
  repeat' first
    | with_reducible apply Moves.refl
    | assumption
    | ((with_reducible apply Moves.next (h' := State.modTime_moves)); (case hq => decide))

end Sys2Proof.Machine
end

