-- ==== Sys2Proof/Laws/HallOps.lean ====
section
/-! SUPPORT. What the operations of Machine/HallOps.lean can change, and that they keep the invariant. -/

namespace Sys2Proof.Machine

theorem State.stagingLoss_moves {s : State} :
    Moves [.coll, .hall, .cmd, .outs] s (State.stagingLoss s) := by
  unfold State.stagingLoss
  try dsimp only
  repeat' first
    | with_reducible apply Moves.refl
    | assumption
    | ((with_reducible apply Moves.modHall); (case hq => decide); (case e0 => with_reducible rfl); (case e1 => with_reducible rfl); (case e2 => with_reducible rfl))
    | ((with_reducible apply Moves.next (h' := State.stageRaw_moves)); (case hq => decide))
    | with_reducible apply Moves.ite

theorem State.copyEnt_moves {s : State} {e : HEnt} :
    Moves [.coll, .hop, .hall, .cmd, .outs] s (State.copyEnt s e) := by
  unfold State.copyEnt
  try dsimp only
  repeat' first
    | with_reducible apply Moves.refl
    | assumption
    | ((with_reducible apply Moves.hallOk); (case hq => decide); (case k => intro k; exact ⟨by simpa [markEnt_length] using k.1, k.2⟩))
    | ((with_reducible apply Moves.next (h' := State.offer_moves)); (case hq => decide))
    | ((with_reducible apply Moves.modHall); (case hq => decide); (case e0 => with_reducible rfl); (case e1 => with_reducible rfl); (case e2 => with_reducible rfl))
    | with_reducible apply Moves.ite
    | split

theorem State.hallCopies_moves {s : State} :
    Moves [.coll, .hop, .hall, .cmd, .outs] s (State.hallCopies s) := by
  unfold State.hallCopies
  try dsimp only
  repeat' first
    | with_reducible apply Moves.refl
    | assumption
    | ((with_reducible apply Moves.next (h' := State.copyEnt_moves)); (case hq => decide))
    | with_reducible apply Moves.ite
    | ((with_reducible apply Moves.fold); (intro t x m))
    | split

theorem State.hallSettle_moves {s : State} :
    Moves [.coll, .hop, .hall, .cmd, .outs] s (State.hallSettle s) := by
  unfold State.hallSettle
  exact ((State.hallCopies_moves.mono (by decide)).next State.stagingLoss_moves (by decide)).next State.hallCopies_moves (by decide)
    |>.next (State.modHall_moves HallUnit.beginWrite_ok) (by decide)

theorem State.suppressed_moves {due : Bool} {b : HBucket} {s : State} :
    Moves [.coll, .hop, .hall, .cmd, .outs] s (State.suppressed due b s) := by
  unfold State.suppressed
  try dsimp only
  repeat' first
    | with_reducible apply Moves.refl
    | assumption
    | ((with_reducible apply Moves.next (h' := State.hallSettle_moves)); (case hq => decide))
    | ((with_reducible apply Moves.next (h' := State.stageRaw_moves)); (case hq => decide))
    | with_reducible apply Moves.ite
    | split

theorem State.refillBucket_moves {code : BitVec 16} {s : State} :
    Moves [.coll, .hop, .hall, .cmd, .outs] s (State.refillBucket code s) := by
  unfold State.refillBucket
  try dsimp only
  repeat' first
    | with_reducible apply Moves.refl
    | assumption
    | ((with_reducible apply Moves.hallOk); (case hq => decide); (case k => intro k; exact ⟨k.1, by simpa using k.2.1, k.2.2⟩))
    | ((with_reducible apply Moves.next (h' := State.suppressed_moves)); (case hq => decide))
    | ((with_reducible apply Moves.modHall); (case hq => decide); (case e0 => with_reducible rfl); (case e1 => with_reducible rfl); (case e2 => with_reducible rfl))
    | with_reducible apply Moves.ite
    | split

theorem State.stageSeq_moves {code : BitVec 16} {sev : Sev} {argb : Nat} {arg : Nat} {drill : Bool} {s : State} :
    Moves [.coll, .hop, .hall, .cmd, .outs] s (State.stageSeq code sev argb arg drill s).1 := by
  unfold State.stageSeq
  try dsimp only
  repeat' first
    | with_reducible apply Moves.refl
    | assumption
    | ((with_reducible apply Moves.hallOk); (case hq => decide); (case k => intro k; exact HallUnit.limit_ok k))
    | with_reducible apply Moves.iteFst
    | ((with_reducible apply Moves.next (h' := State.stageRaw_moves)); (case hq => decide))
    | ((with_reducible apply Moves.next (h' := State.hallSettle_moves)); (case hq => decide))
    | ((with_reducible apply Moves.next (h' := State.refillBucket_moves)); (case hq => decide))
    | ((with_reducible apply Moves.modHall); (case hq => decide); (case e0 => with_reducible rfl); (case e1 => with_reducible rfl); (case e2 => with_reducible rfl))
    | with_reducible apply Moves.ite
    | split

theorem State.stage_moves {code : BitVec 16} {sev : Sev} {argb arg : Nat} {s : State} :
    Moves [.coll, .hop, .hall, .cmd, .outs] s (State.stage code sev argb arg s) := by
  unfold State.stage
  try dsimp only
  repeat' first
    | with_reducible apply Moves.refl
    | assumption
    | ((with_reducible apply Moves.next (h' := State.stageSeq_moves)); (case hq => decide))

theorem State.stageDrill_moves {code : BitVec 16} {sev : Sev} {argb arg : Nat} {drill : Bool} {s : State} :
    Moves [.coll, .hop, .hall, .cmd, .outs] s (State.stageDrill code sev argb arg drill s) := by
  unfold State.stageDrill
  try dsimp only
  repeat' first
    | with_reducible apply Moves.refl
    | assumption
    | ((with_reducible apply Moves.next (h' := State.stageSeq_moves)); (case hq => decide))

theorem State.clampEvent_moves {row : Nat} {s : State} :
    Moves [.coll, .hop, .hall, .cmd, .outs] s (State.clampEvent row s) := by
  unfold State.clampEvent
  try dsimp only
  repeat' first
    | with_reducible apply Moves.refl
    | assumption
    | ((with_reducible apply Moves.next (h' := State.stage_moves)); (case hq => decide))
    | ((with_reducible apply Moves.next (h' := State.bump_moves)); (case hq => decide))

end Sys2Proof.Machine
end

