-- ==== Sys2Proof/Laws/CmdOps.lean ====
section
/-! SUPPORT. What the operations of Machine/CmdOps.lean can change, and that they keep the invariant. -/

namespace Sys2Proof.Machine

theorem CmdUnit.storeReply_ok {c : CmdUnit} {src : Laddr} {iss : Issuer} {seq : BitVec 16} {r : Option (Reply × List Byte)}
    (k : c.Ok) : (c.storeReply src iss seq r).Ok := by
  unfold CmdUnit.storeReply CmdUnit.Ok
  refine And.intro k.1 ?_
  simp only [List.length_drop]
  omega

theorem dropFirst_length_le {α : Type} (p : α → Bool) (l : List α) : (dropFirst p l).length ≤ l.length := by
  induction l with
  | nil => exact Nat.le_refl _
  | cons a l ih =>
    unfold dropFirst
    split
    · simp
    · simpa using ih

/-- What the effect of a command does to the state. -/
def AnsMoves (ps : List Area) (s : State) : Ans → Prop
  | .ok _ _ _ t => Moves ps s t
  | .acc _ _ t => Moves ps s t
  | .hold _ t => Moves ps s t

theorem AnsMoves.ok {ps : List Area} {s t : State} {d : Dword} {r out : List Byte} (h : Moves ps s t) :
    AnsMoves ps s (.ok d r out t) := h

theorem AnsMoves.acc {ps : List Area} {s t : State} {obj : Nat} {f : Option Final} (h : Moves ps s t) :
    AnsMoves ps s (.acc obj f t) := h

theorem AnsMoves.hold {ps : List Area} {s t : State} {obj : Nat} (h : Moves ps s t) : AnsMoves ps s (.hold obj t) := h

theorem AnsMoves.ite {ps : List Area} {s : State} {c : Prop} {i : Decidable c} {a b : Ans} (h : AnsMoves ps s a)
    (h' : AnsMoves ps s b) : AnsMoves ps s (if c then a else b) := by split <;> assumption

theorem State.modPair_moves {fab : Bool} {f : QPair → QPair} {s : State} :
    Moves [.cmd] s (State.modPair fab f s) := by
  unfold State.modPair
  try dsimp only
  repeat' first
    | with_reducible apply Moves.refl
    | assumption
    | ((with_reducible apply Moves.modCmd); (case hq => decide); (case e0 => with_reducible rfl); (case e1 => with_reducible rfl))
    | with_reducible apply Moves.ite
    | split

theorem State.putSlot_moves {fab : Bool} {r : Reply} {tail : List Byte} {lost : Bool} {s : State} :
    Moves [.cmd, .outs] s (State.putSlot fab r tail lost s) := by
  unfold State.putSlot
  try dsimp only
  repeat' first
    | with_reducible apply Moves.refl
    | assumption
    | ((with_reducible apply Moves.next (h' := State.emit_moves)); (case hq => decide))
    | ((with_reducible apply Moves.next (h' := State.modPair_moves)); (case hq => decide))
    | ((with_reducible apply Moves.next (h' := State.intSet_moves)); (case hq => decide))
    | with_reducible apply Moves.ite
    | split

theorem State.putReply_moves {fab : Bool} {r : Reply} {tail : List Byte} {s : State} :
    Moves [.cmd, .outs] s (State.putReply fab r tail s) := by
  unfold State.putReply
  try dsimp only
  repeat' first
    | with_reducible apply Moves.refl
    | assumption
    | ((with_reducible apply Moves.next (h' := State.putSlot_moves)); (case hq => decide))
    | ((with_reducible apply Moves.modCmd); (case hq => decide); (case e0 => with_reducible rfl); (case e1 => with_reducible rfl))
    | with_reducible apply Moves.ite

theorem State.writeEvent_moves {fab : Bool} {l : List Reply} {tail : List Byte} {s : State} :
    Moves [.cmd, .outs] s (State.writeEvent fab l tail s) := by
  unfold State.writeEvent
  try dsimp only
  repeat' first
    | with_reducible apply Moves.refl
    | assumption
    | ((with_reducible apply Moves.next (h' := State.putSlot_moves)); (case hq => decide))
    | ((with_reducible apply Moves.modCmd); (case hq => decide); (case e0 => with_reducible rfl); (case e1 => with_reducible rfl))
    | with_reducible apply Moves.ite
    | ((with_reducible apply Moves.fold); (intro t x m))
    | split

theorem State.putEvent_moves {fab : Bool} {l : List Reply} {tail : List Byte} {s : State} :
    Moves [.cmd, .outs] s (State.putEvent fab l tail s) := by
  unfold State.putEvent
  refine Moves.ite State.writeEvent_moves ?_
  split
  · next hl =>
    refine Moves.cmdOk (Moves.refl s) (fun k => ⟨?_, k.2⟩) (by decide)
    simp
    omega
  · exact Moves.modCmd (Moves.refl s) (by split <;> rfl) (by split <;> rfl) (by decide)

theorem State.drainSlots_moves {fab : Bool} {n : Nat} {s : State} :
    Moves [.cmd, .outs] s (State.drainSlots fab n s) := by
  induction n generalizing s with
  | zero => exact Moves.refl s
  | succ n ih =>
    unfold State.drainSlots
    try dsimp only
    repeat' first
      | ((with_reducible apply Moves.next (h' := ih)); (case hq => decide))
      | with_reducible apply Moves.refl
      | assumption
      | ((with_reducible apply Moves.cmdOk); (case hq => decide); (case k => intro k; exact ⟨Nat.le_trans (dropFirst_length_le _ _) k.1, k.2⟩))
      | ((with_reducible apply Moves.modCmd); (case hq => decide); (case e0 => with_reducible rfl); (case e1 => with_reducible rfl))
      | ((with_reducible apply Moves.next (h' := State.putSlot_moves)); (case hq => decide))
      | ((with_reducible apply Moves.next (h' := State.writeEvent_moves)); (case hq => decide))
      | with_reducible apply Moves.ite
      | split

theorem State.event_moves {code : BitVec 16} {data : List Byte} {s : State} :
    Moves [.cmd, .outs] s (State.event code data s) := by
  unfold State.event
  try dsimp only
  repeat' first
    | with_reducible apply Moves.refl
    | assumption
    | ((with_reducible apply Moves.next (h' := State.putEvent_moves)); (case hq => decide))
    | with_reducible apply Moves.ite
    | split

theorem State.sendReplyTo_moves {dst : Dest} {dest : Nat} {r : Reply} {out : List Byte} {s : State} :
    Moves [.coll, .hop, .hall, .cmd, .outs] s (State.sendReplyTo dst dest r out s) := by
  unfold State.sendReplyTo
  try dsimp only
  repeat' first
    | with_reducible apply Moves.refl
    | assumption
    | ((with_reducible apply Moves.next (h' := State.send_moves)); (case hq => decide))
    | with_reducible apply Moves.ite
    | ((with_reducible apply Moves.fold); (intro t x m))
    | split

theorem State.sendReplyRecs_moves {dst : Laddr} {r : Reply} {out : List Byte} {s : State} :
    Moves [.coll, .hop, .hall, .cmd, .outs] s (State.sendReplyRecs dst r out s) := by
  unfold State.sendReplyRecs
  try dsimp only
  repeat' first
    | with_reducible apply Moves.refl
    | assumption
    | ((with_reducible apply Moves.next (h' := State.sendReplyTo_moves)); (case hq => decide))
    | with_reducible apply Moves.ite
    | split

theorem State.gatewayReply_moves {f : Flight} {src : Laddr} {r : Reply} {out : List Byte} {s : State} :
    Moves [.coll, .cmd, .outs] s (State.gatewayReply f src r out s) := by
  unfold State.gatewayReply
  try dsimp only
  repeat' first
    | with_reducible apply Moves.refl
    | assumption
    | ((with_reducible apply Moves.next (h' := State.putReply_moves)); (case hq => decide))
    | ((with_reducible apply Moves.next (h' := State.bump_moves)); (case hq => decide))
    | ((with_reducible apply Moves.next (h' := State.emit_moves)); (case hq => decide))
    | with_reducible apply Moves.ite

theorem State.gwError_moves {tag opcode st : BitVec 16} {detail : Dword} {s : State} :
    Moves [.coll, .cmd, .outs] s (State.gwError tag opcode st detail s) := by
  unfold State.gwError
  try dsimp only
  repeat' first
    | with_reducible apply Moves.refl
    | assumption
    | ((with_reducible apply Moves.next (h' := State.putReply_moves)); (case hq => decide))
    | ((with_reducible apply Moves.next (h' := State.bump_moves)); (case hq => decide))

theorem State.reply_moves {p : Path} {ptr : Dword} {r : Reply} {out : List Byte} {s : State} :
    Moves [.coll, .hop, .hall, .cmd, .hoist, .outs] s (State.reply p ptr r out s) := by
  unfold State.reply
  try dsimp only
  repeat' first
    | with_reducible apply Moves.refl
    | assumption
    | ((with_reducible apply Moves.next (h' := State.bump_moves)); (case hq => decide))
    | ((with_reducible apply Moves.next (h' := State.emit_moves)); (case hq => decide))
    | ((with_reducible apply Moves.next (h' := State.putReply_moves)); (case hq => decide))
    | ((with_reducible apply Moves.next (h' := State.gatewayReply_moves)); (case hq => decide))
    | ((with_reducible apply Moves.modCmd); (case hq => decide); (case e0 => with_reducible rfl); (case e1 => with_reducible rfl))
    | ((with_reducible apply Moves.next (h' := State.sendReplyRecs_moves)); (case hq => decide))
    | ((with_reducible apply Moves.next (h' := State.modHoist_moves)); (case hq => decide))
    | ((with_reducible apply Moves.cmdOk); (case hq => decide); (case k => exact fun k => CmdUnit.storeReply_ok k))
    | with_reducible apply Moves.ite
    | split

theorem State.restoreNext_moves {p : Path} {s : State} : Moves [.pow] s (s.restoreNext p) := by
  unfold State.restoreNext
  split
  · exact State.modPow_moves
  · exact Moves.refl s

theorem State.begun_moves {o : OpSpec} {s : State} :
    Moves [.coll, .hop] s (State.begun o s) := by
  unfold State.begun
  try dsimp only
  repeat' first
    | with_reducible apply Moves.refl
    | assumption
    | ((with_reducible apply Moves.next (h' := State.bump_moves)); (case hq => decide))
    | ((with_reducible apply Moves.modHop); (case hq => decide); (case e0 => with_reducible rfl))
    | ((with_reducible apply Moves.next (h' := State.admit_moves)); (case hq => decide))
    | with_reducible apply Moves.ite
    | split

theorem State.answered_moves {o : OpSpec} {c : Cmd} {d : Dword} {r out : List Byte} {s : State} :
    Moves [.pow, .coll, .hop, .hall, .cmd, .hoist, .outs] s (State.answered o c d r out s) := by
  unfold State.answered
  try dsimp only
  repeat' first
    | with_reducible apply Moves.refl
    | assumption
    | ((with_reducible apply Moves.next (h' := State.restoreNext_moves)); (case hq => decide))
    | ((with_reducible apply Moves.next (h' := State.reply_moves)); (case hq => decide))
    | with_reducible apply Moves.ite
    | split

theorem State.turnedAway_moves {o : OpSpec} {c : Cmd} {st : BitVec 16} {d : Dword} {s : State} :
    Moves [.pow, .coll, .hop, .hall, .cmd, .hoist, .outs] s (State.turnedAway o c st d s) := by
  unfold State.turnedAway
  try dsimp only
  repeat' first
    | with_reducible apply Moves.refl
    | assumption
    | ((with_reducible apply Moves.next (h' := State.restoreNext_moves)); (case hq => decide))
    | ((with_reducible apply Moves.next (h' := State.reply_moves)); (case hq => decide))
    | with_reducible apply Moves.ite
    | split

theorem State.keepAcc_moves {o : OpSpec} {c : Cmd} {obj : Nat} {ready : Option Final} {s : State} :
    Moves [.cmd] s (State.keepAcc o c obj ready s) := by
  unfold State.keepAcc
  try dsimp only
  repeat' first
    | with_reducible apply Moves.refl
    | assumption
    | ((with_reducible apply Moves.modCmd); (case hq => decide); (case e0 => with_reducible rfl); (case e1 => with_reducible rfl))

theorem State.takenOn_moves {o : OpSpec} {c : Cmd} {obj : Nat} {ready : Option Final} {s : State} :
    Moves [.pow, .coll, .hop, .hall, .cmd, .hoist, .outs] s (State.takenOn o c obj ready s) := by
  unfold State.takenOn
  try dsimp only
  repeat' first
    | with_reducible apply Moves.refl
    | assumption
    | ((with_reducible apply Moves.next (h' := State.restoreNext_moves)); (case hq => decide))
    | ((with_reducible apply Moves.next (h' := State.keepAcc_moves)); (case hq => decide))
    | ((with_reducible apply Moves.next (h' := State.reply_moves)); (case hq => decide))
    | with_reducible apply Moves.ite
    | split

theorem Moves.runCmd {ps : List Area} {u s : State} {o : OpSpec} {c : Cmd} {pr rest : List Check} {eff : State → Ans}
    (h : Moves ps u s) (he : ∀ t, AnsMoves ps t (eff t)) (hq : subAreas [.pow, .coll, .hop, .hall, .cmd, .hoist, .outs] ps = true) :
    Moves ps u (runCmd o c pr rest eff s) := by
  have sub : ∀ {qs : List Area} {s t : State}, Moves qs s t → subAreas qs [.pow, .coll, .hop, .hall, .cmd, .hoist, .outs] = true →
      Moves ps s t := fun m k => (m.mono k).mono hq
  have away : ∀ st d, Moves ps s ((s.bump cCmdReceived).turnedAway o c st d) := fun _ _ =>
    (sub State.bump_moves (by decide)).trans (sub State.turnedAway_moves (by decide))
  refine h.trans ?_
  unfold Machine.runCmd
  refine Moves.ite ?_ (Moves.refl s)
  split
  · exact away _ _
  · have m1 : Moves ps s (s.begun o) := sub State.begun_moves (by decide)
    have a := he (s.begun o)
    split
    · next e =>
      rw [e] at a
      exact (m1.trans a).trans (sub State.answered_moves (by decide))
    · next e =>
      rw [e] at a
      exact Moves.ite ((m1.trans a).trans (sub State.takenOn_moves (by decide))) (away _ _)
    · next e =>
      rw [e] at a
      exact ((m1.trans a).trans (sub State.keepAcc_moves (by decide))).trans (sub State.restoreNext_moves (by decide))

theorem State.finish_moves {a : Acc} {f : Final} {s : State} :
    Moves [.coll, .hop, .hall, .cmd, .hoist, .outs] s (State.finish a f s) := by
  unfold State.finish
  try dsimp only
  repeat' first
    | with_reducible apply Moves.refl
    | assumption
    | ((with_reducible apply Moves.modCmd); (case hq => decide); (case e0 => with_reducible rfl); (case e1 => with_reducible rfl))
    | ((with_reducible apply Moves.next (h' := State.sendReplyTo_moves)); (case hq => decide))
    | ((with_reducible apply Moves.next (h' := State.bump_moves)); (case hq => decide))
    | ((with_reducible apply Moves.next (h' := State.reply_moves)); (case hq => decide))
    | with_reducible apply Moves.ite
    | split

theorem State.setReady_moves {opcode : BitVec 16} {obj : Nat} {f : Final} {s : State} :
    Moves [.cmd] s (State.setReady opcode obj f s) := by
  unfold State.setReady
  try dsimp only
  repeat' first
    | with_reducible apply Moves.refl
    | assumption
    | ((with_reducible apply Moves.modCmd); (case hq => decide); (case e0 => with_reducible rfl); (case e1 => with_reducible rfl))

theorem State.finishAll_moves {opcode : BitVec 16} {obj : Nat} {f : Final} {s : State} :
    Moves [.coll, .hop, .hall, .cmd, .hoist, .outs] s (State.finishAll opcode obj f s) := by
  unfold State.finishAll
  try dsimp only
  repeat' first
    | with_reducible apply Moves.refl
    | assumption
    | ((with_reducible apply Moves.next (h' := State.finish_moves)); (case hq => decide))
    | with_reducible apply Moves.ite
    | ((with_reducible apply Moves.fold); (intro t x m))
    | split

end Sys2Proof.Machine
end

