-- ==== Sys2Proof/Laws/Xspi.lean ====
section
/-! SUPPORT. What the operations of Machine/Xspi.lean can change, and that they keep the invariant. -/

namespace Sys2Proof.Machine

theorem State.emitAll_moves {l : List Out} {s : State} :
    Moves [.outs] s (State.emitAll l s) := by
  exact Moves.outs (Moves.refl s) rfl

theorem State.programFlash_moves {addr : Nat} {b : List Byte} {s : State} :
    Moves [.outs] s (State.programFlash addr b s) := by
  unfold State.programFlash
  try dsimp only
  repeat' first
    | with_reducible apply Moves.refl
    | assumption
    | ((with_reducible apply Moves.next (h' := State.emitAll_moves)); (case hq => decide))
    | with_reducible apply Moves.ite
    | split

theorem State.eraseFlash_moves {addr len : Nat} {s : State} :
    Moves [.outs] s (State.eraseFlash addr len s) := by
  unfold State.eraseFlash
  try dsimp only
  repeat' first
    | with_reducible apply Moves.refl
    | assumption
    | ((with_reducible apply Moves.next (h' := State.emitAll_moves)); (case hq => decide))
    | with_reducible apply Moves.ite
    | split

theorem State.readFlash_moves {addr len : Nat} {s : State} :
    Moves [.outs] s (State.readFlash addr len s) := by
  unfold State.readFlash
  try dsimp only
  repeat' first
    | with_reducible apply Moves.refl
    | assumption
    | ((with_reducible apply Moves.next (h' := State.emit_moves)); (case hq => decide))
    | with_reducible apply Moves.ite
    | split

theorem State.xspiStart_moves {s : State} :
    Moves [.outs] s (State.xspiStart s) := by
  unfold State.xspiStart
  try dsimp only
  repeat' first
    | with_reducible apply Moves.refl
    | assumption
    | ((with_reducible apply Moves.next (h' := State.emit_moves)); (case hq => decide))
    | with_reducible apply Moves.ite
    | split

theorem State.writeDir_moves {second : Bool} {c : DirCopy} {s : State} :
    Moves [.outs] s (State.writeDir second c s) := by
  unfold State.writeDir
  try dsimp only
  repeat' first
    | with_reducible apply Moves.refl
    | assumption
    | ((with_reducible apply Moves.next (h' := State.programFlash_moves)); (case hq => decide))
    | ((with_reducible apply Moves.next (h' := State.eraseFlash_moves)); (case hq => decide))
    | with_reducible apply Moves.ite
    | split

theorem State.writeCfg_moves {b : Bool} {c : CfgCopy} {s : State} :
    Moves [.outs] s (State.writeCfg b c s) := by
  unfold State.writeCfg
  try dsimp only
  repeat' first
    | with_reducible apply Moves.refl
    | assumption
    | ((with_reducible apply Moves.next (h' := State.programFlash_moves)); (case hq => decide))
    | ((with_reducible apply Moves.next (h' := State.eraseFlash_moves)); (case hq => decide))
    | with_reducible apply Moves.ite
    | split

end Sys2Proof.Machine
end

