-- ==== Sys2Proof/Laws/FlashOps.lean ====
section
/-! SUPPORT. What the operations of Machine/FlashOps.lean can change, and that they keep the invariant. -/

namespace Sys2Proof.Machine

theorem State.modDir_moves {i : Nat} {f : DirEntry → DirEntry} {s : State} :
    Moves [.flash, .outs] s (State.modDir i f s) := by
  unfold State.modDir
  try dsimp only
  repeat' first
    | with_reducible apply Moves.refl
    | assumption
    | ((with_reducible apply Moves.next (h' := State.writeDir_moves)); (case hq => decide))
    | ((with_reducible apply Moves.next (h' := State.modFlash_moves)); (case hq => decide))
    | with_reducible apply Moves.ite
    | split

theorem State.writeConf_moves {secs : List (Nat × List Byte)} {cfmt : Nat} {s : State} :
    Moves [.flash, .conf, .outs] s (State.writeConf secs cfmt s) := by
  unfold State.writeConf
  try dsimp only
  repeat' first
    | with_reducible apply Moves.refl
    | assumption
    | ((with_reducible apply Moves.next (h' := State.modConf_moves)); (case hq => decide))
    | ((with_reducible apply Moves.next (h' := State.modFlash_moves)); (case hq => decide))
    | ((with_reducible apply Moves.next (h' := State.writeCfg_moves)); (case hq => decide))
    | with_reducible apply Moves.ite
    | split

theorem State.clearIngot_moves {slot : Nat} {s : State} :
    Moves [.flash, .outs] s (State.clearIngot slot s) := by
  unfold State.clearIngot
  try dsimp only
  repeat' first
    | with_reducible apply Moves.refl
    | assumption
    | ((with_reducible apply Moves.next (h' := State.modFlash_moves)); (case hq => decide))
    | ((with_reducible apply Moves.next (h' := State.eraseFlash_moves)); (case hq => decide))
    | with_reducible apply Moves.ite
    | split

theorem State.writeSection_moves {typ : Nat} {data : List Byte} {s : State} :
    Moves [.flash, .conf, .outs] s (State.writeSection typ data s) := by
  unfold State.writeSection
  try dsimp only
  repeat' first
    | with_reducible apply Moves.refl
    | assumption
    | ((with_reducible apply Moves.next (h' := State.writeConf_moves)); (case hq => decide))
    | with_reducible apply Moves.ite
    | split

end Sys2Proof.Machine
end

