-- ==== Sys2Proof/Laws/Assay.lean ====
section
/-! SUPPORT. What the operations of Machine/Assay.lean can change, and that they keep the invariant. -/

namespace Sys2Proof.Machine

theorem State.metroOff_moves {s : State} :
    Moves [.pow, .metro] s (State.metroOff s) := by
  unfold State.metroOff
  try dsimp only
  repeat' first
    | with_reducible apply Moves.refl
    | assumption
    | ((with_reducible apply Moves.next (h' := State.modPow_moves)); (case hq => decide))
    | ((with_reducible apply Moves.next (h' := State.modMetro_moves)); (case hq => decide))

theorem execPgMetroAssert_moves {calEn : Bool} {s : State} :
    OutMoves [.pow, .metro] s (execPgMetroAssert calEn s) := by
  unfold execPgMetroAssert
  try dsimp only
  repeat' first
    | with_reducible apply Moves.refl
    | assumption
    | with_reducible apply OutMoves.next
    | with_reducible apply OutMoves.ite
    | ((with_reducible apply Moves.next (h' := State.modPow_moves)); (case hq => decide))
    | ((with_reducible apply Moves.next (h' := State.modMetro_moves)); (case hq => decide))

theorem execPgMetroDeassert_moves {s : State} :
    OutMoves [.pow, .metro] s (execPgMetroDeassert s) := by
  unfold execPgMetroDeassert
  try dsimp only
  repeat' first
    | with_reducible apply Moves.refl
    | assumption
    | with_reducible apply OutMoves.next
    | with_reducible apply OutMoves.ite
    | ((with_reducible apply Moves.next (h' := State.metroOff_moves)); (case hq => decide))

theorem execAssayCalibrationWrite_moves {data : List Byte} {s : State} :
    OutMoves [.metro] s (execAssayCalibrationWrite data s) := by
  unfold execAssayCalibrationWrite
  try dsimp only
  repeat' first
    | with_reducible apply Moves.refl
    | assumption
    | with_reducible apply OutMoves.next
    | with_reducible apply OutMoves.ite
    | ((with_reducible apply Moves.next (h' := State.modMetro_moves)); (case hq => decide))

theorem execAssaySamplePair_moves {v i : BitVec 24} {s : State} :
    OutMoves [.metro] s (execAssaySamplePair v i s) := by
  unfold execAssaySamplePair
  try dsimp only
  repeat' first
    | with_reducible apply Moves.refl
    | assumption
    | with_reducible apply OutMoves.next
    | with_reducible apply OutMoves.ite
    | ((with_reducible apply Moves.next (h' := State.modMetro_moves)); (case hq => decide))
    | with_reducible apply Moves.ite
    | split

theorem execAssayPairMissing_moves {s : State} :
    OutMoves [.metro] s (execAssayPairMissing s) := by
  unfold execAssayPairMissing
  try dsimp only
  repeat' first
    | with_reducible apply Moves.refl
    | assumption
    | with_reducible apply OutMoves.next
    | with_reducible apply OutMoves.ite
    | ((with_reducible apply Moves.next (h' := State.modMetro_moves)); (case hq => decide))
    | with_reducible apply Moves.ite
    | split

theorem execAssayConversion_moves {s : State} :
    OutMoves [.metro] s (execAssayConversion s) := by
  unfold execAssayConversion
  try dsimp only
  repeat' first
    | with_reducible apply Moves.refl
    | assumption
    | with_reducible apply OutMoves.next
    | with_reducible apply OutMoves.ite
    | ((with_reducible apply Moves.next (h' := State.modMetro_moves)); (case hq => decide))
    | with_reducible apply Moves.ite
    | split

theorem State.assaySend_moves {s : State} :
    Moves [.coll, .hop, .hall, .cmd, .assay, .outs] s (State.assaySend s) := by
  unfold State.assaySend
  try dsimp only
  repeat' first
    | with_reducible apply Moves.refl
    | assumption
    | ((with_reducible apply Moves.modAssay); (case hq => decide); (case e0 => with_reducible rfl))
    | ((with_reducible apply Moves.next (h' := State.send_moves)); (case hq => decide))
    | ((with_reducible apply Moves.assayOk); (case hq => decide); (case k => intro k; simp only [AssayAo.Ok, List.length_map, List.length_drop, List.length_append, List.length_cons, List.length_nil] at k ⊢; omega))
    | with_reducible apply Moves.ite
    | ((with_reducible apply Moves.fold); (intro t x m))
    | split

theorem State.assayTake_moves {bytes : List Byte} {s : State} :
    Moves [.coll, .hop, .hall, .cmd, .assay, .outs] s (State.assayTake bytes s) := by
  unfold State.assayTake
  try dsimp only
  repeat' first
    | with_reducible apply Moves.refl
    | assumption
    | ((with_reducible apply Moves.next (h' := State.stage_moves)); (case hq => decide))
    | ((with_reducible apply Moves.next (h' := State.assaySend_moves)); (case hq => decide))
    | ((with_reducible apply Moves.modAssay); (case hq => decide); (case e0 => with_reducible rfl))
    | ((with_reducible apply Moves.assayOk); (case hq => decide); (case k => intro k; simp only [AssayAo.Ok, List.length_map, List.length_drop, List.length_append, List.length_cons, List.length_nil] at k ⊢; omega))
    | with_reducible apply Moves.ite

theorem execAssayReadoutFrame_moves {s : State} :
    OutMoves [.coll, .hop, .hall, .cmd, .metro, .assay, .outs] s (execAssayReadoutFrame s) := by
  unfold execAssayReadoutFrame
  try dsimp only
  repeat' first
    | with_reducible apply Moves.refl
    | assumption
    | with_reducible apply OutMoves.next
    | with_reducible apply OutMoves.ite
    | ((with_reducible apply Moves.next (h' := State.assayTake_moves)); (case hq => decide))
    | ((with_reducible apply Moves.next (h' := State.emit_moves)); (case hq => decide))
    | ((with_reducible apply Moves.next (h' := State.modMetro_moves)); (case hq => decide))
    | with_reducible apply Moves.ite
    | split

theorem State.metroPulse_moves {s : State} :
    Moves [.metro] s (State.metroPulse s) := by
  unfold State.metroPulse
  try dsimp only
  repeat' first
    | with_reducible apply Moves.refl
    | assumption
    | ((with_reducible apply Moves.next (h' := State.modMetro_moves)); (case hq => decide))
    | with_reducible apply Moves.ite

theorem execMetroRead_moves {c : Cmd} {s : State} :
    OutMoves [.pow, .coll, .hop, .hall, .cmd, .hoist, .outs] s (execMetroRead c s) := by
  unfold execMetroRead
  try dsimp only
  repeat' first
    | with_reducible apply Moves.refl
    | assumption
    | with_reducible apply AnsMoves.ok
    | with_reducible apply AnsMoves.acc
    | with_reducible apply AnsMoves.hold
    | with_reducible apply AnsMoves.ite
    | with_reducible apply OutMoves.next
    | with_reducible apply OutMoves.ite
    | ((with_reducible apply Moves.runCmd); (case hq => decide); (case' he => intro t))
    | with_reducible apply Moves.ite
    | split

end Sys2Proof.Machine
end

