-- ==== Sys2Proof/Laws/Time.lean ====
section
/-! SUPPORT. What the operations of Machine/Time.lean can change, and that they keep the invariant. -/

namespace Sys2Proof.Machine

theorem State.tb3Tick_moves {s : State} :
    Moves [.time, .metro] s (State.tb3Tick s) := by
  unfold State.tb3Tick
  try dsimp only
  repeat' first
    | with_reducible apply Moves.refl
    | assumption
    | ((with_reducible apply Moves.next (h' := State.tickFree_moves)); (case hq => decide))
    | ((with_reducible apply Moves.next (h' := State.modMetro_moves)); (case hq => decide))
    | with_reducible apply Moves.ite

theorem State.aoTick_moves {s : State} :
    Moves [.time, .cmd, .metro] s (State.aoTick s) := by
  unfold State.aoTick
  try dsimp only
  repeat' first
    | with_reducible apply Moves.refl
    | assumption
    | ((with_reducible apply Moves.next (h' := State.tb3Tick_moves)); (case hq => decide))
    | ((with_reducible apply Moves.modCmd); (case hq => decide); (case e0 => with_reducible rfl); (case e1 => with_reducible rfl))
    | ((with_reducible apply Moves.next (h' := State.modTime_moves)); (case hq => decide))
    | with_reducible apply Moves.ite
    | split

theorem State.setLock_moves {l : Lock} {s : State} :
    Moves [.time, .coll, .hop, .hall, .cmd, .outs] s (State.setLock l s) := by
  unfold State.setLock
  try dsimp only
  repeat' first
    | with_reducible apply Moves.refl
    | assumption
    | ((with_reducible apply Moves.next (h' := State.epochEverywhere_moves)); (case hq => decide))
    | ((with_reducible apply Moves.next (h' := State.intSet_moves)); (case hq => decide))
    | ((with_reducible apply Moves.next (h' := State.modTime_moves)); (case hq => decide))
    | with_reducible apply Moves.ite
    | split

theorem State.seenStep_moves {a : Laddr} {t : Nat} {s : State} :
    Moves [.time] s (State.seenStep a t s) := by
  unfold State.seenStep
  try dsimp only
  repeat' first
    | with_reducible apply Moves.refl
    | assumption
    | ((with_reducible apply Moves.next (h' := State.modTime_moves)); (case hq => decide))
    | with_reducible apply Moves.ite
    | split

theorem State.stepTb0_moves {off : Int} {s : State} :
    Moves [.time, .coll, .hop, .hall, .cmd, .outs] s (State.stepTb0 off s) := by
  unfold State.stepTb0
  try dsimp only
  repeat' first
    | with_reducible apply Moves.refl
    | assumption
    | ((with_reducible apply Moves.next (h' := State.modTime_moves)); (case hq => decide))
    | ((with_reducible apply Moves.next (h' := State.epochEverywhere_moves)); (case hq => decide))
    | ((with_reducible apply Moves.next (h' := State.bump_moves)); (case hq => decide))
    | ((with_reducible apply Moves.next (h' := State.seenStep_moves)); (case hq => decide))
    | with_reducible apply Moves.ite
    | split

theorem State.servo_moves {s : State} :
    Moves [.time] s (State.servo s) := by
  unfold State.servo
  try dsimp only
  repeat' first
    | with_reducible apply Moves.refl
    | assumption
    | ((with_reducible apply Moves.next (h' := State.tickFree_moves)); (case hq => decide))
    | ((with_reducible apply Moves.next (h' := State.modTime_moves)); (case hq => decide))

theorem State.judge_moves {off : Int} {s : State} :
    Moves [.time, .coll, .hop, .hall, .cmd, .outs] s (State.judge off s) := by
  unfold State.judge
  try dsimp only
  repeat' first
    | with_reducible apply Moves.refl
    | assumption
    | ((with_reducible apply Moves.next (h' := State.setLock_moves)); (case hq => decide))
    | ((with_reducible apply Moves.next (h' := State.modTime_moves)); (case hq => decide))
    | with_reducible apply Moves.ite
    | split

theorem State.applyOffset_moves {off : Int} {s : State} :
    Moves [.time, .coll, .hop, .hall, .cmd, .outs] s (State.applyOffset off s) := by
  unfold State.applyOffset
  try dsimp only
  repeat' first
    | with_reducible apply Moves.refl
    | assumption
    | ((with_reducible apply Moves.next (h' := State.setLock_moves)); (case hq => decide))
    | ((with_reducible apply Moves.next (h' := State.modTime_moves)); (case hq => decide))
    | ((with_reducible apply Moves.next (h' := State.stepTb0_moves)); (case hq => decide))
    | ((with_reducible apply Moves.next (h' := State.judge_moves)); (case hq => decide))
    | ((with_reducible apply Moves.next (h' := State.servo_moves)); (case hq => decide))
    | with_reducible apply Moves.ite
    | split

theorem State.ptpDiscard_moves {s : State} :
    Moves [.coll] s (State.ptpDiscard s) := by
  unfold State.ptpDiscard
  try dsimp only
  repeat' first
    | with_reducible apply Moves.refl
    | assumption
    | ((with_reducible apply Moves.next (h' := State.bump_moves)); (case hq => decide))

theorem State.syncMeasured_moves {d : Int} {s : State} :
    Moves [.time, .coll, .hop, .hall, .cmd, .outs] s (State.syncMeasured d s) := by
  unfold State.syncMeasured
  try dsimp only
  repeat' first
    | with_reducible apply Moves.refl
    | assumption
    | ((with_reducible apply Moves.next (h' := State.modTime_moves)); (case hq => decide))
    | ((with_reducible apply Moves.next (h' := State.applyOffset_moves)); (case hq => decide))
    | with_reducible apply Moves.ite
    | split

theorem State.syncAccepted_moves {s : State} :
    Moves [.time, .coll, .hop, .hall, .cmd, .outs] s (State.syncAccepted s) := by
  unfold State.syncAccepted
  try dsimp only
  repeat' first
    | with_reducible apply Moves.refl
    | assumption
    | ((with_reducible apply Moves.next (h' := State.modTime_moves)); (case hq => decide))
    | ((with_reducible apply Moves.next (h' := State.setLock_moves)); (case hq => decide))
    | with_reducible apply Moves.ite
    | split

theorem execSyncReceived_moves {m : Ptp} {s : State} :
    OutMoves [.time, .coll, .hop, .hall, .cmd, .outs] s (execSyncReceived m s) := by
  unfold execSyncReceived
  try dsimp only
  repeat' first
    | with_reducible apply Moves.refl
    | assumption
    | with_reducible apply OutMoves.next
    | with_reducible apply OutMoves.ite
    | ((with_reducible apply Moves.next (h' := State.syncAccepted_moves)); (case hq => decide))
    | ((with_reducible apply Moves.next (h' := State.modTime_moves)); (case hq => decide))
    | ((with_reducible apply Moves.next (h' := State.syncMeasured_moves)); (case hq => decide))
    | ((with_reducible apply Moves.next (h' := State.ptpDiscard_moves)); (case hq => decide))
    | with_reducible apply Moves.ite
    | split

theorem execFollowUpReceived_moves {m : Ptp} {s : State} :
    OutMoves [.time, .coll, .hop, .hall, .cmd, .outs] s (execFollowUpReceived m s) := by
  unfold execFollowUpReceived
  try dsimp only
  repeat' first
    | with_reducible apply Moves.refl
    | assumption
    | with_reducible apply OutMoves.next
    | with_reducible apply OutMoves.ite
    | ((with_reducible apply Moves.next (h' := State.syncMeasured_moves)); (case hq => decide))
    | ((with_reducible apply Moves.next (h' := State.modTime_moves)); (case hq => decide))
    | ((with_reducible apply Moves.next (h' := State.ptpDiscard_moves)); (case hq => decide))
    | with_reducible apply Moves.ite
    | split

theorem execDelayRespReceived_moves {m : Ptp} {s : State} :
    OutMoves [.time, .coll, .hop, .hall, .cmd, .outs] s (execDelayRespReceived m s) := by
  unfold execDelayRespReceived
  try dsimp only
  repeat' first
    | with_reducible apply Moves.refl
    | assumption
    | with_reducible apply OutMoves.next
    | with_reducible apply OutMoves.ite
    | ((with_reducible apply Moves.next (h' := State.modTime_moves)); (case hq => decide))
    | ((with_reducible apply Moves.next (h' := State.applyOffset_moves)); (case hq => decide))
    | ((with_reducible apply Moves.next (h' := State.ptpDiscard_moves)); (case hq => decide))
    | with_reducible apply Moves.ite
    | split

theorem execAnnounceReceived_moves {m : Ptp} {s : State} :
    OutMoves [.coll] s (execAnnounceReceived m s) := by
  unfold execAnnounceReceived
  try dsimp only
  repeat' first
    | with_reducible apply Moves.refl
    | assumption
    | with_reducible apply OutMoves.next
    | with_reducible apply OutMoves.ite
    | ((with_reducible apply Moves.next (h' := State.ptpDiscard_moves)); (case hq => decide))

theorem execOther1588Message_moves {s : State} :
    OutMoves [.coll] s (execOther1588Message s) := by
  unfold execOther1588Message
  try dsimp only
  repeat' first
    | with_reducible apply Moves.refl
    | assumption
    | with_reducible apply OutMoves.next
    | with_reducible apply OutMoves.ite
    | ((with_reducible apply Moves.next (h' := State.ptpDiscard_moves)); (case hq => decide))

theorem execDelayReq_moves {s : State} :
    OutMoves [.time, .outs] s (execDelayReq s) := by
  unfold execDelayReq
  try dsimp only
  repeat' first
    | with_reducible apply Moves.refl
    | assumption
    | with_reducible apply OutMoves.next
    | with_reducible apply OutMoves.ite
    | ((with_reducible apply Moves.next (h' := State.emit_moves)); (case hq => decide))
    | ((with_reducible apply Moves.next (h' := State.modTime_moves)); (case hq => decide))

theorem execSyncTimeout_moves {s : State} :
    OutMoves [.time, .coll, .hop, .hall, .cmd, .outs] s (execSyncTimeout s) := by
  unfold execSyncTimeout
  try dsimp only
  repeat' first
    | with_reducible apply Moves.refl
    | assumption
    | with_reducible apply OutMoves.next
    | with_reducible apply OutMoves.ite
    | ((with_reducible apply Moves.next (h' := State.setLock_moves)); (case hq => decide))
    | with_reducible apply Moves.ite
    | split

theorem execRefclkLoss_moves {s : State} :
    OutMoves [.time, .coll, .hop, .hall, .cmd, .outs] s (execRefclkLoss s) := by
  unfold execRefclkLoss
  try dsimp only
  repeat' first
    | with_reducible apply Moves.refl
    | assumption
    | with_reducible apply OutMoves.next
    | with_reducible apply OutMoves.ite
    | ((with_reducible apply Moves.next (h' := State.modTime_moves)); (case hq => decide))
    | ((with_reducible apply Moves.next (h' := State.epochEverywhere_moves)); (case hq => decide))
    | ((with_reducible apply Moves.next (h' := State.setLock_moves)); (case hq => decide))
    | ((with_reducible apply Moves.next (h' := State.bump_moves)); (case hq => decide))
    | with_reducible apply Moves.ite
    | split

theorem execRefclkReturn_moves {s : State} :
    OutMoves [.time] s (execRefclkReturn s) := by
  unfold execRefclkReturn
  try dsimp only
  repeat' first
    | with_reducible apply Moves.refl
    | assumption
    | with_reducible apply OutMoves.next
    | with_reducible apply OutMoves.ite
    | ((with_reducible apply Moves.next (h' := State.modTime_moves)); (case hq => decide))

theorem State.modPort_moves {p : Nat} {f : StampPort → StampPort} {s : State} :
    Moves [.time] s (State.modPort p f s) := by
  unfold State.modPort
  try dsimp only
  repeat' first
    | with_reducible apply Moves.refl
    | assumption
    | ((with_reducible apply Moves.next (h' := State.modTime_moves)); (case hq => decide))

theorem execInsertionSlot_moves {port : Fin 64} {phase : Nat} {early : Bool} {s : State} :
    OutMoves [.time, .coll, .outs] s (execInsertionSlot port phase early s) := by
  unfold execInsertionSlot
  try dsimp only
  repeat' first
    | with_reducible apply Moves.refl
    | assumption
    | with_reducible apply OutMoves.next
    | with_reducible apply OutMoves.ite
    | ((with_reducible apply Moves.next (h' := State.modPort_moves)); (case hq => decide))
    | ((with_reducible apply Moves.next (h' := State.emit_moves)); (case hq => decide))
    | ((with_reducible apply Moves.next (h' := State.bump_moves)); (case hq => decide))
    | with_reducible apply Moves.ite

theorem State.takePair_moves {p : StampPair} {s : State} :
    Moves [.time] s (State.takePair p s) := by
  unfold State.takePair
  try dsimp only
  repeat' first
    | with_reducible apply Moves.refl
    | assumption
    | ((with_reducible apply Moves.next (h' := State.modTime_moves)); (case hq => decide))
    | with_reducible apply Moves.ite
    | split

theorem State.keepPair_moves {e : StampPair} {s : State} :
    Moves [.time, .coll, .hop, .hall, .cmd, .outs] s (State.keepPair e s) := by
  unfold State.keepPair
  try dsimp only
  repeat' first
    | with_reducible apply Moves.refl
    | assumption
    | ((with_reducible apply Moves.next (h' := State.takePair_moves)); (case hq => decide))
    | ((with_reducible apply Moves.next (h' := State.send_moves)); (case hq => decide))
    | with_reducible apply Moves.ite
    | split

theorem execStampPair_moves {port : Fin 64} {slot : Dword} {peer : Laddr} {phase : Nat} {s : State} :
    OutMoves [.time, .coll, .hop, .hall, .cmd, .outs] s (execStampPair port slot peer phase s) := by
  unfold execStampPair
  try dsimp only
  repeat' first
    | with_reducible apply Moves.refl
    | assumption
    | with_reducible apply OutMoves.next
    | with_reducible apply OutMoves.ite
    | ((with_reducible apply Moves.next (h' := State.modPort_moves)); (case hq => decide))
    | ((with_reducible apply Moves.next (h' := State.keepPair_moves)); (case hq => decide))
    | with_reducible apply Moves.ite
    | split

theorem execPortClockStop_moves {port : Fin 64} {s : State} :
    OutMoves [.time] s (execPortClockStop port s) := by
  unfold execPortClockStop
  try dsimp only
  repeat' first
    | with_reducible apply Moves.refl
    | assumption
    | with_reducible apply OutMoves.next
    | with_reducible apply OutMoves.ite
    | ((with_reducible apply Moves.next (h' := State.modPort_moves)); (case hq => decide))

theorem execLinkErrorPulse_moves {port : Fin 64} {s : State} :
    OutMoves [.coll] s (execLinkErrorPulse port s) := by
  unfold execLinkErrorPulse
  try dsimp only
  repeat' first
    | with_reducible apply Moves.refl
    | assumption
    | with_reducible apply OutMoves.next
    | with_reducible apply OutMoves.ite
    | ((with_reducible apply Moves.next (h' := State.bump_moves)); (case hq => decide))

theorem execCorrectionWindowEnd_moves {s : State} :
    OutMoves [.time, .coll] s (execCorrectionWindowEnd s) := by
  unfold execCorrectionWindowEnd
  try dsimp only
  repeat' first
    | with_reducible apply Moves.refl
    | assumption
    | with_reducible apply OutMoves.next
    | with_reducible apply OutMoves.ite
    | ((with_reducible apply Moves.next (h' := State.bumpN_moves)); (case hq => decide))
    | ((with_reducible apply Moves.next (h' := State.modTime_moves)); (case hq => decide))

theorem State.publishCorr_moves {t : CorrTable} {fw : Nat} {s : State} :
    Moves [.coll, .hop, .hall, .cmd, .outs] s (State.publishCorr t fw s) := by
  unfold State.publishCorr
  try dsimp only
  repeat' first
    | with_reducible apply Moves.refl
    | assumption
    | ((with_reducible apply Moves.next (h' := State.send_moves)); (case hq => decide))
    | with_reducible apply Moves.ite
    | ((with_reducible apply Moves.fold); (intro t x m))
    | split

theorem State.holdTable_moves {fleet : Bool} {t : CorrTable} {s : State} :
    Moves [.time] s (State.holdTable fleet t s) := by
  unfold State.holdTable
  try dsimp only
  repeat' first
    | with_reducible apply Moves.refl
    | assumption
    | ((with_reducible apply Moves.next (h' := State.modTime_moves)); (case hq => decide))
    | with_reducible apply Moves.ite
    | split

theorem State.forwardAway_moves {s : State} :
    Moves [.time, .coll, .hop, .hall, .cmd, .outs] s (State.forwardAway s) := by
  unfold State.forwardAway
  try dsimp only
  repeat' first
    | with_reducible apply Moves.refl
    | assumption
    | ((with_reducible apply Moves.next (h' := State.send_moves)); (case hq => decide))
    | ((with_reducible apply Moves.next (h' := State.modTime_moves)); (case hq => decide))
    | with_reducible apply Moves.ite
    | ((with_reducible apply Moves.fold); (intro t x m))
    | split

theorem State.solveLate_moves {t : CorrTable} {s : State} :
    Moves [.time, .coll, .hop, .hall, .cmd, .outs] s (State.solveLate t s) := by
  unfold State.solveLate
  try dsimp only
  repeat' first
    | with_reducible apply Moves.refl
    | assumption
    | ((with_reducible apply Moves.next (h' := State.forwardAway_moves)); (case hq => decide))
    | ((with_reducible apply Moves.next (h' := State.holdTable_moves)); (case hq => decide))
    | ((with_reducible apply Moves.next (h' := State.modTime_moves)); (case hq => decide))
    | with_reducible apply Moves.ite
    | split

theorem State.rxCorrection_moves {r : Rec} {s : State} :
    Moves [.time] s (State.rxCorrection r s) := by
  unfold State.rxCorrection
  try dsimp only
  repeat' first
    | with_reducible apply Moves.refl
    | assumption
    | ((with_reducible apply Moves.next (h' := State.holdTable_moves)); (case hq => decide))
    | with_reducible apply Moves.ite
    | split

theorem State.rxStampPairs_moves {r : Rec} {s : State} :
    Moves [.time] s (State.rxStampPairs r s) := by
  unfold State.rxStampPairs
  try dsimp only
  repeat' first
    | with_reducible apply Moves.refl
    | assumption
    | ((with_reducible apply Moves.next (h' := State.takePair_moves)); (case hq => decide))
    | with_reducible apply Moves.ite
    | ((with_reducible apply Moves.fold); (intro t x m))
    | split

theorem execTimeJob_moves {c : Cmd} {s : State} :
    OutMoves [.pow, .time, .coll, .hop, .hall, .cmd, .hoist, .outs] s (execTimeJob c s) := by
  unfold execTimeJob
  try dsimp only
  repeat' first
    | with_reducible apply Moves.refl
    | assumption
    | with_reducible apply AnsMoves.ok
    | with_reducible apply AnsMoves.acc
    | with_reducible apply AnsMoves.hold
    | with_reducible apply AnsMoves.ite
    | with_reducible apply OutMoves.next
    | with_reducible apply OutMoves.ite
    | ((with_reducible apply Moves.runCmd); (case hq => decide); (case' he => intro t))
    | ((with_reducible apply Moves.next (h' := State.modTime_moves)); (case hq => decide))
    | with_reducible apply Moves.ite
    | split

theorem execTimeAsym_moves {c : Cmd} {s : State} :
    OutMoves [.pow, .time, .coll, .hop, .hall, .cmd, .hoist, .outs] s (execTimeAsym c s) := by
  unfold execTimeAsym
  try dsimp only
  repeat' first
    | with_reducible apply Moves.refl
    | assumption
    | with_reducible apply AnsMoves.ok
    | with_reducible apply AnsMoves.acc
    | with_reducible apply AnsMoves.hold
    | with_reducible apply AnsMoves.ite
    | with_reducible apply OutMoves.next
    | with_reducible apply OutMoves.ite
    | ((with_reducible apply Moves.runCmd); (case hq => decide); (case' he => intro t))
    | ((with_reducible apply Moves.next (h' := State.modTime_moves)); (case hq => decide))
    | with_reducible apply Moves.ite
    | split

theorem execTimeCal_moves {c : Cmd} {s : State} :
    OutMoves [.pow, .time, .coll, .hop, .hall, .cmd, .hoist, .outs] s (execTimeCal c s) := by
  unfold execTimeCal
  try dsimp only
  repeat' first
    | with_reducible apply Moves.refl
    | assumption
    | with_reducible apply AnsMoves.ok
    | with_reducible apply AnsMoves.acc
    | with_reducible apply AnsMoves.hold
    | with_reducible apply AnsMoves.ite
    | with_reducible apply OutMoves.next
    | with_reducible apply OutMoves.ite
    | ((with_reducible apply Moves.runCmd); (case hq => decide); (case' he => intro t))
    | ((with_reducible apply Moves.next (h' := State.modPort_moves)); (case hq => decide))
    | with_reducible apply Moves.ite
    | split

theorem execTimeStatus_moves {c : Cmd} {s : State} :
    OutMoves [.pow, .coll, .hop, .hall, .cmd, .hoist, .outs] s (execTimeStatus c s) := by
  unfold execTimeStatus
  try dsimp only
  repeat' first
    | with_reducible apply Moves.refl
    | assumption
    | with_reducible apply AnsMoves.ok
    | with_reducible apply AnsMoves.acc
    | with_reducible apply AnsMoves.hold
    | with_reducible apply AnsMoves.ite
    | with_reducible apply OutMoves.next
    | with_reducible apply OutMoves.ite
    | ((with_reducible apply Moves.runCmd); (case hq => decide); (case' he => intro t))
    | with_reducible apply Moves.ite
    | split

end Sys2Proof.Machine
end

