-- ==== Sys2Proof/Laws/Coll.lean ====
section
/-! SUPPORT. What the operations of Machine/Coll.lean can change, and that they keep the invariant. -/

namespace Sys2Proof.Machine

theorem tableWf_map_keys {α β : Type} {f : Nat × α → Nat × β} (hf : ∀ e, (f e).1 = e.1) {t : Table α} (h : tableWf t = true) :
    tableWf (t.map f) = true := by
  induction t with
  | nil => rfl
  | cons a t ih =>
    rw [tableWf_cons] at h
    rw [List.map_cons, tableWf_cons]
    refine ⟨?_, ih h.2⟩
    intro e he
    obtain ⟨x, hx, rfl⟩ := List.mem_map.mp he
    rw [hf, hf]
    exact h.1 x hx

theorem sampledCounters_ok {cfg : List (Nat × Word)} {i : Nat} {banks : Dword} {cs : List (Nat × Counter)}
    (h : counterTableOk cs = true) : counterTableOk (sampledCounters cfg i banks cs) = true := by
  rw [counterTableOk_iff]
  refine ⟨tableWf_sublist (tableWf_map_keys ?_ (counterTableOk_iff.mp h).1) List.filter_sublist, ?_⟩
  · intro e
    repeat' split
    all_goals rfl
  · intro e he
    have := (List.mem_filter.mp he).2
    simp only [Bool.not_eq_true', Bool.and_eq_false_imp, beq_iff_eq] at this
    exact fun hh => by simpa [hh.2] using this hh.1

theorem heavyBeat_ok {slots : List TapSlot} {cs : List (Nat × Counter)} {e : Nat × Word} (h : counterTableOk cs = true) :
    counterTableOk (heavyBeat slots cs e) = true := by
  unfold heavyBeat
  dsimp only
  repeat' split
  all_goals first | exact h | exact counterTableOk_put h

theorem heavyBeats_ok {slots : List TapSlot} {l : List (Nat × Word)} {cs : List (Nat × Counter)} (h : counterTableOk cs = true) :
    counterTableOk (l.foldl (heavyBeat slots) cs) = true := by
  induction l generalizing cs with
  | nil => exact h
  | cons e l ih => exact ih (heavyBeat_ok h)

theorem counterTableOk_filter {cs : List (Nat × Counter)} {p : Nat × Counter → Bool} (h : counterTableOk cs = true) :
    counterTableOk (cs.filter p) = true := counterTableOk_sublist h List.filter_sublist

theorem dropStaged_length (l : List StagedSample) : (dropStaged l).length = l.length - 1 := by
  unfold dropStaged
  split <;> simp

theorem State.modSet_moves {i : Nat} {f : SampleSet → SampleSet} {s : State} :
    Moves [.coll] s (State.modSet i f s) := by
  unfold State.modSet
  try dsimp only
  repeat' first
    | with_reducible apply Moves.refl
    | assumption
    | ((with_reducible apply Moves.modColl); (case hq => decide); (case e0 => with_reducible rfl); (case e1 => with_reducible rfl); (case e2 => with_reducible rfl))

theorem State.tapCount_moves {slots : List TapSlot} {s : State} :
    Moves [.coll] s (State.tapCount slots s) := by
  unfold State.tapCount
  try dsimp only
  repeat' first
    | with_reducible apply Moves.refl
    | assumption
    | ((with_reducible apply Moves.next (h' := State.bumpN_moves)); (case hq => decide))
    | ((with_reducible apply Moves.modColl); (case hq => decide); (case e0 => with_reducible rfl); (case e1 => with_reducible rfl); (case e2 => with_reducible rfl))
    | ((with_reducible apply Moves.collOk); (case hq => decide); (case k => intro k; exact ⟨heavyBeats_ok k.1, k.2⟩))
    | with_reducible apply Moves.ite
    | ((with_reducible apply Moves.fold); (intro t x m))
    | split

theorem State.sendSample_moves {stamp : Nat} {flags : BitVec 8} {body : List Byte} {s : State} :
    Moves [.coll, .hop, .hall, .cmd, .outs] s (State.sendSample stamp flags body s) := by
  unfold State.sendSample
  try dsimp only
  repeat' first
    | with_reducible apply Moves.refl
    | assumption
    | ((with_reducible apply Moves.next (h' := State.send_moves)); (case hq => decide))
    | with_reducible apply Moves.ite
    | split

theorem State.stageSample_moves {x : StagedSample} {s : State} :
    Moves [.coll] s (State.stageSample x s) := by
  unfold State.stageSample
  split
  · refine Moves.collOk (Moves.refl s) (fun k => ⟨k.1, ?_, k.2.2⟩) (by decide)
    simp
    omega
  · refine Moves.next (Moves.next (Moves.collOk (Moves.refl s) (fun k => ⟨k.1, ?_, k.2.2⟩) (by decide)) State.modSet_moves
      (by decide)) State.bump_moves (by decide)
    have := k.2.1
    simp [dropStaged_length]
    omega

theorem State.emitSample_moves {i : Nat} {stamp nwin : Nat} {boundary : Bool} {s : State} :
    Moves [.coll, .hop, .hall, .cmd, .outs] s (State.emitSample i stamp nwin boundary s) := by
  unfold State.emitSample
  try dsimp only
  repeat' first
    | with_reducible apply Moves.refl
    | assumption
    | ((with_reducible apply Moves.next (h' := State.modSet_moves)); (case hq => decide))
    | ((with_reducible apply Moves.modColl); (case hq => decide); (case e0 => with_reducible rfl); (case e1 => with_reducible rfl); (case e2 => with_reducible rfl))
    | ((with_reducible apply Moves.next (h' := State.stageSample_moves)); (case hq => decide))
    | ((with_reducible apply Moves.next (h' := State.sendSample_moves)); (case hq => decide))
    | ((with_reducible apply Moves.collOk); (case hq => decide); (case k => intro k; exact ⟨sampledCounters_ok k.1, k.2⟩))
    | with_reducible apply Moves.ite
    | ((with_reducible apply Moves.fold); (intro t x m))
    | split

theorem State.setApply_moves {i : Nat} {s : State} :
    Moves [.coll] s (State.setApply i s) := by
  unfold State.setApply
  try dsimp only
  repeat' first
    | with_reducible apply Moves.refl
    | assumption
    | ((with_reducible apply Moves.collOk); (case hq => decide); (case k => intro k; exact ⟨sampledCounters_ok k.1, k.2⟩))
    | ((with_reducible apply Moves.next (h' := State.modSet_moves)); (case hq => decide))
    | ((with_reducible apply Moves.modColl); (case hq => decide); (case e0 => with_reducible rfl); (case e1 => with_reducible rfl); (case e2 => with_reducible rfl))
    | with_reducible apply Moves.ite
    | split

theorem State.baselineCopy_moves {i : Nat} {s : State} :
    Moves [.coll] s (State.baselineCopy i s) := by
  unfold State.baselineCopy
  try dsimp only
  repeat' first
    | with_reducible apply Moves.refl
    | assumption
    | ((with_reducible apply Moves.collOk); (case hq => decide); (case k => intro k; exact ⟨sampledCounters_ok k.1, k.2⟩))
    | ((with_reducible apply Moves.modColl); (case hq => decide); (case e0 => with_reducible rfl); (case e1 => with_reducible rfl); (case e2 => with_reducible rfl))
    | ((with_reducible apply Moves.next (h' := State.modSet_moves)); (case hq => decide))
    | with_reducible apply Moves.ite
    | split

theorem State.boundary_moves {i : Nat} {drained : Bool} {s : State} {r : State × Bool} (h : s.boundary i drained = some r) :
    Moves [.coll, .hop, .hall, .cmd, .outs] s r.1 := by
  unfold State.boundary at h
  dsimp only at h
  repeat' split at h
  all_goals first | cases h | skip
  all_goals repeat' first
    | with_reducible apply Moves.refl
    | ((with_reducible apply Moves.next (h' := State.modSet_moves)); (case hq => decide))
    | ((with_reducible apply Moves.next (h' := State.setApply_moves)); (case hq => decide))
    | ((with_reducible apply Moves.next (h' := State.baselineCopy_moves)); (case hq => decide))
    | ((with_reducible apply Moves.next (h' := State.sendSample_moves)); (case hq => decide))
    | ((with_reducible apply Moves.next (h' := State.bump_moves)); (case hq => decide))
    | ((with_reducible apply Moves.next (h' := State.emitSample_moves)); (case hq => decide))
    | with_reducible apply Moves.ite

theorem State.armReset_moves {i : Nat} {tag : BitVec 16} {s : State} :
    Moves [.coll] s (State.armReset i tag s) := by
  unfold State.armReset
  try dsimp only
  repeat' first
    | with_reducible apply Moves.refl
    | assumption
    | ((with_reducible apply Moves.next (h' := State.modSet_moves)); (case hq => decide))
    | ((with_reducible apply Moves.modColl); (case hq => decide); (case e0 => with_reducible rfl); (case e1 => with_reducible rfl); (case e2 => with_reducible rfl))
    | ((with_reducible apply Moves.collOk); (case hq => decide); (case k => intro k; exact ⟨counterTableOk_filter k.1, k.2⟩))
    | with_reducible apply Moves.ite
    | split

theorem State.armSample_moves {i : Nat} {s : State} :
    Moves [.coll, .hop, .hall, .cmd, .outs] s (State.armSample i s).1 := by
  unfold State.armSample
  try dsimp only
  repeat' first
    | with_reducible apply Moves.refl
    | assumption
    | with_reducible apply Moves.iteFst
    | ((with_reducible apply Moves.next (h' := State.emitSample_moves)); (case hq => decide))
    | ((with_reducible apply Moves.next (h' := State.sendSample_moves)); (case hq => decide))
    | with_reducible apply Moves.ite
    | split

theorem State.heavySets_moves {f : SampleSet → SampleSet} {s : State} :
    Moves [.coll] s (State.heavySets f s) := by
  unfold State.heavySets
  try dsimp only
  repeat' first
    | with_reducible apply Moves.refl
    | assumption
    | ((with_reducible apply Moves.modColl); (case hq => decide); (case e0 => with_reducible rfl); (case e1 => with_reducible rfl); (case e2 => with_reducible rfl))
    | with_reducible apply Moves.ite
    | split

theorem State.regionWindow_moves {s : State} {r : Nat × Nat} :
    Moves [.time, .coll] s (State.regionWindow s r) := by
  unfold State.regionWindow
  try dsimp only
  repeat' first
    | with_reducible apply Moves.refl
    | assumption
    | ((with_reducible apply Moves.next (h' := State.modTime_moves)); (case hq => decide))
    | ((with_reducible apply Moves.modColl); (case hq => decide); (case e0 => with_reducible rfl); (case e1 => with_reducible rfl); (case e2 => with_reducible rfl))
    | ((with_reducible apply Moves.next (h' := State.bump_moves)); (case hq => decide))
    | with_reducible apply Moves.ite
    | split

theorem State.keepMon_moves {counts : List (Nat × Nat)} {s : State} :
    Moves [.coll] s (State.keepMon counts s) := by
  unfold State.keepMon
  try dsimp only
  repeat' first
    | with_reducible apply Moves.refl
    | assumption
    | ((with_reducible apply Moves.modColl); (case hq => decide); (case e0 => with_reducible rfl); (case e1 => with_reducible rfl); (case e2 => with_reducible rfl))
    | with_reducible apply Moves.ite
    | split

theorem execMonitorWindowEnd_moves {counts : List (Nat × Nat)} {s : State} :
    OutMoves [.time, .coll] s (execMonitorWindowEnd counts s) := by
  unfold execMonitorWindowEnd
  try dsimp only
  repeat' first
    | with_reducible apply Moves.refl
    | assumption
    | with_reducible apply OutMoves.next
    | with_reducible apply OutMoves.ite
    | ((with_reducible apply Moves.next (h' := State.regionWindow_moves)); (case hq => decide))
    | ((with_reducible apply Moves.next (h' := State.modTime_moves)); (case hq => decide))
    | ((with_reducible apply Moves.next (h' := State.keepMon_moves)); (case hq => decide))
    | with_reducible apply Moves.ite
    | ((with_reducible apply Moves.fold); (intro t x m))
    | split

theorem State.modDisc_moves {i : Nat} {f : Disc → Disc} {s : State} :
    Moves [.coll] s (State.modDisc i f s) := by
  unfold State.modDisc
  try dsimp only
  repeat' first
    | with_reducible apply Moves.refl
    | assumption
    | ((with_reducible apply Moves.modColl); (case hq => decide); (case e0 => with_reducible rfl); (case e1 => with_reducible rfl); (case e2 => with_reducible rfl))

theorem State.sendDisc_moves {q : Req} {s : State} :
    Moves [.coll, .hop, .hall, .cmd, .outs] s (State.sendDisc q s) := by
  unfold State.sendDisc
  split
  · exact State.send_moves
  · split
    · refine Moves.collOk (Moves.refl s) (fun k => ⟨k.1, k.2.1, ?_⟩) (by decide)
      simp
      omega
    · refine Moves.next (Moves.collOk (Moves.refl s) (fun k => ⟨k.1, k.2.1, ?_⟩) (by decide)) State.bump_moves (by decide)
      have := k.2.2
      simp
      omega

theorem State.discChange_moves {i : Nat} {active : Bool} {s : State} :
    Moves [.coll, .hop, .hall, .cmd, .outs] s (State.discChange i active s) := by
  unfold State.discChange
  try dsimp only
  repeat' first
    | with_reducible apply Moves.refl
    | assumption
    | ((with_reducible apply Moves.next (h' := State.modDisc_moves)); (case hq => decide))
    | ((with_reducible apply Moves.next (h' := State.bump_moves)); (case hq => decide))
    | ((with_reducible apply Moves.next (h' := State.sendDisc_moves)); (case hq => decide))
    | with_reducible apply Moves.ite
    | split

theorem execChatterWindowEnd_moves {input : Fin 32} {s : State} :
    OutMoves [.coll, .hop, .hall, .cmd, .outs] s (execChatterWindowEnd input s) := by
  unfold execChatterWindowEnd
  try dsimp only
  repeat' first
    | with_reducible apply Moves.refl
    | assumption
    | with_reducible apply OutMoves.next
    | with_reducible apply OutMoves.ite
    | ((with_reducible apply Moves.next (h' := State.sendDisc_moves)); (case hq => decide))
    | ((with_reducible apply Moves.next (h' := State.bump_moves)); (case hq => decide))
    | ((with_reducible apply Moves.next (h' := State.modDisc_moves)); (case hq => decide))
    | with_reducible apply Moves.ite
    | split

theorem execStuckTimeout_moves {input : Fin 32} {s : State} :
    OutMoves [.coll, .hop, .hall, .cmd, .outs] s (execStuckTimeout input s) := by
  unfold execStuckTimeout
  try dsimp only
  repeat' first
    | with_reducible apply Moves.refl
    | assumption
    | with_reducible apply OutMoves.next
    | with_reducible apply OutMoves.ite
    | ((with_reducible apply Moves.next (h' := State.sendDisc_moves)); (case hq => decide))
    | ((with_reducible apply Moves.next (h' := State.modDisc_moves)); (case hq => decide))
    | with_reducible apply Moves.ite
    | split

theorem execDiscConfig_moves {c : Cmd} {s : State} :
    OutMoves [.pow, .coll, .hop, .hall, .cmd, .hoist, .outs] s (execDiscConfig c s) := by
  unfold execDiscConfig
  try dsimp only
  repeat' first
    | with_reducible apply Moves.refl
    | assumption
    | with_reducible apply AnsMoves.ok
    | with_reducible apply AnsMoves.acc
    | with_reducible apply AnsMoves.hold
    | with_reducible apply AnsMoves.ite
    | with_reducible apply OutMoves.next
    | with_reducible apply OutMoves.ite
    | ((with_reducible apply Moves.runCmd); (case hq => decide); (case' he => intro t))
    | ((with_reducible apply Moves.next (h' := State.modDisc_moves)); (case hq => decide))
    | with_reducible apply Moves.ite
    | split

theorem execCollectCounter_moves {c : Cmd} {s : State} :
    OutMoves [.pow, .coll, .hop, .hall, .cmd, .hoist, .outs] s (execCollectCounter c s) := by
  unfold execCollectCounter
  try dsimp only
  repeat' first
    | with_reducible apply Moves.refl
    | assumption
    | with_reducible apply AnsMoves.ok
    | with_reducible apply AnsMoves.acc
    | with_reducible apply AnsMoves.hold
    | with_reducible apply AnsMoves.ite
    | with_reducible apply OutMoves.next
    | with_reducible apply OutMoves.ite
    | ((with_reducible apply Moves.runCmd); (case hq => decide); (case' he => intro t))
    | ((with_reducible apply Moves.modColl); (case hq => decide); (case e0 => with_reducible rfl); (case e1 => with_reducible rfl); (case e2 => with_reducible rfl))
    | with_reducible apply Moves.ite
    | ((with_reducible apply Moves.fold); (intro t x m))
    | split

theorem execCollectRead_moves {c : Cmd} {s : State} :
    OutMoves [.pow, .coll, .hop, .hall, .cmd, .hoist, .outs] s (execCollectRead c s) := by
  unfold execCollectRead
  try dsimp only
  repeat' first
    | with_reducible apply Moves.refl
    | assumption
    | with_reducible apply AnsMoves.ok
    | with_reducible apply AnsMoves.acc
    | with_reducible apply AnsMoves.hold
    | with_reducible apply AnsMoves.ite
    | with_reducible apply OutMoves.next
    | with_reducible apply OutMoves.ite
    | ((with_reducible apply Moves.runCmd); (case hq => decide); (case' he => intro t))
    | with_reducible apply Moves.ite
    | split

theorem execCollectStatus_moves {c : Cmd} {s : State} :
    OutMoves [.pow, .coll, .hop, .hall, .cmd, .hoist, .outs] s (execCollectStatus c s) := by
  unfold execCollectStatus
  try dsimp only
  repeat' first
    | with_reducible apply Moves.refl
    | assumption
    | with_reducible apply AnsMoves.ok
    | with_reducible apply AnsMoves.acc
    | with_reducible apply AnsMoves.hold
    | with_reducible apply AnsMoves.ite
    | with_reducible apply OutMoves.next
    | with_reducible apply OutMoves.ite
    | ((with_reducible apply Moves.runCmd); (case hq => decide); (case' he => intro t))
    | with_reducible apply Moves.ite
    | split

end Sys2Proof.Machine
end

