-- ==== Sys2Proof/Laws/Weir.lean ====
section
/-! SUPPORT. What the operations of Machine/Weir.lean can change, and that they keep the invariant. -/

namespace Sys2Proof.Machine

theorem State.gateRoll_moves {i : Nat} {s : State} :
    Moves [.hop] s (State.gateRoll i s) := by
  unfold State.gateRoll
  try dsimp only
  repeat' first
    | with_reducible apply Moves.refl
    | assumption
    | ((with_reducible apply Moves.next (h' := State.modIfc_moves)); (case hq => decide))

theorem State.leave_moves {c : Nat} {q : QRec} {s : State} :
    Moves [.hop] s (State.leave c q s) := by
  unfold State.leave
  try dsimp only
  repeat' first
    | with_reducible apply Moves.refl
    | assumption
    | ((with_reducible apply Moves.next (h' := State.modCfg_moves)); (case hq => decide))
    | ((with_reducible apply Moves.modOut); (case hq => decide); (case hf => exact fun _ k => k))
    | ((with_reducible apply Moves.modHop); (case hq => decide); (case e0 => with_reducible rfl))

theorem State.dropStale_moves {c : Nat} {s : State} {q : QRec} :
    Moves [.coll, .hop] s (State.dropStale c s q) := by
  unfold State.dropStale
  try dsimp only
  repeat' first
    | with_reducible apply Moves.refl
    | assumption
    | ((with_reducible apply Moves.next (h' := State.dropMark_moves)); (case hq => decide))
    | ((with_reducible apply Moves.modOut); (case hq => decide); (case hf => exact fun _ k => k))
    | ((with_reducible apply Moves.next (h' := State.leave_moves)); (case hq => decide))

theorem State.copySent_moves {c : Nat} {h : Hop} {s : State} {q : QRec} :
    Moves [.hop] s (State.copySent c h s q) := by
  unfold State.copySent
  try dsimp only
  repeat' first
    | with_reducible apply Moves.refl
    | assumption
    | ((with_reducible apply Moves.next (h' := State.leave_moves)); (case hq => decide))
    | ((with_reducible apply Moves.next (h' := State.modCfg_moves)); (case hq => decide))
    | with_reducible apply Moves.ite

theorem State.charge_moves {i c len : Nat} {s : State} :
    Moves [.hop] s (State.charge i c len s) := by
  unfold State.charge
  try dsimp only
  repeat' first
    | with_reducible apply Moves.refl
    | assumption
    | ((with_reducible apply Moves.next (h' := State.modClass_moves)); (case hq => decide))
    | ((with_reducible apply Moves.modHop); (case hq => decide); (case e0 => with_reducible rfl))
    | ((with_reducible apply Moves.next (h' := State.modIfc_moves)); (case hq => decide))
    | with_reducible apply Moves.ite

theorem State.sendFrame_moves {i : Nat} {l : List Byte} {s : State} :
    Moves [.sys, .outs] s (State.sendFrame i l s) := by
  unfold State.sendFrame
  try dsimp only
  repeat' first
    | with_reducible apply Moves.refl
    | assumption
    | ((with_reducible apply Moves.next (h' := State.emit_moves)); (case hq => decide))
    | ((with_reducible apply Moves.next (h' := State.modSys_moves)); (case hq => decide))
    | with_reducible apply Moves.ite

theorem State.syncOwn_moves {i : Nat} {s : State} :
    Moves [.hop] s (State.syncOwn i s) := by
  unfold State.syncOwn
  try dsimp only
  repeat' first
    | with_reducible apply Moves.refl
    | assumption
    | ((with_reducible apply Moves.next (h' := State.modClass_moves)); (case hq => decide))
    | with_reducible apply Moves.ite
    | ((with_reducible apply Moves.fold); (intro t x m))
    | split

theorem State.leavingNow_moves {i c len recs : Nat} {s : State} :
    Moves [.hop] s (State.leavingNow i c len recs s) := by
  unfold State.leavingNow
  try dsimp only
  repeat' first
    | with_reducible apply Moves.refl
    | assumption
    | ((with_reducible apply Moves.next (h' := State.modIfc_moves)); (case hq => decide))
    | with_reducible apply Moves.ite
    | split

theorem State.overrun_moves {i : Nat} {late : Bool} {s : State} :
    Moves [.hop] s (State.overrun i late s) := by
  unfold State.overrun
  try dsimp only
  repeat' first
    | with_reducible apply Moves.refl
    | assumption
    | ((with_reducible apply Moves.next (h' := State.modIfc_moves)); (case hq => decide))
    | with_reducible apply Moves.ite
    | split

theorem State.markHeld_moves {i c : Nat} {own : Option (List Nat)} {s : State} :
    Moves [.coll, .hop] s (State.markHeld i c own s) := by
  unfold State.markHeld
  try dsimp only
  repeat' first
    | with_reducible apply Moves.refl
    | assumption
    | ((with_reducible apply Moves.next (h' := State.bump_moves)); (case hq => decide))
    | ((with_reducible apply Moves.next (h' := State.modClass_moves)); (case hq => decide))
    | with_reducible apply Moves.ite
    | split

theorem State.sendOwn_moves {i c : Nat} {o : OwnFrame} {late : Bool} {s : State} :
    Moves [.sys, .coll, .hop, .outs] s (State.sendOwn i c o late s) := by
  unfold State.sendOwn
  try dsimp only
  repeat' first
    | with_reducible apply Moves.refl
    | assumption
    | ((with_reducible apply Moves.next (h' := State.sendFrame_moves)); (case hq => decide))
    | ((with_reducible apply Moves.next (h' := State.charge_moves)); (case hq => decide))
    | ((with_reducible apply Moves.next (h' := State.copySent_moves)); (case hq => decide))
    | ((with_reducible apply Moves.next (h' := State.bumpN_moves)); (case hq => decide))
    | ((with_reducible apply Moves.next (h' := State.modCfg_moves)); (case hq => decide))
    | ((with_reducible apply Moves.next (h' := State.leavingNow_moves)); (case hq => decide))
    | ((with_reducible apply Moves.next (h' := State.overrun_moves)); (case hq => decide))
    | ((with_reducible apply Moves.next (h' := State.modClass_moves)); (case hq => decide))
    | ((with_reducible apply Moves.modHop); (case hq => decide); (case e0 => with_reducible rfl))
    | ((with_reducible apply Moves.next (h' := State.modIfc_moves)); (case hq => decide))
    | with_reducible apply Moves.ite
    | ((with_reducible apply Moves.fold); (intro t x m))
    | split

theorem State.sendSecond_moves {i : Nat} {p : Second} {late : Bool} {s : State} :
    Moves [.sys, .hop, .outs] s (State.sendSecond i p late s) := by
  unfold State.sendSecond
  try dsimp only
  repeat' first
    | with_reducible apply Moves.refl
    | assumption
    | ((with_reducible apply Moves.modHop); (case hq => decide); (case e0 => with_reducible rfl))
    | ((with_reducible apply Moves.next (h' := State.leavingNow_moves)); (case hq => decide))
    | ((with_reducible apply Moves.next (h' := State.overrun_moves)); (case hq => decide))
    | ((with_reducible apply Moves.next (h' := State.modIfc_moves)); (case hq => decide))
    | ((with_reducible apply Moves.next (h' := State.sendFrame_moves)); (case hq => decide))
    | ((with_reducible apply Moves.next (h' := State.charge_moves)); (case hq => decide))
    | with_reducible apply Moves.ite
    | split

theorem State.dropSecond_moves {i : Nat} {s : State} :
    Moves [.hop] s (State.dropSecond i s) := by
  unfold State.dropSecond
  try dsimp only
  repeat' first
    | with_reducible apply Moves.refl
    | assumption
    | ((with_reducible apply Moves.modHop); (case hq => decide); (case e0 => with_reducible rfl))
    | ((with_reducible apply Moves.next (h' := State.modIfc_moves)); (case hq => decide))
    | with_reducible apply Moves.ite
    | split

theorem State.freeFwd_moves {n : Nat} {s : State} :
    Moves [.hop] s (State.freeFwd n s) := by
  unfold State.freeFwd
  try dsimp only
  repeat' first
    | with_reducible apply Moves.refl
    | assumption
    | ((with_reducible apply Moves.modHop); (case hq => decide); (case e0 => with_reducible rfl))
    | with_reducible apply Moves.ite
    | split

theorem State.dropFwd_moves {i c : Nat} {s : State} :
    Moves [.coll, .hop] s (State.dropFwd i c s) := by
  unfold State.dropFwd
  try dsimp only
  repeat' first
    | with_reducible apply Moves.refl
    | assumption
    | ((with_reducible apply Moves.next (h' := State.bump_moves)); (case hq => decide))
    | ((with_reducible apply Moves.next (h' := State.freeFwd_moves)); (case hq => decide))
    | ((with_reducible apply Moves.next (h' := State.modClass_moves)); (case hq => decide))
    | with_reducible apply Moves.ite
    | split

theorem State.sendFwd_moves {i c : Nat} {f : FwdFrame} {late : Bool} {s : State} :
    Moves [.sys, .hop, .outs] s (State.sendFwd i c f late s) := by
  unfold State.sendFwd
  try dsimp only
  repeat' first
    | with_reducible apply Moves.refl
    | assumption
    | ((with_reducible apply Moves.next (h' := State.sendFrame_moves)); (case hq => decide))
    | ((with_reducible apply Moves.next (h' := State.charge_moves)); (case hq => decide))
    | ((with_reducible apply Moves.next (h' := State.modClass_moves)); (case hq => decide))
    | ((with_reducible apply Moves.next (h' := State.freeFwd_moves)); (case hq => decide))
    | ((with_reducible apply Moves.next (h' := State.leavingNow_moves)); (case hq => decide))
    | ((with_reducible apply Moves.next (h' := State.overrun_moves)); (case hq => decide))
    | ((with_reducible apply Moves.modHop); (case hq => decide); (case e0 => with_reducible rfl))
    | ((with_reducible apply Moves.next (h' := State.modIfc_moves)); (case hq => decide))
    | with_reducible apply Moves.ite
    | split

theorem State.selectFrom_moves {i : Nat} {late : Bool} {n : Nat} {l : List Nat} {s : State} :
    Moves [.sys, .coll, .hop, .outs] s (State.selectFrom i late n l s) := by
  induction n generalizing l s with
  | zero => exact Moves.refl s
  | succ n ih =>
    rcases l with _ | ⟨c, cs⟩
    · exact Moves.refl s
    have stale : ∀ (q : List QRec) m, Moves [.sys, .coll, .hop, .outs] s (State.selectFrom i late n m (q.foldl (State.dropStale c) s)) :=
      fun q m => Moves.next (Moves.fold (fun t x k => Moves.next k State.dropStale_moves (by decide)) (Moves.refl s)) ih (by decide)
    have held : ∀ p, Moves [.sys, .coll, .hop, .outs] s (s.markHeld i c p) := fun p => State.markHeld_moves.mono (by decide)
    unfold State.selectFrom
    dsimp only
    split
    · exact stale _ _
    · split
      · exact ih
      · split
        · split
          · exact ih
          · exact (held _).next ih (by decide)
          · exact held _
          · exact Moves.refl s
          · split
            · exact State.sendOwn_moves.mono (by decide)
            · exact stale _ _
        · split
          · exact ih
          · split
            · exact ih
            · exact (held _).next ih (by decide)
            · exact held _
            · exact Moves.refl s
            · split
              · exact Moves.next (State.dropFwd_moves.mono (by decide)) ih (by decide)
              · exact State.sendFwd_moves.mono (by decide)

theorem State.refill_moves {s : State} :
    Moves [.hop] s (State.refill s) := by
  unfold State.refill
  try dsimp only
  repeat' first
    | with_reducible apply Moves.refl
    | assumption
    | ((with_reducible apply Moves.modHop); (case hq => decide); (case e0 => with_reducible rfl))
    | with_reducible apply Moves.ite
    | split

theorem State.beforeSelection_moves {i : Nat} {s : State} :
    Moves [.hop] s (State.beforeSelection i s) := by
  unfold State.beforeSelection
  try dsimp only
  repeat' first
    | with_reducible apply Moves.refl
    | assumption
    | ((with_reducible apply Moves.next (h' := State.syncOwn_moves)); (case hq => decide))
    | ((with_reducible apply Moves.next (h' := State.gateRoll_moves)); (case hq => decide))
    | ((with_reducible apply Moves.next (h' := State.modIfc_moves)); (case hq => decide))
    | ((with_reducible apply Moves.next (h' := State.refill_moves)); (case hq => decide))
    | with_reducible apply Moves.ite
    | split

theorem execFrameSelection_moves {ifc : Iface} {late : Bool} {s : State} :
    OutMoves [.sys, .coll, .hop, .outs] s (execFrameSelection ifc late s) := by
  unfold execFrameSelection
  try dsimp only
  repeat' first
    | with_reducible apply Moves.refl
    | assumption
    | with_reducible apply OutMoves.next
    | with_reducible apply OutMoves.ite
    | ((with_reducible apply Moves.next (h' := State.beforeSelection_moves)); (case hq => decide))
    | ((with_reducible apply Moves.next (h' := State.sendSecond_moves)); (case hq => decide))
    | ((with_reducible apply Moves.next (h' := State.selectFrom_moves)); (case hq => decide))
    | with_reducible apply Moves.ite
    | split

theorem execFwdFrameStale_moves {ifc : Iface} {cls : Fin 4} {s : State} :
    OutMoves [.coll, .hop] s (execFwdFrameStale ifc cls s) := by
  unfold execFwdFrameStale
  try dsimp only
  repeat' first
    | with_reducible apply Moves.refl
    | assumption
    | with_reducible apply OutMoves.next
    | with_reducible apply OutMoves.ite
    | ((with_reducible apply Moves.next (h' := State.dropFwd_moves)); (case hq => decide))
    | with_reducible apply Moves.ite
    | split

theorem execShaperRefill_moves {s : State} :
    OutMoves [.hop] s (execShaperRefill s) := by
  unfold execShaperRefill
  try dsimp only
  repeat' first
    | with_reducible apply Moves.refl
    | assumption
    | with_reducible apply OutMoves.next
    | with_reducible apply OutMoves.ite
    | ((with_reducible apply Moves.next (h' := State.refill_moves)); (case hq => decide))
    | with_reducible apply Moves.ite
    | split

theorem execSluiceRefill_moves {s : State} :
    OutMoves [.hop] s (execSluiceRefill s) := by
  unfold execSluiceRefill
  try dsimp only
  repeat' first
    | with_reducible apply Moves.refl
    | assumption
    | with_reducible apply OutMoves.next
    | with_reducible apply OutMoves.ite
    | ((with_reducible apply Moves.next (h' := State.refill_moves)); (case hq => decide))
    | with_reducible apply Moves.ite
    | split

theorem execAdmissionRefill_moves {s : State} :
    OutMoves [.hop] s (execAdmissionRefill s) := by
  unfold execAdmissionRefill
  try dsimp only
  repeat' first
    | with_reducible apply Moves.refl
    | assumption
    | with_reducible apply OutMoves.next
    | with_reducible apply OutMoves.ite
    | ((with_reducible apply Moves.next (h' := State.admit_moves)); (case hq => decide))
    | with_reducible apply Moves.ite
    | split

theorem execCreditReturn_moves {ifc : Iface} {n : BitVec 4} {s : State} :
    OutMoves [.hop] s (execCreditReturn ifc n s) := by
  unfold execCreditReturn
  try dsimp only
  repeat' first
    | with_reducible apply Moves.refl
    | assumption
    | with_reducible apply OutMoves.next
    | with_reducible apply OutMoves.ite
    | ((with_reducible apply Moves.next (h' := State.modIfc_moves)); (case hq => decide))

theorem execCreditTimerExpiry_moves {ifc : Iface} {s : State} :
    OutMoves [.coll, .hop, .hall, .cmd, .outs] s (execCreditTimerExpiry ifc s) := by
  unfold execCreditTimerExpiry
  try dsimp only
  repeat' first
    | with_reducible apply Moves.refl
    | assumption
    | with_reducible apply OutMoves.next
    | with_reducible apply OutMoves.ite
    | ((with_reducible apply Moves.next (h' := State.stage_moves)); (case hq => decide))
    | ((with_reducible apply Moves.next (h' := State.modIfc_moves)); (case hq => decide))
    | with_reducible apply Moves.ite
    | split

theorem State.linkInit_moves {i : Nat} {init : Nat} {s : State} :
    Moves [.coll, .hop, .hall, .cmd, .outs] s (State.linkInit i init s) := by
  unfold State.linkInit
  try dsimp only
  repeat' first
    | with_reducible apply Moves.refl
    | assumption
    | ((with_reducible apply Moves.next (h' := State.modIfc_moves)); (case hq => decide))
    | ((with_reducible apply Moves.next (h' := State.stage_moves)); (case hq => decide))
    | with_reducible apply Moves.ite

theorem State.forwarderEvent_moves {via : Laddr} {s : State} :
    Moves [.hop, .crown] s (State.forwarderEvent via s) := by
  unfold State.forwarderEvent
  try dsimp only
  repeat' first
    | with_reducible apply Moves.refl
    | assumption
    | ((with_reducible apply Moves.modHop); (case hq => decide); (case e0 => with_reducible rfl))
    | ((with_reducible apply Moves.next (h' := State.modCrown_moves)); (case hq => decide))

theorem State.acceptBooks_moves {via : Laddr} {r : Rec} {s : State} :
    Moves [.coll, .hop] s (State.acceptBooks via r s).1 := by
  unfold State.acceptBooks
  try dsimp only
  repeat' first
    | with_reducible apply Moves.refl
    | assumption
    | with_reducible apply Moves.iteFst
    | ((with_reducible apply Moves.modHop); (case hq => decide); (case e0 => with_reducible rfl))
    | ((with_reducible apply Moves.next (h' := State.bump_moves)); (case hq => decide))
    | with_reducible apply Moves.ite
    | split

theorem State.blockBeat_moves {a : Laddr} {s : State} :
    Moves [.brake] s (State.blockBeat a s) := by
  unfold State.blockBeat
  try dsimp only
  repeat' first
    | with_reducible apply Moves.refl
    | assumption
    | ((with_reducible apply Moves.next (h' := State.modBrake_moves)); (case hq => decide))
    | with_reducible apply Moves.ite

theorem State.acceptRec_moves {via : Laddr} {r : Rec} {s : State} :
    Moves [.coll, .hop, .brake] s (State.acceptRec via r s).1 := by
  unfold State.acceptRec
  try dsimp only
  repeat' first
    | with_reducible apply Moves.refl
    | assumption
    | with_reducible apply Moves.iteFst
    | ((with_reducible apply Moves.next (h' := State.acceptBooks_moves)); (case hq => decide))
    | ((with_reducible apply Moves.next (h' := State.blockBeat_moves)); (case hq => decide))
    | ((with_reducible apply Moves.next (h' := State.bump_moves)); (case hq => decide))
    | with_reducible apply Moves.ite
    | split

theorem State.rxEpoch_moves {r : Rec} {s : State} :
    Moves [.time] s (State.rxEpoch r s) := by
  unfold State.rxEpoch
  try dsimp only
  repeat' first
    | with_reducible apply Moves.refl
    | assumption
    | ((with_reducible apply Moves.next (h' := State.modTime_moves)); (case hq => decide))

theorem State.consumerRecons_moves {s : State} :
    Moves [.coll, .hop, .hall, .cmd, .outs] s (State.consumerRecons s) := by
  unfold State.consumerRecons
  try dsimp only
  repeat' first
    | with_reducible apply Moves.refl
    | assumption
    | ((with_reducible apply Moves.next (h' := State.send_moves)); (case hq => decide))
    | ((with_reducible apply Moves.next (h' := State.recount_moves)); (case hq => decide))
    | ((with_reducible apply Moves.modHop); (case hq => decide); (case e0 => with_reducible rfl))
    | with_reducible apply Moves.ite
    | ((with_reducible apply Moves.fold); (intro t x m))
    | split

theorem execReconcilePeriod_moves {stream : Fin 8} {s : State} :
    OutMoves [.coll, .hop, .hall, .cmd, .outs] s (execReconcilePeriod stream s) := by
  unfold execReconcilePeriod
  try dsimp only
  repeat' first
    | with_reducible apply Moves.refl
    | assumption
    | with_reducible apply OutMoves.next
    | with_reducible apply OutMoves.ite
    | ((with_reducible apply Moves.next (h' := State.modCfg_moves)); (case hq => decide))
    | ((with_reducible apply Moves.next (h' := State.settleEpoch_moves)); (case hq => decide))
    | ((with_reducible apply Moves.next (h' := State.putRecon_moves)); (case hq => decide))
    | ((with_reducible apply Moves.next (h' := State.consumerRecons_moves)); (case hq => decide))
    | with_reducible apply Moves.ite
    | split

theorem execEpochRecordInterval_moves {stream : Fin 4} {s : State} :
    OutMoves [.coll, .hop, .hall, .cmd, .outs] s (execEpochRecordInterval stream s) := by
  unfold execEpochRecordInterval
  try dsimp only
  repeat' first
    | with_reducible apply Moves.refl
    | assumption
    | with_reducible apply OutMoves.next
    | with_reducible apply OutMoves.ite
    | ((with_reducible apply Moves.next (h' := State.putEpoch_moves)); (case hq => decide))
    | ((with_reducible apply Moves.modOut); (case hq => decide); (case hf => exact fun _ k => k))
    | with_reducible apply Moves.ite
    | split

theorem execTeardownFlush_moves {s : State} :
    OutMoves [.coll, .hop, .hall, .cmd, .outs] s (execTeardownFlush s) := by
  unfold execTeardownFlush
  try dsimp only
  repeat' first
    | with_reducible apply Moves.refl
    | assumption
    | with_reducible apply OutMoves.next
    | with_reducible apply OutMoves.ite
    | ((with_reducible apply Moves.next (h' := State.send_moves)); (case hq => decide))
    | ((with_reducible apply Moves.modHop); (case hq => decide); (case e0 => with_reducible rfl))
    | with_reducible apply Moves.ite
    | ((with_reducible apply Moves.fold); (intro t x m))
    | split

theorem execStreamConfig_moves {c : Cmd} {s : State} :
    OutMoves [.pow, .coll, .hop, .hall, .cmd, .hoist, .outs] s (execStreamConfig c s) := by
  unfold execStreamConfig
  try dsimp only
  repeat' first
    | with_reducible apply Moves.refl
    | assumption
    | with_reducible apply AnsMoves.ok
    | with_reducible apply AnsMoves.acc
    | with_reducible apply AnsMoves.hold
    | with_reducible apply AnsMoves.ite
    | with_reducible apply OutMoves.next
    | with_reducible apply OutMoves.ite
    | ((with_reducible apply Moves.runCmd); (case hq => decide); (case' he => intro t))
    | ((with_reducible apply Moves.next (h' := State.modCfg_moves)); (case hq => decide))
    | with_reducible apply Moves.ite
    | split

theorem execStreamShaper_moves {c : Cmd} {s : State} :
    OutMoves [.pow, .coll, .hop, .hall, .cmd, .hoist, .outs] s (execStreamShaper c s) := by
  unfold execStreamShaper
  try dsimp only
  repeat' first
    | with_reducible apply Moves.refl
    | assumption
    | with_reducible apply AnsMoves.ok
    | with_reducible apply AnsMoves.acc
    | with_reducible apply AnsMoves.hold
    | with_reducible apply AnsMoves.ite
    | with_reducible apply OutMoves.next
    | with_reducible apply OutMoves.ite
    | ((with_reducible apply Moves.runCmd); (case hq => decide); (case' he => intro t))
    | ((with_reducible apply Moves.next (h' := State.modClass_moves)); (case hq => decide))
    | with_reducible apply Moves.ite
    | split

theorem execStreamGate_moves {c : Cmd} {s : State} :
    OutMoves [.pow, .coll, .hop, .hall, .cmd, .hoist, .outs] s (execStreamGate c s) := by
  unfold execStreamGate
  try dsimp only
  repeat' first
    | with_reducible apply Moves.refl
    | assumption
    | with_reducible apply AnsMoves.ok
    | with_reducible apply AnsMoves.acc
    | with_reducible apply AnsMoves.hold
    | with_reducible apply AnsMoves.ite
    | with_reducible apply OutMoves.next
    | with_reducible apply OutMoves.ite
    | ((with_reducible apply Moves.runCmd); (case hq => decide); (case' he => intro t))
    | ((with_reducible apply Moves.next (h' := State.modIfc_moves)); (case hq => decide))
    | ((with_reducible apply Moves.next (h' := State.gateRoll_moves)); (case hq => decide))
    | with_reducible apply Moves.ite
    | split

theorem execStreamLink_moves {c : Cmd} {s : State} :
    OutMoves [.pow, .coll, .hop, .hall, .cmd, .hoist, .outs] s (execStreamLink c s) := by
  unfold execStreamLink
  try dsimp only
  repeat' first
    | with_reducible apply Moves.refl
    | assumption
    | with_reducible apply AnsMoves.ok
    | with_reducible apply AnsMoves.acc
    | with_reducible apply AnsMoves.hold
    | with_reducible apply AnsMoves.ite
    | with_reducible apply OutMoves.next
    | with_reducible apply OutMoves.ite
    | ((with_reducible apply Moves.runCmd); (case hq => decide); (case' he => intro t))
    | ((with_reducible apply Moves.next (h' := State.modIfc_moves)); (case hq => decide))
    | with_reducible apply Moves.ite
    | split

theorem execStreamStatus_moves {c : Cmd} {s : State} :
    OutMoves [.pow, .coll, .hop, .hall, .cmd, .hoist, .outs] s (execStreamStatus c s) := by
  unfold execStreamStatus
  try dsimp only
  repeat' first
    | with_reducible apply Moves.refl
    | assumption
    | with_reducible apply AnsMoves.ok
    | with_reducible apply AnsMoves.acc
    | with_reducible apply AnsMoves.hold
    | with_reducible apply AnsMoves.ite
    | with_reducible apply OutMoves.next
    | with_reducible apply OutMoves.ite
    | ((with_reducible apply Moves.runCmd); (case hq => decide); (case' he => intro t))
    | with_reducible apply Moves.ite
    | split

end Sys2Proof.Machine
end

