-- ==== Sys2Proof/Laws/CrownOps.lean ====
section
/-! SUPPORT. What the operations of Machine/CrownOps.lean can change, and that they keep the invariant. -/

namespace Sys2Proof.Machine

theorem State.modLevel_moves {f : Bool} {g : CutLevel → CutLevel} {s : State} :
    Moves [.crown] s (State.modLevel f g s) := by
  unfold State.modLevel
  try dsimp only
  repeat' first
    | with_reducible apply Moves.refl
    | assumption
    | ((with_reducible apply Moves.next (h' := State.modCrown_moves)); (case hq => decide))

theorem State.seenReset_moves {a : Laddr} {t : Nat} {s : State} :
    Moves [.crown] s (State.seenReset a t s) := by
  unfold State.seenReset
  try dsimp only
  repeat' first
    | with_reducible apply Moves.refl
    | assumption
    | ((with_reducible apply Moves.next (h' := State.modCrown_moves)); (case hq => decide))

theorem State.seenPower_moves {a : Laddr} {t : Nat} {asleep : Bool} {s : State} :
    Moves [.crown] s (State.seenPower a t asleep s) := by
  unfold State.seenPower
  try dsimp only
  repeat' first
    | with_reducible apply Moves.refl
    | assumption
    | ((with_reducible apply Moves.next (h' := State.modCrown_moves)); (case hq => decide))
    | with_reducible apply Moves.ite
    | split

theorem State.leafSample_moves {kind sel sub t : Nat} {val : Nat → Option Int} {s : State} :
    Moves [.crown] s (State.leafSample kind sel sub t val s) := by
  unfold State.leafSample
  try dsimp only
  repeat' first
    | with_reducible apply Moves.refl
    | assumption
    | ((with_reducible apply Moves.next (h' := State.modLevel_moves)); (case hq => decide))

theorem State.lateOp_moves {f : Bool} {k : OpKey} {s : State} :
    Moves [.crown] s (State.lateOp f k s) := by
  unfold State.lateOp
  try dsimp only
  repeat' first
    | with_reducible apply Moves.refl
    | assumption
    | ((with_reducible apply Moves.next (h' := State.modLevel_moves)); (case hq => decide))
    | with_reducible apply Moves.ite
    | split

theorem State.assignOp_moves {f : Bool} {s : State} {o : Operand} :
    Moves [.crown] s (State.assignOp f s o) := by
  unfold State.assignOp
  try dsimp only
  repeat' first
    | with_reducible apply Moves.refl
    | assumption
    | ((with_reducible apply Moves.next (h' := State.lateOp_moves)); (case hq => decide))
    | ((with_reducible apply Moves.next (h' := State.modLevel_moves)); (case hq => decide))
    | with_reducible apply Moves.ite
    | split

theorem State.assignOps_moves {f : Bool} {s : State} :
    Moves [.crown] s (State.assignOps f s) := by
  unfold State.assignOps
  try dsimp only
  repeat' first
    | with_reducible apply Moves.refl
    | assumption
    | ((with_reducible apply Moves.next (h' := State.assignOp_moves)); (case hq => decide))
    | with_reducible apply Moves.ite
    | ((with_reducible apply Moves.fold); (intro t x m))
    | split

end Sys2Proof.Machine
end

