-- ==== Sys2Proof/Laws/Crown.lean ====
section
/-! SUPPORT. What the operations of Machine/Crown.lean can change, and that they keep the invariant. -/

namespace Sys2Proof.Machine

theorem State.treesApply_moves {s : State} :
    Moves [.crown] s (State.treesApply s) := by
  unfold State.treesApply
  try dsimp only
  repeat' first
    | with_reducible apply Moves.refl
    | assumption
    | ((with_reducible apply Moves.next (h' := State.modCrown_moves)); (case hq => decide))
    | with_reducible apply Moves.ite
    | split

theorem State.masterTurn_moves {s : State} :
    Moves [.sys] s (State.masterTurn s) := by
  unfold State.masterTurn
  try dsimp only
  repeat' first
    | with_reducible apply Moves.refl
    | assumption
    | ((with_reducible apply Moves.next (h' := State.modSys_moves)); (case hq => decide))
    | with_reducible apply Moves.ite
    | split

theorem State.newOperand_moves {f : Bool} {o : Operand} {s : State} :
    Moves [.crown] s (State.newOperand f o s) := by
  unfold State.newOperand
  try dsimp only
  repeat' first
    | with_reducible apply Moves.refl
    | assumption
    | ((with_reducible apply Moves.next (h' := State.assignOps_moves)); (case hq => decide))
    | ((with_reducible apply Moves.next (h' := State.modLevel_moves)); (case hq => decide))
    | with_reducible apply Moves.ite
    | split

theorem State.windowEnd_moves {f : Bool} {t1 : Nat} {s : State} :
    Moves [.sys, .coll, .hop, .hall, .cmd, .crown, .outs] s (State.windowEnd f t1 s) := by
  unfold State.windowEnd
  try dsimp only
  repeat' first
    | with_reducible apply Moves.refl
    | assumption
    | ((with_reducible apply Moves.next (h' := State.modLevel_moves)); (case hq => decide))
    | ((with_reducible apply Moves.next (h' := State.newOperand_moves)); (case hq => decide))
    | ((with_reducible apply Moves.next (h' := State.send_moves)); (case hq => decide))
    | ((with_reducible apply Moves.next (h' := State.modCrown_moves)); (case hq => decide))
    | ((with_reducible apply Moves.next (h' := State.treesApply_moves)); (case hq => decide))
    | ((with_reducible apply Moves.next (h' := State.masterTurn_moves)); (case hq => decide))
    | with_reducible apply Moves.ite
    | ((with_reducible apply Moves.fold); (intro t x m))
    | split

theorem State.windowsTo_moves {f : Bool} {n : Nat} {s : State} :
    Moves [.sys, .coll, .hop, .hall, .cmd, .crown, .outs] s (State.windowsTo f n s) := by
  induction n generalizing s with
  | zero => exact Moves.refl s
  | succ n ih =>
    unfold State.windowsTo
    try dsimp only
    repeat' first
      | ((with_reducible apply Moves.next (h' := ih)); (case hq => decide))
      | with_reducible apply Moves.refl
      | assumption
      | ((with_reducible apply Moves.next (h' := State.windowEnd_moves)); (case hq => decide))
      | with_reducible apply Moves.ite
      | split

theorem State.skipWindows_moves {f : Bool} {s : State} :
    Moves [.crown] s (State.skipWindows f s) := by
  unfold State.skipWindows
  try dsimp only
  repeat' first
    | with_reducible apply Moves.refl
    | assumption
    | ((with_reducible apply Moves.next (h' := State.modLevel_moves)); (case hq => decide))
    | with_reducible apply Moves.ite
    | split

theorem State.takePart_moves {f : Bool} {o : Operand} {s : State} :
    Moves [.crown] s (State.takePart f o s) := by
  unfold State.takePart
  try dsimp only
  repeat' first
    | with_reducible apply Moves.refl
    | assumption
    | ((with_reducible apply Moves.next (h' := State.lateOp_moves)); (case hq => decide))
    | ((with_reducible apply Moves.next (h' := State.modLevel_moves)); (case hq => decide))
    | ((with_reducible apply Moves.next (h' := State.newOperand_moves)); (case hq => decide))
    | with_reducible apply Moves.ite
    | split

theorem State.rxContrib_moves {r : Rec} {s : State} :
    Moves [.crown] s (State.rxContrib r s) := by
  unfold State.rxContrib
  try dsimp only
  repeat' first
    | with_reducible apply Moves.refl
    | assumption
    | ((with_reducible apply Moves.next (h' := State.takePart_moves)); (case hq => decide))
    | with_reducible apply Moves.ite
    | ((with_reducible apply Moves.fold); (intro t x m))
    | split

theorem State.sendPartial_moves {f : Bool} {c : Cut} {d : Redn} {rs : List SegResult} {s : State} :
    Moves [.coll, .hop, .hall, .cmd, .outs] s (State.sendPartial f c d rs s) := by
  unfold State.sendPartial
  try dsimp only
  repeat' first
    | with_reducible apply Moves.refl
    | assumption
    | ((with_reducible apply Moves.next (h' := State.send_moves)); (case hq => decide))
    | with_reducible apply Moves.ite
    | ((with_reducible apply Moves.fold); (intro t x m))
    | split

theorem State.closeRed_moves {f : Bool} {c : Cut} {d : Redn} {s : State} :
    Moves [.coll, .hop, .hall, .cmd, .crown, .outs] s (State.closeRed f c d s) := by
  unfold State.closeRed
  try dsimp only
  repeat' first
    | with_reducible apply Moves.refl
    | assumption
    | ((with_reducible apply Moves.next (h' := State.sendPartial_moves)); (case hq => decide))
    | ((with_reducible apply Moves.next (h' := State.modLevel_moves)); (case hq => decide))
    | with_reducible apply Moves.ite
    | split

theorem State.closeOne_moves {f : Bool} {t1 : Nat} {d : Redn} {s : State} :
    Moves [.coll, .hop, .hall, .cmd, .crown, .outs] s (State.closeOne f t1 d s) := by
  unfold State.closeOne
  try dsimp only
  repeat' first
    | with_reducible apply Moves.refl
    | assumption
    | ((with_reducible apply Moves.next (h' := State.closeRed_moves)); (case hq => decide))
    | with_reducible apply Moves.ite
    | split

theorem State.closeAll_moves {f : Bool} {s : State} :
    Moves [.coll, .hop, .hall, .cmd, .crown, .outs] s (State.closeAll f s) := by
  unfold State.closeAll
  try dsimp only
  repeat' first
    | with_reducible apply Moves.refl
    | assumption
    | ((with_reducible apply Moves.next (h' := State.closeOne_moves)); (case hq => decide))
    | ((with_reducible apply Moves.next (h' := State.assignOps_moves)); (case hq => decide))
    | with_reducible apply Moves.ite
    | ((with_reducible apply Moves.fold); (intro t x m))
    | split

theorem State.eventTo_moves {p : Path} {code : BitVec 16} {data : List Byte} {s : State} :
    Moves [.coll, .hop, .hall, .cmd, .outs] s (State.eventTo p code data s) := by
  unfold State.eventTo
  try dsimp only
  repeat' first
    | with_reducible apply Moves.refl
    | assumption
    | ((with_reducible apply Moves.next (h' := State.event_moves)); (case hq => decide))
    | ((with_reducible apply Moves.next (h' := State.putEvent_moves)); (case hq => decide))
    | ((with_reducible apply Moves.next (h' := State.sendReplyRecs_moves)); (case hq => decide))
    | with_reducible apply Moves.ite
    | ((with_reducible apply Moves.fold); (intro t x m))
    | split

theorem State.writeHalf_moves {f : Bool} {n : Nat} {img : List Byte} {half1 : Bool} {s : State} :
    Moves [.coll, .hop, .hall, .cmd, .crown, .outs] s (State.writeHalf f n img half1 s) := by
  unfold State.writeHalf
  try dsimp only
  repeat' first
    | with_reducible apply Moves.refl
    | assumption
    | ((with_reducible apply Moves.next (h' := State.emit_moves)); (case hq => decide))
    | ((with_reducible apply Moves.next (h' := State.modLevel_moves)); (case hq => decide))
    | ((with_reducible apply Moves.next (h' := State.eventTo_moves)); (case hq => decide))
    | with_reducible apply Moves.ite
    | split

theorem State.deliverCut_moves {f : Bool} {s : State} :
    Moves [.coll, .hop, .hall, .cmd, .crown, .outs] s (State.deliverCut f s) := by
  unfold State.deliverCut
  try dsimp only
  repeat' first
    | with_reducible apply Moves.refl
    | assumption
    | ((with_reducible apply Moves.next (h' := State.modLevel_moves)); (case hq => decide))
    | ((with_reducible apply Moves.next (h' := State.writeHalf_moves)); (case hq => decide))
    | with_reducible apply Moves.ite
    | split

theorem State.readsTurn_moves {f : Bool} {n : Nat} {img : List Byte} {s : State} :
    Moves [.cmd] s (State.readsTurn f n img s) := by
  unfold State.readsTurn
  try dsimp only
  repeat' first
    | with_reducible apply Moves.refl
    | assumption
    | ((with_reducible apply Moves.modCmd); (case hq => decide); (case e0 => with_reducible rfl); (case e1 => with_reducible rfl))
    | with_reducible apply Moves.ite
    | split

theorem State.publishCut_moves {f : Bool} {c : Cut} {modelver : Nat} {s : State} :
    Moves [.coll, .hop, .hall, .cmd, .crown, .outs] s (State.publishCut f c modelver s) := by
  unfold State.publishCut
  try dsimp only
  repeat' first
    | with_reducible apply Moves.refl
    | assumption
    | ((with_reducible apply Moves.next (h' := State.readsTurn_moves)); (case hq => decide))
    | ((with_reducible apply Moves.next (h' := State.modLevel_moves)); (case hq => decide))
    | ((with_reducible apply Moves.next (h' := State.send_moves)); (case hq => decide))
    | ((with_reducible apply Moves.next (h' := State.deliverCut_moves)); (case hq => decide))
    | with_reducible apply Moves.ite
    | split

theorem State.handOver_moves {s : State} :
    Moves [.sys, .crown] s (State.handOver s) := by
  unfold State.handOver
  try dsimp only
  repeat' first
    | with_reducible apply Moves.refl
    | assumption
    | ((with_reducible apply Moves.next (h' := State.modCrown_moves)); (case hq => decide))
    | ((with_reducible apply Moves.next (h' := State.modSys_moves)); (case hq => decide))
    | with_reducible apply Moves.ite
    | split

theorem State.finishCut_moves {f : Bool} {c : Cut} {modelver : Nat} {s : State} :
    Moves [.sys, .coll, .hop, .hall, .cmd, .crown, .outs] s (State.finishCut f c modelver s) := by
  unfold State.finishCut
  try dsimp only
  repeat' first
    | with_reducible apply Moves.refl
    | assumption
    | ((with_reducible apply Moves.next (h' := State.publishCut_moves)); (case hq => decide))
    | ((with_reducible apply Moves.next (h' := State.handOver_moves)); (case hq => decide))
    | ((with_reducible apply Moves.next (h' := State.modLevel_moves)); (case hq => decide))
    | with_reducible apply Moves.ite
    | split

theorem execCutWindowEnd_moves {fleet : Bool} {s : State} :
    OutMoves [.sys, .coll, .hop, .hall, .cmd, .crown, .outs] s (execCutWindowEnd fleet s) := by
  unfold execCutWindowEnd
  try dsimp only
  repeat' first
    | with_reducible apply Moves.refl
    | assumption
    | with_reducible apply OutMoves.next
    | with_reducible apply OutMoves.ite
    | ((with_reducible apply Moves.next (h' := State.skipWindows_moves)); (case hq => decide))
    | ((with_reducible apply Moves.next (h' := State.handOver_moves)); (case hq => decide))
    | ((with_reducible apply Moves.next (h' := State.windowsTo_moves)); (case hq => decide))
    | with_reducible apply Moves.ite
    | split

theorem State.missedCuts_moves {f : Bool} {s : State} :
    Moves [.crown] s (State.missedCuts f s) := by
  unfold State.missedCuts
  try dsimp only
  repeat' first
    | with_reducible apply Moves.refl
    | assumption
    | ((with_reducible apply Moves.next (h' := State.modLevel_moves)); (case hq => decide))
    | with_reducible apply Moves.ite
    | split

theorem State.sendMap_moves {set nwin start : Nat} {s : State} :
    Moves [.coll, .hop, .hall, .cmd, .outs] s (State.sendMap set nwin start s) := by
  unfold State.sendMap
  try dsimp only
  repeat' first
    | with_reducible apply Moves.refl
    | assumption
    | ((with_reducible apply Moves.next (h' := State.send_moves)); (case hq => decide))
    | with_reducible apply Moves.ite
    | ((with_reducible apply Moves.fold); (intro t x m))
    | split

theorem execReduceDefine_moves {c : Cmd} {s : State} :
    OutMoves [.pow, .coll, .hop, .hall, .cmd, .crown, .hoist, .outs] s (execReduceDefine c s) := by
  unfold execReduceDefine
  try dsimp only
  repeat' first
    | with_reducible apply Moves.refl
    | assumption
    | with_reducible apply AnsMoves.ok
    | with_reducible apply AnsMoves.acc
    | with_reducible apply AnsMoves.hold
    | with_reducible apply AnsMoves.ite
    | with_reducible apply OutMoves.next
    | with_reducible apply OutMoves.ite
    | ((with_reducible apply Moves.runCmd); (case hq => decide); (case' he => intro t))
    | ((with_reducible apply Moves.next (h' := State.modLevel_moves)); (case hq => decide))
    | with_reducible apply Moves.ite
    | split

theorem execReduceDelete_moves {c : Cmd} {s : State} :
    OutMoves [.pow, .coll, .hop, .hall, .cmd, .crown, .hoist, .outs] s (execReduceDelete c s) := by
  unfold execReduceDelete
  try dsimp only
  repeat' first
    | with_reducible apply Moves.refl
    | assumption
    | with_reducible apply AnsMoves.ok
    | with_reducible apply AnsMoves.acc
    | with_reducible apply AnsMoves.hold
    | with_reducible apply AnsMoves.ite
    | with_reducible apply OutMoves.next
    | with_reducible apply OutMoves.ite
    | ((with_reducible apply Moves.runCmd); (case hq => decide); (case' he => intro t))
    | ((with_reducible apply Moves.next (h' := State.modLevel_moves)); (case hq => decide))
    | with_reducible apply Moves.ite
    | split

theorem execCutConfig_moves {c : Cmd} {s : State} :
    OutMoves [.pow, .coll, .hop, .hall, .cmd, .crown, .hoist, .outs] s (execCutConfig c s) := by
  unfold execCutConfig
  try dsimp only
  repeat' first
    | with_reducible apply Moves.refl
    | assumption
    | with_reducible apply AnsMoves.ok
    | with_reducible apply AnsMoves.acc
    | with_reducible apply AnsMoves.hold
    | with_reducible apply AnsMoves.ite
    | with_reducible apply OutMoves.next
    | with_reducible apply OutMoves.ite
    | ((with_reducible apply Moves.runCmd); (case hq => decide); (case' he => intro t))
    | ((with_reducible apply Moves.next (h' := State.modLevel_moves)); (case hq => decide))
    | with_reducible apply Moves.ite
    | split

theorem execCutRead_moves {c : Cmd} {s : State} :
    OutMoves [.pow, .coll, .hop, .hall, .cmd, .hoist, .outs] s (execCutRead c s) := by
  unfold execCutRead
  try dsimp only
  repeat' first
    | with_reducible apply Moves.refl
    | assumption
    | with_reducible apply AnsMoves.ok
    | with_reducible apply AnsMoves.acc
    | with_reducible apply AnsMoves.hold
    | with_reducible apply AnsMoves.ite
    | with_reducible apply OutMoves.next
    | with_reducible apply OutMoves.ite
    | ((with_reducible apply Moves.runCmd); (case hq => decide); (case' he => intro t))
    | with_reducible apply Moves.ite
    | split

theorem execCutRegister_moves {c : Cmd} {s : State} :
    OutMoves [.pow, .coll, .hop, .hall, .cmd, .crown, .hoist, .outs] s (execCutRegister c s) := by
  unfold execCutRegister
  try dsimp only
  repeat' first
    | with_reducible apply Moves.refl
    | assumption
    | with_reducible apply AnsMoves.ok
    | with_reducible apply AnsMoves.acc
    | with_reducible apply AnsMoves.hold
    | with_reducible apply AnsMoves.ite
    | with_reducible apply OutMoves.next
    | with_reducible apply OutMoves.ite
    | ((with_reducible apply Moves.runCmd); (case hq => decide); (case' he => intro t))
    | ((with_reducible apply Moves.next (h' := State.modLevel_moves)); (case hq => decide))
    | with_reducible apply Moves.ite
    | split

theorem execCutRelease_moves {c : Cmd} {s : State} :
    OutMoves [.pow, .coll, .hop, .hall, .cmd, .crown, .hoist, .outs] s (execCutRelease c s) := by
  unfold execCutRelease
  try dsimp only
  repeat' first
    | with_reducible apply Moves.refl
    | assumption
    | with_reducible apply AnsMoves.ok
    | with_reducible apply AnsMoves.acc
    | with_reducible apply AnsMoves.hold
    | with_reducible apply AnsMoves.ite
    | with_reducible apply OutMoves.next
    | with_reducible apply OutMoves.ite
    | ((with_reducible apply Moves.runCmd); (case hq => decide); (case' he => intro t))
    | ((with_reducible apply Moves.next (h' := State.modLevel_moves)); (case hq => decide))
    | ((with_reducible apply Moves.next (h' := State.writeHalf_moves)); (case hq => decide))
    | with_reducible apply Moves.ite
    | split

theorem execMapConfig_moves {c : Cmd} {s : State} :
    OutMoves [.pow, .coll, .hop, .hall, .cmd, .crown, .hoist, .outs] s (execMapConfig c s) := by
  unfold execMapConfig
  try dsimp only
  repeat' first
    | with_reducible apply Moves.refl
    | assumption
    | with_reducible apply AnsMoves.ok
    | with_reducible apply AnsMoves.acc
    | with_reducible apply AnsMoves.hold
    | with_reducible apply AnsMoves.ite
    | with_reducible apply OutMoves.next
    | with_reducible apply OutMoves.ite
    | ((with_reducible apply Moves.runCmd); (case hq => decide); (case' he => intro t))
    | ((with_reducible apply Moves.next (h' := State.modCrown_moves)); (case hq => decide))
    | with_reducible apply Moves.ite
    | split

theorem execReduceStatus_moves {c : Cmd} {s : State} :
    OutMoves [.pow, .coll, .hop, .hall, .cmd, .hoist, .outs] s (execReduceStatus c s) := by
  unfold execReduceStatus
  try dsimp only
  repeat' first
    | with_reducible apply Moves.refl
    | assumption
    | with_reducible apply AnsMoves.ok
    | with_reducible apply AnsMoves.acc
    | with_reducible apply AnsMoves.hold
    | with_reducible apply AnsMoves.ite
    | with_reducible apply OutMoves.next
    | with_reducible apply OutMoves.ite
    | ((with_reducible apply Moves.runCmd); (case hq => decide); (case' he => intro t))
    | with_reducible apply Moves.ite
    | split

theorem execTimeConfig_moves {c : Cmd} {s : State} :
    OutMoves [.pow, .time, .coll, .hop, .hall, .cmd, .hoist, .outs] s (execTimeConfig c s) := by
  unfold execTimeConfig
  try dsimp only
  repeat' first
    | with_reducible apply Moves.refl
    | assumption
    | with_reducible apply AnsMoves.ok
    | with_reducible apply AnsMoves.acc
    | with_reducible apply AnsMoves.hold
    | with_reducible apply AnsMoves.ite
    | with_reducible apply OutMoves.next
    | with_reducible apply OutMoves.ite
    | ((with_reducible apply Moves.runCmd); (case hq => decide); (case' he => intro t))
    | ((with_reducible apply Moves.next (h' := State.modTime_moves)); (case hq => decide))
    | with_reducible apply Moves.ite
    | split

end Sys2Proof.Machine
end

