-- ==== Sys2Proof/Laws/Bcast.lean ====
section
/-! SUPPORT. What the operations of Machine/Bcast.lean can change, and that they keep the invariant. -/

namespace Sys2Proof.Machine

theorem State.pushFwd_moves {i c : Nat} {data ovf : List Byte} {hops : List Hop} {s : State} :
    Moves [.coll, .hop] s (State.pushFwd i c data ovf hops s) := by
  unfold State.pushFwd
  try dsimp only
  repeat' first
    | with_reducible apply Moves.refl
    | assumption
    | ((with_reducible apply Moves.modHop); (case hq => decide); (case e0 => with_reducible rfl))
    | ((with_reducible apply Moves.next (h' := State.modClass_moves)); (case hq => decide))
    | ((with_reducible apply Moves.next (h' := State.bump_moves)); (case hq => decide))
    | with_reducible apply Moves.ite
    | split

theorem State.passOn_moves {r : Rec} {multi : Bool} {mask : Nat} {addrs : List Laddr} {s : State} :
    Moves [.coll, .hop] s (State.passOn r multi mask addrs s) := by
  unfold State.passOn
  refine Moves.ite (Moves.fold (fun t i m => m.next State.pushFwd_moves (by decide)) ?_) (State.bump_moves.mono (by decide))
  exact (State.modCfg_moves.mono (by decide)).next State.bumpN_moves (by decide)

theorem State.modBcast_moves {src : Laddr} {bid : Word} {g : Bcast → Bcast} {s : State} :
    Moves [.crown] s (State.modBcast src bid g s) := by
  unfold State.modBcast
  try dsimp only
  repeat' first
    | with_reducible apply Moves.refl
    | assumption
    | ((with_reducible apply Moves.next (h' := State.modCrown_moves)); (case hq => decide))

theorem State.sendAcks_moves {b : Bcast} {dsts : List Laddr} {s : State} :
    Moves [.coll, .hop, .hall, .cmd, .outs] s (State.sendAcks b dsts s) := by
  unfold State.sendAcks
  try dsimp only
  repeat' first
    | with_reducible apply Moves.refl
    | assumption
    | ((with_reducible apply Moves.next (h' := State.send_moves)); (case hq => decide))
    | with_reducible apply Moves.ite
    | ((with_reducible apply Moves.fold); (intro t x m))
    | split

theorem State.bcastSettle_moves {src : Laddr} {bid : Word} {s : State} :
    Moves [.coll, .hop, .hall, .cmd, .crown, .outs] s (State.bcastSettle src bid s) := by
  unfold State.bcastSettle
  try dsimp only
  repeat' first
    | with_reducible apply Moves.refl
    | assumption
    | ((with_reducible apply Moves.next (h' := State.modCrown_moves)); (case hq => decide))
    | ((with_reducible apply Moves.next (h' := State.sendAcks_moves)); (case hq => decide))
    | ((with_reducible apply Moves.next (h' := State.setReady_moves)); (case hq => decide))
    | with_reducible apply Moves.ite
    | split

theorem State.refuseBcast_moves {hop : Laddr} {t : Tree} {r : Rec} {s : State} :
    Moves [.coll, .hop, .hall, .cmd, .outs] s (State.refuseBcast hop t r s) := by
  unfold State.refuseBcast
  try dsimp only
  repeat' first
    | with_reducible apply Moves.refl
    | assumption
    | ((with_reducible apply Moves.next (h' := State.sendAcks_moves)); (case hq => decide))
    | with_reducible apply Moves.ite
    | split

theorem State.rxBroadcast_moves {hop : Laddr} {r : Rec} {s : State} :
    Moves [.coll, .hop, .hall, .cmd, .crown, .outs] s (State.rxBroadcast hop r s).1 := by
  unfold State.rxBroadcast
  try dsimp only
  repeat' first
    | with_reducible apply Moves.refl
    | assumption
    | with_reducible apply Moves.iteFst
    | ((with_reducible apply Moves.next (h' := State.modCrown_moves)); (case hq => decide))
    | ((with_reducible apply Moves.next (h' := State.refuseBcast_moves)); (case hq => decide))
    | ((with_reducible apply Moves.next (h' := State.passOn_moves)); (case hq => decide))
    | ((with_reducible apply Moves.next (h' := State.modBcast_moves)); (case hq => decide))
    | with_reducible apply Moves.ite
    | split

theorem State.rxRepeat_moves {hop : Laddr} {r : Rec} {s : State} :
    Moves [.coll, .hop, .hall, .cmd, .crown, .outs] s (State.rxRepeat hop r s) := by
  unfold State.rxRepeat
  try dsimp only
  repeat' first
    | with_reducible apply Moves.refl
    | assumption
    | ((with_reducible apply Moves.next (h' := State.sendAcks_moves)); (case hq => decide))
    | ((with_reducible apply Moves.next (h' := State.modCrown_moves)); (case hq => decide))
    | ((with_reducible apply Moves.next (h' := State.refuseBcast_moves)); (case hq => decide))
    | ((with_reducible apply Moves.next (h' := State.bcastSettle_moves)); (case hq => decide))
    | ((with_reducible apply Moves.next (h' := State.modBcast_moves)); (case hq => decide))
    | with_reducible apply Moves.ite
    | split

theorem State.relayStandby_moves {hop : Laddr} {mask : Nat} {r : Rec} {s : State} :
    Moves [.coll, .hop, .crown] s (State.relayStandby hop mask r s) := by
  unfold State.relayStandby
  try dsimp only
  repeat' first
    | with_reducible apply Moves.refl
    | assumption
    | ((with_reducible apply Moves.next (h' := State.modCrown_moves)); (case hq => decide))
    | ((with_reducible apply Moves.next (h' := State.passOn_moves)); (case hq => decide))
    | with_reducible apply Moves.ite
    | ((with_reducible apply Moves.fold); (intro t x m))
    | split

theorem State.rxAck_moves {r : Rec} {s : State} :
    Moves [.coll, .hop, .hall, .cmd, .crown, .outs] s (State.rxAck r s) := by
  unfold State.rxAck
  try dsimp only
  repeat' first
    | with_reducible apply Moves.refl
    | assumption
    | ((with_reducible apply Moves.next (h' := State.passOn_moves)); (case hq => decide))
    | ((with_reducible apply Moves.next (h' := State.modCrown_moves)); (case hq => decide))
    | ((with_reducible apply Moves.next (h' := State.modBcast_moves)); (case hq => decide))
    | ((with_reducible apply Moves.next (h' := State.bcastSettle_moves)); (case hq => decide))
    | with_reducible apply Moves.ite
    | split

theorem execAckTimerExpiry_moves {bid : Word} {child : Fin 64} {s : State} :
    OutMoves [.coll, .hop, .hall, .cmd, .crown, .outs] s (execAckTimerExpiry bid child s) := by
  unfold execAckTimerExpiry
  try dsimp only
  repeat' first
    | with_reducible apply Moves.refl
    | assumption
    | with_reducible apply OutMoves.next
    | with_reducible apply OutMoves.ite
    | ((with_reducible apply Moves.next (h' := State.passOn_moves)); (case hq => decide))
    | ((with_reducible apply Moves.next (h' := State.bcastSettle_moves)); (case hq => decide))
    | ((with_reducible apply Moves.next (h' := State.modBcast_moves)); (case hq => decide))
    | with_reducible apply Moves.ite
    | ((with_reducible apply Moves.fold); (intro t x m))
    | split

theorem execResendAckTimerExpiry_moves {bid : Word} {target : Laddr} {s : State} :
    OutMoves [.coll, .hop, .hall, .cmd, .crown, .outs] s (execResendAckTimerExpiry bid target s) := by
  unfold execResendAckTimerExpiry
  try dsimp only
  repeat' first
    | with_reducible apply Moves.refl
    | assumption
    | with_reducible apply OutMoves.next
    | with_reducible apply OutMoves.ite
    | ((with_reducible apply Moves.next (h' := State.bcastSettle_moves)); (case hq => decide))
    | ((with_reducible apply Moves.next (h' := State.modBcast_moves)); (case hq => decide))
    | with_reducible apply Moves.ite
    | split

theorem execTreeInstall_moves {c : Cmd} {s : State} :
    OutMoves [.pow, .coll, .hop, .hall, .cmd, .crown, .hoist, .outs] s (execTreeInstall c s) := by
  unfold execTreeInstall
  try dsimp only
  repeat' first
    | with_reducible apply Moves.refl
    | assumption
    | with_reducible apply AnsMoves.ok
    | with_reducible apply AnsMoves.acc
    | with_reducible apply AnsMoves.hold
    | with_reducible apply AnsMoves.ite
    | with_reducible apply OutMoves.next
    | with_reducible apply OutMoves.ite
    | ((with_reducible apply Moves.next (h' := State.modCrown_moves)); (case hq => decide))
    | ((with_reducible apply Moves.runCmd); (case hq => decide); (case' he => intro t))
    | with_reducible apply Moves.ite
    | split

theorem State.bcastStart_moves {tree : Nat} {t : Tree} {kind : Nat} {payload : List Byte} {s : State} :
    Moves [.coll, .hop, .hall, .cmd, .crown, .outs] s (State.bcastStart tree t kind payload s) := by
  unfold State.bcastStart
  try dsimp only
  repeat' first
    | with_reducible apply Moves.refl
    | assumption
    | ((with_reducible apply Moves.next (h' := State.modCrown_moves)); (case hq => decide))
    | ((with_reducible apply Moves.next (h' := State.offer_moves)); (case hq => decide))
    | ((with_reducible apply Moves.next (h' := State.modBcast_moves)); (case hq => decide))
    | with_reducible apply Moves.ite
    | ((with_reducible apply Moves.fold); (intro t x m))
    | split

end Sys2Proof.Machine
end

