-- ==== Sys2Proof/Laws/FieldTest.lean ====
section
/-! SUPPORT. What the operations of Machine/FieldTest.lean can change, and that they keep the invariant. -/

namespace Sys2Proof.Machine

theorem State.modTcore_moves {c : Nat} {f : TestCore → TestCore} {s : State} :
    Moves [.test] s (State.modTcore c f s) := by
  unfold State.modTcore
  try dsimp only
  repeat' first
    | with_reducible apply Moves.refl
    | assumption
    | ((with_reducible apply Moves.next (h' := State.modTest_moves)); (case hq => decide))

theorem State.postRequest_moves {q : TestReq} {s : State} :
    Moves [.cmd, .test, .outs] s (State.postRequest q s) := by
  unfold State.postRequest
  try dsimp only
  repeat' first
    | with_reducible apply Moves.refl
    | assumption
    | ((with_reducible apply Moves.next (h' := State.event_moves)); (case hq => decide))
    | ((with_reducible apply Moves.next (h' := State.modTest_moves)); (case hq => decide))

theorem State.planApply_moves {s : State} :
    Moves [.test] s (State.planApply s) := by
  unfold State.planApply
  try dsimp only
  repeat' first
    | with_reducible apply Moves.refl
    | assumption
    | ((with_reducible apply Moves.next (h' := State.modTest_moves)); (case hq => decide))
    | with_reducible apply Moves.ite
    | split

theorem State.askNext_moves {s0 : State} :
    Moves [.cmd, .test, .outs] s0 (State.askNext s0) := by
  unfold State.askNext
  try dsimp only
  repeat' first
    | with_reducible apply Moves.refl
    | assumption
    | ((with_reducible apply Moves.next (h' := State.planApply_moves)); (case hq => decide))
    | ((with_reducible apply Moves.next (h' := State.postRequest_moves)); (case hq => decide))
    | ((with_reducible apply Moves.next (h' := State.modTcore_moves)); (case hq => decide))
    | with_reducible apply Moves.ite
    | split

theorem execTestDue_moves {core : BitVec 8} {s : State} :
    OutMoves [.cmd, .test, .outs] s (execTestDue core s) := by
  unfold execTestDue
  try dsimp only
  repeat' first
    | with_reducible apply Moves.refl
    | assumption
    | with_reducible apply OutMoves.next
    | with_reducible apply OutMoves.ite
    | ((with_reducible apply Moves.next (h' := State.askNext_moves)); (case hq => decide))

theorem execReaskExpiry_moves {s : State} :
    OutMoves [.cmd, .test, .outs] s (execReaskExpiry s) := by
  unfold execReaskExpiry
  try dsimp only
  repeat' first
    | with_reducible apply Moves.refl
    | assumption
    | with_reducible apply OutMoves.next
    | with_reducible apply OutMoves.ite
    | ((with_reducible apply Moves.next (h' := State.postRequest_moves)); (case hq => decide))
    | with_reducible apply Moves.ite
    | split

theorem execTestOverdue_moves {core : BitVec 8} {s : State} :
    OutMoves [.coll, .hop, .hall, .cmd, .test, .outs] s (execTestOverdue core s) := by
  unfold execTestOverdue
  try dsimp only
  repeat' first
    | with_reducible apply Moves.refl
    | assumption
    | with_reducible apply OutMoves.next
    | with_reducible apply OutMoves.ite
    | ((with_reducible apply Moves.next (h' := State.modTcore_moves)); (case hq => decide))
    | ((with_reducible apply Moves.next (h' := State.stage_moves)); (case hq => decide))
    | ((with_reducible apply Moves.next (h' := State.bump_moves)); (case hq => decide))
    | ((with_reducible apply Moves.next (h' := State.postRequest_moves)); (case hq => decide))
    | ((with_reducible apply Moves.next (h' := State.askNext_moves)); (case hq => decide))
    | with_reducible apply Moves.ite
    | split

theorem State.closeWindow_moves {result failop nmism : Nat} {s : State} :
    Moves [.coll, .hop, .hall, .cmd, .brake, .test, .flash, .conf, .outs] s (State.closeWindow result failop nmism s) := by
  unfold State.closeWindow
  try dsimp only
  repeat' first
    | with_reducible apply Moves.refl
    | assumption
    | ((with_reducible apply Moves.next (h' := State.stage_moves)); (case hq => decide))
    | ((with_reducible apply Moves.next (h' := State.modTest_moves)); (case hq => decide))
    | ((with_reducible apply Moves.next (h' := State.modTcore_moves)); (case hq => decide))
    | ((with_reducible apply Moves.next (h' := State.writeSection_moves)); (case hq => decide))
    | ((with_reducible apply Moves.next (h' := State.sendOwed_moves)); (case hq => decide))
    | ((with_reducible apply Moves.next (h' := State.askNext_moves)); (case hq => decide))
    | ((with_reducible apply Moves.next (h' := State.event_moves)); (case hq => decide))
    | with_reducible apply Moves.ite
    | split

theorem State.leaveWindow_moves {result failop nmism : Nat} {s : State} :
    Moves [.test] s (State.leaveWindow result failop nmism s) := by
  unfold State.leaveWindow
  try dsimp only
  repeat' first
    | with_reducible apply Moves.refl
    | assumption
    | ((with_reducible apply Moves.next (h' := State.modTest_moves)); (case hq => decide))

theorem State.endWindow_moves {result : Nat} {s : State} :
    Moves [.coll, .hop, .hall, .cmd, .brake, .test, .flash, .conf, .outs] s (State.endWindow result s) := by
  unfold State.endWindow
  try dsimp only
  repeat' first
    | with_reducible apply Moves.refl
    | assumption
    | ((with_reducible apply Moves.next (h' := State.closeWindow_moves)); (case hq => decide))
    | ((with_reducible apply Moves.next (h' := State.leaveWindow_moves)); (case hq => decide))
    | with_reducible apply Moves.ite
    | split

theorem State.testReset_moves {s : State} :
    Moves [.coll, .hop, .hall, .cmd, .brake, .test, .flash, .conf, .outs] s (State.testReset s) := by
  unfold State.testReset
  try dsimp only
  repeat' first
    | with_reducible apply Moves.refl
    | assumption
    | ((with_reducible apply Moves.next (h' := State.closeWindow_moves)); (case hq => decide))

theorem State.coreActive_moves {c inc : Nat} {s : State} :
    Moves [.coll, .hop, .hall, .cmd, .brake, .test, .flash, .conf, .outs] s (State.coreActive c inc s) := by
  unfold State.coreActive
  try dsimp only
  repeat' first
    | with_reducible apply Moves.refl
    | assumption
    | ((with_reducible apply Moves.next (h' := State.modTcore_moves)); (case hq => decide))
    | ((with_reducible apply Moves.next (h' := State.endWindow_moves)); (case hq => decide))
    | with_reducible apply Moves.ite
    | split

theorem execWinUsExpiry_moves {s : State} :
    OutMoves [.coll, .hop, .hall, .cmd, .brake, .test, .flash, .conf, .outs] s (execWinUsExpiry s) := by
  unfold execWinUsExpiry
  try dsimp only
  repeat' first
    | with_reducible apply Moves.refl
    | assumption
    | with_reducible apply OutMoves.next
    | with_reducible apply OutMoves.ite
    | ((with_reducible apply Moves.next (h' := State.endWindow_moves)); (case hq => decide))
    | with_reducible apply Moves.ite
    | split

theorem execSelAckTimeout_moves {s : State} :
    OutMoves [.coll, .hop, .hall, .cmd, .brake, .test, .flash, .conf, .outs] s (execSelAckTimeout s) := by
  unfold execSelAckTimeout
  try dsimp only
  repeat' first
    | with_reducible apply Moves.refl
    | assumption
    | with_reducible apply OutMoves.next
    | with_reducible apply OutMoves.ite
    | ((with_reducible apply Moves.next (h' := State.endWindow_moves)); (case hq => decide))
    | with_reducible apply Moves.ite
    | split

theorem execScanSegmentEnd_moves {res : ScanEnd} {s : State} :
    OutMoves [.test] s (execScanSegmentEnd res s) := by
  unfold execScanSegmentEnd
  try dsimp only
  repeat' first
    | with_reducible apply Moves.refl
    | assumption
    | with_reducible apply OutMoves.next
    | with_reducible apply OutMoves.ite
    | ((with_reducible apply Moves.next (h' := State.leaveWindow_moves)); (case hq => decide))
    | with_reducible apply Moves.ite
    | split

theorem execExitSequenceDone_moves {s : State} :
    OutMoves [.coll, .hop, .hall, .cmd, .brake, .test, .flash, .conf, .outs] s (execExitSequenceDone s) := by
  unfold execExitSequenceDone
  try dsimp only
  repeat' first
    | with_reducible apply Moves.refl
    | assumption
    | with_reducible apply OutMoves.next
    | with_reducible apply OutMoves.ite
    | ((with_reducible apply Moves.next (h' := State.closeWindow_moves)); (case hq => decide))
    | with_reducible apply Moves.ite
    | split

theorem execTestConfig_moves {c : Cmd} {s : State} :
    OutMoves [.pow, .coll, .hop, .hall, .cmd, .test, .hoist, .outs] s (execTestConfig c s) := by
  unfold execTestConfig
  try dsimp only
  repeat' first
    | with_reducible apply Moves.refl
    | assumption
    | with_reducible apply AnsMoves.ok
    | with_reducible apply AnsMoves.acc
    | with_reducible apply AnsMoves.hold
    | with_reducible apply AnsMoves.ite
    | with_reducible apply OutMoves.next
    | with_reducible apply OutMoves.ite
    | ((with_reducible apply Moves.runCmd); (case hq => decide); (case' he => intro t))
    | ((with_reducible apply Moves.next (h' := State.modTest_moves)); (case hq => decide))
    | ((with_reducible apply Moves.next (h' := State.askNext_moves)); (case hq => decide))
    | with_reducible apply Moves.ite
    | split

theorem State.openWindow_moves {q : TestReq} {winUs : Nat} {step : Dword} {s : State} :
    Moves [.coll, .hop, .hall, .cmd, .brake, .test, .flash, .conf, .outs] s (State.openWindow q winUs step s) := by
  unfold State.openWindow
  try dsimp only
  repeat' first
    | with_reducible apply Moves.refl
    | assumption
    | ((with_reducible apply Moves.next (h' := State.modTcore_moves)); (case hq => decide))
    | ((with_reducible apply Moves.next (h' := State.modTest_moves)); (case hq => decide))
    | ((with_reducible apply Moves.next (h' := State.closeWindow_moves)); (case hq => decide))
    | ((with_reducible apply Moves.next (h' := State.event_moves)); (case hq => decide))
    | ((with_reducible apply Moves.next (h' := State.emit_moves)); (case hq => decide))
    | ((with_reducible apply Moves.next (h' := State.endWindow_moves)); (case hq => decide))
    | with_reducible apply Moves.ite
    | split

theorem execTestGrant_moves {c : Cmd} {s : State} :
    OutMoves [.pow, .coll, .hop, .hall, .cmd, .brake, .test, .flash, .conf, .hoist, .outs] s (execTestGrant c s) := by
  unfold execTestGrant
  try dsimp only
  repeat' first
    | with_reducible apply Moves.refl
    | assumption
    | with_reducible apply AnsMoves.ok
    | with_reducible apply AnsMoves.acc
    | with_reducible apply AnsMoves.hold
    | with_reducible apply AnsMoves.ite
    | with_reducible apply OutMoves.next
    | with_reducible apply OutMoves.ite
    | ((with_reducible apply Moves.runCmd); (case hq => decide); (case' he => intro t))
    | ((with_reducible apply Moves.next (h' := State.openWindow_moves)); (case hq => decide))
    | with_reducible apply Moves.ite
    | split

theorem execTestDefer_moves {c : Cmd} {s : State} :
    OutMoves [.pow, .coll, .hop, .hall, .cmd, .hoist, .outs] s (execTestDefer c s) := by
  unfold execTestDefer
  try dsimp only
  repeat' first
    | with_reducible apply Moves.refl
    | assumption
    | with_reducible apply AnsMoves.ok
    | with_reducible apply AnsMoves.acc
    | with_reducible apply AnsMoves.hold
    | with_reducible apply AnsMoves.ite
    | with_reducible apply OutMoves.next
    | with_reducible apply OutMoves.ite
    | ((with_reducible apply Moves.runCmd); (case hq => decide); (case' he => intro t))
    | with_reducible apply Moves.ite
    | split

theorem execTestDone_moves {c : Cmd} {s : State} :
    OutMoves [.pow, .coll, .hop, .hall, .cmd, .brake, .test, .flash, .conf, .hoist, .outs] s (execTestDone c s) := by
  unfold execTestDone
  try dsimp only
  repeat' first
    | with_reducible apply Moves.refl
    | assumption
    | with_reducible apply AnsMoves.ok
    | with_reducible apply AnsMoves.acc
    | with_reducible apply AnsMoves.hold
    | with_reducible apply AnsMoves.ite
    | with_reducible apply OutMoves.next
    | with_reducible apply OutMoves.ite
    | ((with_reducible apply Moves.runCmd); (case hq => decide); (case' he => intro t))
    | ((with_reducible apply Moves.next (h' := State.closeWindow_moves)); (case hq => decide))
    | with_reducible apply Moves.ite

theorem execTestClear_moves {c : Cmd} {s : State} :
    OutMoves [.pow, .coll, .hop, .hall, .cmd, .test, .hoist, .outs] s (execTestClear c s) := by
  unfold execTestClear
  try dsimp only
  repeat' first
    | with_reducible apply Moves.refl
    | assumption
    | with_reducible apply AnsMoves.ok
    | with_reducible apply AnsMoves.acc
    | with_reducible apply AnsMoves.hold
    | with_reducible apply AnsMoves.ite
    | with_reducible apply OutMoves.next
    | with_reducible apply OutMoves.ite
    | ((with_reducible apply Moves.runCmd); (case hq => decide); (case' he => intro t))
    | ((with_reducible apply Moves.next (h' := State.askNext_moves)); (case hq => decide))
    | ((with_reducible apply Moves.next (h' := State.modTcore_moves)); (case hq => decide))
    | with_reducible apply Moves.ite
    | split

theorem execTestStatus_moves {c : Cmd} {s : State} :
    OutMoves [.pow, .coll, .hop, .hall, .cmd, .hoist, .outs] s (execTestStatus c s) := by
  unfold execTestStatus
  try dsimp only
  repeat' first
    | with_reducible apply Moves.refl
    | assumption
    | with_reducible apply AnsMoves.ok
    | with_reducible apply AnsMoves.acc
    | with_reducible apply AnsMoves.hold
    | with_reducible apply AnsMoves.ite
    | with_reducible apply OutMoves.next
    | with_reducible apply OutMoves.ite
    | ((with_reducible apply Moves.runCmd); (case hq => decide); (case' he => intro t))
    | with_reducible apply Moves.ite
    | split

end Sys2Proof.Machine
end

