-- ==== Sys2Proof/Laws/Governor.lean ====
section
/-! SUPPORT. What the operations of Machine/Governor.lean can change, and that they keep the invariant. -/

namespace Sys2Proof.Machine

theorem State.modMem_moves {i : Nat} {f : GovMember → GovMember} {s : State} :
    Moves [.gov] s (State.modMem i f s) := by
  unfold State.modMem
  try dsimp only
  repeat' first
    | with_reducible apply Moves.refl
    | assumption
    | ((with_reducible apply Moves.next (h' := State.modGov_moves)); (case hq => decide))

theorem State.govSend_moves {link hi : Nat} {s : State} :
    Moves [.outs] s (State.govSend link hi s) := by
  unfold State.govSend
  try dsimp only
  repeat' first
    | with_reducible apply Moves.refl
    | assumption
    | ((with_reducible apply Moves.next (h' := State.emit_moves)); (case hq => decide))

theorem State.clampSettle_moves {s : State} :
    Moves [.coll, .verd, .gov] s (State.clampSettle s) := by
  unfold State.clampSettle
  try dsimp only
  repeat' first
    | with_reducible apply Moves.refl
    | assumption
    | ((with_reducible apply Moves.next (h' := State.modGov_moves)); (case hq => decide))
    | ((with_reducible apply Moves.next (h' := State.bump_moves)); (case hq => decide))
    | ((with_reducible apply Moves.next (h' := State.modVerd_moves)); (case hq => decide))
    | with_reducible apply Moves.ite

theorem State.floorReset_moves {s : State} :
    Moves [.coll, .verd, .gov] s (State.floorReset s) := by
  unfold State.floorReset
  try dsimp only
  repeat' first
    | with_reducible apply Moves.refl
    | assumption
    | ((with_reducible apply Moves.next (h' := State.clampSettle_moves)); (case hq => decide))
    | ((with_reducible apply Moves.next (h' := State.modGov_moves)); (case hq => decide))

theorem State.agentReport_moves {s : State} :
    Moves [.outs] s (State.agentReport s) := by
  unfold State.agentReport
  try dsimp only
  repeat' first
    | with_reducible apply Moves.refl
    | assumption
    | ((with_reducible apply Moves.next (h' := State.govSend_moves)); (case hq => decide))

theorem State.agentPlan_moves {off : Int} {s : State} :
    Moves [.outs] s (State.agentPlan off s) := by
  unfold State.agentPlan
  try dsimp only
  repeat' first
    | with_reducible apply Moves.refl
    | assumption
    | ((with_reducible apply Moves.next (h' := State.govSend_moves)); (case hq => decide))

theorem execPwrReqChange_moves {req : BitVec 11} {s : State} :
    OutMoves [.coll, .verd, .gov] s (execPwrReqChange req s) := by
  unfold execPwrReqChange
  try dsimp only
  repeat' first
    | with_reducible apply Moves.refl
    | assumption
    | with_reducible apply OutMoves.next
    | with_reducible apply OutMoves.ite
    | ((with_reducible apply Moves.next (h' := State.clampSettle_moves)); (case hq => decide))
    | ((with_reducible apply Moves.next (h' := State.modGov_moves)); (case hq => decide))

theorem execGrantMessage_moves {m : GovMsg} {s : State} :
    OutMoves [.coll, .verd, .gov, .outs] s (execGrantMessage m s) := by
  unfold execGrantMessage
  try dsimp only
  repeat' first
    | with_reducible apply Moves.refl
    | assumption
    | with_reducible apply OutMoves.next
    | with_reducible apply OutMoves.ite
    | ((with_reducible apply Moves.next (h' := State.modGov_moves)); (case hq => decide))
    | ((with_reducible apply Moves.next (h' := State.agentReport_moves)); (case hq => decide))
    | ((with_reducible apply Moves.next (h' := State.clampSettle_moves)); (case hq => decide))

theorem execGlToExpiry_moves {s : State} :
    OutMoves [.coll, .verd, .gov] s (execGlToExpiry s) := by
  unfold execGlToExpiry
  try dsimp only
  repeat' first
    | with_reducible apply Moves.refl
    | assumption
    | with_reducible apply OutMoves.next
    | with_reducible apply OutMoves.ite
    | ((with_reducible apply Moves.next (h' := State.clampSettle_moves)); (case hq => decide))
    | ((with_reducible apply Moves.next (h' := State.modGov_moves)); (case hq => decide))
    | with_reducible apply Moves.ite
    | split

theorem execReportInterval_moves {s : State} :
    OutMoves [.gov, .outs] s (execReportInterval s) := by
  unfold execReportInterval
  try dsimp only
  repeat' first
    | with_reducible apply Moves.refl
    | assumption
    | with_reducible apply OutMoves.next
    | with_reducible apply OutMoves.ite
    | ((with_reducible apply Moves.next (h' := State.modGov_moves)); (case hq => decide))
    | ((with_reducible apply Moves.next (h' := State.agentReport_moves)); (case hq => decide))
    | with_reducible apply Moves.ite

theorem State.boundSettle_moves {s : State} :
    Moves [.gov] s (State.boundSettle s) := by
  unfold State.boundSettle
  try dsimp only
  repeat' first
    | with_reducible apply Moves.refl
    | assumption
    | ((with_reducible apply Moves.next (h' := State.modGov_moves)); (case hq => decide))
    | with_reducible apply Moves.ite

theorem State.sendGrantRec_moves {body : List Byte} {s : State} :
    Moves [.coll, .hop, .hall, .cmd, .outs] s (State.sendGrantRec body s) := by
  unfold State.sendGrantRec
  try dsimp only
  repeat' first
    | with_reducible apply Moves.refl
    | assumption
    | ((with_reducible apply Moves.next (h' := State.send_moves)); (case hq => decide))
    | with_reducible apply Moves.ite
    | split

theorem State.grantTo_moves {i g : Nat} {s : State} :
    Moves [.gov, .outs] s (State.grantTo i g s) := by
  unfold State.grantTo
  try dsimp only
  repeat' first
    | with_reducible apply Moves.refl
    | assumption
    | ((with_reducible apply Moves.next (h' := State.govSend_moves)); (case hq => decide))
    | ((with_reducible apply Moves.next (h' := State.modMem_moves)); (case hq => decide))

theorem State.phase1_moves {s : State} {w : Want} :
    Moves [.gov, .outs] s (State.phase1 s w) := by
  unfold State.phase1
  try dsimp only
  repeat' first
    | with_reducible apply Moves.refl
    | assumption
    | ((with_reducible apply Moves.next (h' := State.modMem_moves)); (case hq => decide))
    | ((with_reducible apply Moves.next (h' := State.grantTo_moves)); (case hq => decide))
    | with_reducible apply Moves.ite

theorem execGrantPeriodStart_moves {s : State} :
    OutMoves [.coll, .hop, .hall, .cmd, .gov, .outs] s (execGrantPeriodStart s) := by
  unfold execGrantPeriodStart
  try dsimp only
  repeat' first
    | with_reducible apply Moves.refl
    | assumption
    | with_reducible apply OutMoves.next
    | with_reducible apply OutMoves.ite
    | ((with_reducible apply Moves.next (h' := State.sendGrantRec_moves)); (case hq => decide))
    | ((with_reducible apply Moves.next (h' := State.modGov_moves)); (case hq => decide))
    | ((with_reducible apply Moves.next (h' := State.boundSettle_moves)); (case hq => decide))
    | ((with_reducible apply Moves.next (h' := State.phase1_moves)); (case hq => decide))
    | with_reducible apply Moves.ite
    | ((with_reducible apply Moves.fold); (intro t x m))
    | split

theorem State.phase2_moves {s : State} {i : Nat} :
    Moves [.gov, .outs] s (State.phase2 s i) := by
  unfold State.phase2
  try dsimp only
  repeat' first
    | with_reducible apply Moves.refl
    | assumption
    | ((with_reducible apply Moves.next (h' := State.grantTo_moves)); (case hq => decide))
    | ((with_reducible apply Moves.next (h' := State.modMem_moves)); (case hq => decide))
    | with_reducible apply Moves.ite
    | split

theorem execPhase2Start_moves {s : State} :
    OutMoves [.gov, .outs] s (execPhase2Start s) := by
  unfold execPhase2Start
  try dsimp only
  repeat' first
    | with_reducible apply Moves.refl
    | assumption
    | with_reducible apply OutMoves.next
    | with_reducible apply OutMoves.ite
    | ((with_reducible apply Moves.next (h' := State.modGov_moves)); (case hq => decide))
    | ((with_reducible apply Moves.next (h' := State.phase2_moves)); (case hq => decide))
    | with_reducible apply Moves.ite
    | ((with_reducible apply Moves.fold); (intro t x m))
    | split

theorem State.linkErr_moves {i : Nat} {s : State} :
    Moves [.gov] s (State.linkErr i s) := by
  unfold State.linkErr
  try dsimp only
  repeat' first
    | with_reducible apply Moves.refl
    | assumption
    | ((with_reducible apply Moves.next (h' := State.modMem_moves)); (case hq => decide))

theorem execReportMessage_moves {link : Fin 16} {m : GovMsg} {s : State} :
    OutMoves [.coll, .hop, .hall, .cmd, .gov, .outs] s (execReportMessage link m s) := by
  unfold execReportMessage
  try dsimp only
  repeat' first
    | with_reducible apply Moves.refl
    | assumption
    | with_reducible apply OutMoves.next
    | with_reducible apply OutMoves.ite
    | ((with_reducible apply Moves.next (h' := State.linkErr_moves)); (case hq => decide))
    | ((with_reducible apply Moves.next (h' := State.modMem_moves)); (case hq => decide))
    | ((with_reducible apply Moves.next (h' := State.boundSettle_moves)); (case hq => decide))
    | ((with_reducible apply Moves.next (h' := State.stage_moves)); (case hq => decide))
    | with_reducible apply Moves.ite

theorem execMemberSilent_moves {link : Fin 16} {s : State} :
    OutMoves [.coll, .hop, .hall, .cmd, .gov, .outs] s (execMemberSilent link s) := by
  unfold execMemberSilent
  try dsimp only
  repeat' first
    | with_reducible apply Moves.refl
    | assumption
    | with_reducible apply OutMoves.next
    | with_reducible apply OutMoves.ite
    | ((with_reducible apply Moves.next (h' := State.stage_moves)); (case hq => decide))
    | ((with_reducible apply Moves.next (h' := State.modMem_moves)); (case hq => decide))
    | with_reducible apply Moves.ite
    | split

theorem execSilentAccountRelease_moves {link : Fin 16} {s : State} :
    OutMoves [.gov] s (execSilentAccountRelease link s) := by
  unfold execSilentAccountRelease
  try dsimp only
  repeat' first
    | with_reducible apply Moves.refl
    | assumption
    | with_reducible apply OutMoves.next
    | with_reducible apply OutMoves.ite
    | ((with_reducible apply Moves.next (h' := State.boundSettle_moves)); (case hq => decide))
    | ((with_reducible apply Moves.next (h' := State.modMem_moves)); (case hq => decide))

theorem execGrantRecBoundary_moves {s : State} :
    OutMoves [.coll, .hop, .hall, .cmd, .gov, .outs] s (execGrantRecBoundary s) := by
  unfold execGrantRecBoundary
  try dsimp only
  repeat' first
    | with_reducible apply Moves.refl
    | assumption
    | with_reducible apply OutMoves.next
    | with_reducible apply OutMoves.ite
    | ((with_reducible apply Moves.next (h' := State.modGov_moves)); (case hq => decide))
    | ((with_reducible apply Moves.next (h' := State.sendGrantRec_moves)); (case hq => decide))
    | with_reducible apply Moves.ite
    | split

theorem State.pmb_moves {addr cmd data : Nat} {s : State} :
    Moves [.outs] s (State.pmb addr cmd data s) := by
  unfold State.pmb
  try dsimp only
  repeat' first
    | with_reducible apply Moves.refl
    | assumption
    | ((with_reducible apply Moves.next (h' := State.emit_moves)); (case hq => decide))

theorem State.paged_moves {addr page cmd data : Nat} {s : State} :
    Moves [.outs] s (State.paged addr page cmd data s) := by
  unfold State.paged
  try dsimp only
  repeat' first
    | with_reducible apply Moves.refl
    | assumption
    | ((with_reducible apply Moves.next (h' := State.pmb_moves)); (case hq => decide))
    | with_reducible apply Moves.ite
    | split

theorem State.writeVout_moves {who addr page vnom : Nat} {off : Int} {w : PmbWrite} {s : State} :
    Moves [.coll, .hop, .hall, .cmd, .outs] s (State.writeVout who addr page vnom off w s).1 := by
  unfold State.writeVout
  try dsimp only
  repeat' first
    | with_reducible apply Moves.refl
    | assumption
    | with_reducible apply Moves.iteFst
    | ((with_reducible apply Moves.next (h' := State.paged_moves)); (case hq => decide))
    | ((with_reducible apply Moves.next (h' := State.stage_moves)); (case hq => decide))
    | with_reducible apply Moves.ite
    | split

theorem State.planAck_moves {i result : Nat} {s : State} :
    Moves [.outs] s (State.planAck i result s) := by
  unfold State.planAck
  try dsimp only
  repeat' first
    | with_reducible apply Moves.refl
    | assumption
    | ((with_reducible apply Moves.next (h' := State.govSend_moves)); (case hq => decide))

theorem State.applyPlan_moves {i : Nat} {c : MemberCfg} {off : Int} {vnom : Nat} {w : PmbWrite} {s : State} :
    Moves [.coll, .hop, .hall, .cmd, .gov, .outs] s (State.applyPlan i c off vnom w s) := by
  unfold State.applyPlan
  try dsimp only
  repeat' first
    | with_reducible apply Moves.refl
    | assumption
    | ((with_reducible apply Moves.next (h' := State.writeVout_moves)); (case hq => decide))
    | ((with_reducible apply Moves.next (h' := State.modMem_moves)); (case hq => decide))
    | ((with_reducible apply Moves.next (h' := State.planAck_moves)); (case hq => decide))
    | with_reducible apply Moves.ite

theorem State.rewritePlan_moves {i : Nat} {c : MemberCfg} {off : Int} {vnom : Nat} {w : PmbWrite} {s : State} :
    Moves [.coll, .hop, .hall, .cmd, .gov, .outs] s (State.rewritePlan i c off vnom w s) := by
  unfold State.rewritePlan
  try dsimp only
  repeat' first
    | with_reducible apply Moves.refl
    | assumption
    | ((with_reducible apply Moves.next (h' := State.writeVout_moves)); (case hq => decide))
    | ((with_reducible apply Moves.next (h' := State.planAck_moves)); (case hq => decide))
    | ((with_reducible apply Moves.next (h' := State.modMem_moves)); (case hq => decide))
    | with_reducible apply Moves.ite
    | split

theorem State.windowClamp_moves {off : Int} {s : State} :
    Moves [.coll, .hop, .hall, .cmd, .outs] s (State.windowClamp off s).1 := by
  unfold State.windowClamp
  try dsimp only
  repeat' first
    | with_reducible apply Moves.refl
    | assumption
    | with_reducible apply Moves.iteFst
    | ((with_reducible apply Moves.next (h' := State.clampEvent_moves)); (case hq => decide))

theorem execPlan_moves {link : Fin 16} {m : GovMsg} {w : PmbWrite} {s : State} :
    OutMoves [.coll, .hop, .hall, .cmd, .gov, .outs] s (execPlan link m w s) := by
  unfold execPlan
  try dsimp only
  repeat' first
    | with_reducible apply Moves.refl
    | assumption
    | with_reducible apply OutMoves.next
    | with_reducible apply OutMoves.ite
    | ((with_reducible apply Moves.next (h' := State.linkErr_moves)); (case hq => decide))
    | ((with_reducible apply Moves.next (h' := State.windowClamp_moves)); (case hq => decide))
    | ((with_reducible apply Moves.next (h' := State.planAck_moves)); (case hq => decide))
    | ((with_reducible apply Moves.next (h' := State.rewritePlan_moves)); (case hq => decide))
    | ((with_reducible apply Moves.next (h' := State.modMem_moves)); (case hq => decide))
    | ((with_reducible apply Moves.next (h' := State.applyPlan_moves)); (case hq => decide))
    | with_reducible apply Moves.ite
    | split

theorem State.ownApplied_moves {new : Int} {s : State} :
    Moves [.coll, .hop, .hall, .cmd, .gov, .flash, .conf, .outs] s (State.ownApplied new s) := by
  unfold State.ownApplied
  try dsimp only
  repeat' first
    | with_reducible apply Moves.refl
    | assumption
    | ((with_reducible apply Moves.next (h' := State.modGov_moves)); (case hq => decide))
    | ((with_reducible apply Moves.next (h' := State.writeSection_moves)); (case hq => decide))
    | ((with_reducible apply Moves.next (h' := State.stage_moves)); (case hq => decide))

theorem State.ownPlan_moves {off : Int} {w : PmbWrite} {s : State} :
    Moves [.coll, .hop, .hall, .cmd, .gov, .flash, .conf, .outs] s (State.ownPlan off w s) := by
  unfold State.ownPlan
  try dsimp only
  repeat' first
    | with_reducible apply Moves.refl
    | assumption
    | ((with_reducible apply Moves.next (h' := State.agentPlan_moves)); (case hq => decide))
    | ((with_reducible apply Moves.next (h' := State.modGov_moves)); (case hq => decide))
    | ((with_reducible apply Moves.next (h' := State.writeVout_moves)); (case hq => decide))
    | ((with_reducible apply Moves.next (h' := State.ownApplied_moves)); (case hq => decide))
    | with_reducible apply Moves.ite

theorem execPlanAck_moves {m : GovMsg} {s : State} :
    OutMoves [.coll, .hop, .hall, .cmd, .gov, .flash, .conf, .outs] s (execPlanAck m s) := by
  unfold execPlanAck
  try dsimp only
  repeat' first
    | with_reducible apply Moves.refl
    | assumption
    | with_reducible apply OutMoves.next
    | with_reducible apply OutMoves.ite
    | ((with_reducible apply Moves.next (h' := State.modGov_moves)); (case hq => decide))
    | ((with_reducible apply Moves.next (h' := State.ownApplied_moves)); (case hq => decide))
    | with_reducible apply Moves.ite

theorem execPlanHoldRelease_moves {link : Fin 17} {w : PmbWrite} {s : State} :
    OutMoves [.coll, .hop, .hall, .cmd, .gov, .flash, .conf, .outs] s (execPlanHoldRelease link w s) := by
  unfold execPlanHoldRelease
  try dsimp only
  repeat' first
    | with_reducible apply Moves.refl
    | assumption
    | with_reducible apply OutMoves.next
    | with_reducible apply OutMoves.ite
    | ((with_reducible apply Moves.next (h' := State.ownPlan_moves)); (case hq => decide))
    | ((with_reducible apply Moves.next (h' := State.applyPlan_moves)); (case hq => decide))
    | with_reducible apply Moves.ite
    | split

theorem State.pmbStatus_moves {i : Nat} {c : MemberCfg} {st : BitVec 16} {s : State} :
    Moves [.coll, .hop, .hall, .cmd, .outs] s (State.pmbStatus i c st s) := by
  unfold State.pmbStatus
  try dsimp only
  repeat' first
    | with_reducible apply Moves.refl
    | assumption
    | ((with_reducible apply Moves.next (h' := State.paged_moves)); (case hq => decide))
    | ((with_reducible apply Moves.next (h' := State.stage_moves)); (case hq => decide))
    | with_reducible apply Moves.ite
    | split

theorem State.pageFailed_moves {i : Nat} {s : State} :
    Moves [.coll, .hop, .hall, .cmd, .gov, .outs] s (State.pageFailed i s) := by
  unfold State.pageFailed
  try dsimp only
  repeat' first
    | with_reducible apply Moves.refl
    | assumption
    | ((with_reducible apply Moves.next (h' := State.stage_moves)); (case hq => decide))
    | ((with_reducible apply Moves.next (h' := State.modMem_moves)); (case hq => decide))
    | with_reducible apply Moves.ite
    | split

theorem State.pollOne_moves {readings : List PmbReading} {s : State} {p : Nat × MemberCfg} :
    Moves [.coll, .hop, .hall, .cmd, .gov, .outs] s (State.pollOne readings s p) := by
  unfold State.pollOne
  try dsimp only
  repeat' first
    | with_reducible apply Moves.refl
    | assumption
    | ((with_reducible apply Moves.next (h' := State.paged_moves)); (case hq => decide))
    | ((with_reducible apply Moves.next (h' := State.pmbStatus_moves)); (case hq => decide))
    | ((with_reducible apply Moves.next (h' := State.modMem_moves)); (case hq => decide))
    | ((with_reducible apply Moves.next (h' := State.pageFailed_moves)); (case hq => decide))
    | with_reducible apply Moves.ite
    | ((with_reducible apply Moves.fold); (intro t x m))
    | split

theorem execPmbPoll_moves {readings : List PmbReading} {s : State} :
    OutMoves [.coll, .hop, .hall, .cmd, .gov, .outs] s (execPmbPoll readings s) := by
  unfold execPmbPoll
  try dsimp only
  repeat' first
    | with_reducible apply Moves.refl
    | assumption
    | with_reducible apply OutMoves.next
    | with_reducible apply OutMoves.ite
    | ((with_reducible apply Moves.next (h' := State.pollOne_moves)); (case hq => decide))
    | ((with_reducible apply Moves.next (h' := State.modGov_moves)); (case hq => decide))
    | with_reducible apply Moves.ite
    | ((with_reducible apply Moves.fold); (intro t x m))
    | split

theorem execSmbalert_moves {status : List (BitVec 16)} {s : State} :
    OutMoves [.coll, .hop, .hall, .cmd, .gov, .outs] s (execSmbalert status s) := by
  unfold execSmbalert
  refine OutMoves.ite (OutMoves.next (Moves.fold (fun t e m => ?_) (Moves.refl s))) (OutMoves.next (Moves.refl s))
  have m1 := m.next (State.paged_moves (addr := e.2.2.pmaddr) (page := e.2.2.page) (cmd := 0x79) (data := 0)) (by decide)
  dsimp only
  split
  · exact (m1.next State.modMem_moves (by decide)).next State.pmbStatus_moves (by decide)
  · exact (m1.next State.paged_moves (by decide)).next State.pageFailed_moves (by decide)

theorem State.pmbStart_moves {s : State} :
    Moves [.outs] s (State.pmbStart s) := by
  unfold State.pmbStart
  try dsimp only
  repeat' first
    | with_reducible apply Moves.refl
    | assumption
    | ((with_reducible apply Moves.next (h' := State.paged_moves)); (case hq => decide))
    | ((with_reducible apply Moves.next (h' := State.pmb_moves)); (case hq => decide))
    | with_reducible apply Moves.ite
    | ((with_reducible apply Moves.fold); (intro t x m))
    | split

theorem execPowerBudget_moves {c : Cmd} {s : State} :
    OutMoves [.pow, .coll, .hop, .hall, .cmd, .gov, .hoist, .outs] s (execPowerBudget c s) := by
  unfold execPowerBudget
  try dsimp only
  repeat' first
    | with_reducible apply Moves.refl
    | assumption
    | with_reducible apply AnsMoves.ok
    | with_reducible apply AnsMoves.acc
    | with_reducible apply AnsMoves.hold
    | with_reducible apply AnsMoves.ite
    | with_reducible apply OutMoves.next
    | with_reducible apply OutMoves.ite
    | ((with_reducible apply Moves.runCmd); (case hq => decide); (case' he => intro t))
    | ((with_reducible apply Moves.next (h' := State.stage_moves)); (case hq => decide))
    | ((with_reducible apply Moves.next (h' := State.modGov_moves)); (case hq => decide))
    | with_reducible apply Moves.ite
    | split

theorem execPowerMember_moves {c : Cmd} {s : State} :
    OutMoves [.pow, .coll, .hop, .hall, .cmd, .gov, .hoist, .outs] s (execPowerMember c s) := by
  unfold execPowerMember
  try dsimp only
  repeat' first
    | with_reducible apply Moves.refl
    | assumption
    | with_reducible apply AnsMoves.ok
    | with_reducible apply AnsMoves.acc
    | with_reducible apply AnsMoves.hold
    | with_reducible apply AnsMoves.ite
    | with_reducible apply OutMoves.next
    | with_reducible apply OutMoves.ite
    | ((with_reducible apply Moves.runCmd); (case hq => decide); (case' he => intro t))
    | ((with_reducible apply Moves.next (h' := State.modMem_moves)); (case hq => decide))
    | with_reducible apply Moves.ite
    | split

theorem execPowerStatic_moves {c : Cmd} {s : State} :
    OutMoves [.pow, .coll, .hop, .hall, .cmd, .verd, .gov, .hoist, .outs] s (execPowerStatic c s) := by
  unfold execPowerStatic
  try dsimp only
  repeat' first
    | with_reducible apply Moves.refl
    | assumption
    | with_reducible apply AnsMoves.ok
    | with_reducible apply AnsMoves.acc
    | with_reducible apply AnsMoves.hold
    | with_reducible apply AnsMoves.ite
    | with_reducible apply OutMoves.next
    | with_reducible apply OutMoves.ite
    | ((with_reducible apply Moves.runCmd); (case hq => decide); (case' he => intro t))
    | ((with_reducible apply Moves.next (h' := State.floorReset_moves)); (case hq => decide))
    | ((with_reducible apply Moves.next (h' := State.modGov_moves)); (case hq => decide))
    | with_reducible apply Moves.ite
    | split

theorem execPowerConfig_moves {c : Cmd} {s : State} :
    OutMoves [.pow, .coll, .hop, .hall, .cmd, .gov, .hoist, .outs] s (execPowerConfig c s) := by
  unfold execPowerConfig
  try dsimp only
  repeat' first
    | with_reducible apply Moves.refl
    | assumption
    | with_reducible apply AnsMoves.ok
    | with_reducible apply AnsMoves.acc
    | with_reducible apply AnsMoves.hold
    | with_reducible apply AnsMoves.ite
    | with_reducible apply OutMoves.next
    | with_reducible apply OutMoves.ite
    | ((with_reducible apply Moves.runCmd); (case hq => decide); (case' he => intro t))
    | ((with_reducible apply Moves.next (h' := State.modGov_moves)); (case hq => decide))
    | with_reducible apply Moves.ite
    | split

theorem execPowerStatus_moves {c : Cmd} {s : State} :
    OutMoves [.pow, .coll, .hop, .hall, .cmd, .hoist, .outs] s (execPowerStatus c s) := by
  unfold execPowerStatus
  try dsimp only
  repeat' first
    | with_reducible apply Moves.refl
    | assumption
    | with_reducible apply AnsMoves.ok
    | with_reducible apply AnsMoves.acc
    | with_reducible apply AnsMoves.hold
    | with_reducible apply AnsMoves.ite
    | with_reducible apply OutMoves.next
    | with_reducible apply OutMoves.ite
    | ((with_reducible apply Moves.runCmd); (case hq => decide); (case' he => intro t))
    | with_reducible apply Moves.ite
    | split

end Sys2Proof.Machine
end

