-- ==== Sys2Proof/Laws/Verdict.lean ====
section
/-! SUPPORT. What the operations of Machine/Verdict.lean can change, and that they keep the invariant. -/

namespace Sys2Proof.Machine

theorem State.sendVerdict_moves {dst : Dest} {stamp : Nat} {v : VRec} {s : State} :
    Moves [.coll, .hop, .hall, .cmd, .brake, .outs] s (State.sendVerdict dst stamp v s) := by
  unfold State.sendVerdict
  try dsimp only
  repeat' first
    | with_reducible apply Moves.refl
    | assumption
    | ((with_reducible apply Moves.next (h' := State.sendOwed_moves)); (case hq => decide))
    | with_reducible apply Moves.ite
    | split

theorem State.sendWithdrawal_moves {stamp : Nat} {vid : Word} {subj : Laddr} {kind cls reason score age raiseT : Nat} {s : State} :
    Moves [.coll, .hop, .hall, .cmd, .brake, .outs] s (State.sendWithdrawal stamp vid subj kind cls reason score age raiseT s) := by
  unfold State.sendWithdrawal
  try dsimp only
  repeat' first
    | with_reducible apply Moves.refl
    | assumption
    | ((with_reducible apply Moves.next (h' := State.sendOwed_moves)); (case hq => decide))
    | with_reducible apply Moves.ite
    | split

theorem State.nextVid_moves {s : State} :
    Moves [.verd] s (State.nextVid s).1 := by
  unfold State.nextVid
  try dsimp only
  repeat' first
    | with_reducible apply Moves.refl
    | assumption
    | with_reducible apply Moves.iteFst
    | ((with_reducible apply Moves.next (h' := State.modVerd_moves)); (case hq => decide))

theorem State.stageConfirmed_moves {kind cls : Nat} {vid : Word} {subj : Laddr} {drill : Bool} {s : State} :
    Moves [.coll, .hop, .hall, .cmd, .outs] s (State.stageConfirmed kind cls vid subj drill s) := by
  unfold State.stageConfirmed
  try dsimp only
  repeat' first
    | with_reducible apply Moves.refl
    | assumption
    | ((with_reducible apply Moves.next (h' := State.stageDrill_moves)); (case hq => decide))

theorem State.modHolder_moves {f : Bool} {g : Holder → Holder} {s : State} :
    Moves [.verd] s (State.modHolder f g s) := by
  unfold State.modHolder
  try dsimp only
  repeat' first
    | with_reducible apply Moves.refl
    | assumption
    | ((with_reducible apply Moves.next (h' := State.modVerd_moves)); (case hq => decide))

theorem State.demote_moves {f : Bool} {v : VRec} {s : State} :
    Moves [.coll, .hop, .hall, .cmd, .verd, .outs] s (State.demote f v s) := by
  unfold State.demote
  try dsimp only
  repeat' first
    | with_reducible apply Moves.refl
    | assumption
    | ((with_reducible apply Moves.next (h' := State.stage_moves)); (case hq => decide))
    | ((with_reducible apply Moves.next (h' := State.modHolder_moves)); (case hq => decide))
    | with_reducible apply Moves.ite
    | split

theorem State.expelRefill_moves {f : Bool} {s : State} :
    Moves [.verd] s (State.expelRefill f s) := by
  unfold State.expelRefill
  try dsimp only
  repeat' first
    | with_reducible apply Moves.refl
    | assumption
    | ((with_reducible apply Moves.next (h' := State.modHolder_moves)); (case hq => decide))
    | with_reducible apply Moves.ite
    | split

theorem State.takeExpel_moves {f : Bool} {stamp : Nat} {v : VRec} {s0 : State} :
    Moves [.coll, .hop, .hall, .cmd, .verd, .brake, .outs] s0 (State.takeExpel f stamp v s0) := by
  unfold State.takeExpel
  try dsimp only
  repeat' first
    | with_reducible apply Moves.refl
    | assumption
    | ((with_reducible apply Moves.next (h' := State.expelRefill_moves)); (case hq => decide))
    | ((with_reducible apply Moves.next (h' := State.sendVerdict_moves)); (case hq => decide))
    | ((with_reducible apply Moves.next (h' := State.modHolder_moves)); (case hq => decide))
    | ((with_reducible apply Moves.next (h' := State.demote_moves)); (case hq => decide))
    | ((with_reducible apply Moves.next (h' := State.stage_moves)); (case hq => decide))
    | with_reducible apply Moves.ite
    | split

theorem State.routeExpel_moves {stamp : Nat} {v : VRec} {s : State} :
    Moves [.coll, .hop, .hall, .cmd, .verd, .brake, .outs] s (State.routeExpel stamp v s) := by
  unfold State.routeExpel
  try dsimp only
  repeat' first
    | with_reducible apply Moves.refl
    | assumption
    | ((with_reducible apply Moves.next (h' := State.takeExpel_moves)); (case hq => decide))
    | ((with_reducible apply Moves.next (h' := State.sendVerdict_moves)); (case hq => decide))
    | with_reducible apply Moves.ite
    | split

theorem State.rxVerdict_moves {r : Rec} {s : State} :
    Moves [.coll, .hop, .hall, .cmd, .verd, .brake, .outs] s (State.rxVerdict r s) := by
  unfold State.rxVerdict
  try dsimp only
  repeat' first
    | with_reducible apply Moves.refl
    | assumption
    | ((with_reducible apply Moves.next (h' := State.modHolder_moves)); (case hq => decide))
    | ((with_reducible apply Moves.next (h' := State.modVerd_moves)); (case hq => decide))
    | ((with_reducible apply Moves.next (h' := State.takeExpel_moves)); (case hq => decide))
    | ((with_reducible apply Moves.next (h' := State.sendVerdict_moves)); (case hq => decide))
    | with_reducible apply Moves.ite
    | split

theorem State.expelServe_moves {f : Bool} {s : State} :
    Moves [.coll, .hop, .hall, .cmd, .verd, .brake, .outs] s (State.expelServe f s) := by
  unfold State.expelServe
  try dsimp only
  repeat' first
    | with_reducible apply Moves.refl
    | assumption
    | ((with_reducible apply Moves.next (h' := State.takeExpel_moves)); (case hq => decide))
    | ((with_reducible apply Moves.next (h' := State.modHolder_moves)); (case hq => decide))
    | with_reducible apply Moves.ite
    | split

theorem execExpelBucketRefill_moves {fleet : Bool} {s : State} :
    OutMoves [.coll, .hop, .hall, .cmd, .verd, .brake, .outs] s (execExpelBucketRefill fleet s) := by
  unfold execExpelBucketRefill
  try dsimp only
  repeat' first
    | with_reducible apply Moves.refl
    | assumption
    | with_reducible apply OutMoves.next
    | with_reducible apply OutMoves.ite
    | ((with_reducible apply Moves.next (h' := State.expelServe_moves)); (case hq => decide))
    | ((with_reducible apply Moves.next (h' := State.expelRefill_moves)); (case hq => decide))
    | with_reducible apply Moves.ite
    | split

theorem State.putPair_moves {p : Pair} {s : State} :
    Moves [.verd] s (State.putPair p s) := by
  unfold State.putPair
  try dsimp only
  repeat' first
    | with_reducible apply Moves.refl
    | assumption
    | ((with_reducible apply Moves.next (h' := State.modVerd_moves)); (case hq => decide))

theorem State.fixRegions_moves {s : State} :
    Moves [.brake] s (State.fixRegions s) := by
  unfold State.fixRegions
  try dsimp only
  repeat' first
    | with_reducible apply Moves.refl
    | assumption
    | ((with_reducible apply Moves.next (h' := State.modBrake_moves)); (case hq => decide))

theorem State.unfix_moves {s : State} :
    Moves [.brake] s (State.unfix s) := by
  unfold State.unfix
  try dsimp only
  repeat' first
    | with_reducible apply Moves.refl
    | assumption
    | ((with_reducible apply Moves.next (h' := State.modBrake_moves)); (case hq => decide))
    | with_reducible apply Moves.ite
    | split

theorem State.setPrep_moves {score : Nat} {subj : Laddr} {bits : Nat} {on : Bool} {s : State} :
    Moves [.verd, .brake] s (State.setPrep score subj bits on s) := by
  unfold State.setPrep
  try dsimp only
  repeat' first
    | with_reducible apply Moves.refl
    | assumption
    | ((with_reducible apply Moves.next (h' := State.modVerd_moves)); (case hq => decide))
    | ((with_reducible apply Moves.next (h' := State.fixRegions_moves)); (case hq => decide))
    | ((with_reducible apply Moves.next (h' := State.unfix_moves)); (case hq => decide))
    | with_reducible apply Moves.ite
    | split

theorem State.withdrawPair_moves {d : ScoreDesc} {p : Pair} {v : OpenV} {reason stamp : Nat} {s : State} :
    Moves [.coll, .hop, .hall, .cmd, .verd, .brake, .outs] s (State.withdrawPair d p v reason stamp s) := by
  unfold State.withdrawPair
  try dsimp only
  repeat' first
    | with_reducible apply Moves.refl
    | assumption
    | ((with_reducible apply Moves.next (h' := State.setPrep_moves)); (case hq => decide))
    | ((with_reducible apply Moves.next (h' := State.bump_moves)); (case hq => decide))
    | ((with_reducible apply Moves.next (h' := State.sendWithdrawal_moves)); (case hq => decide))
    | ((with_reducible apply Moves.next (h' := State.putPair_moves)); (case hq => decide))
    | with_reducible apply Moves.ite
    | split

theorem State.confirmPair_moves {d : ScoreDesc} {o : OutSet} {p : Pair} {v : OpenV} {s : State} :
    Moves [.coll, .hop, .hall, .cmd, .verd, .brake, .outs] s (State.confirmPair d o p v s) := by
  unfold State.confirmPair
  try dsimp only
  repeat' first
    | with_reducible apply Moves.refl
    | assumption
    | ((with_reducible apply Moves.next (h' := State.stageConfirmed_moves)); (case hq => decide))
    | ((with_reducible apply Moves.next (h' := State.bump_moves)); (case hq => decide))
    | ((with_reducible apply Moves.next (h' := State.putPair_moves)); (case hq => decide))
    | ((with_reducible apply Moves.next (h' := State.routeExpel_moves)); (case hq => decide))
    | ((with_reducible apply Moves.next (h' := State.sendVerdict_moves)); (case hq => decide))
    | with_reducible apply Moves.ite
    | split

theorem State.table96_moves {d : ScoreDesc} {o : OutSet} {c : Nat} {p : Pair} {s : State} :
    Moves [.coll, .hop, .hall, .cmd, .verd, .brake, .outs] s (State.table96 d o c p s) := by
  unfold State.table96
  try dsimp only
  repeat' first
    | with_reducible apply Moves.refl
    | assumption
    | ((with_reducible apply Moves.next (h' := State.putPair_moves)); (case hq => decide))
    | ((with_reducible apply Moves.next (h' := State.nextVid_moves)); (case hq => decide))
    | ((with_reducible apply Moves.next (h' := State.sendVerdict_moves)); (case hq => decide))
    | ((with_reducible apply Moves.next (h' := State.bump_moves)); (case hq => decide))
    | ((with_reducible apply Moves.next (h' := State.setPrep_moves)); (case hq => decide))
    | ((with_reducible apply Moves.next (h' := State.withdrawPair_moves)); (case hq => decide))
    | ((with_reducible apply Moves.next (h' := State.confirmPair_moves)); (case hq => decide))
    | with_reducible apply Moves.ite
    | split

theorem State.missingSet_moves {d : ScoreDesc} {o : OutSet} {p0 : Pair} {s : State} :
    Moves [.coll, .hop, .hall, .cmd, .verd, .brake, .outs] s (State.missingSet d o p0 s) := by
  unfold State.missingSet
  try dsimp only
  repeat' first
    | with_reducible apply Moves.refl
    | assumption
    | ((with_reducible apply Moves.next (h' := State.withdrawPair_moves)); (case hq => decide))
    | ((with_reducible apply Moves.next (h' := State.putPair_moves)); (case hq => decide))
    | with_reducible apply Moves.ite
    | split

theorem State.scoreUpdate_moves {i : Nat} {d : ScoreDesc} {o : OutSet} {s : State} :
    Moves [.coll, .hop, .hall, .cmd, .verd, .brake, .outs] s (State.scoreUpdate i d o s) := by
  unfold State.scoreUpdate
  try dsimp only
  repeat' first
    | with_reducible apply Moves.refl
    | assumption
    | ((with_reducible apply Moves.next (h' := State.missingSet_moves)); (case hq => decide))
    | ((with_reducible apply Moves.next (h' := State.table96_moves)); (case hq => decide))
    | ((with_reducible apply Moves.next (h' := State.modVerd_moves)); (case hq => decide))
    | ((with_reducible apply Moves.next (h' := State.stage_moves)); (case hq => decide))
    | with_reducible apply Moves.ite
    | split

theorem State.takeOutSet_moves {h : Nat} {o : OutSet} {s : State} :
    Moves [.coll, .hop, .hall, .cmd, .verd, .brake, .outs] s (State.takeOutSet h o s) := by
  unfold State.takeOutSet
  try dsimp only
  repeat' first
    | with_reducible apply Moves.refl
    | assumption
    | ((with_reducible apply Moves.next (h' := State.scoreUpdate_moves)); (case hq => decide))
    | with_reducible apply Moves.ite
    | ((with_reducible apply Moves.fold); (intro t x m))
    | split

theorem State.rebindScores_moves {old new : Nat} {s : State} :
    Moves [.verd] s (State.rebindScores old new s) := by
  unfold State.rebindScores
  try dsimp only
  repeat' first
    | with_reducible apply Moves.refl
    | assumption
    | ((with_reducible apply Moves.next (h' := State.modVerd_moves)); (case hq => decide))

theorem State.raiseOwn_moves {kind : Nat} {subj : Laddr} {source engine : Nat} {step : Dword} {cls : Nat} {s : State} :
    Moves [.coll, .hop, .hall, .cmd, .verd, .brake, .outs] s (State.raiseOwn kind subj source engine step cls s) := by
  unfold State.raiseOwn
  try dsimp only
  repeat' first
    | with_reducible apply Moves.refl
    | assumption
    | ((with_reducible apply Moves.next (h' := State.nextVid_moves)); (case hq => decide))
    | ((with_reducible apply Moves.next (h' := State.sendVerdict_moves)); (case hq => decide))
    | ((with_reducible apply Moves.next (h' := State.bump_moves)); (case hq => decide))
    | ((with_reducible apply Moves.next (h' := State.modVerd_moves)); (case hq => decide))
    | with_reducible apply Moves.ite
    | split

theorem State.confirmOwn_moves {v : OwnV} {cls : Nat} {s : State} :
    Moves [.coll, .hop, .hall, .cmd, .verd, .brake, .outs] s (State.confirmOwn v cls s) := by
  unfold State.confirmOwn
  try dsimp only
  repeat' first
    | with_reducible apply Moves.refl
    | assumption
    | ((with_reducible apply Moves.next (h' := State.sendVerdict_moves)); (case hq => decide))
    | ((with_reducible apply Moves.next (h' := State.stageConfirmed_moves)); (case hq => decide))
    | ((with_reducible apply Moves.next (h' := State.bump_moves)); (case hq => decide))
    | ((with_reducible apply Moves.next (h' := State.modVerd_moves)); (case hq => decide))

theorem State.withdrawOwn_moves {v : OwnV} {cls reason : Nat} {s : State} :
    Moves [.coll, .hop, .hall, .cmd, .verd, .brake, .outs] s (State.withdrawOwn v cls reason s) := by
  unfold State.withdrawOwn
  try dsimp only
  repeat' first
    | with_reducible apply Moves.refl
    | assumption
    | ((with_reducible apply Moves.next (h' := State.sendWithdrawal_moves)); (case hq => decide))
    | ((with_reducible apply Moves.next (h' := State.bump_moves)); (case hq => decide))
    | ((with_reducible apply Moves.next (h' := State.modVerd_moves)); (case hq => decide))
    | with_reducible apply Moves.ite
    | split

theorem State.closeInst_moves {i : Inst} {s : State} :
    Moves [.coll, .hop, .hall, .cmd, .verd, .outs] s (State.closeInst i s) := by
  unfold State.closeInst
  try dsimp only
  repeat' first
    | with_reducible apply Moves.refl
    | assumption
    | ((with_reducible apply Moves.next (h' := State.modVerd_moves)); (case hq => decide))
    | ((with_reducible apply Moves.next (h' := State.send_moves)); (case hq => decide))
    | with_reducible apply Moves.ite
    | ((with_reducible apply Moves.fold); (intro t x m))
    | split

theorem State.closeIfDone_moves {i : Inst} {s : State} :
    Moves [.coll, .hop, .hall, .cmd, .verd, .outs] s (State.closeIfDone i s) := by
  unfold State.closeIfDone
  try dsimp only
  repeat' first
    | with_reducible apply Moves.refl
    | assumption
    | ((with_reducible apply Moves.next (h' := State.closeInst_moves)); (case hq => decide))
    | with_reducible apply Moves.ite
    | split

theorem State.sendBatch_moves {i : Inst} {s : State} :
    Moves [.coll, .hop, .hall, .cmd, .verd, .outs] s (State.sendBatch i s) := by
  unfold State.sendBatch
  try dsimp only
  repeat' first
    | with_reducible apply Moves.refl
    | assumption
    | ((with_reducible apply Moves.next (h' := State.send_moves)); (case hq => decide))
    | ((with_reducible apply Moves.next (h' := State.modVerd_moves)); (case hq => decide))
    | with_reducible apply Moves.ite
    | ((with_reducible apply Moves.fold); (intro t x m))
    | split

theorem State.batchIfDone_moves {i : Inst} {s : State} :
    Moves [.coll, .hop, .hall, .cmd, .verd, .outs] s (State.batchIfDone i s) := by
  unfold State.batchIfDone
  try dsimp only
  repeat' first
    | with_reducible apply Moves.refl
    | assumption
    | ((with_reducible apply Moves.next (h' := State.sendBatch_moves)); (case hq => decide))
    | with_reducible apply Moves.ite
    | split

theorem State.roomInst_moves {judge : Bool} {s : State} :
    Moves [.coll, .hop, .hall, .cmd, .verd, .outs] s (State.roomInst judge s) := by
  unfold State.roomInst
  try dsimp only
  repeat' first
    | with_reducible apply Moves.refl
    | assumption
    | ((with_reducible apply Moves.next (h' := State.closeInst_moves)); (case hq => decide))
    | ((with_reducible apply Moves.next (h' := State.modVerd_moves)); (case hq => decide))
    | ((with_reducible apply Moves.next (h' := State.sendBatch_moves)); (case hq => decide))
    | with_reducible apply Moves.ite
    | split

theorem State.arrive_moves {job : Word} {coll : BitVec 16} {step : Dword} {a : Arrival} {s : State} :
    Moves [.coll, .hop, .hall, .cmd, .verd, .outs] s (State.arrive job coll step a s) := by
  unfold State.arrive
  try dsimp only
  repeat' first
    | with_reducible apply Moves.refl
    | assumption
    | ((with_reducible apply Moves.next (h' := State.modVerd_moves)); (case hq => decide))
    | ((with_reducible apply Moves.next (h' := State.roomInst_moves)); (case hq => decide))
    | with_reducible apply Moves.ite
    | split

theorem State.settleInst_moves {job : Word} {coll : BitVec 16} {step : Dword} {s : State} :
    Moves [.coll, .hop, .hall, .cmd, .verd, .outs] s (State.settleInst job coll step s) := by
  unfold State.settleInst
  try dsimp only
  repeat' first
    | with_reducible apply Moves.refl
    | assumption
    | ((with_reducible apply Moves.next (h' := State.closeIfDone_moves)); (case hq => decide))
    | ((with_reducible apply Moves.next (h' := State.batchIfDone_moves)); (case hq => decide))
    | with_reducible apply Moves.ite
    | split

theorem State.settleInsts_moves {s : State} :
    Moves [.coll, .hop, .hall, .cmd, .verd, .outs] s (State.settleInsts s) := by
  unfold State.settleInsts
  try dsimp only
  repeat' first
    | with_reducible apply Moves.refl
    | assumption
    | ((with_reducible apply Moves.next (h' := State.settleInst_moves)); (case hq => decide))
    | with_reducible apply Moves.ite
    | ((with_reducible apply Moves.fold); (intro t x m))
    | split

theorem State.rxArrival_moves {r : Rec} {s : State} :
    Moves [.coll, .hop, .hall, .cmd, .verd, .outs] s (State.rxArrival r s) := by
  unfold State.rxArrival
  try dsimp only
  repeat' first
    | with_reducible apply Moves.refl
    | assumption
    | ((with_reducible apply Moves.next (h' := State.settleInst_moves)); (case hq => decide))
    | ((with_reducible apply Moves.next (h' := State.arrive_moves)); (case hq => decide))
    | with_reducible apply Moves.ite
    | split

theorem State.rxBatch_moves {r : Rec} {s : State} :
    Moves [.coll, .hop, .hall, .cmd, .verd, .outs] s (State.rxBatch r s) := by
  unfold State.rxBatch
  try dsimp only
  repeat' first
    | with_reducible apply Moves.refl
    | assumption
    | ((with_reducible apply Moves.next (h' := State.settleInst_moves)); (case hq => decide))
    | ((with_reducible apply Moves.next (h' := State.arrive_moves)); (case hq => decide))
    | with_reducible apply Moves.ite
    | ((with_reducible apply Moves.fold); (intro t x m))
    | split

theorem execArrWaitExpiry_moves {job : Word} {coll : BitVec 16} {step : Dword} {s : State} :
    OutMoves [.coll, .hop, .hall, .cmd, .verd, .outs] s (execArrWaitExpiry job coll step s) := by
  unfold execArrWaitExpiry
  try dsimp only
  repeat' first
    | with_reducible apply Moves.refl
    | assumption
    | with_reducible apply OutMoves.next
    | with_reducible apply OutMoves.ite
    | ((with_reducible apply Moves.next (h' := State.closeInst_moves)); (case hq => decide))
    | with_reducible apply Moves.ite
    | split

theorem execBatchWaitExpiry_moves {job : Word} {coll : BitVec 16} {step : Dword} {s : State} :
    OutMoves [.coll, .hop, .hall, .cmd, .verd, .outs] s (execBatchWaitExpiry job coll step s) := by
  unfold execBatchWaitExpiry
  try dsimp only
  repeat' first
    | with_reducible apply Moves.refl
    | assumption
    | with_reducible apply OutMoves.next
    | with_reducible apply OutMoves.ite
    | ((with_reducible apply Moves.next (h' := State.sendBatch_moves)); (case hq => decide))
    | with_reducible apply Moves.ite
    | split

theorem State.sendDisagree_moves {a : Laddr} {x : Dis} {jobGone : Bool} {dead resolved : Bool} {basis : Nat} {s : State} :
    Moves [.coll, .hop, .hall, .cmd, .outs] s (State.sendDisagree a x jobGone dead resolved basis s) := by
  unfold State.sendDisagree
  try dsimp only
  repeat' first
    | with_reducible apply Moves.refl
    | assumption
    | ((with_reducible apply Moves.next (h' := State.send_moves)); (case hq => decide))
    | with_reducible apply Moves.ite
    | split

theorem State.reviewDie_moves {a : Laddr} {s : State} :
    Moves [.coll, .hop, .hall, .cmd, .verd, .outs] s (State.reviewDie a s) := by
  unfold State.reviewDie
  try dsimp only
  repeat' first
    | with_reducible apply Moves.refl
    | assumption
    | ((with_reducible apply Moves.next (h' := State.sendDisagree_moves)); (case hq => decide))
    | ((with_reducible apply Moves.next (h' := State.modVerd_moves)); (case hq => decide))
    | with_reducible apply Moves.ite
    | ((with_reducible apply Moves.fold); (intro t x m))
    | split

theorem State.heardDie_moves {a : Laddr} {fab : Bool} {s : State} :
    Moves [.coll, .hop, .hall, .cmd, .verd, .outs] s (State.heardDie a fab s) := by
  unfold State.heardDie
  try dsimp only
  repeat' first
    | with_reducible apply Moves.refl
    | assumption
    | ((with_reducible apply Moves.next (h' := State.reviewDie_moves)); (case hq => decide))
    | ((with_reducible apply Moves.next (h' := State.modVerd_moves)); (case hq => decide))
    | with_reducible apply Moves.ite
    | split

theorem State.markDie_moves {a : Laddr} {gasp : Bool} {s : State} :
    Moves [.coll, .hop, .hall, .cmd, .verd, .outs] s (State.markDie a gasp s) := by
  unfold State.markDie
  try dsimp only
  repeat' first
    | with_reducible apply Moves.refl
    | assumption
    | ((with_reducible apply Moves.next (h' := State.reviewDie_moves)); (case hq => decide))
    | ((with_reducible apply Moves.next (h' := State.modVerd_moves)); (case hq => decide))
    | with_reducible apply Moves.ite
    | split

theorem execSilentToExpiry_moves {die : Laddr} {s : State} :
    OutMoves [.coll, .hop, .hall, .cmd, .verd, .outs] s (execSilentToExpiry die s) := by
  unfold execSilentToExpiry
  try dsimp only
  repeat' first
    | with_reducible apply Moves.refl
    | assumption
    | with_reducible apply OutMoves.next
    | with_reducible apply OutMoves.ite
    | ((with_reducible apply Moves.next (h' := State.reviewDie_moves)); (case hq => decide))
    | with_reducible apply Moves.ite
    | split

theorem execDisHoldExpiry_moves {die : Laddr} {s : State} :
    OutMoves [.coll, .hop, .hall, .cmd, .verd, .outs] s (execDisHoldExpiry die s) := by
  unfold execDisHoldExpiry
  try dsimp only
  repeat' first
    | with_reducible apply Moves.refl
    | assumption
    | with_reducible apply OutMoves.next
    | with_reducible apply OutMoves.ite
    | ((with_reducible apply Moves.next (h' := State.reviewDie_moves)); (case hq => decide))
    | ((with_reducible apply Moves.next (h' := State.sendDisagree_moves)); (case hq => decide))
    | ((with_reducible apply Moves.next (h' := State.modVerd_moves)); (case hq => decide))
    | with_reducible apply Moves.ite
    | ((with_reducible apply Moves.fold); (intro t x m))
    | split

theorem State.restartScore_moves {i : Nat} {s : State} :
    Moves [.coll, .hop, .hall, .cmd, .verd, .brake, .outs] s (State.restartScore i s) := by
  unfold State.restartScore
  try dsimp only
  repeat' first
    | with_reducible apply Moves.refl
    | assumption
    | ((with_reducible apply Moves.next (h' := State.withdrawPair_moves)); (case hq => decide))
    | ((with_reducible apply Moves.next (h' := State.modVerd_moves)); (case hq => decide))
    | with_reducible apply Moves.ite
    | ((with_reducible apply Moves.fold); (intro t x m))
    | split

theorem execScoreSet_moves {c : Cmd} {s : State} :
    OutMoves [.pow, .coll, .hop, .hall, .cmd, .verd, .brake, .hoist, .outs] s (execScoreSet c s) := by
  unfold execScoreSet
  try dsimp only
  repeat' first
    | with_reducible apply Moves.refl
    | assumption
    | with_reducible apply AnsMoves.ok
    | with_reducible apply AnsMoves.acc
    | with_reducible apply AnsMoves.hold
    | with_reducible apply AnsMoves.ite
    | with_reducible apply OutMoves.next
    | with_reducible apply OutMoves.ite
    | ((with_reducible apply Moves.runCmd); (case hq => decide); (case' he => intro t))
    | ((with_reducible apply Moves.next (h' := State.restartScore_moves)); (case hq => decide))
    | ((with_reducible apply Moves.next (h' := State.modVerd_moves)); (case hq => decide))
    | with_reducible apply Moves.ite
    | split

theorem execScoreClear_moves {c : Cmd} {s : State} :
    OutMoves [.pow, .coll, .hop, .hall, .cmd, .verd, .brake, .hoist, .outs] s (execScoreClear c s) := by
  unfold execScoreClear
  try dsimp only
  repeat' first
    | with_reducible apply Moves.refl
    | assumption
    | with_reducible apply AnsMoves.ok
    | with_reducible apply AnsMoves.acc
    | with_reducible apply AnsMoves.hold
    | with_reducible apply AnsMoves.ite
    | with_reducible apply OutMoves.next
    | with_reducible apply OutMoves.ite
    | ((with_reducible apply Moves.runCmd); (case hq => decide); (case' he => intro t))
    | ((with_reducible apply Moves.next (h' := State.modVerd_moves)); (case hq => decide))
    | ((with_reducible apply Moves.next (h' := State.restartScore_moves)); (case hq => decide))
    | with_reducible apply Moves.ite
    | split

theorem execVerdictConfig_moves {c : Cmd} {s : State} :
    OutMoves [.pow, .coll, .hop, .hall, .cmd, .verd, .hoist, .outs] s (execVerdictConfig c s) := by
  unfold execVerdictConfig
  try dsimp only
  repeat' first
    | with_reducible apply Moves.refl
    | assumption
    | with_reducible apply AnsMoves.ok
    | with_reducible apply AnsMoves.acc
    | with_reducible apply AnsMoves.hold
    | with_reducible apply AnsMoves.ite
    | with_reducible apply OutMoves.next
    | with_reducible apply OutMoves.ite
    | ((with_reducible apply Moves.runCmd); (case hq => decide); (case' he => intro t))
    | ((with_reducible apply Moves.next (h' := State.modVerd_moves)); (case hq => decide))
    | with_reducible apply Moves.ite
    | split

theorem execVerdictBudget_moves {c : Cmd} {s : State} :
    OutMoves [.pow, .coll, .hop, .hall, .cmd, .verd, .hoist, .outs] s (execVerdictBudget c s) := by
  unfold execVerdictBudget
  try dsimp only
  repeat' first
    | with_reducible apply Moves.refl
    | assumption
    | with_reducible apply AnsMoves.ok
    | with_reducible apply AnsMoves.acc
    | with_reducible apply AnsMoves.hold
    | with_reducible apply AnsMoves.ite
    | with_reducible apply OutMoves.next
    | with_reducible apply OutMoves.ite
    | ((with_reducible apply Moves.runCmd); (case hq => decide); (case' he => intro t))
    | ((with_reducible apply Moves.next (h' := State.modHolder_moves)); (case hq => decide))
    | with_reducible apply Moves.ite
    | split

theorem execVerdictDrill_moves {c : Cmd} {s : State} :
    OutMoves [.pow, .coll, .hop, .hall, .cmd, .verd, .hoist, .outs] s (execVerdictDrill c s) := by
  unfold execVerdictDrill
  try dsimp only
  repeat' first
    | with_reducible apply Moves.refl
    | assumption
    | with_reducible apply AnsMoves.ok
    | with_reducible apply AnsMoves.acc
    | with_reducible apply AnsMoves.hold
    | with_reducible apply AnsMoves.ite
    | with_reducible apply OutMoves.next
    | with_reducible apply OutMoves.ite
    | ((with_reducible apply Moves.runCmd); (case hq => decide); (case' he => intro t))
    | ((with_reducible apply Moves.next (h' := State.modVerd_moves)); (case hq => decide))
    | with_reducible apply Moves.ite
    | split

theorem execVerdictParam_moves {c : Cmd} {s : State} :
    OutMoves [.pow, .coll, .hop, .hall, .cmd, .verd, .hoist, .outs] s (execVerdictParam c s) := by
  unfold execVerdictParam
  try dsimp only
  repeat' first
    | with_reducible apply Moves.refl
    | assumption
    | with_reducible apply AnsMoves.ok
    | with_reducible apply AnsMoves.acc
    | with_reducible apply AnsMoves.hold
    | with_reducible apply AnsMoves.ite
    | with_reducible apply OutMoves.next
    | with_reducible apply OutMoves.ite
    | ((with_reducible apply Moves.runCmd); (case hq => decide); (case' he => intro t))
    | ((with_reducible apply Moves.next (h' := State.modVerd_moves)); (case hq => decide))
    | with_reducible apply Moves.ite
    | split

theorem execVerdictStatus_moves {c : Cmd} {s : State} :
    OutMoves [.pow, .coll, .hop, .hall, .cmd, .hoist, .outs] s (execVerdictStatus c s) := by
  unfold execVerdictStatus
  try dsimp only
  repeat' first
    | with_reducible apply Moves.refl
    | assumption
    | with_reducible apply AnsMoves.ok
    | with_reducible apply AnsMoves.acc
    | with_reducible apply AnsMoves.hold
    | with_reducible apply AnsMoves.ite
    | with_reducible apply OutMoves.next
    | with_reducible apply OutMoves.ite
    | ((with_reducible apply Moves.runCmd); (case hq => decide); (case' he => intro t))
    | with_reducible apply Moves.ite
    | split

end Sys2Proof.Machine
end

