-- ==== Sys2Proof/Laws/Quern.lean ====
section
/-! SUPPORT. What the operations of Machine/Quern.lean can change, and that they keep the invariant. -/

namespace Sys2Proof.Machine

theorem State.modQ_moves {i : Nat} {f : QHandle → QHandle} {s : State} :
    Moves [.model] s (State.modQ i f s) := by
  unfold State.modQ
  try dsimp only
  repeat' first
    | with_reducible apply Moves.refl
    | assumption
    | ((with_reducible apply Moves.next (h' := State.modModel_moves)); (case hq => decide))

theorem State.modM_moves {i : Nat} {f : MHandle → MHandle} {s : State} :
    Moves [.model] s (State.modM i f s) := by
  unfold State.modM
  try dsimp only
  repeat' first
    | with_reducible apply Moves.refl
    | assumption
    | ((with_reducible apply Moves.next (h' := State.modModel_moves)); (case hq => decide))

theorem State.modHnd_moves {mill : Bool} {i : Nat} {f : Handle → Handle} {s : State} :
    Moves [.model] s (State.modHnd mill i f s) := by
  unfold State.modHnd
  try dsimp only
  repeat' first
    | with_reducible apply Moves.refl
    | assumption
    | ((with_reducible apply Moves.next (h' := State.modM_moves)); (case hq => decide))
    | ((with_reducible apply Moves.next (h' := State.modQ_moves)); (case hq => decide))
    | with_reducible apply Moves.ite

theorem State.deliver_moves {i : Nat} {v : QVec} {missing : Bool} {results : List Nat} {nmissf : Nat} {s : State} :
    Moves [.coll, .hop, .hall, .cmd, .crown, .verd, .brake, .outs] s (State.deliver i v missing results nmissf s) := by
  unfold State.deliver
  try dsimp only
  repeat' first
    | with_reducible apply Moves.refl
    | assumption
    | ((with_reducible apply Moves.next (h' := State.takeOutSet_moves)); (case hq => decide))
    | ((with_reducible apply Moves.next (h' := State.leafSample_moves)); (case hq => decide))
    | with_reducible apply Moves.ite
    | split

theorem State.deliverMissing_moves {i : Nat} {l : List QVec} {s : State} :
    Moves [.coll, .hop, .hall, .cmd, .crown, .verd, .brake, .outs] s (State.deliverMissing i l s) := by
  unfold State.deliverMissing
  try dsimp only
  repeat' first
    | with_reducible apply Moves.refl
    | assumption
    | ((with_reducible apply Moves.next (h' := State.deliver_moves)); (case hq => decide))
    | with_reducible apply Moves.ite
    | ((with_reducible apply Moves.fold); (intro t x m))

theorem State.quernSettle_moves {i : Nat} {s : State} :
    Moves [.model] s (State.quernSettle i s) := by
  unfold State.quernSettle
  try dsimp only
  repeat' first
    | with_reducible apply Moves.refl
    | assumption
    | ((with_reducible apply Moves.next (h' := State.modModel_moves)); (case hq => decide))
    | ((with_reducible apply Moves.next (h' := State.modQ_moves)); (case hq => decide))
    | with_reducible apply Moves.ite
    | split

theorem State.pushVec_moves {i : Nat} {v : QVec} {s : State} :
    Moves [.coll, .hop, .hall, .cmd, .crown, .model, .verd, .brake, .outs] s (State.pushVec i v s) := by
  unfold State.pushVec
  try dsimp only
  repeat' first
    | with_reducible apply Moves.refl
    | assumption
    | ((with_reducible apply Moves.next (h' := State.deliver_moves)); (case hq => decide))
    | ((with_reducible apply Moves.next (h' := State.modQ_moves)); (case hq => decide))
    | with_reducible apply Moves.ite
    | split

theorem State.quernLocal_moves {set stamp : Nat} {flags : BitVec 8} {codes : List Nat} {s : State} :
    Moves [.coll, .hop, .hall, .cmd, .crown, .model, .verd, .brake, .outs] s (State.quernLocal set stamp flags codes s) := by
  unfold State.quernLocal
  try dsimp only
  repeat' first
    | with_reducible apply Moves.refl
    | assumption
    | ((with_reducible apply Moves.next (h' := State.pushVec_moves)); (case hq => decide))
    | with_reducible apply Moves.ite
    | ((with_reducible apply Moves.fold); (intro t x m))
    | split

theorem State.startEach_moves {i : Nat} {a : Asm} {s : State} :
    Moves [.coll, .hop, .hall, .cmd, .crown, .model, .verd, .brake, .outs] s (State.startEach i a s) := by
  unfold State.startEach
  try dsimp only
  repeat' first
    | with_reducible apply Moves.refl
    | assumption
    | ((with_reducible apply Moves.next (h' := State.pushVec_moves)); (case hq => decide))
    | ((with_reducible apply Moves.next (h' := State.modModel_moves)); (case hq => decide))
    | with_reducible apply Moves.ite
    | split

theorem execQuernEvalStart_moves {handle : Fin 16} {s : State} :
    OutMoves [.model] s (execQuernEvalStart handle s) := by
  unfold execQuernEvalStart
  try dsimp only
  repeat' first
    | with_reducible apply Moves.refl
    | assumption
    | with_reducible apply OutMoves.next
    | with_reducible apply OutMoves.ite
    | ((with_reducible apply Moves.next (h' := State.modQ_moves)); (case hq => decide))
    | with_reducible apply Moves.ite
    | ((with_reducible apply Moves.fold); (intro t x m))
    | split

theorem State.unloadSettle_moves {i : Nat} {s : State} :
    Moves [.cmd, .model] s (State.unloadSettle i s) := by
  unfold State.unloadSettle
  try dsimp only
  repeat' first
    | with_reducible apply Moves.refl
    | assumption
    | ((with_reducible apply Moves.next (h' := State.setReady_moves)); (case hq => decide))
    | ((with_reducible apply Moves.next (h' := State.modQ_moves)); (case hq => decide))
    | with_reducible apply Moves.ite

theorem State.evalDone_moves {i : Nat} {s : State} :
    Moves [.coll, .hop, .hall, .cmd, .crown, .model, .verd, .brake, .outs] s (State.evalDone i s) := by
  unfold State.evalDone
  try dsimp only
  repeat' first
    | with_reducible apply Moves.refl
    | assumption
    | ((with_reducible apply Moves.next (h' := State.modQ_moves)); (case hq => decide))
    | ((with_reducible apply Moves.next (h' := State.deliver_moves)); (case hq => decide))
    | with_reducible apply Moves.ite
    | split

theorem State.quernSettleAll_moves {s : State} :
    Moves [.model] s (State.quernSettleAll s) := by
  unfold State.quernSettleAll
  try dsimp only
  repeat' first
    | with_reducible apply Moves.refl
    | assumption
    | ((with_reducible apply Moves.next (h' := State.quernSettle_moves)); (case hq => decide))
    | with_reducible apply Moves.ite
    | ((with_reducible apply Moves.fold); (intro t x m))
    | split

theorem execQuernEvalComplete_moves {handle : Fin 16} {s : State} :
    OutMoves [.coll, .hop, .hall, .cmd, .crown, .model, .verd, .brake, .outs] s (execQuernEvalComplete handle s) := by
  unfold execQuernEvalComplete
  try dsimp only
  repeat' first
    | with_reducible apply Moves.refl
    | assumption
    | with_reducible apply OutMoves.next
    | with_reducible apply OutMoves.ite
    | ((with_reducible apply Moves.next (h' := State.unloadSettle_moves)); (case hq => decide))
    | ((with_reducible apply Moves.next (h' := State.quernSettleAll_moves)); (case hq => decide))
    | ((with_reducible apply Moves.next (h' := State.evalDone_moves)); (case hq => decide))
    | with_reducible apply Moves.ite
    | split

theorem State.quernGather_moves {f : Bool} {c : Cut} {gone : List Nat} {s : State} :
    Moves [.coll, .hop, .hall, .cmd, .crown, .model, .verd, .brake, .outs] s (State.quernGather f c gone s) := by
  unfold State.quernGather
  try dsimp only
  repeat' first
    | with_reducible apply Moves.refl
    | assumption
    | ((with_reducible apply Moves.next (h' := State.pushVec_moves)); (case hq => decide))
    | with_reducible apply Moves.ite
    | ((with_reducible apply Moves.fold); (intro t x m))
    | split

end Sys2Proof.Machine
end

