-- ==== Sys2Proof/Laws/Millrace.lean ====
section
/-! SUPPORT. What the operations of Machine/Millrace.lean can change, and that they keep the invariant. -/

namespace Sys2Proof.Machine

theorem State.modChan_moves {c : Nat} {f : Channel → Channel} {s : State} :
    Moves [.model] s (State.modChan c f s) := by
  unfold State.modChan
  try dsimp only
  repeat' first
    | with_reducible apply Moves.refl
    | assumption
    | ((with_reducible apply Moves.next (h' := State.modModel_moves)); (case hq => decide))

theorem State.pushInput_moves {c : Nat} {i : MInput} {s : State} :
    Moves [.model] s (State.pushInput c i s) := by
  unfold State.pushInput
  try dsimp only
  repeat' first
    | with_reducible apply Moves.refl
    | assumption
    | ((with_reducible apply Moves.next (h' := State.modChan_moves)); (case hq => decide))
    | with_reducible apply Moves.ite
    | split

theorem State.millLocal_moves {set stamp : Nat} {gap : Bool} {codes : List (Option Nat)} {s : State} :
    Moves [.model] s (State.millLocal set stamp gap codes s) := by
  unfold State.millLocal
  try dsimp only
  repeat' first
    | with_reducible apply Moves.refl
    | assumption
    | ((with_reducible apply Moves.next (h' := State.pushInput_moves)); (case hq => decide))
    | with_reducible apply Moves.ite
    | ((with_reducible apply Moves.fold); (intro t x m))
    | split

theorem State.millRemote_moves {c : Nat} {a : Asm} {s : State} :
    Moves [.model] s (State.millRemote c a s) := by
  unfold State.millRemote
  try dsimp only
  repeat' first
    | with_reducible apply Moves.refl
    | assumption
    | ((with_reducible apply Moves.next (h' := State.modChan_moves)); (case hq => decide))
    | ((with_reducible apply Moves.next (h' := State.pushInput_moves)); (case hq => decide))
    | ((with_reducible apply Moves.next (h' := State.modModel_moves)); (case hq => decide))
    | with_reducible apply Moves.ite
    | split

theorem State.endRollouts_moves {p : Rollout → Bool} {s : State} :
    Moves [.cmd, .model] s (State.endRollouts p s) := by
  unfold State.endRollouts
  try dsimp only
  repeat' first
    | with_reducible apply Moves.refl
    | assumption
    | ((with_reducible apply Moves.modCmd); (case hq => decide); (case e0 => with_reducible rfl); (case e1 => with_reducible rfl))
    | ((with_reducible apply Moves.next (h' := State.modModel_moves)); (case hq => decide))
    | with_reducible apply Moves.ite
    | split

theorem State.voidRollouts_moves {c : Nat} {s : State} :
    Moves [.cmd, .model] s (State.voidRollouts c s) := by
  unfold State.voidRollouts
  try dsimp only
  repeat' first
    | with_reducible apply Moves.refl
    | assumption
    | ((with_reducible apply Moves.next (h' := State.endRollouts_moves)); (case hq => decide))
    | with_reducible apply Moves.ite
    | split

theorem State.restartChan_moves {c : Nat} {m : MModel} {s : State} :
    Moves [.cmd, .model] s (State.restartChan c m s) := by
  unfold State.restartChan
  try dsimp only
  repeat' first
    | with_reducible apply Moves.refl
    | assumption
    | ((with_reducible apply Moves.next (h' := State.voidRollouts_moves)); (case hq => decide))
    | ((with_reducible apply Moves.next (h' := State.modChan_moves)); (case hq => decide))
    | with_reducible apply Moves.ite
    | split

theorem State.resetChan_moves {c : Nat} {s : State} :
    Moves [.cmd, .model] s (State.resetChan c s) := by
  unfold State.resetChan
  try dsimp only
  repeat' first
    | with_reducible apply Moves.refl
    | assumption
    | ((with_reducible apply Moves.next (h' := State.restartChan_moves)); (case hq => decide))
    | with_reducible apply Moves.ite
    | split

theorem State.millSettle_moves {i : Nat} {s : State} :
    Moves [.model] s (State.millSettle i s) := by
  unfold State.millSettle
  try dsimp only
  repeat' first
    | with_reducible apply Moves.refl
    | assumption
    | ((with_reducible apply Moves.next (h' := State.modModel_moves)); (case hq => decide))
    | ((with_reducible apply Moves.next (h' := State.modM_moves)); (case hq => decide))
    | with_reducible apply Moves.ite
    | split

theorem State.millSettleAll_moves {s : State} :
    Moves [.model] s (State.millSettleAll s) := by
  unfold State.millSettleAll
  try dsimp only
  repeat' first
    | with_reducible apply Moves.refl
    | assumption
    | ((with_reducible apply Moves.next (h' := State.millSettle_moves)); (case hq => decide))
    | with_reducible apply Moves.ite
    | ((with_reducible apply Moves.fold); (intro t x m))
    | split

theorem State.stepStart_moves {c : Nat} {i : MInput} {s : State} :
    Moves [.cmd, .model] s (State.stepStart c i s) := by
  unfold State.stepStart
  try dsimp only
  repeat' first
    | with_reducible apply Moves.refl
    | assumption
    | ((with_reducible apply Moves.next (h' := State.modChan_moves)); (case hq => decide))
    | ((with_reducible apply Moves.next (h' := State.restartChan_moves)); (case hq => decide))
    | with_reducible apply Moves.ite
    | split

theorem execMillraceStepStart_moves {ch : Fin 4096} {s : State} :
    OutMoves [.cmd, .model] s (execMillraceStepStart ch s) := by
  unfold execMillraceStepStart
  try dsimp only
  repeat' first
    | with_reducible apply Moves.refl
    | assumption
    | with_reducible apply OutMoves.next
    | with_reducible apply OutMoves.ite
    | ((with_reducible apply Moves.next (h' := State.millSettleAll_moves)); (case hq => decide))
    | ((with_reducible apply Moves.next (h' := State.stepStart_moves)); (case hq => decide))
    | with_reducible apply Moves.ite
    | ((with_reducible apply Moves.fold); (intro t x m))
    | split

theorem State.stepDone_moves {c : Nat} {s : State} :
    Moves [.coll, .hop, .hall, .cmd, .crown, .model, .outs] s (State.stepDone c s) := by
  unfold State.stepDone
  try dsimp only
  repeat' first
    | with_reducible apply Moves.refl
    | assumption
    | ((with_reducible apply Moves.next (h' := State.modChan_moves)); (case hq => decide))
    | ((with_reducible apply Moves.next (h' := State.stage_moves)); (case hq => decide))
    | ((with_reducible apply Moves.next (h' := State.voidRollouts_moves)); (case hq => decide))
    | ((with_reducible apply Moves.next (h' := State.modModel_moves)); (case hq => decide))
    | ((with_reducible apply Moves.next (h' := State.resetChan_moves)); (case hq => decide))
    | ((with_reducible apply Moves.next (h' := State.leafSample_moves)); (case hq => decide))
    | with_reducible apply Moves.ite
    | ((with_reducible apply Moves.fold); (intro t x m))
    | split

theorem execRolloutComplete_moves {path : Path} {tag : BitVec 16} {s : State} :
    OutMoves [.cmd, .model] s (execRolloutComplete path tag s) := by
  unfold execRolloutComplete
  try dsimp only
  repeat' first
    | with_reducible apply Moves.refl
    | assumption
    | with_reducible apply OutMoves.next
    | with_reducible apply OutMoves.ite
    | ((with_reducible apply Moves.modCmd); (case hq => decide); (case e0 => with_reducible rfl); (case e1 => with_reducible rfl))
    | ((with_reducible apply Moves.next (h' := State.modModel_moves)); (case hq => decide))
    | with_reducible apply Moves.ite
    | split

theorem State.moveChans_moves {o i a : Nat} {s : State} :
    Moves [.model] s (State.moveChans o i a s) := by
  unfold State.moveChans
  try dsimp only
  repeat' first
    | with_reducible apply Moves.refl
    | assumption
    | ((with_reducible apply Moves.next (h' := State.modModel_moves)); (case hq => decide))
    | with_reducible apply Moves.ite
    | split

theorem State.switchOn_moves {mill : Bool} {i a : Nat} {s : State} :
    Moves [.model, .verd] s (State.switchOn mill i a s) := by
  unfold State.switchOn
  try dsimp only
  repeat' first
    | with_reducible apply Moves.refl
    | assumption
    | ((with_reducible apply Moves.next (h' := State.modHnd_moves)); (case hq => decide))
    | ((with_reducible apply Moves.next (h' := State.millSettle_moves)); (case hq => decide))
    | ((with_reducible apply Moves.next (h' := State.quernSettle_moves)); (case hq => decide))
    | ((with_reducible apply Moves.next (h' := State.rebindScores_moves)); (case hq => decide))
    | with_reducible apply Moves.ite
    | split

theorem State.switchIfDue_moves {mill : Bool} {s : State} {i : Nat} :
    Moves [.model, .verd] s (State.switchIfDue mill s i) := by
  unfold State.switchIfDue
  try dsimp only
  repeat' first
    | with_reducible apply Moves.refl
    | assumption
    | ((with_reducible apply Moves.next (h' := State.switchOn_moves)); (case hq => decide))
    | with_reducible apply Moves.ite
    | split

theorem State.switchDue_moves {s : State} :
    Moves [.model, .verd] s (State.switchDue s) := by
  unfold State.switchDue
  try dsimp only
  repeat' first
    | with_reducible apply Moves.refl
    | assumption
    | ((with_reducible apply Moves.next (h' := State.switchIfDue_moves)); (case hq => decide))
    | with_reducible apply Moves.ite
    | ((with_reducible apply Moves.fold); (intro t x m))
    | split

theorem execActAtReached_moves {millrace : Bool} {handle : Fin 16} {s : State} :
    OutMoves [.model, .verd] s (execActAtReached millrace handle s) := by
  unfold execActAtReached
  try dsimp only
  repeat' first
    | with_reducible apply Moves.refl
    | assumption
    | with_reducible apply OutMoves.next
    | with_reducible apply OutMoves.ite
    | ((with_reducible apply Moves.next (h' := State.millSettleAll_moves)); (case hq => decide))
    | ((with_reducible apply Moves.next (h' := State.quernSettleAll_moves)); (case hq => decide))
    | ((with_reducible apply Moves.next (h' := State.switchIfDue_moves)); (case hq => decide))
    | with_reducible apply Moves.ite
    | split

end Sys2Proof.Machine
end

