-- ==== Sys2Proof/Laws/Features.lean ====
section
/-! SUPPORT. What the operations of Machine/Features.lean can change, and that they keep the invariant. -/

namespace Sys2Proof.Machine

theorem State.sendFeatures_moves {v : HeldVec} {s : State} :
    Moves [.coll, .hop, .hall, .cmd, .outs] s (State.sendFeatures v s) := by
  unfold State.sendFeatures
  try dsimp only
  repeat' first
    | with_reducible apply Moves.refl
    | assumption
    | ((with_reducible apply Moves.next (h' := State.send_moves)); (case hq => decide))
    | with_reducible apply Moves.ite
    | ((with_reducible apply Moves.fold); (intro t x m))
    | split

theorem State.keepOwn_moves {set stamp : Nat} {flags : BitVec 8} {codes : List Nat} {s : State} :
    Moves [.model] s (State.keepOwn set stamp flags codes s) := by
  unfold State.keepOwn
  try dsimp only
  repeat' first
    | with_reducible apply Moves.refl
    | assumption
    | ((with_reducible apply Moves.next (h' := State.modModel_moves)); (case hq => decide))
    | with_reducible apply Moves.ite
    | split

theorem State.releaseVec_moves {v : HeldVec} {s : State} :
    Moves [.coll, .hop, .hall, .cmd, .crown, .model, .verd, .brake, .outs] s (State.releaseVec v s) := by
  unfold State.releaseVec
  try dsimp only
  repeat' first
    | with_reducible apply Moves.refl
    | assumption
    | ((with_reducible apply Moves.next (h' := State.modChan_moves)); (case hq => decide))
    | ((with_reducible apply Moves.next (h' := State.bumpN_moves)); (case hq => decide))
    | ((with_reducible apply Moves.modColl); (case hq => decide); (case e0 => with_reducible rfl); (case e1 => with_reducible rfl); (case e2 => with_reducible rfl))
    | ((with_reducible apply Moves.next (h' := State.keepOwn_moves)); (case hq => decide))
    | ((with_reducible apply Moves.next (h' := State.quernLocal_moves)); (case hq => decide))
    | ((with_reducible apply Moves.next (h' := State.leafSample_moves)); (case hq => decide))
    | ((with_reducible apply Moves.next (h' := State.sendFeatures_moves)); (case hq => decide))
    | with_reducible apply Moves.ite
    | ((with_reducible apply Moves.fold); (intro t x m))
    | split

theorem State.heldSettle_moves {s : State} :
    Moves [.coll, .hop, .hall, .cmd, .crown, .model, .verd, .brake, .outs] s (State.heldSettle s) := by
  unfold State.heldSettle
  try dsimp only
  repeat' first
    | with_reducible apply Moves.refl
    | assumption
    | ((with_reducible apply Moves.next (h' := State.modModel_moves)); (case hq => decide))
    | ((with_reducible apply Moves.next (h' := State.releaseVec_moves)); (case hq => decide))
    | ((with_reducible apply Moves.next (h' := State.quernSettleAll_moves)); (case hq => decide))
    | with_reducible apply Moves.ite
    | ((with_reducible apply Moves.fold); (intro t x m))
    | split

theorem State.mapApply_moves {set : Nat} {s : State} :
    Moves [.coll] s (State.mapApply set s) := by
  unfold State.mapApply
  try dsimp only
  repeat' first
    | with_reducible apply Moves.refl
    | assumption
    | ((with_reducible apply Moves.next (h' := State.modSet_moves)); (case hq => decide))
    | with_reducible apply Moves.ite
    | split

theorem State.formVec_moves {set nwin : Nat} {stretch : Bool} {stops : List Nat} {flags : BitVec 8} {s0 : State} :
    Moves [.time, .coll, .hop, .hall, .cmd, .crown, .model, .verd, .brake, .outs] s0 (State.formVec set nwin stretch stops flags s0) := by
  unfold State.formVec
  try dsimp only
  repeat' first
    | with_reducible apply Moves.refl
    | assumption
    | ((with_reducible apply Moves.next (h' := State.mapApply_moves)); (case hq => decide))
    | ((with_reducible apply Moves.next (h' := State.millLocal_moves)); (case hq => decide))
    | ((with_reducible apply Moves.next (h' := State.tickFree_moves)); (case hq => decide))
    | ((with_reducible apply Moves.next (h' := State.heldSettle_moves)); (case hq => decide))
    | ((with_reducible apply Moves.next (h' := State.modModel_moves)); (case hq => decide))
    | with_reducible apply Moves.ite

theorem State.afterSample_moves {set nwin start : Nat} {x : SampleSet} {boundary : Bool} {s : State} :
    Moves [.time, .coll, .hop, .hall, .cmd, .crown, .model, .verd, .brake, .outs] s (State.afterSample set nwin start x boundary s) := by
  unfold State.afterSample
  try dsimp only
  repeat' first
    | with_reducible apply Moves.refl
    | assumption
    | ((with_reducible apply Moves.next (h' := State.leafSample_moves)); (case hq => decide))
    | ((with_reducible apply Moves.next (h' := State.sendMap_moves)); (case hq => decide))
    | ((with_reducible apply Moves.next (h' := State.formVec_moves)); (case hq => decide))
    | with_reducible apply Moves.ite
    | ((with_reducible apply Moves.fold); (intro t x m))

theorem execSampleBoundary_moves {set : Fin 16} {drained : Bool} {s : State} :
    OutMoves [.time, .coll, .hop, .hall, .cmd, .crown, .model, .verd, .brake, .outs] s (execSampleBoundary set drained s) := by
  unfold execSampleBoundary
  dsimp only
  split
  · next t h =>
    exact OutMoves.next (((State.switchDue_moves.mono (by decide)).next (State.boundary_moves h) (by decide)
      |>.next State.afterSample_moves (by decide)).next State.setApply_moves (by decide))
  · next t h => exact OutMoves.next ((State.switchDue_moves.mono (by decide)).next (State.boundary_moves h) (by decide))
  · exact OutMoves.next (Moves.refl s)

theorem execResidWaitExpiry_moves {set : Fin 16} {s : State} :
    OutMoves [.coll, .hop, .hall, .cmd, .crown, .model, .verd, .brake, .outs] s (execResidWaitExpiry set s) := by
  unfold execResidWaitExpiry
  try dsimp only
  repeat' first
    | with_reducible apply Moves.refl
    | assumption
    | with_reducible apply OutMoves.next
    | with_reducible apply OutMoves.ite
    | ((with_reducible apply Moves.next (h' := State.modModel_moves)); (case hq => decide))
    | ((with_reducible apply Moves.next (h' := State.quernSettleAll_moves)); (case hq => decide))
    | ((with_reducible apply Moves.next (h' := State.releaseVec_moves)); (case hq => decide))
    | with_reducible apply Moves.ite
    | ((with_reducible apply Moves.fold); (intro t x m))
    | split

theorem execMillraceStepComplete_moves {ch : Fin 4096} {s : State} :
    OutMoves [.coll, .hop, .hall, .cmd, .crown, .model, .verd, .brake, .outs] s (execMillraceStepComplete ch s) := by
  unfold execMillraceStepComplete
  try dsimp only
  repeat' first
    | with_reducible apply Moves.refl
    | assumption
    | with_reducible apply OutMoves.next
    | with_reducible apply OutMoves.ite
    | ((with_reducible apply Moves.next (h' := State.millSettleAll_moves)); (case hq => decide))
    | ((with_reducible apply Moves.next (h' := State.heldSettle_moves)); (case hq => decide))
    | ((with_reducible apply Moves.next (h' := State.stepDone_moves)); (case hq => decide))
    | with_reducible apply Moves.ite
    | split

theorem State.remoteWhole_moves {src : Laddr} {set stamp : Nat} {s : State} :
    Moves [.coll, .hop, .hall, .cmd, .crown, .model, .verd, .brake, .outs] s (State.remoteWhole src set stamp s) := by
  unfold State.remoteWhole
  try dsimp only
  repeat' first
    | with_reducible apply Moves.refl
    | assumption
    | ((with_reducible apply Moves.next (h' := State.startEach_moves)); (case hq => decide))
    | ((with_reducible apply Moves.next (h' := State.millRemote_moves)); (case hq => decide))
    | with_reducible apply Moves.ite
    | ((with_reducible apply Moves.fold); (intro t x m))
    | split

theorem State.rxFeatures_moves {r : Rec} {s : State} :
    Moves [.coll, .hop, .hall, .cmd, .crown, .model, .verd, .brake, .outs] s (State.rxFeatures r s) := by
  unfold State.rxFeatures
  try dsimp only
  repeat' first
    | with_reducible apply Moves.refl
    | assumption
    | ((with_reducible apply Moves.next (h' := State.modModel_moves)); (case hq => decide))
    | ((with_reducible apply Moves.next (h' := State.modQ_moves)); (case hq => decide))
    | ((with_reducible apply Moves.next (h' := State.remoteWhole_moves)); (case hq => decide))
    | ((with_reducible apply Moves.next (h' := State.switchDue_moves)); (case hq => decide))
    | with_reducible apply Moves.ite
    | ((with_reducible apply Moves.fold); (intro t x m))
    | split

theorem execEachWaitExpiry_moves {handle : Fin 16} {src : Laddr} {s : State} :
    OutMoves [.coll, .hop, .hall, .cmd, .crown, .model, .verd, .brake, .outs] s (execEachWaitExpiry handle src s) := by
  unfold execEachWaitExpiry
  try dsimp only
  repeat' first
    | with_reducible apply Moves.refl
    | assumption
    | with_reducible apply OutMoves.next
    | with_reducible apply OutMoves.ite
    | ((with_reducible apply Moves.next (h' := State.startEach_moves)); (case hq => decide))
    | ((with_reducible apply Moves.next (h' := State.switchDue_moves)); (case hq => decide))
    | ((with_reducible apply Moves.next (h' := State.millRemote_moves)); (case hq => decide))
    | ((with_reducible apply Moves.next (h' := State.millSettleAll_moves)); (case hq => decide))
    | ((with_reducible apply Moves.next (h' := State.quernSettleAll_moves)); (case hq => decide))
    | with_reducible apply Moves.ite
    | ((with_reducible apply Moves.fold); (intro t x m))
    | split

theorem execCollectSet_moves {c : Cmd} {s : State} :
    OutMoves [.pow, .coll, .hop, .hall, .cmd, .hoist, .outs] s (execCollectSet c s) := by
  unfold execCollectSet
  try dsimp only
  repeat' first
    | with_reducible apply Moves.refl
    | assumption
    | with_reducible apply AnsMoves.ok
    | with_reducible apply AnsMoves.acc
    | with_reducible apply AnsMoves.hold
    | with_reducible apply AnsMoves.ite
    | with_reducible apply OutMoves.next
    | with_reducible apply OutMoves.ite
    | ((with_reducible apply Moves.next (h' := State.modSet_moves)); (case hq => decide))
    | ((with_reducible apply Moves.runCmd); (case hq => decide); (case' he => intro t))
    | with_reducible apply Moves.ite
    | split

theorem execCollectArm_moves {c : Cmd} {s : State} :
    OutMoves [.pow, .time, .coll, .hop, .hall, .cmd, .crown, .model, .verd, .brake, .hoist, .outs] s (execCollectArm c s) := by
  unfold execCollectArm
  try dsimp only
  repeat' first
    | with_reducible apply Moves.refl
    | assumption
    | with_reducible apply AnsMoves.ok
    | with_reducible apply AnsMoves.acc
    | with_reducible apply AnsMoves.hold
    | with_reducible apply AnsMoves.ite
    | with_reducible apply OutMoves.next
    | with_reducible apply OutMoves.ite
    | ((with_reducible apply Moves.runCmd); (case hq => decide); (case' he => intro t))
    | ((with_reducible apply Moves.next (h' := State.armSample_moves)); (case hq => decide))
    | ((with_reducible apply Moves.next (h' := State.afterSample_moves)); (case hq => decide))
    | ((with_reducible apply Moves.next (h' := State.armReset_moves)); (case hq => decide))
    | with_reducible apply Moves.ite
    | split

theorem execCollectMap_moves {c : Cmd} {s : State} :
    OutMoves [.pow, .coll, .hop, .hall, .cmd, .hoist, .outs] s (execCollectMap c s) := by
  unfold execCollectMap
  try dsimp only
  repeat' first
    | with_reducible apply Moves.refl
    | assumption
    | with_reducible apply AnsMoves.ok
    | with_reducible apply AnsMoves.acc
    | with_reducible apply AnsMoves.hold
    | with_reducible apply AnsMoves.ite
    | with_reducible apply OutMoves.next
    | with_reducible apply OutMoves.ite
    | ((with_reducible apply Moves.runCmd); (case hq => decide); (case' he => intro t))
    | ((with_reducible apply Moves.next (h' := State.modSet_moves)); (case hq => decide))
    | with_reducible apply Moves.ite
    | split

end Sys2Proof.Machine
end

