-- ==== Sys2Proof/Laws/Models.lean ====
section
/-! SUPPORT. What the operations of Machine/Models.lean can change, and that they keep the invariant. -/

namespace Sys2Proof.Machine

theorem State.loadFail_moves {mill : Bool} {i : Nat} {st : BitVec 16} {s : State} :
    Moves [.cmd, .model] s (State.loadFail mill i st s) := by
  unfold State.loadFail
  try dsimp only
  repeat' first
    | with_reducible apply Moves.refl
    | assumption
    | ((with_reducible apply Moves.next (h' := State.modM_moves)); (case hq => decide))
    | ((with_reducible apply Moves.next (h' := State.modQ_moves)); (case hq => decide))
    | ((with_reducible apply Moves.next (h' := State.setReady_moves)); (case hq => decide))
    | with_reducible apply Moves.ite

theorem State.loadCheck_moves {mill : Bool} {i : Nat} {image : List Byte} {s : State} :
    Moves [.cmd, .model] s (State.loadCheck mill i image s) := by
  unfold State.loadCheck
  try dsimp only
  repeat' first
    | with_reducible apply Moves.refl
    | assumption
    | ((with_reducible apply Moves.next (h' := State.loadFail_moves)); (case hq => decide))
    | ((with_reducible apply Moves.next (h' := State.setReady_moves)); (case hq => decide))
    | ((with_reducible apply Moves.next (h' := State.modM_moves)); (case hq => decide))
    | ((with_reducible apply Moves.next (h' := State.modQ_moves)); (case hq => decide))
    | with_reducible apply Moves.ite
    | split

theorem execModelLoadComplete_moves {millrace : Bool} {handle : Fin 16} {s : State} :
    OutMoves [.cmd, .model] s (execModelLoadComplete millrace handle s) := by
  unfold execModelLoadComplete
  try dsimp only
  repeat' first
    | with_reducible apply Moves.refl
    | assumption
    | with_reducible apply OutMoves.next
    | with_reducible apply OutMoves.ite
    | ((with_reducible apply Moves.next (h' := State.loadCheck_moves)); (case hq => decide))

theorem State.loadChunk_moves {mill : Bool} {i : Nat} {bid : Word} {chunk nchunk : Nat} {data : List Byte} {s : State} :
    Moves [.cmd, .model] s (State.loadChunk mill i bid chunk nchunk data s) := by
  unfold State.loadChunk
  try dsimp only
  repeat' first
    | with_reducible apply Moves.refl
    | assumption
    | ((with_reducible apply Moves.next (h' := State.loadFail_moves)); (case hq => decide))
    | ((with_reducible apply Moves.next (h' := State.modHnd_moves)); (case hq => decide))
    | ((with_reducible apply Moves.next (h' := State.loadCheck_moves)); (case hq => decide))
    | with_reducible apply Moves.ite
    | split

theorem State.loadChunks_moves {bid : Word} {chunk nchunk : Nat} {data : List Byte} {s : State} :
    Moves [.cmd, .model] s (State.loadChunks bid chunk nchunk data s) := by
  unfold State.loadChunks
  try dsimp only
  repeat' first
    | with_reducible apply Moves.refl
    | assumption
    | ((with_reducible apply Moves.next (h' := State.loadChunk_moves)); (case hq => decide))
    | with_reducible apply Moves.ite
    | ((with_reducible apply Moves.fold); (intro t x m))

theorem execModelBroadcastWaitExpiry_moves {millrace : Bool} {handle : Fin 16} {s : State} :
    OutMoves [.cmd, .model] s (execModelBroadcastWaitExpiry millrace handle s) := by
  unfold execModelBroadcastWaitExpiry
  try dsimp only
  repeat' first
    | with_reducible apply Moves.refl
    | assumption
    | with_reducible apply OutMoves.next
    | with_reducible apply OutMoves.ite
    | ((with_reducible apply Moves.next (h' := State.loadFail_moves)); (case hq => decide))

theorem execModelLoad_moves {c : Cmd} {s : State} :
    OutMoves [.pow, .coll, .hop, .hall, .cmd, .model, .hoist, .outs] s (execModelLoad c s) := by
  unfold execModelLoad
  try dsimp only
  repeat' first
    | with_reducible apply Moves.refl
    | assumption
    | with_reducible apply AnsMoves.ok
    | with_reducible apply AnsMoves.acc
    | with_reducible apply AnsMoves.hold
    | with_reducible apply AnsMoves.ite
    | with_reducible apply OutMoves.next
    | with_reducible apply OutMoves.ite
    | ((with_reducible apply Moves.runCmd); (case hq => decide); (case' he => intro t))
    | ((with_reducible apply Moves.next (h' := State.modHnd_moves)); (case hq => decide))
    | ((with_reducible apply Moves.next (h' := State.readFlash_moves)); (case hq => decide))
    | with_reducible apply Moves.ite
    | split

theorem State.moveIf_moves {mill : Bool} {i a : Nat} {repl : Option Nat} {s : State} :
    Moves [.model] s (State.moveIf mill i a repl s) := by
  unfold State.moveIf
  try dsimp only
  repeat' first
    | with_reducible apply Moves.refl
    | assumption
    | ((with_reducible apply Moves.next (h' := State.moveChans_moves)); (case hq => decide))
    | with_reducible apply Moves.ite
    | split

theorem execModelActivate_moves {c : Cmd} {s : State} :
    OutMoves [.pow, .coll, .hop, .hall, .cmd, .model, .verd, .hoist, .outs] s (execModelActivate c s) := by
  unfold execModelActivate
  try dsimp only
  repeat' first
    | with_reducible apply Moves.refl
    | assumption
    | with_reducible apply AnsMoves.ok
    | with_reducible apply AnsMoves.acc
    | with_reducible apply AnsMoves.hold
    | with_reducible apply AnsMoves.ite
    | with_reducible apply OutMoves.next
    | with_reducible apply OutMoves.ite
    | ((with_reducible apply Moves.runCmd); (case hq => decide); (case' he => intro t))
    | ((with_reducible apply Moves.next (h' := State.switchIfDue_moves)); (case hq => decide))
    | ((with_reducible apply Moves.next (h' := State.moveIf_moves)); (case hq => decide))
    | ((with_reducible apply Moves.next (h' := State.modHnd_moves)); (case hq => decide))
    | with_reducible apply Moves.ite
    | split

theorem execModelDeactivate_moves {c : Cmd} {s : State} :
    OutMoves [.pow, .coll, .hop, .hall, .cmd, .crown, .model, .verd, .brake, .hoist, .outs] s (execModelDeactivate c s) := by
  unfold execModelDeactivate
  try dsimp only
  repeat' first
    | with_reducible apply Moves.refl
    | assumption
    | with_reducible apply AnsMoves.ok
    | with_reducible apply AnsMoves.acc
    | with_reducible apply AnsMoves.hold
    | with_reducible apply AnsMoves.ite
    | with_reducible apply OutMoves.next
    | with_reducible apply OutMoves.ite
    | ((with_reducible apply Moves.runCmd); (case hq => decide); (case' he => intro t))
    | ((with_reducible apply Moves.next (h' := State.modModel_moves)); (case hq => decide))
    | ((with_reducible apply Moves.next (h' := State.modHnd_moves)); (case hq => decide))
    | ((with_reducible apply Moves.next (h' := State.deliverMissing_moves)); (case hq => decide))
    | ((with_reducible apply Moves.next (h' := State.modQ_moves)); (case hq => decide))
    | with_reducible apply Moves.ite
    | split

theorem execModelUnload_moves {c : Cmd} {s : State} :
    OutMoves [.pow, .coll, .hop, .hall, .cmd, .model, .hoist, .outs] s (execModelUnload c s) := by
  unfold execModelUnload
  try dsimp only
  repeat' first
    | with_reducible apply Moves.refl
    | assumption
    | with_reducible apply AnsMoves.ok
    | with_reducible apply AnsMoves.acc
    | with_reducible apply AnsMoves.hold
    | with_reducible apply AnsMoves.ite
    | with_reducible apply OutMoves.next
    | with_reducible apply OutMoves.ite
    | ((with_reducible apply Moves.runCmd); (case hq => decide); (case' he => intro t))
    | ((with_reducible apply Moves.next (h' := State.modModel_moves)); (case hq => decide))
    | ((with_reducible apply Moves.next (h' := State.modM_moves)); (case hq => decide))
    | ((with_reducible apply Moves.next (h' := State.modQ_moves)); (case hq => decide))
    | with_reducible apply Moves.ite
    | split

theorem execModelStatus_moves {c : Cmd} {s : State} :
    OutMoves [.pow, .coll, .hop, .hall, .cmd, .hoist, .outs] s (execModelStatus c s) := by
  unfold execModelStatus
  try dsimp only
  repeat' first
    | with_reducible apply Moves.refl
    | assumption
    | with_reducible apply AnsMoves.ok
    | with_reducible apply AnsMoves.acc
    | with_reducible apply AnsMoves.hold
    | with_reducible apply AnsMoves.ite
    | with_reducible apply OutMoves.next
    | with_reducible apply OutMoves.ite
    | ((with_reducible apply Moves.runCmd); (case hq => decide); (case' he => intro t))
    | with_reducible apply Moves.ite
    | split

theorem execChannelOpen_moves {c : Cmd} {s : State} :
    OutMoves [.pow, .time, .coll, .hop, .hall, .cmd, .model, .hoist, .outs] s (execChannelOpen c s) := by
  unfold execChannelOpen
  try dsimp only
  repeat' first
    | with_reducible apply Moves.refl
    | assumption
    | with_reducible apply AnsMoves.ok
    | with_reducible apply AnsMoves.acc
    | with_reducible apply AnsMoves.hold
    | with_reducible apply AnsMoves.ite
    | with_reducible apply OutMoves.next
    | with_reducible apply OutMoves.ite
    | ((with_reducible apply Moves.runCmd); (case hq => decide); (case' he => intro t))
    | ((with_reducible apply Moves.next (h' := State.modModel_moves)); (case hq => decide))
    | ((with_reducible apply Moves.next (h' := State.tickFree_moves)); (case hq => decide))
    | with_reducible apply Moves.ite
    | split

theorem execChannelClose_moves {c : Cmd} {s : State} :
    OutMoves [.pow, .coll, .hop, .hall, .cmd, .model, .hoist, .outs] s (execChannelClose c s) := by
  unfold execChannelClose
  try dsimp only
  repeat' first
    | with_reducible apply Moves.refl
    | assumption
    | with_reducible apply AnsMoves.ok
    | with_reducible apply AnsMoves.acc
    | with_reducible apply AnsMoves.hold
    | with_reducible apply AnsMoves.ite
    | with_reducible apply OutMoves.next
    | with_reducible apply OutMoves.ite
    | ((with_reducible apply Moves.runCmd); (case hq => decide); (case' he => intro t))
    | ((with_reducible apply Moves.next (h' := State.modModel_moves)); (case hq => decide))
    | ((with_reducible apply Moves.next (h' := State.voidRollouts_moves)); (case hq => decide))
    | ((with_reducible apply Moves.next (h' := State.millSettleAll_moves)); (case hq => decide))
    | with_reducible apply Moves.ite
    | split

theorem execChannelReset_moves {c : Cmd} {s : State} :
    OutMoves [.pow, .coll, .hop, .hall, .cmd, .model, .hoist, .outs] s (execChannelReset c s) := by
  unfold execChannelReset
  try dsimp only
  repeat' first
    | with_reducible apply Moves.refl
    | assumption
    | with_reducible apply AnsMoves.ok
    | with_reducible apply AnsMoves.acc
    | with_reducible apply AnsMoves.hold
    | with_reducible apply AnsMoves.ite
    | with_reducible apply OutMoves.next
    | with_reducible apply OutMoves.ite
    | ((with_reducible apply Moves.runCmd); (case hq => decide); (case' he => intro t))
    | ((with_reducible apply Moves.next (h' := State.modChan_moves)); (case hq => decide))
    | ((with_reducible apply Moves.next (h' := State.resetChan_moves)); (case hq => decide))
    | with_reducible apply Moves.ite
    | split

theorem execChannelForecast_moves {c : Cmd} {s : State} :
    OutMoves [.pow, .coll, .hop, .hall, .cmd, .model, .hoist, .outs] s (execChannelForecast c s) := by
  unfold execChannelForecast
  try dsimp only
  repeat' first
    | with_reducible apply Moves.refl
    | assumption
    | with_reducible apply AnsMoves.ok
    | with_reducible apply AnsMoves.acc
    | with_reducible apply AnsMoves.hold
    | with_reducible apply AnsMoves.ite
    | with_reducible apply OutMoves.next
    | with_reducible apply OutMoves.ite
    | ((with_reducible apply Moves.runCmd); (case hq => decide); (case' he => intro t))
    | ((with_reducible apply Moves.next (h' := State.modModel_moves)); (case hq => decide))
    | with_reducible apply Moves.ite
    | split

theorem execModelParam_moves {c : Cmd} {s : State} :
    OutMoves [.pow, .coll, .hop, .hall, .cmd, .model, .hoist, .outs] s (execModelParam c s) := by
  unfold execModelParam
  try dsimp only
  repeat' first
    | with_reducible apply Moves.refl
    | assumption
    | with_reducible apply AnsMoves.ok
    | with_reducible apply AnsMoves.acc
    | with_reducible apply AnsMoves.hold
    | with_reducible apply AnsMoves.ite
    | with_reducible apply OutMoves.next
    | with_reducible apply OutMoves.ite
    | ((with_reducible apply Moves.runCmd); (case hq => decide); (case' he => intro t))
    | ((with_reducible apply Moves.next (h' := State.modModel_moves)); (case hq => decide))
    | with_reducible apply Moves.ite
    | split

theorem State.finishCuts_moves {f : Bool} {n : Nat} {s : State} :
    Moves [.sys, .coll, .hop, .hall, .cmd, .crown, .model, .verd, .brake, .outs] s (State.finishCuts f n s) := by
  induction n generalizing s with
  | zero => exact Moves.refl s
  | succ n ih =>
    unfold State.finishCuts
    try dsimp only
    repeat' first
      | ((with_reducible apply Moves.next (h' := ih)); (case hq => decide))
      | with_reducible apply Moves.refl
      | assumption
      | ((with_reducible apply Moves.next (h' := State.quernGather_moves)); (case hq => decide))
      | ((with_reducible apply Moves.next (h' := State.finishCut_moves)); (case hq => decide))
      | with_reducible apply Moves.ite
      | split

theorem execCutClose_moves {fleet : Bool} {s : State} :
    OutMoves [.sys, .coll, .hop, .hall, .cmd, .crown, .model, .verd, .brake, .outs] s (execCutClose fleet s) := by
  unfold execCutClose
  try dsimp only
  repeat' first
    | with_reducible apply Moves.refl
    | assumption
    | with_reducible apply OutMoves.next
    | with_reducible apply OutMoves.ite
    | ((with_reducible apply Moves.next (h' := State.closeAll_moves)); (case hq => decide))
    | ((with_reducible apply Moves.next (h' := State.switchDue_moves)); (case hq => decide))
    | ((with_reducible apply Moves.next (h' := State.quernSettleAll_moves)); (case hq => decide))
    | ((with_reducible apply Moves.next (h' := State.finishCuts_moves)); (case hq => decide))
    | with_reducible apply Moves.ite
    | split

theorem State.modelsDrop_moves {s : State} :
    Moves [.coll, .hop, .hall, .cmd, .crown, .model, .verd, .brake, .outs] s (State.modelsDrop s) := by
  unfold State.modelsDrop
  try dsimp only
  repeat' first
    | with_reducible apply Moves.refl
    | assumption
    | ((with_reducible apply Moves.next (h' := State.deliverMissing_moves)); (case hq => decide))
    | ((with_reducible apply Moves.next (h' := State.modQ_moves)); (case hq => decide))
    | ((with_reducible apply Moves.next (h' := State.endRollouts_moves)); (case hq => decide))
    | ((with_reducible apply Moves.next (h' := State.modModel_moves)); (case hq => decide))
    | with_reducible apply Moves.ite
    | ((with_reducible apply Moves.fold); (intro t x m))
    | split

theorem State.modelsFinish_moves {s : State} :
    Moves [.coll, .hop, .hall, .cmd, .crown, .model, .verd, .brake, .outs] s (State.modelsFinish s) := by
  unfold State.modelsFinish
  try dsimp only
  repeat' first
    | with_reducible apply Moves.refl
    | assumption
    | ((with_reducible apply Moves.next (h' := State.stepDone_moves)); (case hq => decide))
    | ((with_reducible apply Moves.next (h' := State.releaseVec_moves)); (case hq => decide))
    | ((with_reducible apply Moves.next (h' := State.modModel_moves)); (case hq => decide))
    | ((with_reducible apply Moves.next (h' := State.modelsDrop_moves)); (case hq => decide))
    | ((with_reducible apply Moves.next (h' := State.evalDone_moves)); (case hq => decide))
    | with_reducible apply Moves.ite
    | ((with_reducible apply Moves.fold); (intro t x m))
    | split

theorem State.modelsWake_moves {s : State} :
    Moves [.model] s (State.modelsWake s) := by
  unfold State.modelsWake
  try dsimp only
  repeat' first
    | with_reducible apply Moves.refl
    | assumption
    | ((with_reducible apply Moves.next (h' := State.modModel_moves)); (case hq => decide))

end Sys2Proof.Machine
end

