-- ==== Sys2Proof/Laws/Touchstone.lean ====
section
/-! SUPPORT. What the operations of Machine/Touchstone.lean can change, and that they keep the invariant. -/

namespace Sys2Proof.Machine

theorem State.modTstep_moves {step : Dword} {f : TStep → TStep} {s : State} :
    Moves [.sentry] s (State.modTstep step f s) := by
  unfold State.modTstep
  try dsimp only
  repeat' first
    | with_reducible apply Moves.refl
    | assumption
    | ((with_reducible apply Moves.next (h' := State.modSentry_moves)); (case hq => decide))

theorem State.reportStep_moves {step : Dword} {s : State} :
    Moves [.coll, .hop, .hall, .cmd, .sentry, .outs] s (State.reportStep step s) := by
  unfold State.reportStep
  try dsimp only
  repeat' first
    | with_reducible apply Moves.refl
    | assumption
    | ((with_reducible apply Moves.next (h' := State.modTstep_moves)); (case hq => decide))
    | ((with_reducible apply Moves.next (h' := State.send_moves)); (case hq => decide))
    | with_reducible apply Moves.ite
    | ((with_reducible apply Moves.fold); (intro t x m))
    | split

theorem State.commitTo_moves {v : Dword} {s : State} :
    Moves [.cmd, .sentry, .outs] s (State.commitTo v s) := by
  unfold State.commitTo
  try dsimp only
  repeat' first
    | with_reducible apply Moves.refl
    | assumption
    | ((with_reducible apply Moves.next (h' := State.intSet_moves)); (case hq => decide))
    | ((with_reducible apply Moves.next (h' := State.modSentry_moves)); (case hq => decide))
    | with_reducible apply Moves.ite

theorem State.release_moves {s : State} :
    Moves [.cmd, .sentry, .outs] s (State.release s) := by
  unfold State.release
  try dsimp only
  repeat' first
    | with_reducible apply Moves.refl
    | assumption
    | ((with_reducible apply Moves.next (h' := State.commitTo_moves)); (case hq => decide))
    | with_reducible apply Moves.ite
    | split

theorem State.sendRelease_moves {job : Word} {step : Dword} {a : Laddr} {s : State} :
    Moves [.coll, .hop, .hall, .cmd, .outs] s (State.sendRelease job step a s) := by
  unfold State.sendRelease
  try dsimp only
  repeat' first
    | with_reducible apply Moves.refl
    | assumption
    | ((with_reducible apply Moves.next (h' := State.send_moves)); (case hq => decide))
    | with_reducible apply Moves.ite
    | split

theorem State.takeRelease_moves {job : Word} {step : Dword} {s : State} :
    Moves [.cmd, .sentry, .outs] s (State.takeRelease job step s) := by
  unfold State.takeRelease
  try dsimp only
  repeat' first
    | with_reducible apply Moves.refl
    | assumption
    | ((with_reducible apply Moves.next (h' := State.release_moves)); (case hq => decide))
    | ((with_reducible apply Moves.next (h' := State.modSentry_moves)); (case hq => decide))
    | with_reducible apply Moves.ite

theorem State.relayRelease_moves {job : Word} {step : Dword} {s : State} :
    Moves [.coll, .hop, .hall, .cmd, .sentry, .outs] s (State.relayRelease job step s) := by
  unfold State.relayRelease
  try dsimp only
  repeat' first
    | with_reducible apply Moves.refl
    | assumption
    | ((with_reducible apply Moves.next (h' := State.sendRelease_moves)); (case hq => decide))
    | ((with_reducible apply Moves.next (h' := State.takeRelease_moves)); (case hq => decide))
    | with_reducible apply Moves.ite
    | ((with_reducible apply Moves.fold); (intro t x m))
    | split

theorem State.raiseThrough_moves {job : Word} {s : State} :
    Moves [.coll, .hop, .hall, .cmd, .sentry, .outs] s (State.raiseThrough job s) := by
  unfold State.raiseThrough
  try dsimp only
  repeat' first
    | with_reducible apply Moves.refl
    | assumption
    | ((with_reducible apply Moves.next (h' := State.modSentry_moves)); (case hq => decide))
    | ((with_reducible apply Moves.next (h' := State.relayRelease_moves)); (case hq => decide))
    | ((with_reducible apply Moves.next (h' := State.sendRelease_moves)); (case hq => decide))
    | with_reducible apply Moves.ite
    | ((with_reducible apply Moves.fold); (intro t x m))
    | split

theorem State.takeLt_moves {a : Laddr} {lt : Dword} {s : State} :
    Moves [.coll, .hop, .hall, .cmd, .sentry, .outs] s (State.takeLt a lt s) := by
  unfold State.takeLt
  try dsimp only
  repeat' first
    | with_reducible apply Moves.refl
    | assumption
    | ((with_reducible apply Moves.next (h' := State.raiseThrough_moves)); (case hq => decide))
    | ((with_reducible apply Moves.next (h' := State.modSentry_moves)); (case hq => decide))
    | with_reducible apply Moves.ite
    | ((with_reducible apply Moves.fold); (intro t x m))
    | split

theorem State.raiseConfirmed_moves {subj : Laddr} {step : Dword} {cls : Nat} {dst : Dest} {s : State} :
    Moves [.coll, .hop, .hall, .cmd, .verd, .brake, .outs] s (State.raiseConfirmed subj step cls dst s) := by
  unfold State.raiseConfirmed
  try dsimp only
  repeat' first
    | with_reducible apply Moves.refl
    | assumption
    | ((with_reducible apply Moves.next (h' := State.nextVid_moves)); (case hq => decide))
    | ((with_reducible apply Moves.next (h' := State.sendVerdict_moves)); (case hq => decide))
    | ((with_reducible apply Moves.next (h' := State.stageConfirmed_moves)); (case hq => decide))
    | ((with_reducible apply Moves.next (h' := State.bump_moves)); (case hq => decide))

theorem State.healthy_moves {s : State} :
    Moves [.coll, .hop, .hall, .cmd, .verd, .sentry, .brake, .outs] s (State.healthy s) := by
  unfold State.healthy
  try dsimp only
  repeat' first
    | with_reducible apply Moves.refl
    | assumption
    | ((with_reducible apply Moves.next (h' := State.raiseConfirmed_moves)); (case hq => decide))
    | ((with_reducible apply Moves.next (h' := State.takeLt_moves)); (case hq => decide))
    | with_reducible apply Moves.ite
    | split

theorem State.sentrySettle_moves {s : State} :
    Moves [.coll, .hop, .hall, .cmd, .verd, .sentry, .brake, .outs] s (State.sentrySettle s) := by
  unfold State.sentrySettle
  try dsimp only
  repeat' first
    | with_reducible apply Moves.refl
    | assumption
    | ((with_reducible apply Moves.next (h' := State.release_moves)); (case hq => decide))
    | ((with_reducible apply Moves.next (h' := State.healthy_moves)); (case hq => decide))
    | ((with_reducible apply Moves.next (h' := State.modSentry_moves)); (case hq => decide))
    | with_reducible apply Moves.ite
    | ((with_reducible apply Moves.fold); (intro t x m))
    | split

theorem State.sendReplayReq_moves {x : TStep} {dst : Laddr} {alt : Bool} {s : State} :
    Moves [.coll, .hop, .hall, .cmd, .outs] s (State.sendReplayReq x dst alt s) := by
  unfold State.sendReplayReq
  try dsimp only
  repeat' first
    | with_reducible apply Moves.refl
    | assumption
    | ((with_reducible apply Moves.next (h' := State.send_moves)); (case hq => decide))
    | with_reducible apply Moves.ite
    | ((with_reducible apply Moves.fold); (intro t x m))
    | split

theorem State.discardSteps_moves {p : TStep → Bool} {s : State} :
    Moves [.coll, .hop, .hall, .cmd, .verd, .sentry, .brake, .outs] s (State.discardSteps p s) := by
  unfold State.discardSteps
  try dsimp only
  repeat' first
    | with_reducible apply Moves.refl
    | assumption
    | ((with_reducible apply Moves.next (h' := State.withdrawOwn_moves)); (case hq => decide))
    | ((with_reducible apply Moves.next (h' := State.modSentry_moves)); (case hq => decide))
    | with_reducible apply Moves.ite
    | ((with_reducible apply Moves.fold); (intro t x m))
    | split

theorem State.rollback_moves {x : TStep} {undecided : Bool} {s : State} :
    Moves [.coll, .hop, .hall, .cmd, .verd, .sentry, .brake, .outs] s (State.rollback x undecided s) := by
  unfold State.rollback
  try dsimp only
  repeat' first
    | with_reducible apply Moves.refl
    | assumption
    | ((with_reducible apply Moves.next (h' := State.raiseOwn_moves)); (case hq => decide))
    | ((with_reducible apply Moves.next (h' := State.confirmOwn_moves)); (case hq => decide))
    | ((with_reducible apply Moves.next (h' := State.send_moves)); (case hq => decide))
    | ((with_reducible apply Moves.next (h' := State.discardSteps_moves)); (case hq => decide))
    | ((with_reducible apply Moves.next (h' := State.modSentry_moves)); (case hq => decide))
    | with_reducible apply Moves.ite
    | split

theorem State.falseAlarm_moves {wid : Nat} {s : State} :
    Moves [.coll, .hop, .hall, .cmd, .sentry, .outs] s (State.falseAlarm wid s) := by
  unfold State.falseAlarm
  try dsimp only
  repeat' first
    | with_reducible apply Moves.refl
    | assumption
    | ((with_reducible apply Moves.next (h' := State.modSentry_moves)); (case hq => decide))
    | ((with_reducible apply Moves.next (h' := State.stage_moves)); (case hq => decide))
    | with_reducible apply Moves.ite

theorem State.cleanStep_moves {x : TStep} {peerBad : Bool} {s : State} :
    Moves [.coll, .hop, .hall, .cmd, .verd, .sentry, .brake, .outs] s (State.cleanStep x peerBad s) := by
  unfold State.cleanStep
  try dsimp only
  repeat' first
    | with_reducible apply Moves.refl
    | assumption
    | ((with_reducible apply Moves.next (h' := State.withdrawOwn_moves)); (case hq => decide))
    | ((with_reducible apply Moves.next (h' := State.raiseConfirmed_moves)); (case hq => decide))
    | ((with_reducible apply Moves.next (h' := State.modTstep_moves)); (case hq => decide))
    | ((with_reducible apply Moves.next (h' := State.sentrySettle_moves)); (case hq => decide))
    | ((with_reducible apply Moves.next (h' := State.falseAlarm_moves)); (case hq => decide))
    | with_reducible apply Moves.ite
    | ((with_reducible apply Moves.fold); (intro t x m))
    | split

theorem State.noAnswer_moves {x : TStep} {s : State} :
    Moves [.coll, .hop, .hall, .cmd, .verd, .sentry, .brake, .outs] s (State.noAnswer x s) := by
  unfold State.noAnswer
  try dsimp only
  repeat' first
    | with_reducible apply Moves.refl
    | assumption
    | ((with_reducible apply Moves.next (h' := State.rollback_moves)); (case hq => decide))
    | ((with_reducible apply Moves.next (h' := State.modTstep_moves)); (case hq => decide))
    | with_reducible apply Moves.ite

theorem State.askAlternate_moves {x : TStep} {s : State} :
    Moves [.coll, .hop, .hall, .cmd, .verd, .sentry, .brake, .outs] s (State.askAlternate x s) := by
  unfold State.askAlternate
  try dsimp only
  repeat' first
    | with_reducible apply Moves.refl
    | assumption
    | ((with_reducible apply Moves.next (h' := State.sendReplayReq_moves)); (case hq => decide))
    | ((with_reducible apply Moves.next (h' := State.bump_moves)); (case hq => decide))
    | ((with_reducible apply Moves.next (h' := State.modTstep_moves)); (case hq => decide))
    | ((with_reducible apply Moves.next (h' := State.noAnswer_moves)); (case hq => decide))
    | with_reducible apply Moves.ite
    | split

theorem State.askPartner_moves {x : TStep} {s : State} :
    Moves [.coll, .hop, .hall, .cmd, .verd, .sentry, .brake, .outs] s (State.askPartner x s) := by
  unfold State.askPartner
  try dsimp only
  repeat' first
    | with_reducible apply Moves.refl
    | assumption
    | ((with_reducible apply Moves.next (h' := State.sendReplayReq_moves)); (case hq => decide))
    | ((with_reducible apply Moves.next (h' := State.bump_moves)); (case hq => decide))
    | ((with_reducible apply Moves.next (h' := State.modTstep_moves)); (case hq => decide))
    | ((with_reducible apply Moves.next (h' := State.noAnswer_moves)); (case hq => decide))
    | with_reducible apply Moves.ite
    | split

theorem State.refused_moves {x : TStep} {s : State} :
    Moves [.coll, .hop, .hall, .cmd, .verd, .sentry, .brake, .outs] s (State.refused x s) := by
  unfold State.refused
  try dsimp only
  repeat' first
    | with_reducible apply Moves.refl
    | assumption
    | ((with_reducible apply Moves.next (h' := State.askAlternate_moves)); (case hq => decide))
    | ((with_reducible apply Moves.next (h' := State.noAnswer_moves)); (case hq => decide))
    | with_reducible apply Moves.ite

theorem State.judgeReplay_moves {x : TStep} {s : State} :
    Moves [.coll, .hop, .hall, .cmd, .verd, .sentry, .brake, .outs] s (State.judgeReplay x s) := by
  unfold State.judgeReplay
  try dsimp only
  repeat' first
    | with_reducible apply Moves.refl
    | assumption
    | ((with_reducible apply Moves.next (h' := State.modTstep_moves)); (case hq => decide))
    | ((with_reducible apply Moves.next (h' := State.bump_moves)); (case hq => decide))
    | ((with_reducible apply Moves.next (h' := State.cleanStep_moves)); (case hq => decide))
    | ((with_reducible apply Moves.next (h' := State.reportStep_moves)); (case hq => decide))
    | ((with_reducible apply Moves.next (h' := State.raiseOwn_moves)); (case hq => decide))
    | ((with_reducible apply Moves.next (h' := State.askAlternate_moves)); (case hq => decide))
    | ((with_reducible apply Moves.next (h' := State.rollback_moves)); (case hq => decide))
    | with_reducible apply Moves.ite

theorem State.rxReplay_moves {r : Rec} {s : State} :
    Moves [.coll, .hop, .hall, .cmd, .verd, .sentry, .brake, .outs] s (State.rxReplay r s) := by
  unfold State.rxReplay
  try dsimp only
  repeat' first
    | with_reducible apply Moves.refl
    | assumption
    | ((with_reducible apply Moves.next (h' := State.modTstep_moves)); (case hq => decide))
    | ((with_reducible apply Moves.next (h' := State.judgeReplay_moves)); (case hq => decide))
    | with_reducible apply Moves.ite
    | split

theorem State.rxRefused_moves {r : Rec} {s : State} :
    Moves [.coll, .hop, .hall, .cmd, .verd, .sentry, .brake, .outs] s (State.rxRefused r s) := by
  unfold State.rxRefused
  try dsimp only
  repeat' first
    | with_reducible apply Moves.refl
    | assumption
    | ((with_reducible apply Moves.next (h' := State.refused_moves)); (case hq => decide))
    | with_reducible apply Moves.ite
    | split

theorem State.stageMark_moves {s : State} :
    Moves [.sentry] s (State.stageMark s) := by
  unfold State.stageMark
  try dsimp only
  repeat' first
    | with_reducible apply Moves.refl
    | assumption
    | ((with_reducible apply Moves.next (h' := State.modSentry_moves)); (case hq => decide))
    | ((with_reducible apply Moves.next (h' := State.modTstep_moves)); (case hq => decide))
    | with_reducible apply Moves.ite
    | split

theorem State.closeStep_moves {step : Dword} {part : Bool} {s0 : State} :
    Moves [.coll, .hop, .hall, .cmd, .verd, .sentry, .brake, .outs] s0 (State.closeStep step part s0) := by
  unfold State.closeStep
  try dsimp only
  repeat' first
    | with_reducible apply Moves.refl
    | assumption
    | ((with_reducible apply Moves.next (h' := State.stageMark_moves)); (case hq => decide))
    | ((with_reducible apply Moves.next (h' := State.modTstep_moves)); (case hq => decide))
    | ((with_reducible apply Moves.next (h' := State.reportStep_moves)); (case hq => decide))
    | ((with_reducible apply Moves.next (h' := State.raiseOwn_moves)); (case hq => decide))
    | ((with_reducible apply Moves.next (h' := State.askPartner_moves)); (case hq => decide))
    | ((with_reducible apply Moves.next (h' := State.sentrySettle_moves)); (case hq => decide))
    | with_reducible apply Moves.ite
    | split

theorem State.badMark_moves {s : State} :
    Moves [.sentry] s (State.badMark s) := by
  unfold State.badMark
  try dsimp only
  repeat' first
    | with_reducible apply Moves.refl
    | assumption
    | ((with_reducible apply Moves.next (h' := State.modSentry_moves)); (case hq => decide))
    | with_reducible apply Moves.ite
    | split

theorem State.beginStep_moves {step : Dword} {s0 : State} :
    Moves [.coll, .hop, .hall, .cmd, .verd, .sentry, .brake, .outs] s0 (State.beginStep step s0) := by
  unfold State.beginStep
  try dsimp only
  repeat' first
    | with_reducible apply Moves.refl
    | assumption
    | ((with_reducible apply Moves.next (h' := State.stageMark_moves)); (case hq => decide))
    | ((with_reducible apply Moves.next (h' := State.badMark_moves)); (case hq => decide))
    | ((with_reducible apply Moves.next (h' := State.modSentry_moves)); (case hq => decide))
    | ((with_reducible apply Moves.next (h' := State.discardSteps_moves)); (case hq => decide))
    | ((with_reducible apply Moves.next (h' := State.release_moves)); (case hq => decide))
    | ((with_reducible apply Moves.next (h' := State.closeStep_moves)); (case hq => decide))
    | with_reducible apply Moves.ite
    | ((with_reducible apply Moves.fold); (intro t x m))
    | split

theorem State.sentryMark_moves {job : Word} {step : Dword} {atEnd replay : Bool} {subj : Laddr} {s : State} :
    Moves [.coll, .hop, .hall, .cmd, .verd, .sentry, .brake, .outs] s (State.sentryMark job step atEnd replay subj s) := by
  unfold State.sentryMark
  try dsimp only
  repeat' first
    | with_reducible apply Moves.refl
    | assumption
    | ((with_reducible apply Moves.next (h' := State.modSentry_moves)); (case hq => decide))
    | ((with_reducible apply Moves.next (h' := State.badMark_moves)); (case hq => decide))
    | ((with_reducible apply Moves.next (h' := State.modTstep_moves)); (case hq => decide))
    | ((with_reducible apply Moves.next (h' := State.beginStep_moves)); (case hq => decide))
    | with_reducible apply Moves.ite
    | split

theorem execSnoopFrame_moves {_port : Fin 64} {f : Snoop} {s : State} :
    OutMoves [.coll, .hop, .hall, .cmd, .sentry, .outs] s (execSnoopFrame _port f s) := by
  unfold execSnoopFrame
  try dsimp only
  repeat' first
    | with_reducible apply Moves.refl
    | assumption
    | with_reducible apply OutMoves.next
    | with_reducible apply OutMoves.ite
    | ((with_reducible apply Moves.next (h' := State.modSentry_moves)); (case hq => decide))
    | ((with_reducible apply Moves.next (h' := State.modTstep_moves)); (case hq => decide))
    | ((with_reducible apply Moves.next (h' := State.reportStep_moves)); (case hq => decide))
    | with_reducible apply Moves.ite
    | ((with_reducible apply Moves.fold); (intro t x m))
    | split

theorem State.answerReplay_moves {h : Hosted} {s : State} :
    Moves [.coll, .hop, .hall, .cmd, .sentry, .outs] s (State.answerReplay h s) := by
  unfold State.answerReplay
  try dsimp only
  repeat' first
    | with_reducible apply Moves.refl
    | assumption
    | ((with_reducible apply Moves.next (h' := State.modSentry_moves)); (case hq => decide))
    | ((with_reducible apply Moves.next (h' := State.send_moves)); (case hq => decide))
    | with_reducible apply Moves.ite
    | ((with_reducible apply Moves.fold); (intro t x m))
    | split

theorem execSnoopSettleExpiry_moves {step : Dword} {s : State} :
    OutMoves [.coll, .hop, .hall, .cmd, .verd, .sentry, .brake, .outs] s (execSnoopSettleExpiry step s) := by
  unfold execSnoopSettleExpiry
  try dsimp only
  repeat' first
    | with_reducible apply Moves.refl
    | assumption
    | with_reducible apply OutMoves.next
    | with_reducible apply OutMoves.ite
    | ((with_reducible apply Moves.next (h' := State.closeStep_moves)); (case hq => decide))
    | ((with_reducible apply Moves.next (h' := State.answerReplay_moves)); (case hq => decide))
    | with_reducible apply Moves.ite
    | ((with_reducible apply Moves.fold); (intro t x m))
    | split

theorem execReplayToExpiry_moves {step : Dword} {s : State} :
    OutMoves [.coll, .hop, .hall, .cmd, .verd, .sentry, .brake, .outs] s (execReplayToExpiry step s) := by
  unfold execReplayToExpiry
  try dsimp only
  repeat' first
    | with_reducible apply Moves.refl
    | assumption
    | with_reducible apply OutMoves.next
    | with_reducible apply OutMoves.ite
    | ((with_reducible apply Moves.next (h' := State.modSentry_moves)); (case hq => decide))
    | ((with_reducible apply Moves.next (h' := State.refused_moves)); (case hq => decide))
    | with_reducible apply Moves.ite
    | split

theorem State.rxReplayReq_moves {r : Rec} {s : State} :
    Moves [.coll, .hop, .hall, .cmd, .sentry, .outs] s (State.rxReplayReq r s) := by
  unfold State.rxReplayReq
  try dsimp only
  repeat' first
    | with_reducible apply Moves.refl
    | assumption
    | ((with_reducible apply Moves.next (h' := State.send_moves)); (case hq => decide))
    | ((with_reducible apply Moves.next (h' := State.modSentry_moves)); (case hq => decide))
    | ((with_reducible apply Moves.next (h' := State.event_moves)); (case hq => decide))
    | with_reducible apply Moves.ite
    | split

theorem State.rxJobRelease_moves {r : Rec} {s : State} :
    Moves [.coll, .hop, .hall, .cmd, .sentry, .outs] s (State.rxJobRelease r s) := by
  unfold State.rxJobRelease
  try dsimp only
  repeat' first
    | with_reducible apply Moves.refl
    | assumption
    | ((with_reducible apply Moves.next (h' := State.relayRelease_moves)); (case hq => decide))
    | ((with_reducible apply Moves.next (h' := State.takeRelease_moves)); (case hq => decide))
    | with_reducible apply Moves.ite
    | split

theorem State.rxHealthy_moves {r : Rec} {s : State} :
    Moves [.coll, .hop, .hall, .cmd, .sentry, .outs] s (State.rxHealthy r s) := by
  unfold State.rxHealthy
  try dsimp only
  repeat' first
    | with_reducible apply Moves.refl
    | assumption
    | ((with_reducible apply Moves.next (h' := State.takeLt_moves)); (case hq => decide))
    | with_reducible apply Moves.ite
    | split

theorem State.rxSentry_moves {r : Rec} {s : State} :
    Moves [.coll, .hop, .hall, .cmd, .verd, .sentry, .brake, .outs] s (State.rxSentry r s) := by
  unfold State.rxSentry
  try dsimp only
  repeat' first
    | with_reducible apply Moves.refl
    | assumption
    | ((with_reducible apply Moves.next (h' := State.rxReplay_moves)); (case hq => decide))
    | ((with_reducible apply Moves.next (h' := State.rxJobRelease_moves)); (case hq => decide))
    | ((with_reducible apply Moves.next (h' := State.rxReplayReq_moves)); (case hq => decide))
    | ((with_reducible apply Moves.next (h' := State.rxRefused_moves)); (case hq => decide))
    | with_reducible apply Moves.ite

theorem State.sentryRestart_moves {s : State} :
    Moves [.coll, .hop, .hall, .cmd, .verd, .sentry, .brake, .outs] s (State.sentryRestart s) := by
  unfold State.sentryRestart
  try dsimp only
  repeat' first
    | with_reducible apply Moves.refl
    | assumption
    | ((with_reducible apply Moves.next (h' := State.closeStep_moves)); (case hq => decide))
    | with_reducible apply Moves.ite
    | ((with_reducible apply Moves.fold); (intro t x m))

theorem execSentryWatch_moves {c : Cmd} {s : State} :
    OutMoves [.pow, .coll, .hop, .hall, .cmd, .verd, .sentry, .brake, .hoist, .outs] s (execSentryWatch c s) := by
  unfold execSentryWatch
  try dsimp only
  repeat' first
    | with_reducible apply Moves.refl
    | assumption
    | with_reducible apply AnsMoves.ok
    | with_reducible apply AnsMoves.acc
    | with_reducible apply AnsMoves.hold
    | with_reducible apply AnsMoves.ite
    | with_reducible apply OutMoves.next
    | with_reducible apply OutMoves.ite
    | ((with_reducible apply Moves.runCmd); (case hq => decide); (case' he => intro t))
    | ((with_reducible apply Moves.next (h' := State.intSet_moves)); (case hq => decide))
    | ((with_reducible apply Moves.next (h' := State.modSentry_moves)); (case hq => decide))
    | ((with_reducible apply Moves.next (h' := State.discardSteps_moves)); (case hq => decide))
    | with_reducible apply Moves.ite
    | split

theorem execSentryPartners_moves {c : Cmd} {s : State} :
    OutMoves [.pow, .coll, .hop, .hall, .cmd, .sentry, .hoist, .outs] s (execSentryPartners c s) := by
  unfold execSentryPartners
  try dsimp only
  repeat' first
    | with_reducible apply Moves.refl
    | assumption
    | with_reducible apply AnsMoves.ok
    | with_reducible apply AnsMoves.acc
    | with_reducible apply AnsMoves.hold
    | with_reducible apply AnsMoves.ite
    | with_reducible apply OutMoves.next
    | with_reducible apply OutMoves.ite
    | ((with_reducible apply Moves.runCmd); (case hq => decide); (case' he => intro t))
    | ((with_reducible apply Moves.next (h' := State.modSentry_moves)); (case hq => decide))
    | with_reducible apply Moves.ite
    | split

theorem execSentryGoal_moves {c : Cmd} {s : State} :
    OutMoves [.pow, .coll, .hop, .hall, .cmd, .sentry, .hoist, .outs] s (execSentryGoal c s) := by
  unfold execSentryGoal
  try dsimp only
  repeat' first
    | with_reducible apply Moves.refl
    | assumption
    | with_reducible apply AnsMoves.ok
    | with_reducible apply AnsMoves.acc
    | with_reducible apply AnsMoves.hold
    | with_reducible apply AnsMoves.ite
    | with_reducible apply OutMoves.next
    | with_reducible apply OutMoves.ite
    | ((with_reducible apply Moves.runCmd); (case hq => decide); (case' he => intro t))
    | ((with_reducible apply Moves.next (h' := State.modSentry_moves)); (case hq => decide))
    | with_reducible apply Moves.ite
    | split

theorem execSentryRollback_moves {c : Cmd} {s : State} :
    OutMoves [.pow, .coll, .hop, .hall, .cmd, .verd, .sentry, .brake, .hoist, .outs] s (execSentryRollback c s) := by
  unfold execSentryRollback
  try dsimp only
  repeat' first
    | with_reducible apply Moves.refl
    | assumption
    | with_reducible apply AnsMoves.ok
    | with_reducible apply AnsMoves.acc
    | with_reducible apply AnsMoves.hold
    | with_reducible apply AnsMoves.ite
    | with_reducible apply OutMoves.next
    | with_reducible apply OutMoves.ite
    | ((with_reducible apply Moves.runCmd); (case hq => decide); (case' he => intro t))
    | ((with_reducible apply Moves.next (h' := State.modSentry_moves)); (case hq => decide))
    | ((with_reducible apply Moves.next (h' := State.sentrySettle_moves)); (case hq => decide))
    | ((with_reducible apply Moves.next (h' := State.discardSteps_moves)); (case hq => decide))
    | with_reducible apply Moves.ite
    | split

theorem execSentryRelease_moves {c : Cmd} {s : State} :
    OutMoves [.pow, .coll, .hop, .hall, .cmd, .verd, .sentry, .brake, .hoist, .outs] s (execSentryRelease c s) := by
  unfold execSentryRelease
  try dsimp only
  repeat' first
    | with_reducible apply Moves.refl
    | assumption
    | with_reducible apply AnsMoves.ok
    | with_reducible apply AnsMoves.acc
    | with_reducible apply AnsMoves.hold
    | with_reducible apply AnsMoves.ite
    | with_reducible apply OutMoves.next
    | with_reducible apply OutMoves.ite
    | ((with_reducible apply Moves.runCmd); (case hq => decide); (case' he => intro t))
    | ((with_reducible apply Moves.next (h' := State.modSentry_moves)); (case hq => decide))
    | ((with_reducible apply Moves.next (h' := State.sentrySettle_moves)); (case hq => decide))
    | ((with_reducible apply Moves.next (h' := State.stage_moves)); (case hq => decide))
    | ((with_reducible apply Moves.next (h' := State.commitTo_moves)); (case hq => decide))
    | with_reducible apply Moves.ite
    | split

theorem execSentryStatus_moves {c : Cmd} {s : State} :
    OutMoves [.pow, .coll, .hop, .hall, .cmd, .hoist, .outs] s (execSentryStatus c s) := by
  unfold execSentryStatus
  try dsimp only
  repeat' first
    | with_reducible apply Moves.refl
    | assumption
    | with_reducible apply AnsMoves.ok
    | with_reducible apply AnsMoves.acc
    | with_reducible apply AnsMoves.hold
    | with_reducible apply AnsMoves.ite
    | with_reducible apply OutMoves.next
    | with_reducible apply OutMoves.ite
    | ((with_reducible apply Moves.runCmd); (case hq => decide); (case' he => intro t))
    | with_reducible apply Moves.ite
    | split

theorem execSentryParam_moves {c : Cmd} {s : State} :
    OutMoves [.pow, .coll, .hop, .hall, .cmd, .sentry, .hoist, .outs] s (execSentryParam c s) := by
  unfold execSentryParam
  try dsimp only
  repeat' first
    | with_reducible apply Moves.refl
    | assumption
    | with_reducible apply AnsMoves.ok
    | with_reducible apply AnsMoves.acc
    | with_reducible apply AnsMoves.hold
    | with_reducible apply AnsMoves.ite
    | with_reducible apply OutMoves.next
    | with_reducible apply OutMoves.ite
    | ((with_reducible apply Moves.runCmd); (case hq => decide); (case' he => intro t))
    | ((with_reducible apply Moves.next (h' := State.modSentry_moves)); (case hq => decide))
    | with_reducible apply Moves.ite
    | split

theorem State.hangClosed_moves {v : OwnV} {s : State} :
    Moves [.brake] s (State.hangClosed v s) := by
  unfold State.hangClosed
  try dsimp only
  repeat' first
    | with_reducible apply Moves.refl
    | assumption
    | ((with_reducible apply Moves.next (h' := State.modBrake_moves)); (case hq => decide))
    | with_reducible apply Moves.ite

theorem execVerdictWithdraw_moves {c : Cmd} {s : State} :
    OutMoves [.pow, .coll, .hop, .hall, .cmd, .verd, .sentry, .brake, .hoist, .outs] s (execVerdictWithdraw c s) := by
  unfold execVerdictWithdraw
  try dsimp only
  repeat' first
    | with_reducible apply Moves.refl
    | assumption
    | with_reducible apply AnsMoves.ok
    | with_reducible apply AnsMoves.acc
    | with_reducible apply AnsMoves.hold
    | with_reducible apply AnsMoves.ite
    | with_reducible apply OutMoves.next
    | with_reducible apply OutMoves.ite
    | ((with_reducible apply Moves.runCmd); (case hq => decide); (case' he => intro t))
    | ((with_reducible apply Moves.next (h' := State.withdrawPair_moves)); (case hq => decide))
    | ((with_reducible apply Moves.next (h' := State.sentrySettle_moves)); (case hq => decide))
    | ((with_reducible apply Moves.next (h' := State.hangClosed_moves)); (case hq => decide))
    | ((with_reducible apply Moves.next (h' := State.withdrawOwn_moves)); (case hq => decide))
    | ((with_reducible apply Moves.next (h' := State.modHolder_moves)); (case hq => decide))
    | with_reducible apply Moves.ite
    | split

theorem execJobMembers_moves {c : Cmd} {s : State} :
    OutMoves [.pow, .coll, .hop, .hall, .cmd, .verd, .sentry, .hoist, .outs] s (execJobMembers c s) := by
  unfold execJobMembers
  try dsimp only
  repeat' first
    | with_reducible apply Moves.refl
    | assumption
    | with_reducible apply AnsMoves.ok
    | with_reducible apply AnsMoves.acc
    | with_reducible apply AnsMoves.hold
    | with_reducible apply AnsMoves.ite
    | with_reducible apply OutMoves.next
    | with_reducible apply OutMoves.ite
    | ((with_reducible apply Moves.runCmd); (case hq => decide); (case' he => intro t))
    | ((with_reducible apply Moves.next (h' := State.modVerd_moves)); (case hq => decide))
    | ((with_reducible apply Moves.next (h' := State.settleInsts_moves)); (case hq => decide))
    | ((with_reducible apply Moves.next (h' := State.raiseThrough_moves)); (case hq => decide))
    | ((with_reducible apply Moves.next (h' := State.reviewDie_moves)); (case hq => decide))
    | with_reducible apply Moves.ite
    | ((with_reducible apply Moves.fold); (intro t x m))
    | split

end Sys2Proof.Machine
end

