-- ==== Sys2Proof/Laws/Tailrace.lean ====
section
/-! SUPPORT. What the operations of Machine/Tailrace.lean can change, and that they keep the invariant. -/

namespace Sys2Proof.Machine

theorem State.modTsrc_moves {i : Nat} {f : TrSource → TrSource} {s : State} :
    Moves [.trace] s (State.modTsrc i f s) := by
  unfold State.modTsrc
  try dsimp only
  repeat' first
    | with_reducible apply Moves.refl
    | assumption
    | ((with_reducible apply Moves.next (h' := State.modTrace_moves)); (case hq => decide))

theorem State.dropPacket_moves {src tc nw : Nat} {s : State} :
    Moves [.coll, .trace] s (State.dropPacket src tc nw s) := by
  unfold State.dropPacket
  try dsimp only
  repeat' first
    | with_reducible apply Moves.refl
    | assumption
    | ((with_reducible apply Moves.next (h' := State.modTsrc_moves)); (case hq => decide))
    | ((with_reducible apply Moves.next (h' := State.bump_moves)); (case hq => decide))

theorem State.offerTrace_moves  {n : Nat} {s : State} :
    Moves [.coll, .hop, .hall, .cmd, .trace, .outs] s (State.offerTrace n s) := by
  induction n generalizing s with
  | zero => exact Moves.refl s
  | succ n ih =>
    unfold State.offerTrace
    try dsimp only
    repeat' first
      | ((with_reducible apply Moves.next (h' := ih)); (case hq => decide))
      | with_reducible apply Moves.refl
      | assumption
      | ((with_reducible apply Moves.next (h' := State.offer_moves)); (case hq => decide))
      | ((with_reducible apply Moves.next (h' := State.modTrace_moves)); (case hq => decide))
      | with_reducible apply Moves.ite
      | split

theorem State.tracePump_moves {s : State} :
    Moves [.coll, .hop, .hall, .cmd, .trace, .outs] s (State.tracePump s) := by
  unfold State.tracePump
  try dsimp only
  repeat' first
    | with_reducible apply Moves.refl
    | assumption
    | ((with_reducible apply Moves.next (h' := State.offerTrace_moves)); (case hq => decide))
    | with_reducible apply Moves.ite
    | split

theorem State.closeTrace_moves {c3 : Bool} {s : State} :
    Moves [.coll, .hop, .hall, .cmd, .trace, .outs] s (State.closeTrace c3 s) := by
  unfold State.closeTrace
  try dsimp only
  repeat' first
    | with_reducible apply Moves.refl
    | assumption
    | ((with_reducible apply Moves.next (h' := State.modTrace_moves)); (case hq => decide))
    | ((with_reducible apply Moves.next (h' := State.tracePump_moves)); (case hq => decide))
    | with_reducible apply Moves.ite
    | split

theorem State.placeRaw_moves {c3 : Bool} {e : TrEntry} {s : State} :
    Moves [.coll, .hop, .hall, .cmd, .trace, .outs] s (State.placeRaw c3 e s) := by
  unfold State.placeRaw
  try dsimp only
  repeat' first
    | with_reducible apply Moves.refl
    | assumption
    | ((with_reducible apply Moves.next (h' := State.modTrace_moves)); (case hq => decide))
    | ((with_reducible apply Moves.next (h' := State.closeTrace_moves)); (case hq => decide))
    | with_reducible apply Moves.ite
    | split

theorem State.placeSync_moves {full : Bool} {t : Nat} {s : State} :
    Moves [.coll, .hop, .hall, .cmd, .trace, .outs] s (State.placeSync full t s) := by
  unfold State.placeSync
  try dsimp only
  repeat' first
    | with_reducible apply Moves.refl
    | assumption
    | ((with_reducible apply Moves.next (h' := State.placeRaw_moves)); (case hq => decide))
    | ((with_reducible apply Moves.next (h' := State.modTrace_moves)); (case hq => decide))
    | ((with_reducible apply Moves.next (h' := State.modTsrc_moves)); (case hq => decide))
    | ((with_reducible apply Moves.next (h' := State.emit_moves)); (case hq => decide))
    | with_reducible apply Moves.ite
    | ((with_reducible apply Moves.fold); (intro t x m))
    | split

theorem State.fullIfDue_moves {s : State} :
    Moves [.coll, .hop, .hall, .cmd, .trace, .outs] s (State.fullIfDue s) := by
  unfold State.fullIfDue
  try dsimp only
  repeat' first
    | with_reducible apply Moves.refl
    | assumption
    | ((with_reducible apply Moves.next (h' := State.placeSync_moves)); (case hq => decide))
    | with_reducible apply Moves.ite
    | split

theorem State.syncTo_moves {t0 : Nat} {s : State} :
    Moves [.coll, .hop, .hall, .cmd, .trace, .outs] s (State.syncTo t0 s) := by
  unfold State.syncTo
  try dsimp only
  repeat' first
    | with_reducible apply Moves.refl
    | assumption
    | ((with_reducible apply Moves.next (h' := State.modTrace_moves)); (case hq => decide))
    | ((with_reducible apply Moves.next (h' := State.fullIfDue_moves)); (case hq => decide))
    | ((with_reducible apply Moves.next (h' := State.placeSync_moves)); (case hq => decide))
    | with_reducible apply Moves.ite
    | split

theorem State.placeEntry_moves {c3 : Bool} {e : TrEntry} {s : State} :
    Moves [.coll, .hop, .hall, .cmd, .trace, .outs] s (State.placeEntry c3 e s) := by
  unfold State.placeEntry
  try dsimp only
  repeat' first
    | with_reducible apply Moves.refl
    | assumption
    | ((with_reducible apply Moves.next (h' := State.placeRaw_moves)); (case hq => decide))
    | ((with_reducible apply Moves.next (h' := State.syncTo_moves)); (case hq => decide))
    | ((with_reducible apply Moves.next (h' := State.closeTrace_moves)); (case hq => decide))
    | with_reducible apply Moves.ite
    | split

theorem execSyncPeriodBoundary_moves {s : State} :
    OutMoves [.coll, .hop, .hall, .cmd, .trace, .outs] s (execSyncPeriodBoundary s) := by
  unfold execSyncPeriodBoundary
  try dsimp only
  repeat' first
    | with_reducible apply Moves.refl
    | assumption
    | with_reducible apply OutMoves.next
    | with_reducible apply OutMoves.ite
    | ((with_reducible apply Moves.next (h' := State.syncTo_moves)); (case hq => decide))
    | with_reducible apply Moves.ite
    | split

theorem execTrFlushExpiry_moves {cls : Bool} {s : State} :
    OutMoves [.coll, .hop, .hall, .cmd, .trace, .outs] s (execTrFlushExpiry cls s) := by
  unfold execTrFlushExpiry
  try dsimp only
  repeat' first
    | with_reducible apply Moves.refl
    | assumption
    | with_reducible apply OutMoves.next
    | with_reducible apply OutMoves.ite
    | ((with_reducible apply Moves.next (h' := State.closeTrace_moves)); (case hq => decide))
    | ((with_reducible apply Moves.next (h' := State.tracePump_moves)); (case hq => decide))
    | with_reducible apply Moves.ite
    | split

theorem State.traceEcc_moves {n : Nat} {s : State} :
    Moves [.coll, .trace] s (State.traceEcc n s) := by
  unfold State.traceEcc
  try dsimp only
  repeat' first
    | with_reducible apply Moves.refl
    | assumption
    | ((with_reducible apply Moves.next (h' := State.dropPacket_moves)); (case hq => decide))
    | ((with_reducible apply Moves.next (h' := State.modTrace_moves)); (case hq => decide))
    | with_reducible apply Moves.ite
    | split

theorem State.traceEntry_moves {p : TrcPacket} {tc : Nat} {priv : Bool} {s0 : State} :
    Moves [.coll, .hop, .hall, .cmd, .trace, .outs] s0 (State.traceEntry p tc priv s0) := by
  unfold State.traceEntry
  try dsimp only
  repeat' first
    | with_reducible apply Moves.refl
    | assumption
    | ((with_reducible apply Moves.next (h' := State.fullIfDue_moves)); (case hq => decide))
    | ((with_reducible apply Moves.next (h' := State.modTsrc_moves)); (case hq => decide))
    | ((with_reducible apply Moves.next (h' := State.dropPacket_moves)); (case hq => decide))
    | ((with_reducible apply Moves.next (h' := State.placeEntry_moves)); (case hq => decide))
    | with_reducible apply Moves.ite
    | split

theorem execTracePacket_moves {p : TrcPacket} {s : State} :
    OutMoves [.coll, .hop, .hall, .cmd, .trace, .outs] s (execTracePacket p s) := by
  unfold execTracePacket
  try dsimp only
  repeat' first
    | with_reducible apply Moves.refl
    | assumption
    | with_reducible apply OutMoves.next
    | with_reducible apply OutMoves.ite
    | ((with_reducible apply Moves.next (h' := State.traceEntry_moves)); (case hq => decide))
    | ((with_reducible apply Moves.next (h' := State.bump_moves)); (case hq => decide))
    | with_reducible apply Moves.ite
    | split

theorem State.markCopy_moves {p : TrcPacket} {s : State} :
    Moves [.coll, .hop, .hall, .cmd, .trace, .outs] s (State.markCopy p s) := by
  unfold State.markCopy
  try dsimp only
  repeat' first
    | with_reducible apply Moves.refl
    | assumption
    | ((with_reducible apply Moves.next (h' := State.traceEntry_moves)); (case hq => decide))
    | with_reducible apply Moves.ite
    | split

theorem State.putTwatch_moves {w : Nat} {x : TWatch} {s : State} :
    Moves [.trace] s (State.putTwatch w x s) := by
  unfold State.putTwatch
  try dsimp only
  repeat' first
    | with_reducible apply Moves.refl
    | assumption
    | ((with_reducible apply Moves.next (h' := State.modTrace_moves)); (case hq => decide))

theorem State.sendDump_moves {w : Nat} {e : WatchEnt} {d : Dump} {n : Nat} {last : Bool} {s : State} :
    Moves [.coll, .hop, .hall, .cmd, .outs] s (State.sendDump w e d n last s) := by
  unfold State.sendDump
  try dsimp only
  repeat' first
    | with_reducible apply Moves.refl
    | assumption
    | ((with_reducible apply Moves.next (h' := State.send_moves)); (case hq => decide))
    | with_reducible apply Moves.ite
    | split

theorem State.pumpDump_moves {w : Nat} {e : WatchEnt} {rest last : Bool} {n : Nat} {d : Dump} {s : State} :
    Moves [.coll, .hop, .hall, .cmd, .outs] s (State.pumpDump w e rest last n d s).2 := by
  induction n generalizing d s with
  | zero => exact Moves.refl s
  | succ n ih =>
    unfold State.pumpDump
    try dsimp only
    repeat' first
      | ((with_reducible apply Moves.next (h' := ih)); (case hq => decide))
      | with_reducible apply Moves.refl
      | assumption
      | ((with_reducible apply Moves.next (h' := State.sendDump_moves)); (case hq => decide))
      | with_reducible apply Moves.ite
      | split

theorem State.disarm_moves {w cause : Nat} {s : State} :
    Moves [.coll, .hop, .hall, .cmd, .trace, .outs] s (State.disarm w cause s) := by
  unfold State.disarm
  try dsimp only
  repeat' first
    | with_reducible apply Moves.refl
    | assumption
    | ((with_reducible apply Moves.next (h' := State.pumpDump_moves)); (case hq => decide))
    | ((with_reducible apply Moves.next (h' := State.event_moves)); (case hq => decide))
    | ((with_reducible apply Moves.next (h' := State.modTrace_moves)); (case hq => decide))
    | with_reducible apply Moves.ite
    | split

theorem State.watchApply_moves {w : Nat} {s : State} :
    Moves [.coll, .hop, .hall, .cmd, .trace, .outs] s (State.watchApply w s) := by
  unfold State.watchApply
  try dsimp only
  repeat' first
    | with_reducible apply Moves.refl
    | assumption
    | ((with_reducible apply Moves.next (h' := State.pumpDump_moves)); (case hq => decide))
    | ((with_reducible apply Moves.next (h' := State.putTwatch_moves)); (case hq => decide))
    | with_reducible apply Moves.ite
    | split

theorem State.watchBegin_moves {w : Nat} {job : Word} {step : Dword} {s : State} :
    Moves [.coll, .hop, .hall, .cmd, .trace, .outs] s (State.watchBegin w job step s) := by
  unfold State.watchBegin
  try dsimp only
  repeat' first
    | with_reducible apply Moves.refl
    | assumption
    | ((with_reducible apply Moves.next (h' := State.watchApply_moves)); (case hq => decide))
    | ((with_reducible apply Moves.next (h' := State.putTwatch_moves)); (case hq => decide))
    | with_reducible apply Moves.ite
    | split

theorem State.watchEnd_moves {w : Nat} {job : Word} {step : Dword} {s : State} :
    Moves [.coll, .hop, .hall, .cmd, .trace, .outs] s (State.watchEnd w job step s) := by
  unfold State.watchEnd
  try dsimp only
  repeat' first
    | with_reducible apply Moves.refl
    | assumption
    | ((with_reducible apply Moves.next (h' := State.pumpDump_moves)); (case hq => decide))
    | ((with_reducible apply Moves.next (h' := State.putTwatch_moves)); (case hq => decide))
    | ((with_reducible apply Moves.next (h' := State.disarm_moves)); (case hq => decide))
    | with_reducible apply Moves.ite
    | split

theorem State.discardTensor_moves {w cause : Nat} {s : State} :
    Moves [.trace] s (State.discardTensor w cause s) := by
  unfold State.discardTensor
  try dsimp only
  repeat' first
    | with_reducible apply Moves.refl
    | assumption
    | ((with_reducible apply Moves.next (h' := State.modTrace_moves)); (case hq => decide))

theorem State.tensorRefill_moves {s : State} :
    Moves [.trace] s (State.tensorRefill s) := by
  unfold State.tensorRefill
  try dsimp only
  repeat' first
    | with_reducible apply Moves.refl
    | assumption
    | ((with_reducible apply Moves.next (h' := State.modTrace_moves)); (case hq => decide))
    | with_reducible apply Moves.ite
    | split

theorem execTensorPacket_moves {p : TrcPacket} {s1 : State} :
    OutMoves [.coll, .hop, .hall, .cmd, .trace, .outs] s1 (execTensorPacket p s1) := by
  unfold execTensorPacket
  try dsimp only
  repeat' first
    | with_reducible apply Moves.refl
    | assumption
    | with_reducible apply OutMoves.next
    | with_reducible apply OutMoves.ite
    | ((with_reducible apply Moves.next (h' := State.tensorRefill_moves)); (case hq => decide))
    | ((with_reducible apply Moves.next (h' := State.putTwatch_moves)); (case hq => decide))
    | ((with_reducible apply Moves.next (h' := State.discardTensor_moves)); (case hq => decide))
    | ((with_reducible apply Moves.next (h' := State.dropPacket_moves)); (case hq => decide))
    | ((with_reducible apply Moves.next (h' := State.modTrace_moves)); (case hq => decide))
    | ((with_reducible apply Moves.next (h' := State.pumpDump_moves)); (case hq => decide))
    | ((with_reducible apply Moves.next (h' := State.bump_moves)); (case hq => decide))
    | with_reducible apply Moves.ite
    | split

theorem execTensorBucketRefill_moves {s : State} :
    OutMoves [.trace] s (execTensorBucketRefill s) := by
  unfold execTensorBucketRefill
  try dsimp only
  repeat' first
    | with_reducible apply Moves.refl
    | assumption
    | with_reducible apply OutMoves.next
    | with_reducible apply OutMoves.ite
    | ((with_reducible apply Moves.next (h' := State.tensorRefill_moves)); (case hq => decide))
    | with_reducible apply Moves.ite
    | split

theorem execStepMark_moves {p : TrcPacket} {s : State} :
    OutMoves [.coll, .hop, .hall, .cmd, .verd, .sentry, .trace, .brake, .outs] s (execStepMark p s) := by
  unfold execStepMark
  try dsimp only
  repeat' first
    | with_reducible apply Moves.refl
    | assumption
    | with_reducible apply OutMoves.next
    | with_reducible apply OutMoves.ite
    | ((with_reducible apply Moves.next (h' := State.modTrace_moves)); (case hq => decide))
    | ((with_reducible apply Moves.next (h' := State.sentryMark_moves)); (case hq => decide))
    | ((with_reducible apply Moves.next (h' := State.watchApply_moves)); (case hq => decide))
    | ((with_reducible apply Moves.next (h' := State.watchEnd_moves)); (case hq => decide))
    | ((with_reducible apply Moves.next (h' := State.watchBegin_moves)); (case hq => decide))
    | ((with_reducible apply Moves.next (h' := State.markCopy_moves)); (case hq => decide))
    | ((with_reducible apply Moves.next (h' := State.bump_moves)); (case hq => decide))
    | with_reducible apply Moves.ite
    | ((with_reducible apply Moves.fold); (intro t x m))
    | split

theorem execCollMark_moves {p : TrcPacket} {s : State} :
    OutMoves [.coll, .hop, .hall, .cmd, .verd, .trace, .outs] s (execCollMark p s) := by
  unfold execCollMark
  try dsimp only
  repeat' first
    | with_reducible apply Moves.refl
    | assumption
    | with_reducible apply OutMoves.next
    | with_reducible apply OutMoves.ite
    | ((with_reducible apply Moves.next (h' := State.modVerd_moves)); (case hq => decide))
    | ((with_reducible apply Moves.next (h' := State.settleInst_moves)); (case hq => decide))
    | ((with_reducible apply Moves.next (h' := State.arrive_moves)); (case hq => decide))
    | ((with_reducible apply Moves.next (h' := State.send_moves)); (case hq => decide))
    | ((with_reducible apply Moves.next (h' := State.markCopy_moves)); (case hq => decide))
    | ((with_reducible apply Moves.next (h' := State.bump_moves)); (case hq => decide))
    | with_reducible apply Moves.ite
    | split

theorem execStreamMark_moves {p : TrcPacket} {s : State} :
    OutMoves [.coll, .hop, .hall, .cmd, .model, .verd, .trace, .outs] s (execStreamMark p s) := by
  unfold execStreamMark
  try dsimp only
  repeat' first
    | with_reducible apply Moves.refl
    | assumption
    | with_reducible apply OutMoves.next
    | with_reducible apply OutMoves.ite
    | ((with_reducible apply Moves.next (h' := State.modChan_moves)); (case hq => decide))
    | ((with_reducible apply Moves.next (h' := State.pushInput_moves)); (case hq => decide))
    | ((with_reducible apply Moves.next (h' := State.switchDue_moves)); (case hq => decide))
    | ((with_reducible apply Moves.next (h' := State.markCopy_moves)); (case hq => decide))
    | ((with_reducible apply Moves.next (h' := State.bump_moves)); (case hq => decide))
    | with_reducible apply Moves.ite
    | ((with_reducible apply Moves.fold); (intro t x m))
    | split

theorem State.authRecords_moves {code : BitVec 16} {mask : BitVec 256} {s : State} :
    Moves [.coll, .hop, .hall, .cmd, .outs] s (State.authRecords code mask s) := by
  unfold State.authRecords
  try dsimp only
  repeat' first
    | with_reducible apply Moves.refl
    | assumption
    | ((with_reducible apply Moves.next (h' := State.stage_moves)); (case hq => decide))
    | with_reducible apply Moves.ite
    | ((with_reducible apply Moves.fold); (intro t x m))

theorem State.endAuth_moves {s : State} :
    Moves [.coll, .hop, .hall, .cmd, .trace, .outs] s (State.endAuth s) := by
  unfold State.endAuth
  try dsimp only
  repeat' first
    | with_reducible apply Moves.refl
    | assumption
    | ((with_reducible apply Moves.next (h' := State.authRecords_moves)); (case hq => decide))
    | ((with_reducible apply Moves.next (h' := State.modTrace_moves)); (case hq => decide))
    | with_reducible apply Moves.ite
    | split

theorem execAuthExpiry_moves {s : State} :
    OutMoves [.coll, .hop, .hall, .cmd, .trace, .outs] s (execAuthExpiry s) := by
  unfold execAuthExpiry
  try dsimp only
  repeat' first
    | with_reducible apply Moves.refl
    | assumption
    | with_reducible apply OutMoves.next
    | with_reducible apply OutMoves.ite
    | ((with_reducible apply Moves.next (h' := State.endAuth_moves)); (case hq => decide))
    | with_reducible apply Moves.ite
    | split

theorem execAuthLockoutEnd_moves {s : State} :
    OutMoves [.trace] s (execAuthLockoutEnd s) := by
  unfold execAuthLockoutEnd
  try dsimp only
  repeat' first
    | with_reducible apply Moves.refl
    | assumption
    | with_reducible apply OutMoves.next
    | with_reducible apply OutMoves.ite
    | ((with_reducible apply Moves.next (h' := State.modTrace_moves)); (case hq => decide))
    | with_reducible apply Moves.ite
    | split

theorem State.dropBuffer_moves {keep : Bool} {s : State} :
    Moves [.coll, .trace] s (State.dropBuffer keep s) := by
  unfold State.dropBuffer
  try dsimp only
  repeat' first
    | with_reducible apply Moves.refl
    | assumption
    | ((with_reducible apply Moves.next (h' := State.dropPacket_moves)); (case hq => decide))
    | ((with_reducible apply Moves.next (h' := State.bumpN_moves)); (case hq => decide))
    | ((with_reducible apply Moves.next (h' := State.modTrace_moves)); (case hq => decide))
    | with_reducible apply Moves.ite
    | ((with_reducible apply Moves.fold); (intro t x m))
    | split

theorem State.traceEngReset_moves {s : State} :
    Moves [.coll, .hop, .hall, .cmd, .trace, .outs] s (State.traceEngReset s) := by
  unfold State.traceEngReset
  try dsimp only
  repeat' first
    | with_reducible apply Moves.refl
    | assumption
    | ((with_reducible apply Moves.next (h' := State.modTrace_moves)); (case hq => decide))
    | ((with_reducible apply Moves.next (h' := State.dropBuffer_moves)); (case hq => decide))
    | ((with_reducible apply Moves.next (h' := State.endAuth_moves)); (case hq => decide))

theorem State.flushDump_moves {w : Nat} {s : State} :
    Moves [.coll, .hop, .hall, .cmd, .trace, .outs] s (State.flushDump w s) := by
  unfold State.flushDump
  try dsimp only
  repeat' first
    | with_reducible apply Moves.refl
    | assumption
    | ((with_reducible apply Moves.next (h' := State.pumpDump_moves)); (case hq => decide))
    | ((with_reducible apply Moves.next (h' := State.putTwatch_moves)); (case hq => decide))
    | with_reducible apply Moves.ite
    | split

theorem State.traceDrain_moves {s : State} :
    Moves [.coll, .hop, .hall, .cmd, .trace, .outs] s (State.traceDrain s) := by
  unfold State.traceDrain
  try dsimp only
  repeat' first
    | with_reducible apply Moves.refl
    | assumption
    | ((with_reducible apply Moves.next (h' := State.flushDump_moves)); (case hq => decide))
    | ((with_reducible apply Moves.next (h' := State.tracePump_moves)); (case hq => decide))
    | ((with_reducible apply Moves.next (h' := State.closeTrace_moves)); (case hq => decide))
    | with_reducible apply Moves.ite
    | ((with_reducible apply Moves.fold); (intro t x m))
    | split

theorem State.traceWake_moves {s : State} :
    Moves [.coll, .hop, .hall, .cmd, .trace, .outs] s (State.traceWake s) := by
  unfold State.traceWake
  try dsimp only
  repeat' first
    | with_reducible apply Moves.refl
    | assumption
    | ((with_reducible apply Moves.next (h' := State.fullIfDue_moves)); (case hq => decide))
    | ((with_reducible apply Moves.next (h' := State.modTrace_moves)); (case hq => decide))
    | with_reducible apply Moves.ite
    | split

theorem execTraceConfig_moves {c : Cmd} {s : State} :
    OutMoves [.pow, .coll, .hop, .hall, .cmd, .trace, .hoist, .outs] s (execTraceConfig c s) := by
  unfold execTraceConfig
  try dsimp only
  repeat' first
    | with_reducible apply Moves.refl
    | assumption
    | with_reducible apply AnsMoves.ok
    | with_reducible apply AnsMoves.acc
    | with_reducible apply AnsMoves.hold
    | with_reducible apply AnsMoves.ite
    | with_reducible apply OutMoves.next
    | with_reducible apply OutMoves.ite
    | ((with_reducible apply Moves.runCmd); (case hq => decide); (case' he => intro t))
    | ((with_reducible apply Moves.next (h' := State.modTrace_moves)); (case hq => decide))
    | with_reducible apply Moves.ite
    | split

theorem execTraceAuth_moves {c : Cmd} {s : State} :
    OutMoves [.pow, .coll, .hop, .hall, .cmd, .trace, .hoist, .outs] s (execTraceAuth c s) := by
  unfold execTraceAuth
  try dsimp only
  repeat' first
    | with_reducible apply Moves.refl
    | assumption
    | with_reducible apply AnsMoves.ok
    | with_reducible apply AnsMoves.acc
    | with_reducible apply AnsMoves.hold
    | with_reducible apply AnsMoves.ite
    | with_reducible apply OutMoves.next
    | with_reducible apply OutMoves.ite
    | ((with_reducible apply Moves.runCmd); (case hq => decide); (case' he => intro t))
    | ((with_reducible apply Moves.next (h' := State.authRecords_moves)); (case hq => decide))
    | ((with_reducible apply Moves.next (h' := State.modTrace_moves)); (case hq => decide))
    | ((with_reducible apply Moves.next (h' := State.stage_moves)); (case hq => decide))
    | with_reducible apply Moves.ite
    | split

theorem execTraceDeauth_moves {c : Cmd} {s : State} :
    OutMoves [.pow, .coll, .hop, .hall, .cmd, .trace, .hoist, .outs] s (execTraceDeauth c s) := by
  unfold execTraceDeauth
  try dsimp only
  repeat' first
    | with_reducible apply Moves.refl
    | assumption
    | with_reducible apply AnsMoves.ok
    | with_reducible apply AnsMoves.acc
    | with_reducible apply AnsMoves.hold
    | with_reducible apply AnsMoves.ite
    | with_reducible apply OutMoves.next
    | with_reducible apply OutMoves.ite
    | ((with_reducible apply Moves.runCmd); (case hq => decide); (case' he => intro t))
    | ((with_reducible apply Moves.next (h' := State.endAuth_moves)); (case hq => decide))

theorem execTraceStatus_moves {c : Cmd} {s : State} :
    OutMoves [.pow, .coll, .hop, .hall, .cmd, .hoist, .outs] s (execTraceStatus c s) := by
  unfold execTraceStatus
  try dsimp only
  repeat' first
    | with_reducible apply Moves.refl
    | assumption
    | with_reducible apply AnsMoves.ok
    | with_reducible apply AnsMoves.acc
    | with_reducible apply AnsMoves.hold
    | with_reducible apply AnsMoves.ite
    | with_reducible apply OutMoves.next
    | with_reducible apply OutMoves.ite
    | ((with_reducible apply Moves.runCmd); (case hq => decide); (case' he => intro t))
    | with_reducible apply Moves.ite
    | split

theorem execWatchArm_moves {c : Cmd} {s : State} :
    OutMoves [.pow, .coll, .hop, .hall, .cmd, .trace, .hoist, .outs] s (execWatchArm c s) := by
  unfold execWatchArm
  try dsimp only
  repeat' first
    | with_reducible apply Moves.refl
    | assumption
    | with_reducible apply AnsMoves.ok
    | with_reducible apply AnsMoves.acc
    | with_reducible apply AnsMoves.hold
    | with_reducible apply AnsMoves.ite
    | with_reducible apply OutMoves.next
    | with_reducible apply OutMoves.ite
    | ((with_reducible apply Moves.runCmd); (case hq => decide); (case' he => intro t))
    | ((with_reducible apply Moves.next (h' := State.event_moves)); (case hq => decide))
    | ((with_reducible apply Moves.next (h' := State.putTwatch_moves)); (case hq => decide))
    | with_reducible apply Moves.ite
    | split

theorem execWatchDisarm_moves {c : Cmd} {s : State} :
    OutMoves [.pow, .coll, .hop, .hall, .cmd, .trace, .hoist, .outs] s (execWatchDisarm c s) := by
  unfold execWatchDisarm
  try dsimp only
  repeat' first
    | with_reducible apply Moves.refl
    | assumption
    | with_reducible apply AnsMoves.ok
    | with_reducible apply AnsMoves.acc
    | with_reducible apply AnsMoves.hold
    | with_reducible apply AnsMoves.ite
    | with_reducible apply OutMoves.next
    | with_reducible apply OutMoves.ite
    | ((with_reducible apply Moves.runCmd); (case hq => decide); (case' he => intro t))
    | ((with_reducible apply Moves.next (h' := State.disarm_moves)); (case hq => decide))
    | with_reducible apply Moves.ite
    | split

theorem execWatchRate_moves {c : Cmd} {s : State} :
    OutMoves [.pow, .coll, .hop, .hall, .cmd, .trace, .hoist, .outs] s (execWatchRate c s) := by
  unfold execWatchRate
  try dsimp only
  repeat' first
    | with_reducible apply Moves.refl
    | assumption
    | with_reducible apply AnsMoves.ok
    | with_reducible apply AnsMoves.acc
    | with_reducible apply AnsMoves.hold
    | with_reducible apply AnsMoves.ite
    | with_reducible apply OutMoves.next
    | with_reducible apply OutMoves.ite
    | ((with_reducible apply Moves.runCmd); (case hq => decide); (case' he => intro t))
    | ((with_reducible apply Moves.next (h' := State.modTrace_moves)); (case hq => decide))
    | with_reducible apply Moves.ite
    | split

theorem execWatchStatus_moves {c : Cmd} {s : State} :
    OutMoves [.pow, .coll, .hop, .hall, .cmd, .hoist, .outs] s (execWatchStatus c s) := by
  unfold execWatchStatus
  try dsimp only
  repeat' first
    | with_reducible apply Moves.refl
    | assumption
    | with_reducible apply AnsMoves.ok
    | with_reducible apply AnsMoves.acc
    | with_reducible apply AnsMoves.hold
    | with_reducible apply AnsMoves.ite
    | with_reducible apply OutMoves.next
    | with_reducible apply OutMoves.ite
    | ((with_reducible apply Moves.runCmd); (case hq => decide); (case' he => intro t))
    | with_reducible apply Moves.ite
    | split

theorem execJobEnd_moves {c : Cmd} {s : State} :
    OutMoves [.pow, .coll, .hop, .hall, .cmd, .verd, .sentry, .trace, .brake, .hoist, .outs] s (execJobEnd c s) := by
  unfold execJobEnd
  try dsimp only
  repeat' first
    | with_reducible apply Moves.refl
    | assumption
    | with_reducible apply AnsMoves.ok
    | with_reducible apply AnsMoves.acc
    | with_reducible apply AnsMoves.hold
    | with_reducible apply AnsMoves.ite
    | with_reducible apply OutMoves.next
    | with_reducible apply OutMoves.ite
    | ((with_reducible apply Moves.runCmd); (case hq => decide); (case' he => intro t))
    | ((with_reducible apply Moves.next (h' := State.closeInst_moves)); (case hq => decide))
    | ((with_reducible apply Moves.next (h' := State.modVerd_moves)); (case hq => decide))
    | ((with_reducible apply Moves.next (h' := State.disarm_moves)); (case hq => decide))
    | ((with_reducible apply Moves.next (h' := State.modSentry_moves)); (case hq => decide))
    | ((with_reducible apply Moves.next (h' := State.discardSteps_moves)); (case hq => decide))
    | ((with_reducible apply Moves.modHop); (case hq => decide); (case e0 => with_reducible rfl))
    | with_reducible apply Moves.ite
    | ((with_reducible apply Moves.fold); (intro t x m))
    | split

end Sys2Proof.Machine
end

