-- ==== Sys2Proof/Laws/Temper.lean ====
section
/-! SUPPORT. What the operations of Machine/Temper.lean can change, and that they keep the invariant. -/

namespace Sys2Proof.Machine

theorem execTmPeriodBoundary_moves {temp : Int} {s : State} :
    OutMoves [.temper] s (execTmPeriodBoundary temp s) := by
  unfold execTmPeriodBoundary
  try dsimp only
  repeat' first
    | with_reducible apply Moves.refl
    | assumption
    | with_reducible apply OutMoves.next
    | with_reducible apply OutMoves.ite
    | ((with_reducible apply Moves.next (h' := State.modTemper_moves)); (case hq => decide))
    | with_reducible apply Moves.ite

theorem execTemperMeasurementDone_moves {slack : List (Option Nat)} {ros : List Nat} {w : PmbWrite} {s : State} :
    OutMoves [.coll, .hop, .hall, .cmd, .gov, .temper, .flash, .conf, .outs] s (execTemperMeasurementDone slack ros w s) := by
  unfold execTemperMeasurementDone
  try dsimp only
  repeat' first
    | with_reducible apply Moves.refl
    | assumption
    | with_reducible apply OutMoves.next
    | with_reducible apply OutMoves.ite
    | ((with_reducible apply Moves.next (h' := State.modTemper_moves)); (case hq => decide))
    | ((with_reducible apply Moves.next (h' := State.stage_moves)); (case hq => decide))
    | ((with_reducible apply Moves.next (h' := State.modGov_moves)); (case hq => decide))
    | ((with_reducible apply Moves.next (h' := State.ownPlan_moves)); (case hq => decide))
    | ((with_reducible apply Moves.next (h' := State.send_moves)); (case hq => decide))
    | with_reducible apply Moves.ite
    | split

theorem execTemperConfig_moves {c : Cmd} {s : State} :
    OutMoves [.pow, .coll, .hop, .hall, .cmd, .temper, .hoist, .outs] s (execTemperConfig c s) := by
  unfold execTemperConfig
  try dsimp only
  repeat' first
    | with_reducible apply Moves.refl
    | assumption
    | with_reducible apply AnsMoves.ok
    | with_reducible apply AnsMoves.acc
    | with_reducible apply AnsMoves.hold
    | with_reducible apply AnsMoves.ite
    | with_reducible apply OutMoves.next
    | with_reducible apply OutMoves.ite
    | ((with_reducible apply Moves.runCmd); (case hq => decide); (case' he => intro t))
    | ((with_reducible apply Moves.next (h' := State.modTemper_moves)); (case hq => decide))
    | with_reducible apply Moves.ite
    | split

end Sys2Proof.Machine
end

