-- ==== Sys2Proof/Laws/Resets.lean ====
section
/-! SUPPORT. What the operations of Machine/Resets.lean can change, and that they keep the invariant. -/

namespace Sys2Proof.Machine

theorem State.portReset_moves {p : Nat} {s : State} :
    Moves [.pow, .time, .hop, .cmd] s (State.portReset p s) := by
  unfold State.portReset
  try dsimp only
  repeat' first
    | with_reducible apply Moves.refl
    | assumption
    | ((with_reducible apply Moves.next (h' := State.modPow_moves)); (case hq => decide))
    | ((with_reducible apply Moves.next (h' := State.modIfc_moves)); (case hq => decide))
    | ((with_reducible apply Moves.next (h' := State.dropSecond_moves)); (case hq => decide))
    | ((with_reducible apply Moves.modCmd); (case hq => decide); (case e0 => with_reducible rfl); (case e1 => with_reducible rfl))
    | ((with_reducible apply Moves.next (h' := State.modTime_moves)); (case hq => decide))
    | ((with_reducible apply Moves.cmdOk); (case hq => decide); (case k => intro k; exact ⟨k.1, k.2⟩))
    | with_reducible apply Moves.ite
    | ((with_reducible apply Moves.fold); (intro t x m))
    | split

theorem State.engReset_moves {s : State} :
    Moves [.pow, .time, .coll, .hop, .hall, .cmd, .crown, .model, .verd, .sentry, .trace, .brake, .outs] s (State.engReset s) := by
  unfold State.engReset
  try dsimp only
  repeat' first
    | with_reducible apply Moves.refl
    | assumption
    | ((with_reducible apply Moves.next (h' := State.bumpN_moves)); (case hq => decide))
    | ((with_reducible apply Moves.next (h' := State.traceEngReset_moves)); (case hq => decide))
    | ((with_reducible apply Moves.next (h' := State.modBrake_moves)); (case hq => decide))
    | ((with_reducible apply Moves.modCmd); (case hq => decide); (case e0 => with_reducible rfl); (case e1 => with_reducible rfl))
    | ((with_reducible apply Moves.next (h' := State.modSentry_moves)); (case hq => decide))
    | ((with_reducible apply Moves.next (h' := State.modVerd_moves)); (case hq => decide))
    | ((with_reducible apply Moves.next (h' := State.modModel_moves)); (case hq => decide))
    | ((with_reducible apply Moves.next (h' := State.modCrown_moves)); (case hq => decide))
    | ((with_reducible apply Moves.next (h' := State.modTime_moves)); (case hq => decide))
    | ((with_reducible apply Moves.modColl); (case hq => decide); (case e0 => with_reducible rfl); (case e1 => with_reducible rfl); (case e2 => with_reducible rfl))
    | ((with_reducible apply Moves.modHop); (case hq => decide); (case e0 => with_reducible rfl))
    | ((with_reducible apply Moves.next (h' := State.modPow_moves)); (case hq => decide))
    | ((with_reducible apply Moves.cmdOk); (case hq => decide); (case k => intro k; exact ⟨k.1, k.2⟩))
    | ((with_reducible apply Moves.collOk); (case hq => decide); (case k => intro k; exact ⟨counterTableOk_filter k.1, k.2⟩))
    | with_reducible apply Moves.ite
    | split

theorem State.clearWaiting_moves {s : State} :
    Moves [.flash, .outs] s (State.clearWaiting s) := by
  unfold State.clearWaiting
  try dsimp only
  repeat' first
    | with_reducible apply Moves.refl
    | assumption
    | ((with_reducible apply Moves.next (h' := State.clearIngot_moves)); (case hq => decide))
    | with_reducible apply Moves.ite
    | split

theorem State.ctlReset_moves {s : State} :
    Moves [.pow, .hop, .cmd, .brake, .temper, .flash, .hoist, .outs] s (State.ctlReset s) := by
  unfold State.ctlReset
  try dsimp only
  repeat' first
    | with_reducible apply Moves.refl
    | assumption
    | ((with_reducible apply Moves.next (h' := State.modBrake_moves)); (case hq => decide))
    | ((with_reducible apply Moves.next (h' := State.clearWaiting_moves)); (case hq => decide))
    | ((with_reducible apply Moves.next (h' := State.modHoist_moves)); (case hq => decide))
    | ((with_reducible apply Moves.next (h' := State.modTemper_moves)); (case hq => decide))
    | ((with_reducible apply Moves.modHop); (case hq => decide); (case e0 => with_reducible rfl))
    | ((with_reducible apply Moves.modCmd); (case hq => decide); (case e0 => with_reducible rfl); (case e1 => with_reducible rfl))
    | ((with_reducible apply Moves.next (h' := State.modPow_moves)); (case hq => decide))
    | ((with_reducible apply Moves.cmdOk); (case hq => decide); (case k => intro k; exact ⟨k.1, by simp⟩))
    | with_reducible apply Moves.ite
    | split

theorem State.lastGasp_moves {sources domains : Nat} {s : State} :
    Moves [.sys, .coll, .hop, .outs] s (State.lastGasp sources domains s) := by
  unfold State.lastGasp
  try dsimp only
  repeat' first
    | with_reducible apply Moves.refl
    | assumption
    | ((with_reducible apply Moves.next (h' := State.bump_moves)); (case hq => decide))
    | ((with_reducible apply Moves.modOut); (case hq => decide); (case hf => exact fun _ k => k))
    | ((with_reducible apply Moves.next (h' := State.sendFrame_moves)); (case hq => decide))
    | ((with_reducible apply Moves.next (h' := State.charge_moves)); (case hq => decide))
    | ((with_reducible apply Moves.next (h' := State.dropMark_moves)); (case hq => decide))
    | ((with_reducible apply Moves.modHop); (case hq => decide); (case e0 => with_reducible rfl))
    | ((with_reducible apply Moves.modOut); (case hq => decide); (case hf => exact fun _ k => pos_step k))
    | with_reducible apply Moves.ite

theorem State.abortFrame_moves {s : State} {i : Nat} :
    Moves [.coll, .hop, .outs] s (State.abortFrame s i) := by
  unfold State.abortFrame
  try dsimp only
  repeat' first
    | with_reducible apply Moves.refl
    | assumption
    | ((with_reducible apply Moves.next (h' := State.emit_moves)); (case hq => decide))
    | ((with_reducible apply Moves.next (h' := State.bumpN_moves)); (case hq => decide))
    | ((with_reducible apply Moves.modOut); (case hq => decide); (case hf => exact fun _ k => k))
    | with_reducible apply Moves.ite
    | split

theorem State.abortFrames_moves {s : State} :
    Moves [.coll, .hop, .outs] s (State.abortFrames s) := by
  unfold State.abortFrames
  try dsimp only
  repeat' first
    | with_reducible apply Moves.refl
    | assumption
    | ((with_reducible apply Moves.next (h' := State.abortFrame_moves)); (case hq => decide))
    | with_reducible apply Moves.ite
    | ((with_reducible apply Moves.fold); (intro t x m))
    | split

theorem State.resetEntry_moves {src : Nat} {ctl eng : Bool} {ports : List Nat} {s : State} :
    Moves [.sys, .pow, .time, .coll, .hop, .hall, .cmd, .crown, .model, .verd, .sentry, .trace, .brake, .test, .temper, .flash, .conf, .hoist, .outs] s (State.resetEntry src ctl eng ports s) := by
  unfold State.resetEntry
  try dsimp only
  repeat' first
    | with_reducible apply Moves.refl
    | assumption
    | ((with_reducible apply Moves.next (h' := State.testReset_moves)); (case hq => decide))
    | ((with_reducible apply Moves.next (h' := State.abortFrames_moves)); (case hq => decide))
    | ((with_reducible apply Moves.next (h' := State.modPow_moves)); (case hq => decide))
    | ((with_reducible apply Moves.next (h' := State.lastGasp_moves)); (case hq => decide))
    | ((with_reducible apply Moves.next (h' := State.flushAll_moves)); (case hq => decide))
    | ((with_reducible apply Moves.next (h' := State.engReset_moves)); (case hq => decide))
    | ((with_reducible apply Moves.next (h' := State.ctlReset_moves)); (case hq => decide))
    | ((with_reducible apply Moves.next (h' := State.portReset_moves)); (case hq => decide))
    | with_reducible apply Moves.ite
    | ((with_reducible apply Moves.fold); (intro t x m))
    | split

end Sys2Proof.Machine
end

