-- ==== Sys2Proof/Laws/Hoist.lean ====
section
/-! SUPPORT. What the operations of Machine/Hoist.lean can change, and that they keep the invariant. -/

namespace Sys2Proof.Machine

theorem State.modStage_moves {f : Stage → Stage} {s : State} :
    Moves [.hoist] s (State.modStage f s) := by
  unfold State.modStage
  try dsimp only
  repeat' first
    | with_reducible apply Moves.refl
    | assumption
    | ((with_reducible apply Moves.next (h' := State.modHoist_moves)); (case hq => decide))

theorem State.putImage_moves {kind slot : Nat} {b : List Byte} {s : State} :
    Moves [.flash] s (State.putImage kind slot b s) := by
  unfold State.putImage
  try dsimp only
  repeat' first
    | with_reducible apply Moves.refl
    | assumption
    | ((with_reducible apply Moves.next (h' := State.modFlash_moves)); (case hq => decide))
    | with_reducible apply Moves.ite

theorem State.eraseSlot_moves {kind slot : Nat} {s : State} :
    Moves [.flash, .outs] s (State.eraseSlot kind slot s) := by
  unfold State.eraseSlot
  try dsimp only
  repeat' first
    | with_reducible apply Moves.refl
    | assumption
    | ((with_reducible apply Moves.next (h' := State.eraseFlash_moves)); (case hq => decide))
    | ((with_reducible apply Moves.next (h' := State.putImage_moves)); (case hq => decide))
    | with_reducible apply Moves.ite
    | split

theorem State.slotBegin_moves {kind slot : Nat} {s : State} :
    Moves [.flash, .outs] s (State.slotBegin kind slot s) := by
  unfold State.slotBegin
  try dsimp only
  repeat' first
    | with_reducible apply Moves.refl
    | assumption
    | ((with_reducible apply Moves.next (h' := State.modFlash_moves)); (case hq => decide))
    | ((with_reducible apply Moves.next (h' := State.modDir_moves)); (case hq => decide))
    | ((with_reducible apply Moves.next (h' := State.eraseSlot_moves)); (case hq => decide))
    | with_reducible apply Moves.ite
    | split

theorem State.sendChunk_moves {dst : Laddr} {mode kind slot result : Nat} {xfer : Word} {len chunk digest : Nat} {data : List Byte} {s : State} :
    Moves [.coll, .hop, .hall, .cmd, .brake, .outs] s (State.sendChunk dst mode kind slot result xfer len chunk digest data s) := by
  unfold State.sendChunk
  try dsimp only
  repeat' first
    | with_reducible apply Moves.refl
    | assumption
    | ((with_reducible apply Moves.next (h' := State.sendOwed_moves)); (case hq => decide))
    | with_reducible apply Moves.ite
    | split

theorem State.sendData_moves {g : Stage} {c : Nat} {s : State} :
    Moves [.coll, .hop, .hall, .cmd, .brake, .outs] s (State.sendData g c s) := by
  unfold State.sendData
  try dsimp only
  repeat' first
    | with_reducible apply Moves.refl
    | assumption
    | ((with_reducible apply Moves.next (h' := State.sendChunk_moves)); (case hq => decide))
    | with_reducible apply Moves.ite
    | split

theorem State.sendAck_moves {g : Stage} {c : Nat} {s : State} :
    Moves [.coll, .hop, .hall, .cmd, .brake, .outs] s (State.sendAck g c s) := by
  unfold State.sendAck
  try dsimp only
  repeat' first
    | with_reducible apply Moves.refl
    | assumption
    | ((with_reducible apply Moves.next (h' := State.sendChunk_moves)); (case hq => decide))
    | with_reducible apply Moves.ite
    | split

theorem State.pumpChunks_moves  {n : Nat} {s : State} :
    Moves [.coll, .hop, .hall, .cmd, .brake, .hoist, .outs] s (State.pumpChunks n s) := by
  induction n generalizing s with
  | zero => exact Moves.refl s
  | succ n ih =>
    unfold State.pumpChunks
    try dsimp only
    repeat' first
      | ((with_reducible apply Moves.next (h' := ih)); (case hq => decide))
      | with_reducible apply Moves.refl
      | assumption
      | ((with_reducible apply Moves.next (h' := State.modStage_moves)); (case hq => decide))
      | ((with_reducible apply Moves.next (h' := State.sendData_moves)); (case hq => decide))
      | with_reducible apply Moves.ite
      | split

theorem State.pumpStage_moves {s : State} :
    Moves [.coll, .hop, .hall, .cmd, .brake, .hoist, .outs] s (State.pumpStage s) := by
  unfold State.pumpStage
  try dsimp only
  repeat' first
    | with_reducible apply Moves.refl
    | assumption
    | ((with_reducible apply Moves.next (h' := State.pumpChunks_moves)); (case hq => decide))
    | with_reducible apply Moves.ite
    | split

theorem State.stageDrop_moves {s : State} :
    Moves [.hoist] s (State.stageDrop s) := by
  unfold State.stageDrop
  try dsimp only
  repeat' first
    | with_reducible apply Moves.refl
    | assumption
    | ((with_reducible apply Moves.next (h' := State.modHoist_moves)); (case hq => decide))
    | with_reducible apply Moves.ite
    | split

theorem State.stageOk_moves {g : Stage} {ver : Word} {s : State} :
    Moves [.coll, .hop, .hall, .cmd, .hoist, .outs] s (State.stageOk g ver s) := by
  unfold State.stageOk
  try dsimp only
  repeat' first
    | with_reducible apply Moves.refl
    | assumption
    | ((with_reducible apply Moves.next (h' := State.stageDrop_moves)); (case hq => decide))
    | ((with_reducible apply Moves.next (h' := State.stage_moves)); (case hq => decide))
    | ((with_reducible apply Moves.next (h' := State.finishAll_moves)); (case hq => decide))
    | ((with_reducible apply Moves.next (h' := State.modStage_moves)); (case hq => decide))

theorem State.stageFail_moves {g : Stage} {st : BitVec 16} {s : State} :
    Moves [.coll, .hop, .hall, .cmd, .flash, .hoist, .outs] s (State.stageFail g st s) := by
  unfold State.stageFail
  try dsimp only
  repeat' first
    | with_reducible apply Moves.refl
    | assumption
    | ((with_reducible apply Moves.next (h' := State.eraseSlot_moves)); (case hq => decide))
    | ((with_reducible apply Moves.next (h' := State.modDir_moves)); (case hq => decide))
    | ((with_reducible apply Moves.next (h' := State.stage_moves)); (case hq => decide))
    | ((with_reducible apply Moves.next (h' := State.finishAll_moves)); (case hq => decide))
    | ((with_reducible apply Moves.next (h' := State.modHoist_moves)); (case hq => decide))
    | with_reducible apply Moves.ite
    | split

theorem State.stageWhole_moves {s : State} :
    Moves [.coll, .hop, .hall, .cmd, .flash, .hoist, .outs] s (State.stageWhole s) := by
  unfold State.stageWhole
  try dsimp only
  repeat' first
    | with_reducible apply Moves.refl
    | assumption
    | ((with_reducible apply Moves.next (h' := State.stageOk_moves)); (case hq => decide))
    | ((with_reducible apply Moves.next (h' := State.slotBegin_moves)); (case hq => decide))
    | ((with_reducible apply Moves.next (h' := State.stageFail_moves)); (case hq => decide))
    | with_reducible apply Moves.ite
    | split

theorem State.stageStart_moves {s : State} :
    Moves [.coll, .hop, .hall, .cmd, .brake, .flash, .hoist, .outs] s (State.stageStart s) := by
  unfold State.stageStart
  try dsimp only
  repeat' first
    | with_reducible apply Moves.refl
    | assumption
    | ((with_reducible apply Moves.next (h' := State.stageWhole_moves)); (case hq => decide))
    | ((with_reducible apply Moves.next (h' := State.pumpStage_moves)); (case hq => decide))
    | with_reducible apply Moves.ite
    | split

theorem execUpdateStage_moves {c : Cmd} {s : State} :
    OutMoves [.pow, .coll, .hop, .hall, .cmd, .brake, .flash, .hoist, .outs] s (execUpdateStage c s) := by
  unfold execUpdateStage
  try dsimp only
  repeat' first
    | with_reducible apply Moves.refl
    | assumption
    | with_reducible apply AnsMoves.ok
    | with_reducible apply AnsMoves.acc
    | with_reducible apply AnsMoves.hold
    | with_reducible apply AnsMoves.ite
    | with_reducible apply OutMoves.next
    | with_reducible apply OutMoves.ite
    | ((with_reducible apply Moves.next (h' := State.stageStart_moves)); (case hq => decide))
    | ((with_reducible apply Moves.runCmd); (case hq => decide); (case' he => intro t))
    | ((with_reducible apply Moves.next (h' := State.modHoist_moves)); (case hq => decide))
    | ((with_reducible apply Moves.next (h' := State.slotBegin_moves)); (case hq => decide))
    | with_reducible apply Moves.ite
    | split

theorem State.stageWritten_moves {g : Stage} {s : State} :
    Moves [.flash, .outs] s (State.stageWritten g s) := by
  unfold State.stageWritten
  try dsimp only
  repeat' first
    | with_reducible apply Moves.refl
    | assumption
    | ((with_reducible apply Moves.next (h' := State.eraseSlot_moves)); (case hq => decide))
    | ((with_reducible apply Moves.next (h' := State.programFlash_moves)); (case hq => decide))
    | ((with_reducible apply Moves.next (h' := State.readFlash_moves)); (case hq => decide))
    | with_reducible apply Moves.ite
    | split

theorem execStageComplete_moves {readBackOk : Bool} {s : State} :
    OutMoves [.coll, .hop, .hall, .cmd, .test, .flash, .conf, .hoist, .outs] s (execStageComplete readBackOk s) := by
  unfold execStageComplete
  try dsimp only
  repeat' first
    | with_reducible apply Moves.refl
    | assumption
    | with_reducible apply OutMoves.next
    | with_reducible apply OutMoves.ite
    | ((with_reducible apply Moves.next (h' := State.stageWritten_moves)); (case hq => decide))
    | ((with_reducible apply Moves.next (h' := State.stageFail_moves)); (case hq => decide))
    | ((with_reducible apply Moves.next (h' := State.writeConf_moves)); (case hq => decide))
    | ((with_reducible apply Moves.next (h' := State.stageOk_moves)); (case hq => decide))
    | ((with_reducible apply Moves.next (h' := State.modDir_moves)); (case hq => decide))
    | ((with_reducible apply Moves.next (h' := State.putImage_moves)); (case hq => decide))
    | ((with_reducible apply Moves.next (h' := State.modTest_moves)); (case hq => decide))
    | with_reducible apply Moves.ite
    | ((with_reducible apply Moves.fold); (intro t x m))
    | split

theorem execUpdateChain_moves {c : Cmd} {s : State} :
    OutMoves [.pow, .coll, .hop, .hall, .cmd, .brake, .hoist, .outs] s (execUpdateChain c s) := by
  unfold execUpdateChain
  try dsimp only
  repeat' first
    | with_reducible apply Moves.refl
    | assumption
    | with_reducible apply AnsMoves.ok
    | with_reducible apply AnsMoves.acc
    | with_reducible apply AnsMoves.hold
    | with_reducible apply AnsMoves.ite
    | with_reducible apply OutMoves.next
    | with_reducible apply OutMoves.ite
    | ((with_reducible apply Moves.next (h' := State.pumpStage_moves)); (case hq => decide))
    | ((with_reducible apply Moves.runCmd); (case hq => decide); (case' he => intro t))
    | ((with_reducible apply Moves.next (h' := State.modHoist_moves)); (case hq => decide))
    | with_reducible apply Moves.ite
    | split

theorem State.rxData_moves {r : Rec} {s : State} :
    Moves [.coll, .hop, .hall, .cmd, .brake, .flash, .hoist, .outs] s (State.rxData r s) := by
  unfold State.rxData
  try dsimp only
  repeat' first
    | with_reducible apply Moves.refl
    | assumption
    | ((with_reducible apply Moves.next (h' := State.sendAck_moves)); (case hq => decide))
    | ((with_reducible apply Moves.next (h' := State.stageFail_moves)); (case hq => decide))
    | ((with_reducible apply Moves.next (h' := State.modHoist_moves)); (case hq => decide))
    | ((with_reducible apply Moves.next (h' := State.slotBegin_moves)); (case hq => decide))
    | ((with_reducible apply Moves.next (h' := State.stageWhole_moves)); (case hq => decide))
    | ((with_reducible apply Moves.next (h' := State.pumpStage_moves)); (case hq => decide))
    | with_reducible apply Moves.ite
    | split

theorem State.rxChunkAck_moves {r : Rec} {s : State} :
    Moves [.coll, .hop, .hall, .cmd, .brake, .hoist, .outs] s (State.rxChunkAck r s) := by
  unfold State.rxChunkAck
  try dsimp only
  repeat' first
    | with_reducible apply Moves.refl
    | assumption
    | ((with_reducible apply Moves.next (h' := State.stageDrop_moves)); (case hq => decide))
    | ((with_reducible apply Moves.next (h' := State.pumpStage_moves)); (case hq => decide))
    | ((with_reducible apply Moves.next (h' := State.modStage_moves)); (case hq => decide))
    | with_reducible apply Moves.ite
    | split

theorem execChunkWritten_moves {index : Word} {s : State} :
    OutMoves [.coll, .hop, .hall, .cmd, .brake, .flash, .hoist, .outs] s (execChunkWritten index s) := by
  unfold execChunkWritten
  try dsimp only
  repeat' first
    | with_reducible apply Moves.refl
    | assumption
    | with_reducible apply OutMoves.next
    | with_reducible apply OutMoves.ite
    | ((with_reducible apply Moves.next (h' := State.eraseSlot_moves)); (case hq => decide))
    | ((with_reducible apply Moves.next (h' := State.programFlash_moves)); (case hq => decide))
    | ((with_reducible apply Moves.next (h' := State.sendAck_moves)); (case hq => decide))
    | ((with_reducible apply Moves.next (h' := State.modStage_moves)); (case hq => decide))
    | with_reducible apply Moves.ite
    | split

theorem execHoistRtoExpiry_moves {s : State} :
    OutMoves [.coll, .hop, .hall, .cmd, .brake, .hoist, .outs] s (execHoistRtoExpiry s) := by
  unfold execHoistRtoExpiry
  try dsimp only
  repeat' first
    | with_reducible apply Moves.refl
    | assumption
    | with_reducible apply OutMoves.next
    | with_reducible apply OutMoves.ite
    | ((with_reducible apply Moves.next (h' := State.modStage_moves)); (case hq => decide))
    | ((with_reducible apply Moves.next (h' := State.sendData_moves)); (case hq => decide))
    | ((with_reducible apply Moves.next (h' := State.stageDrop_moves)); (case hq => decide))
    | ((with_reducible apply Moves.next (h' := State.stage_moves)); (case hq => decide))
    | with_reducible apply Moves.ite
    | ((with_reducible apply Moves.fold); (intro t x m))
    | split

theorem execHoistWaitExpiry_moves {s : State} :
    OutMoves [.coll, .hop, .hall, .cmd, .flash, .hoist, .outs] s (execHoistWaitExpiry s) := by
  unfold execHoistWaitExpiry
  try dsimp only
  repeat' first
    | with_reducible apply Moves.refl
    | assumption
    | with_reducible apply OutMoves.next
    | with_reducible apply OutMoves.ite
    | ((with_reducible apply Moves.next (h' := State.stageFail_moves)); (case hq => decide))
    | with_reducible apply Moves.ite
    | split

theorem State.cfgTorn_moves {s : State} :
    Moves [.coll, .hop, .hall, .cmd, .outs] s (State.cfgTorn s) := by
  unfold State.cfgTorn
  try dsimp only
  repeat' first
    | with_reducible apply Moves.refl
    | assumption
    | ((with_reducible apply Moves.next (h' := State.stage_moves)); (case hq => decide))
    | with_reducible apply Moves.ite
    | split

theorem State.readConf_moves {s0 : State} :
    Moves [.coll, .hop, .hall, .cmd, .conf, .hoist, .outs] s0 (State.readConf s0) := by
  unfold State.readConf
  try dsimp only
  repeat' first
    | with_reducible apply Moves.refl
    | assumption
    | ((with_reducible apply Moves.next (h' := State.cfgTorn_moves)); (case hq => decide))
    | ((with_reducible apply Moves.next (h' := State.readFlash_moves)); (case hq => decide))
    | ((with_reducible apply Moves.next (h' := State.modHoist_moves)); (case hq => decide))
    | ((with_reducible apply Moves.next (h' := State.modConf_moves)); (case hq => decide))
    | with_reducible apply Moves.ite
    | split

theorem State.migrate_moves {s : State} :
    Moves [.coll, .hop, .hall, .cmd, .flash, .conf, .outs] s (State.migrate s) := by
  unfold State.migrate
  try dsimp only
  repeat' first
    | with_reducible apply Moves.refl
    | assumption
    | ((with_reducible apply Moves.next (h' := State.writeConf_moves)); (case hq => decide))
    | ((with_reducible apply Moves.next (h' := State.stage_moves)); (case hq => decide))
    | with_reducible apply Moves.ite

theorem State.startDone_moves {result : Nat} {slot : Nat} {s : State} :
    Moves [.coll, .hop, .hall, .cmd, .brake, .outs] s (State.startDone result slot s) := by
  unfold State.startDone
  try dsimp only
  repeat' first
    | with_reducible apply Moves.refl
    | assumption
    | ((with_reducible apply Moves.next (h' := State.sendChunk_moves)); (case hq => decide))
    | with_reducible apply Moves.ite
    | split

theorem State.startTrial_moves {slot : Nat} {path : Path} {tag : BitVec 16} {s : State} :
    Moves [.sys, .pow, .time, .coll, .hop, .hall, .cmd, .crown, .model, .verd, .sentry, .trace, .brake, .test, .temper, .flash, .conf, .hoist, .outs] s (State.startTrial slot path tag s) := by
  unfold State.startTrial
  try dsimp only
  repeat' first
    | with_reducible apply Moves.refl
    | assumption
    | ((with_reducible apply Moves.next (h' := State.resetEntry_moves)); (case hq => decide))
    | ((with_reducible apply Moves.next (h' := State.modHoist_moves)); (case hq => decide))
    | ((with_reducible apply Moves.next (h' := State.modDir_moves)); (case hq => decide))
    | ((with_reducible apply Moves.next (h' := State.intSet_moves)); (case hq => decide))

theorem State.startReply_moves {s : State} :
    Moves [.coll, .hop, .hall, .cmd, .hoist, .outs] s (State.startReply s) := by
  unfold State.startReply
  try dsimp only
  repeat' first
    | with_reducible apply Moves.refl
    | assumption
    | ((with_reducible apply Moves.next (h' := State.reply_moves)); (case hq => decide))
    | ((with_reducible apply Moves.next (h' := State.modHoist_moves)); (case hq => decide))
    | with_reducible apply Moves.ite
    | split

theorem State.confirmTrial_moves {s : State} :
    Moves [.coll, .hop, .hall, .cmd, .brake, .flash, .conf, .hoist, .outs] s (State.confirmTrial s) := by
  unfold State.confirmTrial
  try dsimp only
  repeat' first
    | with_reducible apply Moves.refl
    | assumption
    | ((with_reducible apply Moves.next (h' := State.modDir_moves)); (case hq => decide))
    | ((with_reducible apply Moves.next (h' := State.modConf_moves)); (case hq => decide))
    | ((with_reducible apply Moves.next (h' := State.modHoist_moves)); (case hq => decide))
    | ((with_reducible apply Moves.next (h' := State.startReply_moves)); (case hq => decide))
    | ((with_reducible apply Moves.next (h' := State.startDone_moves)); (case hq => decide))
    | ((with_reducible apply Moves.next (h' := State.stage_moves)); (case hq => decide))

theorem State.fallBack_moves {cause : Nat} {s : State} :
    Moves [.sys, .pow, .time, .coll, .hop, .hall, .cmd, .crown, .model, .verd, .sentry, .trace, .brake, .test, .temper, .flash, .conf, .hoist, .outs] s (State.fallBack cause s) := by
  unfold State.fallBack
  try dsimp only
  repeat' first
    | with_reducible apply Moves.refl
    | assumption
    | ((with_reducible apply Moves.next (h' := State.modDir_moves)); (case hq => decide))
    | ((with_reducible apply Moves.next (h' := State.stage_moves)); (case hq => decide))
    | ((with_reducible apply Moves.next (h' := State.modHoist_moves)); (case hq => decide))
    | ((with_reducible apply Moves.next (h' := State.modFlash_moves)); (case hq => decide))
    | ((with_reducible apply Moves.next (h' := State.eraseFlash_moves)); (case hq => decide))
    | ((with_reducible apply Moves.next (h' := State.startDone_moves)); (case hq => decide))
    | ((with_reducible apply Moves.next (h' := State.resetEntry_moves)); (case hq => decide))
    | with_reducible apply Moves.ite
    | split

theorem execFwSelfConfirm_moves {s : State} :
    OutMoves [.coll, .hop, .hall, .cmd, .brake, .flash, .conf, .hoist, .outs] s (execFwSelfConfirm s) := by
  unfold execFwSelfConfirm
  try dsimp only
  repeat' first
    | with_reducible apply Moves.refl
    | assumption
    | with_reducible apply OutMoves.next
    | with_reducible apply OutMoves.ite
    | ((with_reducible apply Moves.next (h' := State.confirmTrial_moves)); (case hq => decide))

theorem execFwHealthDeadline_moves {s : State} :
    OutMoves [.sys, .pow, .time, .coll, .hop, .hall, .cmd, .crown, .model, .verd, .sentry, .trace, .brake, .test, .temper, .flash, .conf, .hoist, .outs] s (execFwHealthDeadline s) := by
  unfold execFwHealthDeadline
  try dsimp only
  repeat' first
    | with_reducible apply Moves.refl
    | assumption
    | with_reducible apply OutMoves.next
    | with_reducible apply OutMoves.ite
    | ((with_reducible apply Moves.next (h' := State.confirmTrial_moves)); (case hq => decide))
    | ((with_reducible apply Moves.next (h' := State.fallBack_moves)); (case hq => decide))
    | with_reducible apply Moves.ite
    | split

theorem execUpdateStart_moves {c : Cmd} {s : State} :
    OutMoves [.sys, .pow, .time, .coll, .hop, .hall, .cmd, .crown, .model, .verd, .sentry, .trace, .brake, .test, .temper, .flash, .conf, .hoist, .outs] s (execUpdateStart c s) := by
  unfold execUpdateStart
  try dsimp only
  repeat' first
    | with_reducible apply Moves.refl
    | assumption
    | with_reducible apply AnsMoves.ok
    | with_reducible apply AnsMoves.acc
    | with_reducible apply AnsMoves.hold
    | with_reducible apply AnsMoves.ite
    | with_reducible apply OutMoves.next
    | with_reducible apply OutMoves.ite
    | ((with_reducible apply Moves.runCmd); (case hq => decide); (case' he => intro t))
    | ((with_reducible apply Moves.next (h' := State.modHoist_moves)); (case hq => decide))
    | ((with_reducible apply Moves.next (h' := State.sendChunk_moves)); (case hq => decide))
    | ((with_reducible apply Moves.next (h' := State.startTrial_moves)); (case hq => decide))
    | with_reducible apply Moves.ite
    | split

theorem State.startBusy_moves {s : State} :
    Moves [.coll, .hop, .hall, .cmd, .hoist, .outs] s (State.startBusy s) := by
  unfold State.startBusy
  try dsimp only
  repeat' first
    | with_reducible apply Moves.refl
    | assumption
    | ((with_reducible apply Moves.next (h' := State.finishAll_moves)); (case hq => decide))
    | ((with_reducible apply Moves.next (h' := State.modHoist_moves)); (case hq => decide))
    | with_reducible apply Moves.ite
    | split

theorem State.rxStartGrant_moves {r : Rec} {s : State} :
    Moves [.sys, .pow, .time, .coll, .hop, .hall, .cmd, .crown, .model, .verd, .sentry, .trace, .brake, .test, .temper, .flash, .conf, .hoist, .outs] s (State.rxStartGrant r s) := by
  unfold State.rxStartGrant
  try dsimp only
  repeat' first
    | with_reducible apply Moves.refl
    | assumption
    | ((with_reducible apply Moves.next (h' := State.startTrial_moves)); (case hq => decide))
    | with_reducible apply Moves.ite
    | split

theorem State.rxStartDeny_moves {r : Rec} {s : State} :
    Moves [.coll, .hop, .hall, .cmd, .hoist, .outs] s (State.rxStartDeny r s) := by
  unfold State.rxStartDeny
  try dsimp only
  repeat' first
    | with_reducible apply Moves.refl
    | assumption
    | ((with_reducible apply Moves.next (h' := State.startBusy_moves)); (case hq => decide))
    | with_reducible apply Moves.ite
    | split

theorem State.rxStartReq_moves {r : Rec} {s : State} :
    Moves [.coll, .hop, .hall, .cmd, .brake, .hoist, .outs] s (State.rxStartReq r s) := by
  unfold State.rxStartReq
  try dsimp only
  repeat' first
    | with_reducible apply Moves.refl
    | assumption
    | ((with_reducible apply Moves.next (h' := State.sendChunk_moves)); (case hq => decide))
    | ((with_reducible apply Moves.next (h' := State.modHoist_moves)); (case hq => decide))
    | with_reducible apply Moves.ite
    | split

theorem State.rxStartDone_moves {r : Rec} {s : State} :
    Moves [.hoist] s (State.rxStartDone r s) := by
  unfold State.rxStartDone
  try dsimp only
  repeat' first
    | with_reducible apply Moves.refl
    | assumption
    | ((with_reducible apply Moves.next (h' := State.modHoist_moves)); (case hq => decide))

theorem State.rxImage_moves {r : Rec} {s : State} :
    Moves [.sys, .pow, .time, .coll, .hop, .hall, .cmd, .crown, .model, .verd, .sentry, .trace, .brake, .test, .temper, .flash, .conf, .hoist, .outs] s (State.rxImage r s) := by
  unfold State.rxImage
  try dsimp only
  repeat' first
    | with_reducible apply Moves.refl
    | assumption
    | ((with_reducible apply Moves.next (h' := State.rxData_moves)); (case hq => decide))
    | ((with_reducible apply Moves.next (h' := State.rxChunkAck_moves)); (case hq => decide))
    | ((with_reducible apply Moves.next (h' := State.rxStartReq_moves)); (case hq => decide))
    | ((with_reducible apply Moves.next (h' := State.rxStartGrant_moves)); (case hq => decide))
    | ((with_reducible apply Moves.next (h' := State.rxStartDeny_moves)); (case hq => decide))
    | ((with_reducible apply Moves.next (h' := State.rxStartDone_moves)); (case hq => decide))
    | with_reducible apply Moves.ite
    | split

theorem execStartReqTimeout_moves {s : State} :
    OutMoves [.coll, .hop, .hall, .cmd, .hoist, .outs] s (execStartReqTimeout s) := by
  unfold execStartReqTimeout
  try dsimp only
  repeat' first
    | with_reducible apply Moves.refl
    | assumption
    | with_reducible apply OutMoves.next
    | with_reducible apply OutMoves.ite
    | ((with_reducible apply Moves.next (h' := State.startBusy_moves)); (case hq => decide))
    | with_reducible apply Moves.ite
    | split

theorem execStartGrantExpiry_moves {s : State} :
    OutMoves [.hoist] s (execStartGrantExpiry s) := by
  unfold execStartGrantExpiry
  try dsimp only
  repeat' first
    | with_reducible apply Moves.refl
    | assumption
    | with_reducible apply OutMoves.next
    | with_reducible apply OutMoves.ite
    | ((with_reducible apply Moves.next (h' := State.modHoist_moves)); (case hq => decide))
    | with_reducible apply Moves.ite
    | split

theorem execUpdateConfirm_moves {c : Cmd} {s : State} :
    OutMoves [.pow, .coll, .hop, .hall, .cmd, .brake, .flash, .conf, .hoist, .outs] s (execUpdateConfirm c s) := by
  unfold execUpdateConfirm
  try dsimp only
  repeat' first
    | with_reducible apply Moves.refl
    | assumption
    | with_reducible apply AnsMoves.ok
    | with_reducible apply AnsMoves.acc
    | with_reducible apply AnsMoves.hold
    | with_reducible apply AnsMoves.ite
    | with_reducible apply OutMoves.next
    | with_reducible apply OutMoves.ite
    | ((with_reducible apply Moves.runCmd); (case hq => decide); (case' he => intro t))
    | ((with_reducible apply Moves.next (h' := State.confirmTrial_moves)); (case hq => decide))
    | with_reducible apply Moves.ite
    | split

theorem execUpdateStatus_moves {c : Cmd} {s : State} :
    OutMoves [.pow, .coll, .hop, .hall, .cmd, .hoist, .outs] s (execUpdateStatus c s) := by
  unfold execUpdateStatus
  try dsimp only
  repeat' first
    | with_reducible apply Moves.refl
    | assumption
    | with_reducible apply AnsMoves.ok
    | with_reducible apply AnsMoves.acc
    | with_reducible apply AnsMoves.hold
    | with_reducible apply AnsMoves.ite
    | with_reducible apply OutMoves.next
    | with_reducible apply OutMoves.ite
    | ((with_reducible apply Moves.runCmd); (case hq => decide); (case' he => intro t))
    | with_reducible apply Moves.ite
    | split

end Sys2Proof.Machine
end

