-- ==== Sys2Proof/Laws/Brake.lean ====
section
/-! SUPPORT. What the operations of Machine/Brake.lean can change, and that they keep the invariant. -/

namespace Sys2Proof.Machine

theorem State.notice_moves {kind hsrc domains : Nat} {subj : Laddr} {vid : Word} {core engine detail t : Nat} {step : Dword} {ctx extra : Nat} {s : State} :
    Moves [.coll, .hop, .hall, .cmd, .brake, .outs] s (State.notice kind hsrc domains subj vid core engine detail t step ctx extra s) := by
  unfold State.notice
  try dsimp only
  repeat' first
    | with_reducible apply Moves.refl
    | assumption
    | ((with_reducible apply Moves.next (h' := State.sendOwed_moves)); (case hq => decide))
    | with_reducible apply Moves.ite
    | split

theorem State.ownNotice_moves {kind hsrc : Nat} {vid : Word} {core engine detail ctx extra : Nat} {s : State} :
    Moves [.coll, .hop, .hall, .cmd, .brake, .outs] s (State.ownNotice kind hsrc vid core engine detail ctx extra s) := by
  unfold State.ownNotice
  try dsimp only
  repeat' first
    | with_reducible apply Moves.refl
    | assumption
    | ((with_reducible apply Moves.next (h' := State.notice_moves)); (case hq => decide))
    | with_reducible apply Moves.ite
    | split

theorem State.ladderNotice_moves {kind : Nat} {l : Ladder} {detail : Nat} {s : State} :
    Moves [.coll, .hop, .hall, .cmd, .brake, .outs] s (State.ladderNotice kind l detail s) := by
  unfold State.ladderNotice
  try dsimp only
  repeat' first
    | with_reducible apply Moves.refl
    | assumption
    | ((with_reducible apply Moves.next (h' := State.ownNotice_moves)); (case hq => decide))
    | with_reducible apply Moves.ite
    | split

theorem State.assertWarm_moves {s : State} :
    Moves [.brake] s (State.assertWarm s) := by
  unfold State.assertWarm
  try dsimp only
  repeat' first
    | with_reducible apply Moves.refl
    | assumption
    | ((with_reducible apply Moves.next (h' := State.modBrake_moves)); (case hq => decide))

theorem State.assertCold_moves {s : State} :
    Moves [.brake] s (State.assertCold s) := by
  unfold State.assertCold
  try dsimp only
  repeat' first
    | with_reducible apply Moves.refl
    | assumption
    | ((with_reducible apply Moves.next (h' := State.modBrake_moves)); (case hq => decide))

theorem State.setRung_moves {r : Rung} {s : State} :
    Moves [.brake] s (State.setRung r s) := by
  unfold State.setRung
  try dsimp only
  repeat' first
    | with_reducible apply Moves.refl
    | assumption
    | ((with_reducible apply Moves.next (h' := State.modBrake_moves)); (case hq => decide))

theorem State.endLadder_moves {s : State} :
    Moves [.brake] s (State.endLadder s) := by
  unfold State.endLadder
  try dsimp only
  repeat' first
    | with_reducible apply Moves.refl
    | assumption
    | ((with_reducible apply Moves.next (h' := State.modBrake_moves)); (case hq => decide))

theorem State.goOos_moves {hsrc : Nat} {vid : Word} {drill : Bool} {s : State} :
    Moves [.sys, .coll, .hop, .hall, .cmd, .verd, .brake, .outs] s (State.goOos hsrc vid drill s) := by
  unfold State.goOos
  try dsimp only
  repeat' first
    | with_reducible apply Moves.refl
    | assumption
    | ((with_reducible apply Moves.next (h' := State.unfix_moves)); (case hq => decide))
    | ((with_reducible apply Moves.next (h' := State.withdrawOwn_moves)); (case hq => decide))
    | ((with_reducible apply Moves.next (h' := State.modBrake_moves)); (case hq => decide))
    | ((with_reducible apply Moves.next (h' := State.modSys_moves)); (case hq => decide))
    | ((with_reducible apply Moves.next (h' := State.intSet_moves)); (case hq => decide))
    | ((with_reducible apply Moves.next (h' := State.ownNotice_moves)); (case hq => decide))
    | ((with_reducible apply Moves.next (h' := State.stage_moves)); (case hq => decide))
    | with_reducible apply Moves.ite
    | split

theorem State.tryCold_moves {s : State} :
    Moves [.sys, .coll, .hop, .hall, .cmd, .verd, .brake, .outs] s (State.tryCold s) := by
  unfold State.tryCold
  try dsimp only
  repeat' first
    | with_reducible apply Moves.refl
    | assumption
    | ((with_reducible apply Moves.next (h' := State.goOos_moves)); (case hq => decide))
    | ((with_reducible apply Moves.next (h' := State.ladderNotice_moves)); (case hq => decide))
    | ((with_reducible apply Moves.next (h' := State.setRung_moves)); (case hq => decide))
    | ((with_reducible apply Moves.next (h' := State.assertCold_moves)); (case hq => decide))
    | with_reducible apply Moves.ite
    | split

theorem State.ladderGo_moves {s : State} :
    Moves [.sys, .coll, .hop, .hall, .cmd, .verd, .brake, .outs] s (State.ladderGo s) := by
  unfold State.ladderGo
  try dsimp only
  repeat' first
    | with_reducible apply Moves.refl
    | assumption
    | ((with_reducible apply Moves.next (h' := State.ladderNotice_moves)); (case hq => decide))
    | ((with_reducible apply Moves.next (h' := State.setRung_moves)); (case hq => decide))
    | ((with_reducible apply Moves.next (h' := State.assertWarm_moves)); (case hq => decide))
    | ((with_reducible apply Moves.next (h' := State.tryCold_moves)); (case hq => decide))
    | with_reducible apply Moves.ite
    | split

theorem State.ingotReady_moves {image : List Byte} {vid : Word} {source : Nat} {drill : Bool} {detail : Nat} {s : State} :
    Moves [.coll, .hop, .hall, .cmd, .brake, .hoist, .outs] s (State.ingotReady image vid source drill detail s) := by
  unfold State.ingotReady
  try dsimp only
  repeat' first
    | with_reducible apply Moves.refl
    | assumption
    | ((with_reducible apply Moves.next (h' := State.ownNotice_moves)); (case hq => decide))
    | ((with_reducible apply Moves.next (h' := State.finishAll_moves)); (case hq => decide))
    | with_reducible apply Moves.ite
    | split

theorem State.captureEnd_moves {s : State} :
    Moves [.sys, .coll, .hop, .hall, .cmd, .verd, .brake, .flash, .hoist, .outs] s (State.captureEnd s) := by
  unfold State.captureEnd
  try dsimp only
  repeat' first
    | with_reducible apply Moves.refl
    | assumption
    | ((with_reducible apply Moves.next (h' := State.modBrake_moves)); (case hq => decide))
    | ((with_reducible apply Moves.next (h' := State.ingotReady_moves)); (case hq => decide))
    | ((with_reducible apply Moves.next (h' := State.modFlash_moves)); (case hq => decide))
    | ((with_reducible apply Moves.next (h' := State.programFlash_moves)); (case hq => decide))
    | ((with_reducible apply Moves.next (h' := State.eraseFlash_moves)); (case hq => decide))
    | ((with_reducible apply Moves.next (h' := State.ladderGo_moves)); (case hq => decide))
    | with_reducible apply Moves.ite
    | split

theorem State.issueSide_moves {addr len use : Nat} {s : State} :
    Moves [.brake, .outs] s (State.issueSide addr len use s) := by
  unfold State.issueSide
  try dsimp only
  repeat' first
    | with_reducible apply Moves.refl
    | assumption
    | ((with_reducible apply Moves.next (h' := State.emit_moves)); (case hq => decide))
    | ((with_reducible apply Moves.next (h' := State.modBrake_moves)); (case hq => decide))

theorem State.sideNext_moves {s : State} :
    Moves [.sys, .coll, .hop, .hall, .cmd, .verd, .brake, .flash, .hoist, .outs] s (State.sideNext s) := by
  unfold State.sideNext
  try dsimp only
  repeat' first
    | with_reducible apply Moves.refl
    | assumption
    | ((with_reducible apply Moves.next (h' := State.issueSide_moves)); (case hq => decide))
    | ((with_reducible apply Moves.next (h' := State.modBrake_moves)); (case hq => decide))
    | ((with_reducible apply Moves.next (h' := State.captureEnd_moves)); (case hq => decide))
    | with_reducible apply Moves.ite
    | split

theorem State.captureStart_moves {cause : Nat} {vid : Word} {core engine : Nat} {drill : Bool} {regions : List Region} {s : State} :
    Moves [.sys, .coll, .hop, .hall, .cmd, .verd, .brake, .flash, .hoist, .outs] s (State.captureStart cause vid core engine drill regions s) := by
  unfold State.captureStart
  try dsimp only
  repeat' first
    | with_reducible apply Moves.refl
    | assumption
    | ((with_reducible apply Moves.next (h' := State.sideNext_moves)); (case hq => decide))
    | ((with_reducible apply Moves.next (h' := State.modBrake_moves)); (case hq => decide))
    | with_reducible apply Moves.ite
    | split

theorem State.sideDone_moves {data : Option (List Byte)} {cause : Nat} {s : State} :
    Moves [.sys, .coll, .hop, .hall, .cmd, .verd, .brake, .flash, .hoist, .outs] s (State.sideDone data cause s) := by
  unfold State.sideDone
  try dsimp only
  repeat' first
    | with_reducible apply Moves.refl
    | assumption
    | ((with_reducible apply Moves.next (h' := State.modBrake_moves)); (case hq => decide))
    | ((with_reducible apply Moves.next (h' := State.sideNext_moves)); (case hq => decide))
    | ((with_reducible apply Moves.next (h' := State.captureEnd_moves)); (case hq => decide))
    | with_reducible apply Moves.ite
    | split

theorem State.minimalIngot_moves {source : Nat} {s : State} :
    Moves [.flash, .outs] s (State.minimalIngot source s) := by
  unfold State.minimalIngot
  try dsimp only
  repeat' first
    | with_reducible apply Moves.refl
    | assumption
    | ((with_reducible apply Moves.next (h' := State.modFlash_moves)); (case hq => decide))
    | ((with_reducible apply Moves.next (h' := State.programFlash_moves)); (case hq => decide))
    | ((with_reducible apply Moves.next (h' := State.eraseFlash_moves)); (case hq => decide))
    | with_reducible apply Moves.ite
    | split

theorem State.noneGuilty_moves {vid : Word} {core engine : Nat} {detail : Nat} {s : State} :
    Moves [.coll, .hop, .hall, .cmd, .brake, .outs] s (State.noneGuilty vid core engine detail s) := by
  unfold State.noneGuilty
  try dsimp only
  repeat' first
    | with_reducible apply Moves.refl
    | assumption
    | ((with_reducible apply Moves.next (h' := State.ownNotice_moves)); (case hq => decide))
    | ((with_reducible apply Moves.next (h' := State.modBrake_moves)); (case hq => decide))
    | with_reducible apply Moves.ite
    | split

theorem State.searchAbort_moves {s : State} :
    Moves [.coll, .hop, .hall, .cmd, .brake, .outs] s (State.searchAbort s) := by
  unfold State.searchAbort
  try dsimp only
  repeat' first
    | with_reducible apply Moves.refl
    | assumption
    | ((with_reducible apply Moves.next (h' := State.noneGuilty_moves)); (case hq => decide))
    | with_reducible apply Moves.ite
    | split

theorem State.searchNext_moves {q : Search} {s : State} :
    Moves [.coll, .hop, .hall, .cmd, .brake, .outs] s (State.searchNext q s) := by
  unfold State.searchNext
  try dsimp only
  repeat' first
    | with_reducible apply Moves.refl
    | assumption
    | ((with_reducible apply Moves.next (h' := State.event_moves)); (case hq => decide))
    | ((with_reducible apply Moves.next (h' := State.modBrake_moves)); (case hq => decide))
    | ((with_reducible apply Moves.next (h' := State.noneGuilty_moves)); (case hq => decide))
    | with_reducible apply Moves.ite
    | split

theorem State.searchStart_moves {l : Ladder} {s : State} :
    Moves [.coll, .hop, .hall, .cmd, .brake, .outs] s (State.searchStart l s) := by
  unfold State.searchStart
  try dsimp only
  repeat' first
    | with_reducible apply Moves.refl
    | assumption
    | ((with_reducible apply Moves.next (h' := State.noneGuilty_moves)); (case hq => decide))
    | ((with_reducible apply Moves.next (h' := State.searchNext_moves)); (case hq => decide))
    | with_reducible apply Moves.ite
    | split

theorem State.guilty_moves {q : Search} {s : State} :
    Moves [.coll, .hop, .hall, .cmd, .brake, .outs] s (State.guilty q s) := by
  unfold State.guilty
  try dsimp only
  repeat' first
    | with_reducible apply Moves.refl
    | assumption
    | ((with_reducible apply Moves.next (h' := State.ownNotice_moves)); (case hq => decide))
    | ((with_reducible apply Moves.next (h' := State.assertWarm_moves)); (case hq => decide))
    | ((with_reducible apply Moves.next (h' := State.modBrake_moves)); (case hq => decide))
    | with_reducible apply Moves.ite
    | split

theorem State.raiseHang_moves {subj : Laddr} {source engine : Nat} {s : State} :
    Moves [.sys, .coll, .hop, .hall, .cmd, .verd, .brake, .flash, .hoist, .outs] s (State.raiseHang subj source engine s) := by
  unfold State.raiseHang
  try dsimp only
  repeat' first
    | with_reducible apply Moves.refl
    | assumption
    | ((with_reducible apply Moves.next (h' := State.fixRegions_moves)); (case hq => decide))
    | ((with_reducible apply Moves.next (h' := State.raiseOwn_moves)); (case hq => decide))
    | ((with_reducible apply Moves.next (h' := State.sideNext_moves)); (case hq => decide))
    | ((with_reducible apply Moves.next (h' := State.modBrake_moves)); (case hq => decide))
    | with_reducible apply Moves.ite

theorem State.ladderStart_moves {v : OwnV} {extra : Nat} {regions : List Region} {s : State} :
    Moves [.sys, .coll, .hop, .hall, .cmd, .verd, .brake, .flash, .hoist, .outs] s (State.ladderStart v extra regions s) := by
  unfold State.ladderStart
  try dsimp only
  repeat' first
    | with_reducible apply Moves.refl
    | assumption
    | ((with_reducible apply Moves.next (h' := State.modBrake_moves)); (case hq => decide))
    | ((with_reducible apply Moves.next (h' := State.captureStart_moves)); (case hq => decide))
    | ((with_reducible apply Moves.next (h' := State.ladderGo_moves)); (case hq => decide))
    | with_reducible apply Moves.ite
    | split

theorem State.confirmHang_moves {v : OwnV} {s : State} :
    Moves [.sys, .coll, .hop, .hall, .cmd, .verd, .brake, .flash, .hoist, .outs] s (State.confirmHang v s) := by
  unfold State.confirmHang
  try dsimp only
  repeat' first
    | with_reducible apply Moves.refl
    | assumption
    | ((with_reducible apply Moves.next (h' := State.searchAbort_moves)); (case hq => decide))
    | ((with_reducible apply Moves.next (h' := State.bump_moves)); (case hq => decide))
    | ((with_reducible apply Moves.next (h' := State.confirmOwn_moves)); (case hq => decide))
    | ((with_reducible apply Moves.next (h' := State.unfix_moves)); (case hq => decide))
    | ((with_reducible apply Moves.next (h' := State.reviewDie_moves)); (case hq => decide))
    | ((with_reducible apply Moves.next (h' := State.modVerd_moves)); (case hq => decide))
    | ((with_reducible apply Moves.next (h' := State.notice_moves)); (case hq => decide))
    | ((with_reducible apply Moves.next (h' := State.ladderStart_moves)); (case hq => decide))
    | with_reducible apply Moves.ite

theorem State.unprepare_moves {s : State} :
    Moves [.brake] s (State.unprepare s) := by
  unfold State.unprepare
  try dsimp only
  repeat' first
    | with_reducible apply Moves.refl
    | assumption
    | ((with_reducible apply Moves.next (h' := State.modBrake_moves)); (case hq => decide))
    | with_reducible apply Moves.ite
    | split

theorem State.hangGone_moves {v : OwnV} {s : State} :
    Moves [.coll, .hop, .hall, .cmd, .verd, .brake, .outs] s (State.hangGone v s) := by
  unfold State.hangGone
  try dsimp only
  repeat' first
    | with_reducible apply Moves.refl
    | assumption
    | ((with_reducible apply Moves.next (h' := State.unfix_moves)); (case hq => decide))
    | ((with_reducible apply Moves.next (h' := State.withdrawOwn_moves)); (case hq => decide))
    | ((with_reducible apply Moves.next (h' := State.unprepare_moves)); (case hq => decide))
    | with_reducible apply Moves.ite
    | split

theorem State.watchTo_moves {w : Watch} {s : State} :
    Moves [.coll, .hop, .hall, .cmd, .verd, .brake, .outs] s (State.watchTo w s) := by
  unfold State.watchTo
  try dsimp only
  repeat' first
    | with_reducible apply Moves.refl
    | assumption
    | ((with_reducible apply Moves.next (h' := State.hangGone_moves)); (case hq => decide))
    | ((with_reducible apply Moves.next (h' := State.modBrake_moves)); (case hq => decide))
    | with_reducible apply Moves.ite
    | split

theorem State.engineHang_moves {core engine : Nat} {s : State} :
    Moves [.sys, .coll, .hop, .hall, .cmd, .verd, .brake, .flash, .hoist, .outs] s (State.engineHang core engine s) := by
  unfold State.engineHang
  try dsimp only
  repeat' first
    | with_reducible apply Moves.refl
    | assumption
    | ((with_reducible apply Moves.next (h' := State.guilty_moves)); (case hq => decide))
    | ((with_reducible apply Moves.next (h' := State.modBrake_moves)); (case hq => decide))
    | ((with_reducible apply Moves.next (h' := State.raiseHang_moves)); (case hq => decide))
    | with_reducible apply Moves.ite
    | split

theorem State.engineResumed_moves {core engine : Nat} {s : State} :
    Moves [.coll, .hop, .hall, .cmd, .verd, .brake, .outs] s (State.engineResumed core engine s) := by
  unfold State.engineResumed
  try dsimp only
  repeat' first
    | with_reducible apply Moves.refl
    | assumption
    | ((with_reducible apply Moves.next (h' := State.hangGone_moves)); (case hq => decide))
    | ((with_reducible apply Moves.next (h' := State.modBrake_moves)); (case hq => decide))
    | with_reducible apply Moves.ite
    | split

theorem State.recovered_moves {l : Ladder} {s : State} :
    Moves [.coll, .hop, .hall, .cmd, .brake, .outs] s (State.recovered l s) := by
  unfold State.recovered
  try dsimp only
  repeat' first
    | with_reducible apply Moves.refl
    | assumption
    | ((with_reducible apply Moves.next (h' := State.endLadder_moves)); (case hq => decide))
    | ((with_reducible apply Moves.next (h' := State.searchStart_moves)); (case hq => decide))
    | with_reducible apply Moves.ite
    | split

theorem State.takeBeat_moves {s : State} :
    Moves [.coll, .hop, .hall, .cmd, .brake, .outs] s (State.takeBeat s) := by
  unfold State.takeBeat
  try dsimp only
  repeat' first
    | with_reducible apply Moves.refl
    | assumption
    | ((with_reducible apply Moves.next (h' := State.modBrake_moves)); (case hq => decide))
    | ((with_reducible apply Moves.next (h' := State.recovered_moves)); (case hq => decide))
    | with_reducible apply Moves.ite
    | split

theorem State.hostResetSeen_moves {s : State} :
    Moves [.sys, .coll, .hop, .hall, .cmd, .verd, .brake, .outs] s (State.hostResetSeen s) := by
  unfold State.hostResetSeen
  try dsimp only
  repeat' first
    | with_reducible apply Moves.refl
    | assumption
    | ((with_reducible apply Moves.next (h' := State.endLadder_moves)); (case hq => decide))
    | ((with_reducible apply Moves.next (h' := State.modBrake_moves)); (case hq => decide))
    | ((with_reducible apply Moves.next (h' := State.goOos_moves)); (case hq => decide))
    | with_reducible apply Moves.ite
    | split

theorem State.warmResetSeen_moves {s : State} :
    Moves [.brake] s (State.warmResetSeen s) := by
  unfold State.warmResetSeen
  try dsimp only
  repeat' first
    | with_reducible apply Moves.refl
    | assumption
    | ((with_reducible apply Moves.next (h' := State.modBrake_moves)); (case hq => decide))
    | ((with_reducible apply Moves.next (h' := State.setRung_moves)); (case hq => decide))
    | with_reducible apply Moves.ite
    | split

theorem State.watchRelease_moves {s : State} :
    Moves [.coll, .hop, .hall, .cmd, .verd, .brake, .outs] s (State.watchRelease s) := by
  unfold State.watchRelease
  try dsimp only
  repeat' first
    | with_reducible apply Moves.refl
    | assumption
    | ((with_reducible apply Moves.next (h' := State.watchTo_moves)); (case hq => decide))
    | with_reducible apply Moves.ite
    | split

theorem State.warmReleased_moves {s : State} :
    Moves [.coll, .hop, .hall, .cmd, .verd, .brake, .outs] s (State.warmReleased s) := by
  unfold State.warmReleased
  try dsimp only
  repeat' first
    | with_reducible apply Moves.refl
    | assumption
    | ((with_reducible apply Moves.next (h' := State.watchRelease_moves)); (case hq => decide))
    | ((with_reducible apply Moves.next (h' := State.setRung_moves)); (case hq => decide))
    | with_reducible apply Moves.ite
    | split

theorem State.putPeer_moves {a : Laddr} {p : PeerSt} {s : State} :
    Moves [.brake] s (State.putPeer a p s) := by
  unfold State.putPeer
  try dsimp only
  repeat' first
    | with_reducible apply Moves.refl
    | assumption
    | ((with_reducible apply Moves.next (h' := State.modBrake_moves)); (case hq => decide))

theorem State.peerNotice_moves {a : Laddr} {domains detail t : Nat} {step : Dword} {s : State} :
    Moves [.coll, .hop, .hall, .cmd, .brake, .outs] s (State.peerNotice a domains detail t step s) := by
  unfold State.peerNotice
  try dsimp only
  repeat' first
    | with_reducible apply Moves.refl
    | assumption
    | ((with_reducible apply Moves.next (h' := State.notice_moves)); (case hq => decide))
    | with_reducible apply Moves.ite
    | split

theorem State.unreachable_moves {a : Laddr} {s : State} :
    Moves [.coll, .cmd, .outs] s (State.unreachable a s) := by
  unfold State.unreachable
  try dsimp only
  repeat' first
    | with_reducible apply Moves.refl
    | assumption
    | ((with_reducible apply Moves.modCmd); (case hq => decide); (case e0 => with_reducible rfl); (case e1 => with_reducible rfl))
    | ((with_reducible apply Moves.next (h' := State.gwError_moves)); (case hq => decide))
    | with_reducible apply Moves.ite
    | ((with_reducible apply Moves.fold); (intro t x m))

theorem State.resetSeen_moves {a : Laddr} {t : Nat} {s : State} :
    Moves [.coll, .hop, .cmd, .crown, .outs] s (State.resetSeen a t s) := by
  unfold State.resetSeen
  try dsimp only
  repeat' first
    | with_reducible apply Moves.refl
    | assumption
    | ((with_reducible apply Moves.next (h' := State.unreachable_moves)); (case hq => decide))
    | ((with_reducible apply Moves.next (h' := State.forwarderEvent_moves)); (case hq => decide))
    | ((with_reducible apply Moves.next (h' := State.seenReset_moves)); (case hq => decide))

theorem State.rxGasp_moves {r : Rec} {s : State} :
    Moves [.coll, .hop, .hall, .cmd, .crown, .verd, .brake, .outs] s (State.rxGasp r s) := by
  unfold State.rxGasp
  try dsimp only
  repeat' first
    | with_reducible apply Moves.refl
    | assumption
    | ((with_reducible apply Moves.next (h' := State.peerNotice_moves)); (case hq => decide))
    | ((with_reducible apply Moves.next (h' := State.markDie_moves)); (case hq => decide))
    | ((with_reducible apply Moves.next (h' := State.resetSeen_moves)); (case hq => decide))
    | ((with_reducible apply Moves.next (h' := State.putPeer_moves)); (case hq => decide))
    | with_reducible apply Moves.ite
    | split

theorem State.rxRestart_moves {r : Rec} {s : State} :
    Moves [.coll, .hop, .hall, .cmd, .crown, .verd, .brake, .outs] s (State.rxRestart r s) := by
  unfold State.rxRestart
  try dsimp only
  repeat' first
    | with_reducible apply Moves.refl
    | assumption
    | ((with_reducible apply Moves.next (h' := State.forwarderEvent_moves)); (case hq => decide))
    | ((with_reducible apply Moves.next (h' := State.seenReset_moves)); (case hq => decide))
    | ((with_reducible apply Moves.next (h' := State.markDie_moves)); (case hq => decide))
    | ((with_reducible apply Moves.next (h' := State.putPeer_moves)); (case hq => decide))
    | ((with_reducible apply Moves.next (h' := State.peerNotice_moves)); (case hq => decide))
    | ((with_reducible apply Moves.next (h' := State.unreachable_moves)); (case hq => decide))
    | with_reducible apply Moves.ite
    | split

theorem State.peerHeard_moves {a : Laddr} {s : State} :
    Moves [.brake] s (State.peerHeard a s) := by
  unfold State.peerHeard
  try dsimp only
  repeat' first
    | with_reducible apply Moves.refl
    | assumption
    | ((with_reducible apply Moves.next (h' := State.putPeer_moves)); (case hq => decide))
    | with_reducible apply Moves.ite

end Sys2Proof.Machine
end

