-- ==== Sys2Proof/Laws/BrakeRows.lean ====
section
/-! SUPPORT. What the operations of Machine/BrakeRows.lean can change, and that they keep the invariant. -/

namespace Sys2Proof.Machine

theorem execHbPinBeat_moves {s : State} :
    OutMoves [.coll, .hop, .hall, .cmd, .brake, .outs] s (execHbPinBeat s) := by
  unfold execHbPinBeat
  try dsimp only
  repeat' first
    | with_reducible apply Moves.refl
    | assumption
    | with_reducible apply OutMoves.next
    | with_reducible apply OutMoves.ite
    | ((with_reducible apply Moves.next (h' := State.takeBeat_moves)); (case hq => decide))
    | with_reducible apply Moves.ite
    | split

theorem State.judgePeriod_moves {ok : Bool} {s : State} :
    Moves [.sys, .coll, .hop, .hall, .cmd, .verd, .brake, .flash, .hoist, .outs] s (State.judgePeriod ok s) := by
  unfold State.judgePeriod
  try dsimp only
  repeat' first
    | with_reducible apply Moves.refl
    | assumption
    | ((with_reducible apply Moves.next (h' := State.hangGone_moves)); (case hq => decide))
    | ((with_reducible apply Moves.next (h' := State.modBrake_moves)); (case hq => decide))
    | ((with_reducible apply Moves.next (h' := State.bump_moves)); (case hq => decide))
    | ((with_reducible apply Moves.next (h' := State.confirmHang_moves)); (case hq => decide))
    | ((with_reducible apply Moves.next (h' := State.raiseHang_moves)); (case hq => decide))
    | with_reducible apply Moves.ite
    | split

theorem execHeartbeatPeriodEnd_moves {s : State} :
    OutMoves [.sys, .coll, .hop, .hall, .cmd, .verd, .brake, .flash, .hoist, .outs] s (execHeartbeatPeriodEnd s) := by
  unfold execHeartbeatPeriodEnd
  try dsimp only
  repeat' first
    | with_reducible apply Moves.refl
    | assumption
    | with_reducible apply OutMoves.next
    | with_reducible apply OutMoves.ite
    | ((with_reducible apply Moves.next (h' := State.modBrake_moves)); (case hq => decide))
    | ((with_reducible apply Moves.next (h' := State.judgePeriod_moves)); (case hq => decide))
    | with_reducible apply Moves.ite
    | split

theorem execBootToExpiry_moves {s : State} :
    OutMoves [.brake] s (execBootToExpiry s) := by
  unfold execBootToExpiry
  try dsimp only
  repeat' first
    | with_reducible apply Moves.refl
    | assumption
    | with_reducible apply OutMoves.next
    | with_reducible apply OutMoves.ite
    | ((with_reducible apply Moves.next (h' := State.modBrake_moves)); (case hq => decide))
    | with_reducible apply Moves.ite
    | split

theorem execEngConfToExpiry_moves {s : State} :
    OutMoves [.sys, .coll, .hop, .hall, .cmd, .verd, .brake, .flash, .hoist, .outs] s (execEngConfToExpiry s) := by
  unfold execEngConfToExpiry
  try dsimp only
  repeat' first
    | with_reducible apply Moves.refl
    | assumption
    | with_reducible apply OutMoves.next
    | with_reducible apply OutMoves.ite
    | ((with_reducible apply Moves.next (h' := State.confirmHang_moves)); (case hq => decide))
    | ((with_reducible apply Moves.next (h' := State.modBrake_moves)); (case hq => decide))
    | with_reducible apply Moves.ite
    | split

theorem State.judgeBlock_moves {b : BlockBeat} {k : Nat} {s : State} :
    Moves [.sys, .coll, .hop, .hall, .cmd, .verd, .brake, .flash, .hoist, .outs] s (State.judgeBlock b k s) := by
  unfold State.judgeBlock
  try dsimp only
  repeat' first
    | with_reducible apply Moves.refl
    | assumption
    | ((with_reducible apply Moves.next (h' := State.modBrake_moves)); (case hq => decide))
    | ((with_reducible apply Moves.next (h' := State.hangGone_moves)); (case hq => decide))
    | ((with_reducible apply Moves.next (h' := State.bump_moves)); (case hq => decide))
    | ((with_reducible apply Moves.next (h' := State.confirmHang_moves)); (case hq => decide))
    | ((with_reducible apply Moves.next (h' := State.raiseHang_moves)); (case hq => decide))
    | with_reducible apply Moves.ite
    | split

theorem execBlockBeatPeriodEnd_moves {member : Laddr} {s : State} :
    OutMoves [.sys, .coll, .hop, .hall, .cmd, .verd, .brake, .flash, .hoist, .outs] s (execBlockBeatPeriodEnd member s) := by
  unfold execBlockBeatPeriodEnd
  try dsimp only
  repeat' first
    | with_reducible apply Moves.refl
    | assumption
    | with_reducible apply OutMoves.next
    | with_reducible apply OutMoves.ite
    | ((with_reducible apply Moves.next (h' := State.judgeBlock_moves)); (case hq => decide))
    | ((with_reducible apply Moves.next (h' := State.modBrake_moves)); (case hq => decide))
    | with_reducible apply Moves.ite
    | split

theorem State.internalVerdict_moves {raise : Nat × Bool} {s0 : State} :
    Moves [.coll, .hop, .hall, .cmd, .verd, .brake, .outs] s0 (State.internalVerdict raise s0) := by
  unfold State.internalVerdict
  try dsimp only
  repeat' first
    | with_reducible apply Moves.refl
    | assumption
    | ((with_reducible apply Moves.next (h' := State.nextVid_moves)); (case hq => decide))
    | ((with_reducible apply Moves.next (h' := State.sendVerdict_moves)); (case hq => decide))
    | with_reducible apply Moves.ite
    | split

theorem State.confirmInternal_moves {source : Nat} {s : State} :
    Moves [.sys, .pow, .time, .coll, .hop, .hall, .cmd, .crown, .model, .verd, .sentry, .trace, .brake, .test, .temper, .flash, .conf, .hoist, .outs] s (State.confirmInternal source s) := by
  unfold State.confirmInternal
  try dsimp only
  repeat' first
    | with_reducible apply Moves.refl
    | assumption
    | ((with_reducible apply Moves.next (h' := State.bump_moves)); (case hq => decide))
    | ((with_reducible apply Moves.next (h' := State.minimalIngot_moves)); (case hq => decide))
    | ((with_reducible apply Moves.next (h' := State.stage_moves)); (case hq => decide))
    | ((with_reducible apply Moves.next (h' := State.modBrake_moves)); (case hq => decide))
    | ((with_reducible apply Moves.next (h' := State.fallBack_moves)); (case hq => decide))
    | ((with_reducible apply Moves.next (h' := State.resetEntry_moves)); (case hq => decide))
    | ((with_reducible apply Moves.next (h' := State.internalVerdict_moves)); (case hq => decide))
    | ((with_reducible apply Moves.next (h' := State.modPow_moves)); (case hq => decide))
    | with_reducible apply Moves.ite
    | split

theorem internalCount_moves {old : Nat} {s : State} {n : Nat} : Moves [.coll] s (internalCount old s n) := by
  unfold internalCount
  split
  · exact Moves.ite State.bump_moves (Moves.refl s)
  · exact Moves.ite State.bump_moves (Moves.refl s)

theorem execInternalWatchPeriod_moves {ctlBeat engBeat : Bool} {s : State} :
    OutMoves [.sys, .pow, .time, .coll, .hop, .hall, .cmd, .crown, .model, .verd, .sentry, .trace, .brake, .test, .temper, .flash, .conf, .hoist, .outs] s (execInternalWatchPeriod ctlBeat engBeat s) := by
  unfold execInternalWatchPeriod
  try dsimp only
  repeat' first
    | with_reducible apply Moves.refl
    | assumption
    | with_reducible apply OutMoves.next
    | with_reducible apply OutMoves.ite
    | ((with_reducible apply Moves.next (h' := internalCount_moves)); (case hq => decide))
    | ((with_reducible apply Moves.next (h' := State.modBrake_moves)); (case hq => decide))
    | ((with_reducible apply Moves.next (h' := State.confirmInternal_moves)); (case hq => decide))
    | with_reducible apply Moves.ite
    | split

theorem execRecovToExpiry_moves {s : State} :
    OutMoves [.sys, .coll, .hop, .hall, .cmd, .verd, .brake, .outs] s (execRecovToExpiry s) := by
  unfold execRecovToExpiry
  try dsimp only
  repeat' first
    | with_reducible apply Moves.refl
    | assumption
    | with_reducible apply OutMoves.next
    | with_reducible apply OutMoves.ite
    | ((with_reducible apply Moves.next (h' := State.tryCold_moves)); (case hq => decide))
    | ((with_reducible apply Moves.next (h' := State.setRung_moves)); (case hq => decide))
    | with_reducible apply Moves.ite
    | split

theorem execColdRung_moves {s : State} :
    OutMoves [.sys, .coll, .hop, .hall, .cmd, .verd, .brake, .outs] s (execColdRung s) := by
  unfold execColdRung
  try dsimp only
  repeat' first
    | with_reducible apply Moves.refl
    | assumption
    | with_reducible apply OutMoves.next
    | with_reducible apply OutMoves.ite
    | ((with_reducible apply Moves.next (h' := State.tryCold_moves)); (case hq => decide))
    | with_reducible apply Moves.ite
    | split

theorem execReqToExpiry_moves {s : State} :
    OutMoves [.sys, .coll, .hop, .hall, .cmd, .verd, .brake, .outs] s (execReqToExpiry s) := by
  unfold execReqToExpiry
  try dsimp only
  repeat' first
    | with_reducible apply Moves.refl
    | assumption
    | with_reducible apply OutMoves.next
    | with_reducible apply OutMoves.ite
    | ((with_reducible apply Moves.next (h' := State.stage_moves)); (case hq => decide))
    | ((with_reducible apply Moves.next (h' := State.ladderNotice_moves)); (case hq => decide))
    | ((with_reducible apply Moves.next (h' := State.ownNotice_moves)); (case hq => decide))
    | ((with_reducible apply Moves.next (h' := State.modBrake_moves)); (case hq => decide))
    | ((with_reducible apply Moves.next (h' := State.tryCold_moves)); (case hq => decide))
    | ((with_reducible apply Moves.next (h' := State.setRung_moves)); (case hq => decide))
    | ((with_reducible apply Moves.next (h' := State.endLadder_moves)); (case hq => decide))
    | with_reducible apply Moves.ite
    | split

theorem execResetRequestRelease_moves {cold : Bool} {s : State} :
    OutMoves [.brake] s (execResetRequestRelease cold s) := by
  unfold execResetRequestRelease
  try dsimp only
  repeat' first
    | with_reducible apply Moves.refl
    | assumption
    | with_reducible apply OutMoves.next
    | with_reducible apply OutMoves.ite
    | ((with_reducible apply Moves.next (h' := State.modBrake_moves)); (case hq => decide))

theorem execPeerLinkDownTimeout_moves {ifc : Iface} {s : State} :
    OutMoves [.coll, .hop, .hall, .cmd, .crown, .brake, .outs] s (execPeerLinkDownTimeout ifc s) := by
  unfold execPeerLinkDownTimeout
  try dsimp only
  repeat' first
    | with_reducible apply Moves.refl
    | assumption
    | with_reducible apply OutMoves.next
    | with_reducible apply OutMoves.ite
    | ((with_reducible apply Moves.next (h' := State.modIfc_moves)); (case hq => decide))
    | ((with_reducible apply Moves.next (h' := State.putPeer_moves)); (case hq => decide))
    | ((with_reducible apply Moves.next (h' := State.peerNotice_moves)); (case hq => decide))
    | ((with_reducible apply Moves.next (h' := State.resetSeen_moves)); (case hq => decide))
    | with_reducible apply Moves.ite
    | split

theorem execSideReadResponse_moves {data : List Byte} {err : Option Bool} {s : State} :
    OutMoves [.sys, .coll, .hop, .hall, .cmd, .verd, .brake, .flash, .hoist, .outs] s (execSideReadResponse data err s) := by
  unfold execSideReadResponse
  try dsimp only
  repeat' first
    | with_reducible apply Moves.refl
    | assumption
    | with_reducible apply OutMoves.next
    | with_reducible apply OutMoves.ite
    | ((with_reducible apply Moves.next (h' := State.sideDone_moves)); (case hq => decide))
    | with_reducible apply Moves.ite
    | split

theorem execSideReadTimeout_moves {s : State} :
    OutMoves [.sys, .coll, .hop, .hall, .cmd, .verd, .brake, .flash, .hoist, .outs] s (execSideReadTimeout s) := by
  unfold execSideReadTimeout
  try dsimp only
  repeat' first
    | with_reducible apply Moves.refl
    | assumption
    | with_reducible apply OutMoves.next
    | with_reducible apply OutMoves.ite
    | ((with_reducible apply Moves.next (h' := State.sideDone_moves)); (case hq => decide))
    | with_reducible apply Moves.ite
    | split

theorem execIngotCaptureEnd_moves {s : State} :
    OutMoves [.sys, .coll, .hop, .hall, .cmd, .verd, .brake, .flash, .hoist, .outs] s (execIngotCaptureEnd s) := by
  unfold execIngotCaptureEnd
  try dsimp only
  repeat' first
    | with_reducible apply Moves.refl
    | assumption
    | with_reducible apply OutMoves.next
    | with_reducible apply OutMoves.ite
    | ((with_reducible apply Moves.next (h' := State.captureEnd_moves)); (case hq => decide))
    | with_reducible apply Moves.ite
    | split

theorem execIngotWriteDone_moves {s : State} :
    OutMoves [.sys, .coll, .hop, .hall, .cmd, .verd, .brake, .flash, .hoist, .outs] s (execIngotWriteDone s) := by
  unfold execIngotWriteDone
  try dsimp only
  repeat' first
    | with_reducible apply Moves.refl
    | assumption
    | with_reducible apply OutMoves.next
    | with_reducible apply OutMoves.ite
    | ((with_reducible apply Moves.next (h' := State.programFlash_moves)); (case hq => decide))
    | ((with_reducible apply Moves.next (h' := State.clearIngot_moves)); (case hq => decide))
    | ((with_reducible apply Moves.next (h' := State.modFlash_moves)); (case hq => decide))
    | ((with_reducible apply Moves.next (h' := State.tryCold_moves)); (case hq => decide))
    | ((with_reducible apply Moves.next (h' := State.ingotReady_moves)); (case hq => decide))
    | ((with_reducible apply Moves.next (h' := State.modBrake_moves)); (case hq => decide))
    | with_reducible apply Moves.ite
    | split

theorem execGpToExpiry_moves {s : State} :
    OutMoves [.coll, .hop, .hall, .cmd, .brake, .outs] s (execGpToExpiry s) := by
  unfold execGpToExpiry
  try dsimp only
  repeat' first
    | with_reducible apply Moves.refl
    | assumption
    | with_reducible apply OutMoves.next
    | with_reducible apply OutMoves.ite
    | ((with_reducible apply Moves.next (h' := State.guilty_moves)); (case hq => decide))
    | with_reducible apply Moves.ite
    | split

theorem State.brakeCfg_moves {g : BrakeCfg} {s : State} :
    Moves [.brake] s (State.brakeCfg g s) := by
  unfold State.brakeCfg
  try dsimp only
  repeat' first
    | with_reducible apply Moves.refl
    | assumption
    | ((with_reducible apply Moves.next (h' := State.modBrake_moves)); (case hq => decide))

theorem execHeartbeatConfig_moves {c : Cmd} {s : State} :
    OutMoves [.pow, .coll, .hop, .hall, .cmd, .verd, .brake, .hoist, .outs] s (execHeartbeatConfig c s) := by
  unfold execHeartbeatConfig
  try dsimp only
  repeat' first
    | with_reducible apply Moves.refl
    | assumption
    | with_reducible apply AnsMoves.ok
    | with_reducible apply AnsMoves.acc
    | with_reducible apply AnsMoves.hold
    | with_reducible apply AnsMoves.ite
    | with_reducible apply OutMoves.next
    | with_reducible apply OutMoves.ite
    | ((with_reducible apply Moves.runCmd); (case hq => decide); (case' he => intro t))
    | ((with_reducible apply Moves.next (h' := State.brakeCfg_moves)); (case hq => decide))
    | ((with_reducible apply Moves.next (h' := State.watchTo_moves)); (case hq => decide))
    | with_reducible apply Moves.ite
    | split

theorem execIngotConfig_moves {c : Cmd} {s : State} :
    OutMoves [.pow, .coll, .hop, .hall, .cmd, .brake, .hoist, .outs] s (execIngotConfig c s) := by
  unfold execIngotConfig
  try dsimp only
  repeat' first
    | with_reducible apply Moves.refl
    | assumption
    | with_reducible apply AnsMoves.ok
    | with_reducible apply AnsMoves.acc
    | with_reducible apply AnsMoves.hold
    | with_reducible apply AnsMoves.ite
    | with_reducible apply OutMoves.next
    | with_reducible apply OutMoves.ite
    | ((with_reducible apply Moves.runCmd); (case hq => decide); (case' he => intro t))
    | ((with_reducible apply Moves.next (h' := State.modBrake_moves)); (case hq => decide))
    | with_reducible apply Moves.ite
    | split

theorem execIngotTake_moves {c : Cmd} {s : State} :
    OutMoves [.sys, .pow, .coll, .hop, .hall, .cmd, .verd, .brake, .flash, .hoist, .outs] s (execIngotTake c s) := by
  unfold execIngotTake
  try dsimp only
  repeat' first
    | with_reducible apply Moves.refl
    | assumption
    | with_reducible apply AnsMoves.ok
    | with_reducible apply AnsMoves.acc
    | with_reducible apply AnsMoves.hold
    | with_reducible apply AnsMoves.ite
    | with_reducible apply OutMoves.next
    | with_reducible apply OutMoves.ite
    | ((with_reducible apply Moves.runCmd); (case hq => decide); (case' he => intro t))
    | ((with_reducible apply Moves.next (h' := State.captureStart_moves)); (case hq => decide))
    | with_reducible apply Moves.ite
    | split

theorem execIngotRead_moves {c : Cmd} {s : State} :
    OutMoves [.pow, .coll, .hop, .hall, .cmd, .hoist, .outs] s (execIngotRead c s) := by
  unfold execIngotRead
  try dsimp only
  repeat' first
    | with_reducible apply Moves.refl
    | assumption
    | with_reducible apply AnsMoves.ok
    | with_reducible apply AnsMoves.acc
    | with_reducible apply AnsMoves.hold
    | with_reducible apply AnsMoves.ite
    | with_reducible apply OutMoves.next
    | with_reducible apply OutMoves.ite
    | ((with_reducible apply Moves.runCmd); (case hq => decide); (case' he => intro t))
    | ((with_reducible apply Moves.next (h' := State.readFlash_moves)); (case hq => decide))
    | with_reducible apply Moves.ite
    | split

theorem execIngotClear_moves {c : Cmd} {s : State} :
    OutMoves [.pow, .coll, .hop, .hall, .cmd, .brake, .flash, .hoist, .outs] s (execIngotClear c s) := by
  unfold execIngotClear
  try dsimp only
  repeat' first
    | with_reducible apply Moves.refl
    | assumption
    | with_reducible apply AnsMoves.ok
    | with_reducible apply AnsMoves.acc
    | with_reducible apply AnsMoves.hold
    | with_reducible apply AnsMoves.ite
    | with_reducible apply OutMoves.next
    | with_reducible apply OutMoves.ite
    | ((with_reducible apply Moves.runCmd); (case hq => decide); (case' he => intro t))
    | ((with_reducible apply Moves.next (h' := State.modBrake_moves)); (case hq => decide))
    | ((with_reducible apply Moves.next (h' := State.clearIngot_moves)); (case hq => decide))
    | with_reducible apply Moves.ite
    | split

theorem execContextResult_moves {c : Cmd} {s : State} :
    OutMoves [.pow, .coll, .hop, .hall, .cmd, .brake, .hoist, .outs] s (execContextResult c s) := by
  unfold execContextResult
  try dsimp only
  repeat' first
    | with_reducible apply Moves.refl
    | assumption
    | with_reducible apply AnsMoves.ok
    | with_reducible apply AnsMoves.acc
    | with_reducible apply AnsMoves.hold
    | with_reducible apply AnsMoves.ite
    | with_reducible apply OutMoves.next
    | with_reducible apply OutMoves.ite
    | ((with_reducible apply Moves.runCmd); (case hq => decide); (case' he => intro t))
    | ((with_reducible apply Moves.next (h' := State.searchNext_moves)); (case hq => decide))
    | ((with_reducible apply Moves.next (h' := State.guilty_moves)); (case hq => decide))
    | with_reducible apply Moves.ite
    | split

theorem execBrakeStatus_moves {c : Cmd} {s : State} :
    OutMoves [.pow, .coll, .hop, .hall, .cmd, .hoist, .outs] s (execBrakeStatus c s) := by
  unfold execBrakeStatus
  try dsimp only
  repeat' first
    | with_reducible apply Moves.refl
    | assumption
    | with_reducible apply AnsMoves.ok
    | with_reducible apply AnsMoves.acc
    | with_reducible apply AnsMoves.hold
    | with_reducible apply AnsMoves.ite
    | with_reducible apply OutMoves.next
    | with_reducible apply OutMoves.ite
    | ((with_reducible apply Moves.runCmd); (case hq => decide); (case' he => intro t))
    | with_reducible apply Moves.ite
    | split

end Sys2Proof.Machine
end

