-- ==== Sys2Proof/Laws/Commands.lean ====
section
/-! SUPPORT. What running a command packet does: every check passed, or the first that fails. -/

namespace Sys2Proof.Machine

theorem firstFail_none {l : List Check} : firstFail l = none ↔ ∀ k ∈ l, k.ok = true := by
  induction l with
  | nil => simp [firstFail]
  | cons a l ih =>
    unfold firstFail
    split
    · next h => simp [ih, h]
    · next h => simp [h]

theorem checks_pass {o : OpSpec} {c : Cmd} {pr rest : List Check} {s : State} (h : Clean o c s) (hp : ∀ k ∈ pr, k.ok = true)
    (hr : ∀ k ∈ rest, k.ok = true) : firstFail (s.checks o c pr rest) = none := by
  obtain ⟨_, hb, he, ha, _, hf⟩ := h
  rw [firstFail_none] at hb ⊢
  intro k hk
  simp only [State.checks, List.mem_append, List.mem_singleton] at hk
  rcases hk with ((((hk | hk) | rfl) | hk) | hk) | rfl
  · exact hb k hk
  · exact hp k hk
  · simpa using he
  · exact hr k hk
  · split at hk
    · next hadm =>
      rw [List.mem_singleton] at hk
      subst hk
      simpa [ckStatus] using ha hadm
    · simp at hk
  · simp only [ckStatus, Bool.or_eq_true, Bool.not_eq_true', decide_eq_true_eq]
    cases hc : fabPath c.path with
    | false => exact Or.inl rfl
    | true => exact Or.inr (hf hc)

theorem runCmd_ok {o : OpSpec} {c : Cmd} {pr rest : List Check} {eff : State → Ans} {s t : State} {d : Dword} {r out : List Byte}
    (h : Clean o c s) (hp : ∀ k ∈ pr, k.ok = true) (hr : ∀ k ∈ rest, k.ok = true) (he : eff (s.begun o) = .ok d r out t) :
    runCmd o c pr rest eff s = t.answered o c d r out := by
  unfold runCmd
  rw [if_pos h.1, checks_pass h hp hr]
  simp [he]

theorem runCmd_acc {o : OpSpec} {c : Cmd} {pr rest : List Check} {eff : State → Ans} {s t : State} {obj : Nat} {f : Option Final}
    (h : Clean o c s) (hp : ∀ k ∈ pr, k.ok = true) (hr : ∀ k ∈ rest, k.ok = true) (he : eff (s.begun o) = .acc obj f t) :
    runCmd o c pr rest eff s = t.takenOn o c obj f := by
  unfold runCmd
  rw [if_pos h.1, checks_pass h hp hr]
  simp [he, h.2.2.2.2.1]

theorem runCmd_hold {o : OpSpec} {c : Cmd} {pr rest : List Check} {eff : State → Ans} {s t : State} {obj : Nat}
    (h : Clean o c s) (hp : ∀ k ∈ pr, k.ok = true) (hr : ∀ k ∈ rest, k.ok = true) (he : eff (s.begun o) = .hold obj t) :
    runCmd o c pr rest eff s = (t.keepAcc o c obj none).restoreNext c.path := by
  unfold runCmd
  rw [if_pos h.1, checks_pass h hp hr]
  simp [he]

/-- A failing check turns the command away (R397). -/
theorem runCmd_away {o : OpSpec} {c : Cmd} {pr rest : List Check} {eff : State → Ans} {s : State} {k : Check}
    (h : s.pathReady o.code c = true) (hk : firstFail (s.checks o c pr rest) = some k) :
    runCmd o c pr rest eff s = (s.bump cCmdReceived).turnedAway o c k.status k.detail := by
  unfold runCmd
  rw [if_pos h, hk]

end Sys2Proof.Machine
end

