-- ==== Sys2Proof/Laws/Hallmark.lean ====
section
/-! SUPPORT. What the operations of Machine/Hallmark.lean can change, and that they keep the invariant. -/

namespace Sys2Proof.Machine

theorem writeCarried_wf {head i : Nat} {l : List HRec} {log : List (Nat × HSlot)} (h : tableWf log = true) :
    tableWf (writeCarried head i l log) = true := by
  induction l generalizing i log with
  | nil => exact h
  | cons r l ih => exact ih (tableWf_tput h)

theorem HallUnit.reclaim_ok {h : HallUnit} (k : h.Ok) : h.reclaim.1.Ok :=
  ⟨k.1, k.2.1, tableWf_sublist (writeCarried_wf k.2.2) List.filter_sublist⟩

theorem State.overwriteLoss_moves {fault fatal : Nat} {s : State} :
    Moves [.coll, .hop, .hall, .cmd, .outs] s (State.overwriteLoss fault fatal s) := by
  unfold State.overwriteLoss
  try dsimp only
  repeat' first
    | with_reducible apply Moves.refl
    | assumption
    | ((with_reducible apply Moves.next (h' := State.stage_moves)); (case hq => decide))
    | with_reducible apply Moves.ite

theorem State.programRec_moves {slot : Nat} {r : HRec} {s : State} :
    Moves [.outs] s (State.programRec slot r s) := by
  unfold State.programRec
  try dsimp only
  repeat' first
    | with_reducible apply Moves.refl
    | assumption
    | ((with_reducible apply Moves.next (h' := State.programFlash_moves)); (case hq => decide))
    | with_reducible apply Moves.ite
    | split

theorem State.reclaimFull_moves {s : State} :
    Moves [.coll, .hop, .hall, .cmd, .outs] s (State.reclaimFull s) := by
  unfold State.reclaimFull
  refine Moves.ite (Moves.next (Moves.hallOk (Moves.next ?_ State.eraseFlash_moves (by decide)) HallUnit.reclaim_ok (by decide))
    State.overwriteLoss_moves (by decide)) (Moves.refl s)
  refine Moves.fold (fun t i m => ?_) (Moves.refl s)
  split
  · exact m.next State.programRec_moves (by decide)
  · exact m

theorem execHallmarkFlashWriteDone_moves {s : State} :
    OutMoves [.coll, .hop, .hall, .cmd, .outs] s (execHallmarkFlashWriteDone s) := by
  unfold execHallmarkFlashWriteDone
  try dsimp only
  repeat' first
    | with_reducible apply Moves.refl
    | assumption
    | with_reducible apply OutMoves.next
    | with_reducible apply OutMoves.ite
    | ((with_reducible apply Moves.modHall); (case hq => decide); (case e0 => with_reducible rfl); (case e1 => with_reducible rfl); (case e2 => with_reducible rfl))
    | ((with_reducible apply Moves.next (h' := State.programRec_moves)); (case hq => decide))
    | ((with_reducible apply Moves.next (h' := State.hallSettle_moves)); (case hq => decide))
    | ((with_reducible apply Moves.next (h' := State.reclaimFull_moves)); (case hq => decide))
    | ((with_reducible apply Moves.hallOk); (case hq => decide); (case k => intro k; first | exact ⟨by simpa [markEnt_length] using k.1, k.2.1, tableWf_tput k.2.2⟩ | exact HallUnit.reclaim_ok k))
    | with_reducible apply Moves.ite
    | split

theorem execRlBucketRefill_moves {code : BitVec 16} {s : State} :
    OutMoves [.coll, .hop, .hall, .cmd, .outs] s (execRlBucketRefill code s) := by
  unfold execRlBucketRefill
  try dsimp only
  repeat' first
    | with_reducible apply Moves.refl
    | assumption
    | with_reducible apply OutMoves.next
    | with_reducible apply OutMoves.ite
    | ((with_reducible apply Moves.next (h' := State.refillBucket_moves)); (case hq => decide))
    | ((with_reducible apply Moves.hallOk); (case hq => decide); (case k => intro k; exact ⟨k.1, by simpa using k.2.1, k.2.2⟩))
    | with_reducible apply Moves.ite
    | split

theorem execFlashBucketRefill_moves {s : State} :
    OutMoves [.hall] s (execFlashBucketRefill s) := by
  unfold execFlashBucketRefill
  try dsimp only
  repeat' first
    | with_reducible apply Moves.refl
    | assumption
    | with_reducible apply OutMoves.next
    | with_reducible apply OutMoves.ite
    | ((with_reducible apply Moves.modHall); (case hq => decide); (case e0 => with_reducible rfl); (case e1 => with_reducible rfl); (case e2 => with_reducible rfl))
    | ((with_reducible apply Moves.hallOk); (case hq => decide); (case k => intro k; exact HallUnit.beginWrite_ok k))

theorem execOptTick_moves {s : State} :
    OutMoves [.coll, .hop, .hall, .cmd, .outs] s (execOptTick s) := by
  unfold execOptTick
  try dsimp only
  repeat' first
    | with_reducible apply Moves.refl
    | assumption
    | with_reducible apply OutMoves.next
    | with_reducible apply OutMoves.ite
    | ((with_reducible apply Moves.modHall); (case hq => decide); (case e0 => with_reducible rfl); (case e1 => with_reducible rfl); (case e2 => with_reducible rfl))
    | ((with_reducible apply Moves.next (h' := State.stage_moves)); (case hq => decide))
    | with_reducible apply Moves.ite

theorem State.hallScan_moves {s : State} :
    Moves [.coll, .hop, .hall, .cmd, .outs] s (State.hallScan s) := by
  unfold State.hallScan
  try dsimp only
  repeat' first
    | with_reducible apply Moves.refl
    | assumption
    | ((with_reducible apply Moves.next (h' := State.stage_moves)); (case hq => decide))
    | ((with_reducible apply Moves.next (h' := State.eraseFlash_moves)); (case hq => decide))
    | ((with_reducible apply Moves.modHall); (case hq => decide); (case e0 => with_reducible rfl); (case e1 => with_reducible rfl); (case e2 => with_reducible rfl))
    | ((with_reducible apply Moves.next (h' := State.reclaimFull_moves)); (case hq => decide))
    | ((with_reducible apply Moves.next (h' := State.overwriteLoss_moves)); (case hq => decide))
    | ((with_reducible apply Moves.hallOk); (case hq => decide); (case k => intro k; exact ⟨k.1, k.2.1, tableWf_sublist k.2.2 List.filter_sublist⟩))
    | with_reducible apply Moves.ite
    | ((with_reducible apply Moves.fold); (intro t x m))
    | split

theorem execRecorderRead_moves {c : Cmd} {s : State} :
    OutMoves [.pow, .coll, .hop, .hall, .cmd, .hoist, .outs] s (execRecorderRead c s) := by
  unfold execRecorderRead
  try dsimp only
  repeat' first
    | with_reducible apply Moves.refl
    | assumption
    | with_reducible apply AnsMoves.ok
    | with_reducible apply AnsMoves.acc
    | with_reducible apply AnsMoves.hold
    | with_reducible apply AnsMoves.ite
    | with_reducible apply OutMoves.next
    | with_reducible apply OutMoves.ite
    | ((with_reducible apply Moves.runCmd); (case hq => decide); (case' he => intro t))
    | with_reducible apply Moves.ite
    | split

theorem execRecorderStatus_moves {c : Cmd} {s : State} :
    OutMoves [.pow, .coll, .hop, .hall, .cmd, .hoist, .outs] s (execRecorderStatus c s) := by
  unfold execRecorderStatus
  try dsimp only
  repeat' first
    | with_reducible apply Moves.refl
    | assumption
    | with_reducible apply AnsMoves.ok
    | with_reducible apply AnsMoves.acc
    | with_reducible apply AnsMoves.hold
    | with_reducible apply AnsMoves.ite
    | with_reducible apply OutMoves.next
    | with_reducible apply OutMoves.ite
    | ((with_reducible apply Moves.runCmd); (case hq => decide); (case' he => intro t))
    | with_reducible apply Moves.ite
    | split

theorem execRecorderClear_moves {c : Cmd} {s : State} :
    OutMoves [.pow, .coll, .hop, .hall, .cmd, .hoist, .outs] s (execRecorderClear c s) := by
  unfold execRecorderClear
  try dsimp only
  repeat' first
    | with_reducible apply Moves.refl
    | assumption
    | with_reducible apply AnsMoves.ok
    | with_reducible apply AnsMoves.acc
    | with_reducible apply AnsMoves.hold
    | with_reducible apply AnsMoves.ite
    | with_reducible apply OutMoves.next
    | with_reducible apply OutMoves.ite
    | ((with_reducible apply Moves.runCmd); (case hq => decide); (case' he => intro t))
    | ((with_reducible apply Moves.next (h' := State.stage_moves)); (case hq => decide))
    | ((with_reducible apply Moves.modHall); (case hq => decide); (case e0 => with_reducible rfl); (case e1 => with_reducible rfl); (case e2 => with_reducible rfl))

theorem execRecorderNote_moves {c : Cmd} {s : State} :
    OutMoves [.pow, .coll, .hop, .hall, .cmd, .hoist, .outs] s (execRecorderNote c s) := by
  unfold execRecorderNote
  try dsimp only
  repeat' first
    | with_reducible apply Moves.refl
    | assumption
    | with_reducible apply AnsMoves.ok
    | with_reducible apply AnsMoves.acc
    | with_reducible apply AnsMoves.hold
    | with_reducible apply AnsMoves.ite
    | with_reducible apply OutMoves.next
    | with_reducible apply OutMoves.ite
    | ((with_reducible apply Moves.runCmd); (case hq => decide); (case' he => intro t))
    | ((with_reducible apply Moves.next (h' := State.stageSeq_moves)); (case hq => decide))

theorem execRecorderConfig_moves {c : Cmd} {s : State} :
    OutMoves [.pow, .coll, .hop, .hall, .cmd, .hoist, .outs] s (execRecorderConfig c s) := by
  unfold execRecorderConfig
  try dsimp only
  repeat' first
    | with_reducible apply Moves.refl
    | assumption
    | with_reducible apply AnsMoves.ok
    | with_reducible apply AnsMoves.acc
    | with_reducible apply AnsMoves.hold
    | with_reducible apply AnsMoves.ite
    | with_reducible apply OutMoves.next
    | with_reducible apply OutMoves.ite
    | ((with_reducible apply Moves.runCmd); (case hq => decide); (case' he => intro t))
    | ((with_reducible apply Moves.hallOk); (case hq => decide); (case k => intro k; exact ⟨k.1, by simpa using k.2.1, k.2.2⟩))

end Sys2Proof.Machine
end

