-- ==== Sys2Proof/Laws/Power.lean ====
section
/-! SUPPORT. What the operations of Machine/Power.lean can change, and that they keep the invariant. -/

namespace Sys2Proof.Machine

theorem State.sendPower_moves {c : Fin 4} {frm dst : PState} {s : State} :
    Moves [.coll, .hop, .hall, .cmd, .outs] s (State.sendPower c frm dst s) := by
  unfold State.sendPower
  try dsimp only
  repeat' first
    | with_reducible apply Moves.refl
    | assumption
    | ((with_reducible apply Moves.next (h' := State.send_moves)); (case hq => decide))
    | with_reducible apply Moves.ite
    | split

theorem State.entrySettle_moves {s0 : State} :
    Moves [.pow, .coll, .hop, .hall, .cmd, .trace, .outs] s0 (State.entrySettle s0) := by
  unfold State.entrySettle
  try dsimp only
  repeat' first
    | with_reducible apply Moves.refl
    | assumption
    | ((with_reducible apply Moves.next (h' := State.tracePump_moves)); (case hq => decide))
    | ((with_reducible apply Moves.next (h' := State.putRecon_moves)); (case hq => decide))
    | ((with_reducible apply Moves.next (h' := State.sendPower_moves)); (case hq => decide))
    | ((with_reducible apply Moves.next (h' := State.modPow_moves)); (case hq => decide))
    | with_reducible apply Moves.ite
    | ((with_reducible apply Moves.fold); (intro t x m))
    | split

theorem State.beginEntry_moves {t : PState} {s : State} :
    Moves [.pow, .coll, .hop, .hall, .cmd, .crown, .model, .verd, .trace, .brake, .test, .flash, .conf, .outs] s (State.beginEntry t s) := by
  unfold State.beginEntry
  try dsimp only
  repeat' first
    | with_reducible apply Moves.refl
    | assumption
    | ((with_reducible apply Moves.next (h' := State.endWindow_moves)); (case hq => decide))
    | ((with_reducible apply Moves.next (h' := State.modPow_moves)); (case hq => decide))
    | ((with_reducible apply Moves.next (h' := State.heavySets_moves)); (case hq => decide))
    | ((with_reducible apply Moves.next (h' := State.modelsDrop_moves)); (case hq => decide))
    | ((with_reducible apply Moves.next (h' := State.entrySettle_moves)); (case hq => decide))
    | ((with_reducible apply Moves.next (h' := State.traceDrain_moves)); (case hq => decide))
    | with_reducible apply Moves.ite
    | split

theorem State.pstateReplies_moves {s : State} :
    Moves [.coll, .hop, .hall, .cmd, .hoist, .outs] s (State.pstateReplies s) := by
  unfold State.pstateReplies
  try dsimp only
  repeat' first
    | with_reducible apply Moves.refl
    | assumption
    | ((with_reducible apply Moves.next (h' := State.finish_moves)); (case hq => decide))
    | with_reducible apply Moves.ite
    | ((with_reducible apply Moves.fold); (intro t x m))
    | split

theorem State.pstateTo_moves {p : PState} {s : State} :
    Moves [.pow, .coll, .cmd, .crown, .outs] s (State.pstateTo p s) := by
  unfold State.pstateTo
  try dsimp only
  repeat' first
    | with_reducible apply Moves.refl
    | assumption
    | ((with_reducible apply Moves.next (h' := State.bump_moves)); (case hq => decide))
    | ((with_reducible apply Moves.next (h' := State.intSet_moves)); (case hq => decide))
    | ((with_reducible apply Moves.next (h' := State.seenPower_moves)); (case hq => decide))
    | ((with_reducible apply Moves.next (h' := State.modPow_moves)); (case hq => decide))
    | with_reducible apply Moves.ite
    | split

theorem State.unstage_moves {s : State} :
    Moves [.coll, .hop, .hall, .cmd, .outs] s (State.unstage s) := by
  unfold State.unstage
  try dsimp only
  repeat' first
    | with_reducible apply Moves.refl
    | assumption
    | ((with_reducible apply Moves.next (h' := State.sendSample_moves)); (case hq => decide))
    | ((with_reducible apply Moves.modColl); (case hq => decide); (case e0 => with_reducible rfl); (case e1 => with_reducible rfl); (case e2 => with_reducible rfl))
    | ((with_reducible apply Moves.next (h' := State.send_moves)); (case hq => decide))
    | ((with_reducible apply Moves.collOk); (case hq => decide); (case k => intro k; exact ⟨k.1, Nat.zero_le _, Nat.zero_le _⟩))
    | with_reducible apply Moves.ite
    | ((with_reducible apply Moves.fold); (intro t x m))
    | split

theorem State.offerHeld_moves {s : State} :
    Moves [.coll, .hop, .hall, .cmd, .brake, .assay, .outs] s (State.offerHeld s) := by
  unfold State.offerHeld
  try dsimp only
  repeat' first
    | with_reducible apply Moves.refl
    | assumption
    | ((with_reducible apply Moves.next (h' := State.flushOwed_moves)); (case hq => decide))
    | ((with_reducible apply Moves.next (h' := State.assaySend_moves)); (case hq => decide))
    | ((with_reducible apply Moves.next (h' := State.hallCopies_moves)); (case hq => decide))
    | ((with_reducible apply Moves.next (h' := State.unstage_moves)); (case hq => decide))
    | with_reducible apply Moves.ite
    | split

theorem State.exitRun_moves {s : State} :
    Moves [.pow, .coll, .hop, .hall, .cmd, .crown, .model, .trace, .brake, .assay, .hoist, .outs] s (State.exitRun s) := by
  unfold State.exitRun
  try dsimp only
  repeat' first
    | with_reducible apply Moves.refl
    | assumption
    | ((with_reducible apply Moves.next (h' := State.modPow_moves)); (case hq => decide))
    | ((with_reducible apply Moves.next (h' := State.heavySets_moves)); (case hq => decide))
    | ((with_reducible apply Moves.next (h' := State.tensorRefill_moves)); (case hq => decide))
    | ((with_reducible apply Moves.next (h' := State.refill_moves)); (case hq => decide))
    | ((with_reducible apply Moves.next (h' := State.modelsWake_moves)); (case hq => decide))
    | ((with_reducible apply Moves.next (h' := State.traceWake_moves)); (case hq => decide))
    | ((with_reducible apply Moves.next (h' := State.sendPower_moves)); (case hq => decide))
    | ((with_reducible apply Moves.next (h' := State.settleEpoch_moves)); (case hq => decide))
    | ((with_reducible apply Moves.next (h' := State.pstateTo_moves)); (case hq => decide))
    | ((with_reducible apply Moves.next (h' := State.pstateReplies_moves)); (case hq => decide))
    | ((with_reducible apply Moves.next (h' := State.offerHeld_moves)); (case hq => decide))
    | with_reducible apply Moves.ite
    | ((with_reducible apply Moves.fold); (intro t x m))
    | split

theorem State.enterState_moves {e : Entry} {s : State} :
    Moves [.pow, .coll, .hop, .hall, .cmd, .crown, .model, .verd, .trace, .brake, .hoist, .outs] s (State.enterState e s) := by
  unfold State.enterState
  extract_lets s1 s2 s3 awake s4
  have h1 : Moves [.pow, .coll, .hop, .hall, .cmd, .crown, .model, .verd, .trace, .brake, .hoist, .outs] s s1 :=
    ((State.modelsFinish_moves.mono (by decide)).next State.dropBuffer_moves (by decide)).next State.entrySettle_moves (by decide)
      |>.next State.flushAll_moves (by decide)
  have h2 : Moves [.pow, .coll, .hop, .hall, .cmd, .crown, .model, .verd, .trace, .brake, .hoist, .outs] s s2 :=
    ((h1.next State.modPow_moves (by decide)).next State.heavySets_moves (by decide)).next State.pstateTo_moves (by decide)
  have h4 : Moves [.pow, .coll, .hop, .hall, .cmd, .crown, .model, .verd, .trace, .brake, .hoist, .outs] s s4 := (h2.next State.pstateReplies_moves (by decide)).next State.modPow_moves (by decide)
  exact Moves.ite (Moves.hallOk h4 HallUnit.beginWrite_flash (by decide)) h4

theorem State.drainEnd_moves {s : State} :
    Moves [.pow, .coll, .hop, .hall, .cmd, .crown, .model, .verd, .trace, .brake, .test, .assay, .flash, .conf, .hoist, .outs] s (State.drainEnd s) := by
  unfold State.drainEnd
  try dsimp only
  repeat' first
    | with_reducible apply Moves.refl
    | assumption
    | ((with_reducible apply Moves.next (h' := State.entrySettle_moves)); (case hq => decide))
    | ((with_reducible apply Moves.next (h' := State.enterState_moves)); (case hq => decide))
    | ((with_reducible apply Moves.next (h' := State.modPow_moves)); (case hq => decide))
    | ((with_reducible apply Moves.next (h' := State.exitRun_moves)); (case hq => decide))
    | ((with_reducible apply Moves.next (h' := State.beginEntry_moves)); (case hq => decide))
    | with_reducible apply Moves.ite
    | split

theorem State.ctlWake_moves {s : State} :
    Moves [.pow] s (State.ctlWake s) := by
  unfold State.ctlWake
  try dsimp only
  repeat' first
    | with_reducible apply Moves.refl
    | assumption
    | ((with_reducible apply Moves.next (h' := State.modPow_moves)); (case hq => decide))
    | with_reducible apply Moves.ite

theorem State.demand_moves {s : State} :
    Moves [.pow, .coll, .hop, .hall, .cmd, .crown, .model, .trace, .brake, .assay, .hoist, .outs] s (State.demand s) := by
  unfold State.demand
  try dsimp only
  repeat' first
    | with_reducible apply Moves.refl
    | assumption
    | ((with_reducible apply Moves.next (h' := State.modPow_moves)); (case hq => decide))
    | ((with_reducible apply Moves.next (h' := State.exitRun_moves)); (case hq => decide))
    | with_reducible apply Moves.ite
    | split

theorem execCtlIdleStop_moves {s : State} :
    OutMoves [.pow] s (execCtlIdleStop s) := by
  unfold execCtlIdleStop
  try dsimp only
  repeat' first
    | with_reducible apply Moves.refl
    | assumption
    | with_reducible apply OutMoves.next
    | with_reducible apply OutMoves.ite
    | ((with_reducible apply Moves.next (h' := State.modPow_moves)); (case hq => decide))
    | with_reducible apply Moves.ite
    | split

theorem execOffFlashFlushDone_moves {s : State} :
    OutMoves [.pow] s (execOffFlashFlushDone s) := by
  unfold execOffFlashFlushDone
  try dsimp only
  repeat' first
    | with_reducible apply Moves.refl
    | assumption
    | with_reducible apply OutMoves.next
    | with_reducible apply OutMoves.ite
    | ((with_reducible apply Moves.next (h' := State.modPow_moves)); (case hq => decide))

theorem State.targetTo_moves {t : PState} {s : State} :
    Moves [.pow, .coll, .hop, .hall, .cmd, .crown, .model, .verd, .trace, .brake, .test, .assay, .flash, .conf, .hoist, .outs] s (State.targetTo t s) := by
  unfold State.targetTo
  try dsimp only
  repeat' first
    | with_reducible apply Moves.refl
    | assumption
    | ((with_reducible apply Moves.next (h' := State.modPow_moves)); (case hq => decide))
    | ((with_reducible apply Moves.next (h' := State.beginEntry_moves)); (case hq => decide))
    | ((with_reducible apply Moves.next (h' := State.exitRun_moves)); (case hq => decide))
    | ((with_reducible apply Moves.next (h' := State.pstateReplies_moves)); (case hq => decide))
    | with_reducible apply Moves.ite

theorem cmdSysPstate_moves {c : Cmd} {s : State} :
    Moves [.pow, .coll, .hop, .hall, .cmd, .crown, .model, .verd, .trace, .brake, .test, .assay, .flash, .conf, .hoist, .outs] s (cmdSysPstate c s) := by
  unfold cmdSysPstate
  try dsimp only
  repeat' first
    | with_reducible apply Moves.refl
    | assumption
    | with_reducible apply AnsMoves.ok
    | with_reducible apply AnsMoves.acc
    | with_reducible apply AnsMoves.hold
    | with_reducible apply AnsMoves.ite
    | ((with_reducible apply Moves.runCmd); (case hq => decide); (case' he => intro t))
    | ((with_reducible apply Moves.next (h' := State.targetTo_moves)); (case hq => decide))
    | with_reducible apply Moves.ite
    | split

end Sys2Proof.Machine
end

