-- ==== Sys2Proof/Laws/RegWin.lean ====
section
/-! SUPPORT. What the operations of Machine/RegWin.lean can change, and that they keep the invariant. -/

namespace Sys2Proof.Machine

theorem State.unlatch_moves {s : State} :
    Moves [.cmd] s (State.unlatch s) := by
  unfold State.unlatch
  try dsimp only
  repeat' first
    | with_reducible apply Moves.refl
    | assumption
    | ((with_reducible apply Moves.modCmd); (case hq => decide); (case e0 => with_reducible rfl); (case e1 => with_reducible rfl))

theorem State.capture'_moves {s : State} :
    Moves [.cmd] s (State.capture' s) := by
  unfold State.capture'
  try dsimp only
  repeat' first
    | with_reducible apply Moves.refl
    | assumption
    | ((with_reducible apply Moves.modCmd); (case hq => decide); (case e0 => with_reducible rfl); (case e1 => with_reducible rfl))

theorem execTsTb0LoRead_moves {wide : Bool} {s : State} :
    OutMoves [.cmd, .outs] s (execTsTb0LoRead wide s) := by
  unfold execTsTb0LoRead
  try dsimp only
  repeat' first
    | with_reducible apply Moves.refl
    | assumption
    | with_reducible apply OutMoves.next
    | with_reducible apply OutMoves.ite
    | ((with_reducible apply Moves.next (h' := State.capture'_moves)); (case hq => decide))
    | ((with_reducible apply Moves.next (h' := State.unlatch_moves)); (case hq => decide))
    | ((with_reducible apply Moves.modCmd); (case hq => decide); (case e0 => with_reducible rfl); (case e1 => with_reducible rfl))
    | ((with_reducible apply Moves.next (h' := State.emit_moves)); (case hq => decide))
    | with_reducible apply Moves.ite

theorem execLoHalfRead_moves {off : BitVec 16} {s : State} :
    OutMoves [.cmd, .outs] s (execLoHalfRead off s) := by
  unfold execLoHalfRead
  try dsimp only
  repeat' first
    | with_reducible apply Moves.refl
    | assumption
    | with_reducible apply OutMoves.next
    | with_reducible apply OutMoves.ite
    | ((with_reducible apply Moves.next (h' := State.unlatch_moves)); (case hq => decide))
    | ((with_reducible apply Moves.modCmd); (case hq => decide); (case e0 => with_reducible rfl); (case e1 => with_reducible rfl))
    | ((with_reducible apply Moves.next (h' := State.emit_moves)); (case hq => decide))
    | with_reducible apply Moves.ite
    | split

theorem execBadAccess_moves {write : Bool} {off : BitVec 16} {size : Nat} {s : State} :
    OutMoves [.cmd, .outs] s (execBadAccess write off size s) := by
  unfold execBadAccess
  try dsimp only
  repeat' first
    | with_reducible apply Moves.refl
    | assumption
    | with_reducible apply OutMoves.next
    | with_reducible apply OutMoves.ite
    | ((with_reducible apply Moves.next (h' := State.intSet_moves)); (case hq => decide))
    | ((with_reducible apply Moves.next (h' := State.unlatch_moves)); (case hq => decide))
    | ((with_reducible apply Moves.next (h' := State.emit_moves)); (case hq => decide))
    | with_reducible apply Moves.ite

theorem execHeartbeatWrite_moves {_value : Word} {s : State} :
    OutMoves [.coll, .hop, .hall, .cmd, .brake, .outs] s (execHeartbeatWrite _value s) := by
  unfold execHeartbeatWrite
  try dsimp only
  repeat' first
    | with_reducible apply Moves.refl
    | assumption
    | with_reducible apply OutMoves.next
    | with_reducible apply OutMoves.ite
    | ((with_reducible apply Moves.next (h' := State.unlatch_moves)); (case hq => decide))
    | ((with_reducible apply Moves.next (h' := State.takeBeat_moves)); (case hq => decide))
    | with_reducible apply Moves.ite
    | split

theorem State.intWritten_moves {s : State} :
    Moves [.outs] s (State.intWritten s) := by
  unfold State.intWritten
  try dsimp only
  repeat' first
    | with_reducible apply Moves.refl
    | assumption
    | ((with_reducible apply Moves.next (h' := State.emit_moves)); (case hq => decide))
    | with_reducible apply Moves.ite

theorem execW1cStatusWrite_moves {off : BitVec 16} {value : Word} {s : State} :
    OutMoves [.cmd, .outs] s (execW1cStatusWrite off value s) := by
  unfold execW1cStatusWrite
  try dsimp only
  repeat' first
    | with_reducible apply Moves.refl
    | assumption
    | with_reducible apply OutMoves.next
    | with_reducible apply OutMoves.ite
    | ((with_reducible apply Moves.next (h' := State.unlatch_moves)); (case hq => decide))
    | ((with_reducible apply Moves.next (h' := State.intWritten_moves)); (case hq => decide))
    | ((with_reducible apply Moves.modCmd); (case hq => decide); (case e0 => with_reducible rfl); (case e1 => with_reducible rfl))
    | ((with_reducible apply Moves.next (h' := State.modPair_moves)); (case hq => decide))
    | with_reducible apply Moves.ite
    | split

theorem execIntEnableWrite_moves {value : Word} {s : State} :
    OutMoves [.cmd, .outs] s (execIntEnableWrite value s) := by
  unfold execIntEnableWrite
  try dsimp only
  repeat' first
    | with_reducible apply Moves.refl
    | assumption
    | with_reducible apply OutMoves.next
    | with_reducible apply OutMoves.ite
    | ((with_reducible apply Moves.next (h' := State.intWritten_moves)); (case hq => decide))
    | ((with_reducible apply Moves.modCmd); (case hq => decide); (case e0 => with_reducible rfl); (case e1 => with_reducible rfl))
    | ((with_reducible apply Moves.next (h' := State.unlatch_moves)); (case hq => decide))

theorem State.pairError_moves {fab : Bool} {b : Nat} {f : QPair → QPair} {s : State} :
    Moves [.cmd, .outs] s (State.pairError fab b f s) := by
  unfold State.pairError
  try dsimp only
  repeat' first
    | with_reducible apply Moves.refl
    | assumption
    | ((with_reducible apply Moves.next (h' := State.intSet_moves)); (case hq => decide))
    | ((with_reducible apply Moves.modCmd); (case hq => decide); (case e0 => with_reducible rfl); (case e1 => with_reducible rfl))
    | ((with_reducible apply Moves.next (h' := State.modPair_moves)); (case hq => decide))
    | with_reducible apply Moves.ite
    | split

theorem execCqTailWrite_moves {fab : Bool} {value : BitVec 12} {s : State} :
    OutMoves [.pow, .cmd, .outs] s (execCqTailWrite fab value s) := by
  unfold execCqTailWrite
  try dsimp only
  repeat' first
    | with_reducible apply Moves.refl
    | assumption
    | with_reducible apply OutMoves.next
    | with_reducible apply OutMoves.ite
    | ((with_reducible apply Moves.next (h' := State.unlatch_moves)); (case hq => decide))
    | ((with_reducible apply Moves.next (h' := State.pairError_moves)); (case hq => decide))
    | ((with_reducible apply Moves.next (h' := State.ctlWake_moves)); (case hq => decide))
    | ((with_reducible apply Moves.next (h' := State.modPair_moves)); (case hq => decide))
    | ((with_reducible apply Moves.modCmd); (case hq => decide); (case e0 => with_reducible rfl); (case e1 => with_reducible rfl))
    | with_reducible apply Moves.ite
    | split

theorem execRqHeadWrite_moves {fab : Bool} {value : BitVec 12} {s : State} :
    OutMoves [.cmd, .outs] s (execRqHeadWrite fab value s) := by
  unfold execRqHeadWrite
  try dsimp only
  repeat' first
    | with_reducible apply Moves.refl
    | assumption
    | with_reducible apply OutMoves.next
    | with_reducible apply OutMoves.ite
    | ((with_reducible apply Moves.next (h' := State.unlatch_moves)); (case hq => decide))
    | ((with_reducible apply Moves.next (h' := State.pairError_moves)); (case hq => decide))
    | ((with_reducible apply Moves.next (h' := State.drainSlots_moves)); (case hq => decide))
    | ((with_reducible apply Moves.next (h' := State.modPair_moves)); (case hq => decide))
    | with_reducible apply Moves.ite
    | split

theorem execQueuePairEnable_moves {fab : Bool} {rqLog2 cqLog2 : BitVec 4} {s : State} :
    OutMoves [.cmd, .outs] s (execQueuePairEnable fab rqLog2 cqLog2 s) := by
  unfold execQueuePairEnable
  try dsimp only
  repeat' first
    | with_reducible apply Moves.refl
    | assumption
    | with_reducible apply OutMoves.next
    | with_reducible apply OutMoves.ite
    | ((with_reducible apply Moves.next (h' := State.unlatch_moves)); (case hq => decide))
    | ((with_reducible apply Moves.next (h' := State.drainSlots_moves)); (case hq => decide))
    | ((with_reducible apply Moves.next (h' := State.modPair_moves)); (case hq => decide))
    | ((with_reducible apply Moves.next (h' := State.pairError_moves)); (case hq => decide))
    | with_reducible apply Moves.ite
    | split

theorem State.stopPair_moves {fab : Bool} {s : State} :
    Moves [.cmd, .outs] s (State.stopPair fab s) := by
  unfold State.stopPair
  try dsimp only
  repeat' first
    | with_reducible apply Moves.refl
    | assumption
    | ((with_reducible apply Moves.next (h' := State.intSet_moves)); (case hq => decide))
    | ((with_reducible apply Moves.modCmd); (case hq => decide); (case e0 => with_reducible rfl); (case e1 => with_reducible rfl))
    | ((with_reducible apply Moves.next (h' := State.modPair_moves)); (case hq => decide))

theorem State.tailUndone_moves {fab : Bool} {s : State} :
    Moves [.cmd, .outs] s (State.tailUndone fab s) := by
  unfold State.tailUndone
  try dsimp only
  repeat' first
    | with_reducible apply Moves.refl
    | assumption
    | ((with_reducible apply Moves.next (h' := State.pairError_moves)); (case hq => decide))
    | with_reducible apply Moves.ite
    | split

theorem execQueuePairDisable_moves {fab : Bool} {s : State} :
    OutMoves [.cmd, .outs] s (execQueuePairDisable fab s) := by
  unfold execQueuePairDisable
  try dsimp only
  repeat' first
    | with_reducible apply Moves.refl
    | assumption
    | with_reducible apply OutMoves.next
    | with_reducible apply OutMoves.ite
    | ((with_reducible apply Moves.next (h' := State.tailUndone_moves)); (case hq => decide))
    | ((with_reducible apply Moves.next (h' := State.stopPair_moves)); (case hq => decide))
    | ((with_reducible apply Moves.next (h' := State.unlatch_moves)); (case hq => decide))
    | with_reducible apply Moves.ite
    | split

theorem execReplyWriteFail_moves {fab : Bool} {s : State} :
    OutMoves [.cmd, .outs] s (execReplyWriteFail fab s) := by
  unfold execReplyWriteFail
  try dsimp only
  repeat' first
    | with_reducible apply Moves.refl
    | assumption
    | with_reducible apply OutMoves.next
    | with_reducible apply OutMoves.ite
    | ((with_reducible apply Moves.next (h' := State.pairError_moves)); (case hq => decide))
    | ((with_reducible apply Moves.next (h' := State.stopPair_moves)); (case hq => decide))
    | with_reducible apply Moves.ite
    | split

theorem execRegisterWrite_moves {off : BitVec 16} {value : Word} {s : State} :
    OutMoves [.cmd] s (execRegisterWrite off value s) := by
  unfold execRegisterWrite
  try dsimp only
  repeat' first
    | with_reducible apply Moves.refl
    | assumption
    | with_reducible apply OutMoves.next
    | with_reducible apply OutMoves.ite
    | ((with_reducible apply Moves.next (h' := State.unlatch_moves)); (case hq => decide))
    | ((with_reducible apply Moves.next (h' := State.modPair_moves)); (case hq => decide))

end Sys2Proof.Machine
end

