-- ==== Sys2Proof/Laws/SysRows.lean ====
section
/-! SUPPORT. What the operations of Machine/SysRows.lean can change, and that they keep the invariant. -/

namespace Sys2Proof.Machine

theorem execSysIdentify_moves {c : Cmd} {s : State} :
    OutMoves [.pow, .coll, .hop, .hall, .cmd, .hoist, .outs] s (execSysIdentify c s) := by
  unfold execSysIdentify
  try dsimp only
  repeat' first
    | with_reducible apply Moves.refl
    | assumption
    | with_reducible apply AnsMoves.ok
    | with_reducible apply AnsMoves.acc
    | with_reducible apply AnsMoves.hold
    | with_reducible apply AnsMoves.ite
    | with_reducible apply OutMoves.next
    | with_reducible apply OutMoves.ite
    | ((with_reducible apply Moves.runCmd); (case hq => decide); (case' he => intro t))
    | with_reducible apply Moves.ite
    | split

theorem execSysStatus_moves {c : Cmd} {s : State} :
    OutMoves [.pow, .coll, .hop, .hall, .cmd, .hoist, .outs] s (execSysStatus c s) := by
  unfold execSysStatus
  try dsimp only
  repeat' first
    | with_reducible apply Moves.refl
    | assumption
    | with_reducible apply AnsMoves.ok
    | with_reducible apply AnsMoves.acc
    | with_reducible apply AnsMoves.hold
    | with_reducible apply AnsMoves.ite
    | with_reducible apply OutMoves.next
    | with_reducible apply OutMoves.ite
    | ((with_reducible apply Moves.runCmd); (case hq => decide); (case' he => intro t))
    | with_reducible apply Moves.ite
    | split

theorem execSysAddress_moves {c : Cmd} {s : State} :
    OutMoves [.sys, .pow, .coll, .hop, .hall, .cmd, .hoist, .outs] s (execSysAddress c s) := by
  unfold execSysAddress
  try dsimp only
  repeat' first
    | with_reducible apply Moves.refl
    | assumption
    | with_reducible apply AnsMoves.ok
    | with_reducible apply AnsMoves.acc
    | with_reducible apply AnsMoves.hold
    | with_reducible apply AnsMoves.ite
    | with_reducible apply OutMoves.next
    | with_reducible apply OutMoves.ite
    | ((with_reducible apply Moves.runCmd); (case hq => decide); (case' he => intro t))
    | ((with_reducible apply Moves.next (h' := State.epochEverywhere_moves)); (case hq => decide))
    | ((with_reducible apply Moves.next (h' := State.modSys_moves)); (case hq => decide))
    | with_reducible apply Moves.ite
    | split

theorem execSysPhase_moves {c : Cmd} {s : State} :
    OutMoves [.sys, .pow, .coll, .hop, .hall, .cmd, .hoist, .outs] s (execSysPhase c s) := by
  unfold execSysPhase
  try dsimp only
  repeat' first
    | with_reducible apply Moves.refl
    | assumption
    | with_reducible apply AnsMoves.ok
    | with_reducible apply AnsMoves.acc
    | with_reducible apply AnsMoves.hold
    | with_reducible apply AnsMoves.ite
    | with_reducible apply OutMoves.next
    | with_reducible apply OutMoves.ite
    | ((with_reducible apply Moves.runCmd); (case hq => decide); (case' he => intro t))
    | ((with_reducible apply Moves.next (h' := State.modSys_moves)); (case hq => decide))
    | with_reducible apply Moves.ite
    | split

theorem execSysPstate_moves {c : Cmd} {s : State} :
    OutMoves [.pow, .coll, .hop, .hall, .cmd, .crown, .model, .verd, .trace, .brake, .test, .assay, .flash, .conf, .hoist, .outs] s (execSysPstate c s) := by
  unfold execSysPstate
  try dsimp only
  repeat' first
    | with_reducible apply Moves.refl
    | assumption
    | with_reducible apply OutMoves.next
    | with_reducible apply OutMoves.ite
    | ((with_reducible apply Moves.next (h' := cmdSysPstate_moves)); (case hq => decide))

theorem execDomainReset_moves {c : Cmd} {s : State} :
    OutMoves [.pow, .coll, .hop, .hall, .cmd, .hoist, .outs] s (execDomainReset c s) := by
  unfold execDomainReset
  try dsimp only
  repeat' first
    | with_reducible apply Moves.refl
    | assumption
    | with_reducible apply AnsMoves.ok
    | with_reducible apply AnsMoves.acc
    | with_reducible apply AnsMoves.hold
    | with_reducible apply AnsMoves.ite
    | with_reducible apply OutMoves.next
    | with_reducible apply OutMoves.ite
    | ((with_reducible apply Moves.next (h' := State.modPow_moves)); (case hq => decide))
    | ((with_reducible apply Moves.runCmd); (case hq => decide); (case' he => intro t))
    | with_reducible apply Moves.ite
    | split

theorem execDomainResetStart_moves {s : State} :
    OutMoves [.sys, .pow, .time, .coll, .hop, .hall, .cmd, .crown, .model, .verd, .sentry, .trace, .brake, .test, .temper, .flash, .conf, .hoist, .outs] s (execDomainResetStart s) := by
  unfold execDomainResetStart
  try dsimp only
  repeat' first
    | with_reducible apply Moves.refl
    | assumption
    | with_reducible apply OutMoves.next
    | with_reducible apply OutMoves.ite
    | ((with_reducible apply Moves.next (h' := State.modPow_moves)); (case hq => decide))
    | ((with_reducible apply Moves.next (h' := State.resetEntry_moves)); (case hq => decide))
    | with_reducible apply Moves.ite
    | split

theorem execServiceRestore_moves {c : Cmd} {s : State} :
    OutMoves [.sys, .pow, .coll, .hop, .hall, .cmd, .brake, .hoist, .outs] s (execServiceRestore c s) := by
  unfold execServiceRestore
  try dsimp only
  repeat' first
    | with_reducible apply Moves.refl
    | assumption
    | with_reducible apply AnsMoves.ok
    | with_reducible apply AnsMoves.acc
    | with_reducible apply AnsMoves.hold
    | with_reducible apply AnsMoves.ite
    | with_reducible apply OutMoves.next
    | with_reducible apply OutMoves.ite
    | ((with_reducible apply Moves.runCmd); (case hq => decide); (case' he => intro t))
    | ((with_reducible apply Moves.next (h' := State.ownNotice_moves)); (case hq => decide))
    | ((with_reducible apply Moves.next (h' := State.modBrake_moves)); (case hq => decide))
    | ((with_reducible apply Moves.next (h' := State.modSys_moves)); (case hq => decide))
    | with_reducible apply Moves.ite
    | split

theorem State.askJoin_moves {s : State} :
    Moves [.sys, .coll, .hop, .hall, .cmd, .brake, .outs] s (State.askJoin s) := by
  unfold State.askJoin
  try dsimp only
  repeat' first
    | with_reducible apply Moves.refl
    | assumption
    | ((with_reducible apply Moves.next (h' := State.sendOwed_moves)); (case hq => decide))
    | ((with_reducible apply Moves.next (h' := State.modSys_moves)); (case hq => decide))
    | with_reducible apply Moves.ite
    | split

theorem State.lastCutAt_moves {t : Nat} {s : State} :
    Moves [.crown] s (State.lastCutAt t s) := by
  unfold State.lastCutAt
  try dsimp only
  repeat' first
    | with_reducible apply Moves.refl
    | assumption
    | ((with_reducible apply Moves.next (h' := State.modCrown_moves)); (case hq => decide))
    | with_reducible apply Moves.ite
    | split

theorem State.designated_moves {m : Laddr} {s : State} :
    Moves [.sys, .coll, .hop, .hall, .cmd, .crown, .verd, .brake, .gov, .outs] s (State.designated m s) := by
  unfold State.designated
  try dsimp only
  repeat' first
    | with_reducible apply Moves.refl
    | assumption
    | ((with_reducible apply Moves.next (h' := State.modSys_moves)); (case hq => decide))
    | ((with_reducible apply Moves.next (h' := State.lastCutAt_moves)); (case hq => decide))
    | ((with_reducible apply Moves.next (h' := State.floorReset_moves)); (case hq => decide))
    | ((with_reducible apply Moves.next (h' := State.sendOwed_moves)); (case hq => decide))
    | with_reducible apply Moves.ite
    | split

theorem execTrayDesignate_moves {c : Cmd} {s : State} :
    OutMoves [.sys, .pow, .coll, .hop, .hall, .cmd, .crown, .verd, .brake, .gov, .hoist, .outs] s (execTrayDesignate c s) := by
  unfold execTrayDesignate
  try dsimp only
  repeat' first
    | with_reducible apply Moves.refl
    | assumption
    | with_reducible apply AnsMoves.ok
    | with_reducible apply AnsMoves.acc
    | with_reducible apply AnsMoves.hold
    | with_reducible apply AnsMoves.ite
    | with_reducible apply OutMoves.next
    | with_reducible apply OutMoves.ite
    | ((with_reducible apply Moves.runCmd); (case hq => decide); (case' he => intro t))
    | ((with_reducible apply Moves.next (h' := State.modSys_moves)); (case hq => decide))
    | ((with_reducible apply Moves.next (h' := State.floorReset_moves)); (case hq => decide))
    | ((with_reducible apply Moves.next (h' := State.modCrown_moves)); (case hq => decide))
    | ((with_reducible apply Moves.next (h' := State.designated_moves)); (case hq => decide))
    | with_reducible apply Moves.ite
    | split

theorem execCrownPowered_moves {s : State} :
    OutMoves [.sys, .coll, .hop, .hall, .cmd, .hoist, .outs] s (execCrownPowered s) := by
  unfold execCrownPowered
  try dsimp only
  repeat' first
    | with_reducible apply Moves.refl
    | assumption
    | with_reducible apply OutMoves.next
    | with_reducible apply OutMoves.ite
    | ((with_reducible apply Moves.next (h' := State.finishAll_moves)); (case hq => decide))
    | ((with_reducible apply Moves.next (h' := State.modSys_moves)); (case hq => decide))
    | with_reducible apply Moves.ite
    | split

theorem State.answerJoin_moves {i : Nat} {r : Rec} {s : State} :
    Moves [.sys, .coll, .hop, .hall, .cmd, .outs] s (State.answerJoin i r s) := by
  unfold State.answerJoin
  try dsimp only
  repeat' first
    | with_reducible apply Moves.refl
    | assumption
    | ((with_reducible apply Moves.next (h' := State.modSys_moves)); (case hq => decide))
    | ((with_reducible apply Moves.next (h' := State.send_moves)); (case hq => decide))
    | with_reducible apply Moves.ite
    | split

theorem State.takeJoin_moves {r : Rec} {s : State} :
    Moves [.sys, .crown] s (State.takeJoin r s) := by
  unfold State.takeJoin
  try dsimp only
  repeat' first
    | with_reducible apply Moves.refl
    | assumption
    | ((with_reducible apply Moves.next (h' := State.modSys_moves)); (case hq => decide))
    | ((with_reducible apply Moves.next (h' := State.lastCutAt_moves)); (case hq => decide))
    | with_reducible apply Moves.ite
    | split

theorem State.rxJoin_moves {i : Nat} {r : Rec} {s : State} :
    Moves [.sys, .coll, .hop, .hall, .cmd, .crown, .outs] s (State.rxJoin i r s) := by
  unfold State.rxJoin
  try dsimp only
  repeat' first
    | with_reducible apply Moves.refl
    | assumption
    | ((with_reducible apply Moves.next (h' := State.answerJoin_moves)); (case hq => decide))
    | ((with_reducible apply Moves.next (h' := State.takeJoin_moves)); (case hq => decide))
    | with_reducible apply Moves.ite
    | split

theorem execJoinTimeout_moves {s : State} :
    OutMoves [.sys] s (execJoinTimeout s) := by
  unfold execJoinTimeout
  try dsimp only
  repeat' first
    | with_reducible apply Moves.refl
    | assumption
    | with_reducible apply OutMoves.next
    | with_reducible apply OutMoves.ite
    | ((with_reducible apply Moves.next (h' := State.modSys_moves)); (case hq => decide))
    | with_reducible apply Moves.ite
    | split

theorem execFabJoinRepeat_moves {s : State} :
    OutMoves [.sys, .coll, .hop, .hall, .cmd, .outs] s (execFabJoinRepeat s) := by
  unfold execFabJoinRepeat
  try dsimp only
  repeat' first
    | with_reducible apply Moves.refl
    | assumption
    | with_reducible apply OutMoves.next
    | with_reducible apply OutMoves.ite
    | ((with_reducible apply Moves.next (h' := State.modSys_moves)); (case hq => decide))
    | ((with_reducible apply Moves.next (h' := State.send_moves)); (case hq => decide))
    | with_reducible apply Moves.ite
    | ((with_reducible apply Moves.fold); (intro t x m))
    | split

theorem State.linkLost_moves {i : Nat} {s : State} :
    Moves [.hop, .crown, .outs] s (State.linkLost i s) := by
  unfold State.linkLost
  try dsimp only
  repeat' first
    | with_reducible apply Moves.refl
    | assumption
    | ((with_reducible apply Moves.next (h' := State.emit_moves)); (case hq => decide))
    | ((with_reducible apply Moves.next (h' := State.forwarderEvent_moves)); (case hq => decide))
    | ((with_reducible apply Moves.next (h' := State.modIfc_moves)); (case hq => decide))
    | ((with_reducible apply Moves.next (h' := State.dropSecond_moves)); (case hq => decide))
    | with_reducible apply Moves.ite
    | split

theorem execSysInject_moves {c : Cmd} {s : State} :
    OutMoves [.sys, .pow, .coll, .hop, .hall, .cmd, .crown, .hoist, .outs] s (execSysInject c s) := by
  unfold execSysInject
  try dsimp only
  repeat' first
    | with_reducible apply Moves.refl
    | assumption
    | with_reducible apply AnsMoves.ok
    | with_reducible apply AnsMoves.acc
    | with_reducible apply AnsMoves.hold
    | with_reducible apply AnsMoves.ite
    | with_reducible apply OutMoves.next
    | with_reducible apply OutMoves.ite
    | ((with_reducible apply Moves.runCmd); (case hq => decide); (case' he => intro t))
    | ((with_reducible apply Moves.next (h' := State.modSys_moves)); (case hq => decide))
    | ((with_reducible apply Moves.next (h' := State.modIfc_moves)); (case hq => decide))
    | ((with_reducible apply Moves.next (h' := State.linkLost_moves)); (case hq => decide))
    | with_reducible apply Moves.ite
    | split

theorem execFaultInjectionEnd_moves {fault : Nat} {s : State} :
    OutMoves [.sys, .hop] s (execFaultInjectionEnd fault s) := by
  unfold execFaultInjectionEnd
  try dsimp only
  repeat' first
    | with_reducible apply Moves.refl
    | assumption
    | with_reducible apply OutMoves.next
    | with_reducible apply OutMoves.ite
    | ((with_reducible apply Moves.next (h' := State.modSys_moves)); (case hq => decide))
    | ((with_reducible apply Moves.next (h' := State.modIfc_moves)); (case hq => decide))
    | with_reducible apply Moves.ite
    | ((with_reducible apply Moves.fold); (intro t x m))

theorem execBcastSend_moves {c : Cmd} {s : State} :
    OutMoves [.pow, .coll, .hop, .hall, .cmd, .crown, .hoist, .outs] s (execBcastSend c s) := by
  unfold execBcastSend
  try dsimp only
  repeat' first
    | with_reducible apply Moves.refl
    | assumption
    | with_reducible apply AnsMoves.ok
    | with_reducible apply AnsMoves.acc
    | with_reducible apply AnsMoves.hold
    | with_reducible apply AnsMoves.ite
    | with_reducible apply OutMoves.next
    | with_reducible apply OutMoves.ite
    | ((with_reducible apply Moves.next (h' := State.bcastSettle_moves)); (case hq => decide))
    | ((with_reducible apply Moves.runCmd); (case hq => decide); (case' he => intro t))
    | ((with_reducible apply Moves.next (h' := State.bcastStart_moves)); (case hq => decide))
    | with_reducible apply Moves.ite
    | split

end Sys2Proof.Machine
end

