-- ==== Sys2Proof/Laws/Transport.lean ====
section
/-! SUPPORT. What the operations of Machine/Transport.lean can change, and that they keep the invariant. -/

namespace Sys2Proof.Machine

theorem OutMoves.mono {ps qs : List Area} {s : State} {o : Host.Outcome State Fault Refusal} (h : OutMoves ps s o)
    (hq : subAreas ps qs = true) : OutMoves qs s o := fun t e => (h t e).mono hq

theorem State.after_moves {ps : List Area} {o : Host.Outcome State Fault Refusal} {s : State} (h : OutMoves ps s o) :
    Moves ps s (s.after o) := by
  unfold State.after
  split
  · exact h _ rfl
  · exact Moves.refl s
  · exact Moves.refl s

/-- What the meaning of every opcode of a list can change. -/
def OpsMove (ps : List Area) (l : List (Nat × Meaning)) : Prop := ∀ e ∈ l, ∀ c s, OutMoves ps s (e.2 c s)

theorem OpsMove.nil {ps : List Area} : OpsMove ps [] := fun _ h => absurd h List.not_mem_nil

theorem OpsMove.cons {ps qs : List Area} {n : Nat} {m : Meaning} {l : List (Nat × Meaning)} (h : ∀ {c : Cmd} {s : State}, OutMoves ps s (m c s))
    (hq : subAreas ps qs = true) (k : OpsMove qs l) : OpsMove qs ((n, m) :: l) := by
  intro e he c s
  rcases List.mem_cons.mp he with rfl | he
  · exact h.mono hq
  · exact k e he c s

theorem OpsMove.append {ps : List Area} {l m : List (Nat × Meaning)} (h : OpsMove ps l) (k : OpsMove ps m) : OpsMove ps (l ++ m) := by
  intro e he
  rcases List.mem_append.mp he with he | he
  · exact h e he
  · exact k e he

/-- The areas that the commands of a packet can change: all but Assay in METRO and the queue of waiting commands. -/
def packetAreas : List Area := [.sys, .pow, .time, .coll, .hop, .hall, .cmd, .crown, .model, .verd, .sentry, .trace, .brake, .test, .gov, .temper, .assay, .flash, .conf, .hoist, .outs]

theorem sysOps_move : OpsMove packetAreas sysOps := by
  unfold sysOps
  refine OpsMove.cons execSysIdentify_moves (by decide) ?_
  refine OpsMove.cons execSysStatus_moves (by decide) ?_
  refine OpsMove.cons execSysAddress_moves (by decide) ?_
  refine OpsMove.cons execSysPhase_moves (by decide) ?_
  refine OpsMove.cons execSysPstate_moves (by decide) ?_
  refine OpsMove.cons execDomainReset_moves (by decide) ?_
  refine OpsMove.cons execServiceRestore_moves (by decide) ?_
  refine OpsMove.cons execTrayDesignate_moves (by decide) ?_
  refine OpsMove.cons execSysInject_moves (by decide) ?_
  exact OpsMove.nil

theorem timeOps_move : OpsMove packetAreas timeOps := by
  unfold timeOps
  refine OpsMove.cons execTimeConfig_moves (by decide) ?_
  refine OpsMove.cons execTimeJob_moves (by decide) ?_
  refine OpsMove.cons execTimeAsym_moves (by decide) ?_
  refine OpsMove.cons execTimeCal_moves (by decide) ?_
  refine OpsMove.cons execTimeStatus_moves (by decide) ?_
  exact OpsMove.nil

theorem collectOps_move : OpsMove packetAreas collectOps := by
  unfold collectOps
  refine OpsMove.cons execCollectCounter_moves (by decide) ?_
  refine OpsMove.cons execCollectSet_moves (by decide) ?_
  refine OpsMove.cons execCollectArm_moves (by decide) ?_
  refine OpsMove.cons execCollectMap_moves (by decide) ?_
  refine OpsMove.cons execCollectRead_moves (by decide) ?_
  refine OpsMove.cons execDiscConfig_moves (by decide) ?_
  refine OpsMove.cons execCollectStatus_moves (by decide) ?_
  exact OpsMove.nil

theorem streamOps_move : OpsMove packetAreas streamOps := by
  unfold streamOps
  refine OpsMove.cons execStreamConfig_moves (by decide) ?_
  refine OpsMove.cons execStreamShaper_moves (by decide) ?_
  refine OpsMove.cons execStreamGate_moves (by decide) ?_
  refine OpsMove.cons execStreamLink_moves (by decide) ?_
  refine OpsMove.cons execStreamStatus_moves (by decide) ?_
  exact OpsMove.nil

theorem reduceOps_move : OpsMove packetAreas reduceOps := by
  unfold reduceOps
  refine OpsMove.cons execReduceDefine_moves (by decide) ?_
  refine OpsMove.cons execReduceDelete_moves (by decide) ?_
  refine OpsMove.cons execCutConfig_moves (by decide) ?_
  refine OpsMove.cons execCutRead_moves (by decide) ?_
  refine OpsMove.cons execCutRegister_moves (by decide) ?_
  refine OpsMove.cons execCutRelease_moves (by decide) ?_
  refine OpsMove.cons execTreeInstall_moves (by decide) ?_
  refine OpsMove.cons execBcastSend_moves (by decide) ?_
  refine OpsMove.cons execMapConfig_moves (by decide) ?_
  refine OpsMove.cons execReduceStatus_moves (by decide) ?_
  exact OpsMove.nil

theorem modelOps_move : OpsMove packetAreas modelOps := by
  unfold modelOps
  refine OpsMove.cons execModelLoad_moves (by decide) ?_
  refine OpsMove.cons execModelActivate_moves (by decide) ?_
  refine OpsMove.cons execModelDeactivate_moves (by decide) ?_
  refine OpsMove.cons execModelUnload_moves (by decide) ?_
  refine OpsMove.cons execModelStatus_moves (by decide) ?_
  refine OpsMove.cons execChannelOpen_moves (by decide) ?_
  refine OpsMove.cons execChannelClose_moves (by decide) ?_
  refine OpsMove.cons execChannelReset_moves (by decide) ?_
  refine OpsMove.cons execChannelForecast_moves (by decide) ?_
  refine OpsMove.cons execModelParam_moves (by decide) ?_
  exact OpsMove.nil

theorem verdictOps_move : OpsMove packetAreas verdictOps := by
  unfold verdictOps
  refine OpsMove.cons execScoreSet_moves (by decide) ?_
  refine OpsMove.cons execScoreClear_moves (by decide) ?_
  refine OpsMove.cons execVerdictWithdraw_moves (by decide) ?_
  refine OpsMove.cons execVerdictConfig_moves (by decide) ?_
  refine OpsMove.cons execVerdictBudget_moves (by decide) ?_
  refine OpsMove.cons execVerdictDrill_moves (by decide) ?_
  refine OpsMove.cons execJobMembers_moves (by decide) ?_
  refine OpsMove.cons execJobEnd_moves (by decide) ?_
  refine OpsMove.cons execVerdictParam_moves (by decide) ?_
  refine OpsMove.cons execVerdictStatus_moves (by decide) ?_
  exact OpsMove.nil

theorem sentryOps_move : OpsMove packetAreas sentryOps := by
  unfold sentryOps
  refine OpsMove.cons execSentryWatch_moves (by decide) ?_
  refine OpsMove.cons execSentryPartners_moves (by decide) ?_
  refine OpsMove.cons execSentryGoal_moves (by decide) ?_
  refine OpsMove.cons execSentryRollback_moves (by decide) ?_
  refine OpsMove.cons execSentryRelease_moves (by decide) ?_
  refine OpsMove.cons execSentryStatus_moves (by decide) ?_
  refine OpsMove.cons execSentryParam_moves (by decide) ?_
  exact OpsMove.nil

theorem recoverOps_move : OpsMove packetAreas recoverOps := by
  unfold recoverOps
  refine OpsMove.cons execHeartbeatConfig_moves (by decide) ?_
  refine OpsMove.cons execIngotConfig_moves (by decide) ?_
  refine OpsMove.cons execIngotTake_moves (by decide) ?_
  refine OpsMove.cons execIngotRead_moves (by decide) ?_
  refine OpsMove.cons execIngotClear_moves (by decide) ?_
  refine OpsMove.cons execContextResult_moves (by decide) ?_
  refine OpsMove.cons execBrakeStatus_moves (by decide) ?_
  exact OpsMove.nil

theorem traceOps_move : OpsMove packetAreas traceOps := by
  unfold traceOps
  refine OpsMove.cons execTraceConfig_moves (by decide) ?_
  refine OpsMove.cons execTraceAuth_moves (by decide) ?_
  refine OpsMove.cons execTraceDeauth_moves (by decide) ?_
  refine OpsMove.cons execTraceStatus_moves (by decide) ?_
  exact OpsMove.nil

theorem watchOps_move : OpsMove packetAreas watchOps := by
  unfold watchOps
  refine OpsMove.cons execWatchArm_moves (by decide) ?_
  refine OpsMove.cons execWatchDisarm_moves (by decide) ?_
  refine OpsMove.cons execWatchRate_moves (by decide) ?_
  refine OpsMove.cons execWatchStatus_moves (by decide) ?_
  exact OpsMove.nil

theorem recorderOps_move : OpsMove packetAreas recorderOps := by
  unfold recorderOps
  refine OpsMove.cons execRecorderRead_moves (by decide) ?_
  refine OpsMove.cons execRecorderStatus_moves (by decide) ?_
  refine OpsMove.cons execRecorderClear_moves (by decide) ?_
  refine OpsMove.cons execRecorderNote_moves (by decide) ?_
  refine OpsMove.cons execRecorderConfig_moves (by decide) ?_
  exact OpsMove.nil

theorem powerOps_move : OpsMove packetAreas powerOps := by
  unfold powerOps
  refine OpsMove.cons execPowerBudget_moves (by decide) ?_
  refine OpsMove.cons execPowerMember_moves (by decide) ?_
  refine OpsMove.cons execPowerStatic_moves (by decide) ?_
  refine OpsMove.cons execPowerConfig_moves (by decide) ?_
  refine OpsMove.cons execPowerStatus_moves (by decide) ?_
  refine OpsMove.cons execTemperConfig_moves (by decide) ?_
  exact OpsMove.nil

theorem metroOps_move : OpsMove packetAreas metroOps := by
  unfold metroOps
  refine OpsMove.cons execMetroRead_moves (by decide) ?_
  exact OpsMove.nil

theorem testOps_move : OpsMove packetAreas testOps := by
  unfold testOps
  refine OpsMove.cons execTestConfig_moves (by decide) ?_
  refine OpsMove.cons execTestGrant_moves (by decide) ?_
  refine OpsMove.cons execTestDefer_moves (by decide) ?_
  refine OpsMove.cons execTestDone_moves (by decide) ?_
  refine OpsMove.cons execTestClear_moves (by decide) ?_
  refine OpsMove.cons execTestStatus_moves (by decide) ?_
  exact OpsMove.nil

theorem updateOps_move : OpsMove packetAreas updateOps := by
  unfold updateOps
  refine OpsMove.cons execUpdateStage_moves (by decide) ?_
  refine OpsMove.cons execUpdateChain_moves (by decide) ?_
  refine OpsMove.cons execUpdateStart_moves (by decide) ?_
  refine OpsMove.cons execUpdateConfirm_moves (by decide) ?_
  refine OpsMove.cons execUpdateStatus_moves (by decide) ?_
  exact OpsMove.nil

theorem opTable_move : OpsMove packetAreas opTable :=
  (((((((((((((((sysOps_move.append timeOps_move).append collectOps_move).append streamOps_move).append reduceOps_move).append modelOps_move).append verdictOps_move).append sentryOps_move).append recoverOps_move).append traceOps_move).append watchOps_move).append recorderOps_move).append powerOps_move).append metroOps_move).append testOps_move).append updateOps_move)

theorem CmdUnit.assemble_ok {c : CmdUnit} {r : Rec} (k : c.Ok) : (c.assemble r).1.Ok := by
  unfold CmdUnit.assemble
  dsimp only
  split <;> exact ⟨k.1, k.2⟩

theorem State.runPacket_moves {p : Path} {b : List Byte} {reads : List (Option (List Byte))} {inl : List Byte} {writesOk : Bool} {s : State} :
    Moves [.sys, .pow, .time, .coll, .hop, .hall, .cmd, .crown, .model, .verd, .sentry, .trace, .brake, .test, .gov, .temper, .assay, .flash, .conf, .hoist, .outs] s (State.runPacket p b reads inl writesOk s) := by
  unfold State.runPacket
  split
  · next e he => exact State.after_moves (opTable_move e (List.mem_of_find?_eq_some he) _ _)
  · exact Moves.ite (((State.bump_moves.mono (by decide)).next State.reply_moves (by decide)).next State.restoreNext_moves (by decide))
      (Moves.refl s)

theorem State.runFabric_moves {p : Path} {iss : Issuer} {src : Laddr} {b inl : List Byte} {bad : Bool} {s : State} :
    Moves [.sys, .pow, .time, .coll, .hop, .hall, .cmd, .crown, .model, .verd, .sentry, .trace, .brake, .test, .gov, .temper, .assay, .flash, .conf, .hoist, .outs] s (State.runFabric p iss src b inl bad s) := by
  unfold State.runFabric
  try dsimp only
  repeat' first
    | with_reducible apply Moves.refl
    | assumption
    | ((with_reducible apply Moves.next (h' := State.reply_moves)); (case hq => decide))
    | ((with_reducible apply Moves.next (h' := State.bump_moves)); (case hq => decide))
    | ((with_reducible apply Moves.next (h' := State.runPacket_moves)); (case hq => decide))
    | with_reducible apply Moves.ite

theorem State.busyRestore_moves {p : Path} {b : List Byte} {s : State} :
    Moves [.coll, .hop, .hall, .cmd, .hoist, .outs] s (State.busyRestore p b s) := by
  unfold State.busyRestore
  try dsimp only
  repeat' first
    | with_reducible apply Moves.refl
    | assumption
    | ((with_reducible apply Moves.next (h' := State.reply_moves)); (case hq => decide))
    | ((with_reducible apply Moves.next (h' := State.bump_moves)); (case hq => decide))
    | with_reducible apply Moves.ite
    | split

theorem State.deliverCmd_moves {h : Held} {s : State} :
    Moves [.sys, .pow, .time, .coll, .hop, .hall, .cmd, .crown, .model, .verd, .sentry, .trace, .brake, .test, .gov, .temper, .assay, .flash, .conf, .hoist, .outs] s (State.deliverCmd h s) := by
  unfold State.deliverCmd
  try dsimp only
  repeat' first
    | with_reducible apply Moves.refl
    | assumption
    | ((with_reducible apply Moves.next (h' := State.runFabric_moves)); (case hq => decide))
    | ((with_reducible apply Moves.modCmd); (case hq => decide); (case e0 => with_reducible rfl); (case e1 => with_reducible rfl))
    | ((with_reducible apply Moves.cmdOk); (case hq => decide); (case k => intro k; exact CmdUnit.storeReply_ok k))

theorem State.releaseCmds_moves {src : Laddr} {iss : Issuer} {n : Nat} {s : State} :
    Moves [.sys, .pow, .time, .coll, .hop, .hall, .cmd, .crown, .model, .verd, .sentry, .trace, .brake, .test, .gov, .temper, .assay, .flash, .conf, .hoist, .outs] s (State.releaseCmds src iss n s) := by
  induction n generalizing s with
  | zero => exact Moves.refl s
  | succ n ih =>
    unfold State.releaseCmds
    try dsimp only
    repeat' first
      | ((with_reducible apply Moves.next (h' := ih)); (case hq => decide))
      | with_reducible apply Moves.refl
      | assumption
      | ((with_reducible apply Moves.next (h' := State.deliverCmd_moves)); (case hq => decide))
      | ((with_reducible apply Moves.modCmd); (case hq => decide); (case e0 => with_reducible rfl); (case e1 => with_reducible rfl))
      | ((with_reducible apply Moves.cmdOk); (case hq => decide); (case k => intro k; exact ⟨k.1, k.2⟩))
      | with_reducible apply Moves.ite
      | split

theorem State.orderCmd_moves {h : Held} {s : State} :
    Moves [.sys, .pow, .time, .coll, .hop, .hall, .cmd, .crown, .model, .verd, .sentry, .trace, .brake, .test, .gov, .temper, .assay, .flash, .conf, .hoist, .outs] s (State.orderCmd h s) := by
  unfold State.orderCmd
  try dsimp only
  repeat' first
    | with_reducible apply Moves.refl
    | assumption
    | ((with_reducible apply Moves.next (h' := State.releaseCmds_moves)); (case hq => decide))
    | ((with_reducible apply Moves.next (h' := State.busyRestore_moves)); (case hq => decide))
    | ((with_reducible apply Moves.modCmd); (case hq => decide); (case e0 => with_reducible rfl); (case e1 => with_reducible rfl))
    | ((with_reducible apply Moves.next (h' := State.deliverCmd_moves)); (case hq => decide))
    | ((with_reducible apply Moves.cmdOk); (case hq => decide); (case k => intro k; exact ⟨k.1, k.2⟩))
    | with_reducible apply Moves.ite

theorem State.rxCommand_moves {r : Rec} {s : State} :
    Moves [.sys, .pow, .time, .coll, .hop, .hall, .cmd, .crown, .model, .verd, .sentry, .trace, .brake, .test, .gov, .temper, .assay, .flash, .conf, .hoist, .outs] s (State.rxCommand r s) := by
  unfold State.rxCommand
  try dsimp only
  repeat' first
    | with_reducible apply Moves.refl
    | assumption
    | ((with_reducible apply Moves.next (h' := State.bump_moves)); (case hq => decide))
    | ((with_reducible apply Moves.next (h' := State.sendReplyRecs_moves)); (case hq => decide))
    | ((with_reducible apply Moves.modCmd); (case hq => decide); (case e0 => with_reducible rfl); (case e1 => with_reducible rfl))
    | ((with_reducible apply Moves.next (h' := State.orderCmd_moves)); (case hq => decide))
    | ((with_reducible apply Moves.cmdOk); (case hq => decide); (case k => intro k; exact CmdUnit.assemble_ok k))
    | with_reducible apply Moves.ite
    | split

theorem execSeqGapSkip_moves {src : Laddr} {issuer : Issuer} {s : State} :
    OutMoves [.sys, .pow, .time, .coll, .hop, .hall, .cmd, .crown, .model, .verd, .sentry, .trace, .brake, .test, .gov, .temper, .assay, .flash, .conf, .hoist, .outs] s (execSeqGapSkip src issuer s) := by
  unfold execSeqGapSkip
  try dsimp only
  repeat' first
    | with_reducible apply Moves.refl
    | assumption
    | with_reducible apply OutMoves.next
    | with_reducible apply OutMoves.ite
    | ((with_reducible apply Moves.next (h' := State.releaseCmds_moves)); (case hq => decide))
    | ((with_reducible apply Moves.modCmd); (case hq => decide); (case e0 => with_reducible rfl); (case e1 => with_reducible rfl))
    | ((with_reducible apply Moves.cmdOk); (case hq => decide); (case k => intro k; exact ⟨k.1, k.2⟩))
    | with_reducible apply Moves.ite
    | split

theorem State.orderRestart_moves {src : Laddr} {s : State} :
    Moves [.cmd] s (State.orderRestart src s) := by
  unfold State.orderRestart
  try dsimp only
  repeat' first
    | with_reducible apply Moves.refl
    | assumption
    | ((with_reducible apply Moves.modCmd); (case hq => decide); (case e0 => with_reducible rfl); (case e1 => with_reducible rfl))
    | ((with_reducible apply Moves.cmdOk); (case hq => decide); (case k => intro k; exact ⟨k.1, Nat.le_trans (List.length_filter_le _ _) k.2⟩))

theorem State.sendFlight_moves {f : Flight} {s : State} :
    Moves [.coll, .hop, .hall, .cmd, .outs] s (State.sendFlight f s) := by
  unfold State.sendFlight
  try dsimp only
  repeat' first
    | with_reducible apply Moves.refl
    | assumption
    | ((with_reducible apply Moves.next (h' := State.send_moves)); (case hq => decide))
    | with_reducible apply Moves.ite
    | ((with_reducible apply Moves.fold); (intro t x m))
    | split

theorem State.startFlight_moves {f : Flight} {s : State} :
    Moves [.sys, .pow, .time, .coll, .hop, .hall, .cmd, .crown, .model, .verd, .sentry, .trace, .brake, .test, .gov, .temper, .assay, .flash, .conf, .hoist, .outs] s (State.startFlight f s) := by
  unfold State.startFlight
  try dsimp only
  repeat' first
    | with_reducible apply Moves.refl
    | assumption
    | ((with_reducible apply Moves.next (h' := State.runFabric_moves)); (case hq => decide))
    | ((with_reducible apply Moves.modCmd); (case hq => decide); (case e0 => with_reducible rfl); (case e1 => with_reducible rfl))
    | ((with_reducible apply Moves.next (h' := State.sendFlight_moves)); (case hq => decide))
    | with_reducible apply Moves.ite

theorem State.gwPump_moves {s : State} :
    Moves [.sys, .pow, .time, .coll, .hop, .hall, .cmd, .crown, .model, .verd, .sentry, .trace, .brake, .test, .gov, .temper, .assay, .flash, .conf, .hoist, .outs] s (State.gwPump s) := by
  unfold State.gwPump
  try dsimp only
  repeat' first
    | with_reducible apply Moves.refl
    | assumption
    | ((with_reducible apply Moves.next (h' := State.startFlight_moves)); (case hq => decide))
    | ((with_reducible apply Moves.modCmd); (case hq => decide); (case e0 => with_reducible rfl); (case e1 => with_reducible rfl))
    | with_reducible apply Moves.ite
    | ((with_reducible apply Moves.fold); (intro t x m))

theorem State.gwTake_moves {b : List Byte} {inl : Option (List Byte)} {route : Bool} {s : State} :
    Moves [.sys, .pow, .time, .coll, .hop, .hall, .cmd, .crown, .model, .verd, .sentry, .trace, .brake, .test, .gov, .temper, .assay, .flash, .conf, .hoist, .outs] s (State.gwTake b inl route s) := by
  unfold State.gwTake
  try dsimp only
  repeat' first
    | with_reducible apply Moves.refl
    | assumption
    | ((with_reducible apply Moves.next (h' := State.gwError_moves)); (case hq => decide))
    | ((with_reducible apply Moves.next (h' := State.bump_moves)); (case hq => decide))
    | ((with_reducible apply Moves.next (h' := State.gwPump_moves)); (case hq => decide))
    | ((with_reducible apply Moves.modCmd); (case hq => decide); (case e0 => with_reducible rfl); (case e1 => with_reducible rfl))
    | with_reducible apply Moves.ite
    | split

theorem State.advanceHead_moves {fab : Bool} {s : State} :
    Moves [.cmd] s (State.advanceHead fab s) := by
  unfold State.advanceHead
  try dsimp only
  repeat' first
    | with_reducible apply Moves.refl
    | assumption
    | ((with_reducible apply Moves.next (h' := State.modPair_moves)); (case hq => decide))

theorem State.readFailed_moves {fab : Bool} {index : Nat} {s : State} :
    Moves [.coll, .cmd, .outs] s (State.readFailed fab index s) := by
  unfold State.readFailed
  try dsimp only
  repeat' first
    | with_reducible apply Moves.refl
    | assumption
    | ((with_reducible apply Moves.next (h' := State.putReply_moves)); (case hq => decide))
    | ((with_reducible apply Moves.next (h' := State.bump_moves)); (case hq => decide))

theorem Moves.fetchEntry {ps : List Area} {u s : State} {fab : Bool} {entry : Option (List Byte)} {run : List Byte → State → State}
    (h : Moves ps u s) (hr : ∀ b t, Moves ps u t → Moves ps u (run b t)) (hq : subAreas [.coll, .cmd, .outs] ps = true) :
    Moves ps u (s.fetchEntry fab entry run) := by
  have up : ∀ {qs : List Area} {s t : State}, Moves qs s t → subAreas qs [.coll, .cmd, .outs] = true → Moves ps s t :=
    fun m k => (m.mono k).mono hq
  have m := h.trans (up (State.advanceHead_moves (fab := fab) (s := s)) (by decide))
  unfold State.fetchEntry
  refine Moves.ite ?_ h
  split
  · exact Moves.ite (m.trans (up State.readFailed_moves (by decide))) h
  · exact Moves.ite h (hr _ _ m)

theorem execCommandFetch_moves {fab : Bool} {entry : Option (List Byte)} {reads : List (Option (List Byte))} {writesOk : Bool} {s : State} :
    OutMoves [.sys, .pow, .time, .coll, .hop, .hall, .cmd, .crown, .model, .verd, .sentry, .trace, .brake, .test, .gov, .temper, .assay, .flash, .conf, .hoist, .outs] s (execCommandFetch fab entry reads writesOk s) := by
  refine OutMoves.next (Moves.fetchEntry (Moves.refl s) (fun b t m => ?_) (by decide))
  exact Moves.ite (m.next State.gwTake_moves (by decide)) (m.next State.runPacket_moves (by decide))

theorem execFabricQueueEntry_moves {entry : List Byte} {inl : Option (List Byte)} {route : Bool} {s : State} :
    OutMoves [.sys, .pow, .time, .coll, .hop, .hall, .cmd, .crown, .model, .verd, .sentry, .trace, .brake, .test, .gov, .temper, .assay, .flash, .conf, .hoist, .outs] s (execFabricQueueEntry entry inl route s) := by
  exact OutMoves.next (Moves.fetchEntry (Moves.refl s) (fun b t m => m.next State.gwTake_moves (by decide)) (by decide))

theorem State.rxReply_moves {r : Rec} {writesOk : Bool} {s : State} :
    Moves [.sys, .pow, .time, .coll, .hop, .hall, .cmd, .crown, .model, .verd, .sentry, .trace, .brake, .test, .gov, .temper, .assay, .flash, .conf, .hoist, .outs] s (State.rxReply r writesOk s) := by
  unfold State.rxReply
  try dsimp only
  repeat' first
    | with_reducible apply Moves.refl
    | assumption
    | ((with_reducible apply Moves.next (h' := State.putEvent_moves)); (case hq => decide))
    | ((with_reducible apply Moves.next (h' := State.modCrown_moves)); (case hq => decide))
    | ((with_reducible apply Moves.modCmd); (case hq => decide); (case e0 => with_reducible rfl); (case e1 => with_reducible rfl))
    | ((with_reducible apply Moves.next (h' := State.gatewayReply_moves)); (case hq => decide))
    | ((with_reducible apply Moves.next (h' := State.gwPump_moves)); (case hq => decide))
    | ((with_reducible apply Moves.next (h' := State.gwError_moves)); (case hq => decide))
    | with_reducible apply Moves.ite
    | split

theorem execCmdRetryExpiry_moves {dest : Laddr} {seq : BitVec 16} {s : State} :
    OutMoves [.sys, .pow, .time, .coll, .hop, .hall, .cmd, .crown, .model, .verd, .sentry, .trace, .brake, .test, .gov, .temper, .assay, .flash, .conf, .hoist, .outs] s (execCmdRetryExpiry dest seq s) := by
  unfold execCmdRetryExpiry
  try dsimp only
  repeat' first
    | with_reducible apply Moves.refl
    | assumption
    | with_reducible apply OutMoves.next
    | with_reducible apply OutMoves.ite
    | ((with_reducible apply Moves.next (h' := State.sendFlight_moves)); (case hq => decide))
    | ((with_reducible apply Moves.modCmd); (case hq => decide); (case e0 => with_reducible rfl); (case e1 => with_reducible rfl))
    | ((with_reducible apply Moves.next (h' := State.gwPump_moves)); (case hq => decide))
    | ((with_reducible apply Moves.next (h' := State.gwError_moves)); (case hq => decide))
    | with_reducible apply Moves.ite
    | split

theorem execAsyncCommandDone_moves {path : Path} {tag : BitVec 16} {s : State} :
    OutMoves [.sys, .pow, .time, .coll, .hop, .hall, .cmd, .crown, .model, .verd, .sentry, .trace, .brake, .test, .gov, .temper, .assay, .flash, .conf, .hoist, .outs] s (execAsyncCommandDone path tag s) := by
  unfold execAsyncCommandDone
  try dsimp only
  repeat' first
    | with_reducible apply Moves.refl
    | assumption
    | with_reducible apply OutMoves.next
    | with_reducible apply OutMoves.ite
    | ((with_reducible apply Moves.next (h' := State.gwPump_moves)); (case hq => decide))
    | ((with_reducible apply Moves.next (h' := State.finish_moves)); (case hq => decide))
    | with_reducible apply Moves.ite
    | split

theorem State.runBroadcast_moves {r : Rec} {s : State} :
    Moves [.sys, .pow, .time, .coll, .hop, .hall, .cmd, .crown, .model, .verd, .sentry, .trace, .brake, .test, .gov, .temper, .assay, .flash, .conf, .hoist, .outs] s (State.runBroadcast r s) := by
  unfold State.runBroadcast
  try dsimp only
  repeat' first
    | with_reducible apply Moves.refl
    | assumption
    | ((with_reducible apply Moves.next (h' := State.busyRestore_moves)); (case hq => decide))
    | ((with_reducible apply Moves.next (h' := State.runPacket_moves)); (case hq => decide))
    | with_reducible apply Moves.ite

theorem State.rxBcast_moves {hop : Laddr} {r : Rec} {s : State} :
    Moves [.sys, .pow, .time, .coll, .hop, .hall, .cmd, .crown, .model, .verd, .sentry, .trace, .brake, .test, .gov, .temper, .assay, .flash, .conf, .hoist, .outs] s (State.rxBcast hop r s) := by
  unfold State.rxBcast
  try dsimp only
  repeat' first
    | with_reducible apply Moves.refl
    | assumption
    | ((with_reducible apply Moves.next (h' := State.rxBroadcast_moves)); (case hq => decide))
    | ((with_reducible apply Moves.next (h' := State.runBroadcast_moves)); (case hq => decide))
    | ((with_reducible apply Moves.next (h' := State.loadChunks_moves)); (case hq => decide))
    | ((with_reducible apply Moves.next (h' := State.bcastSettle_moves)); (case hq => decide))
    | with_reducible apply Moves.ite

end Sys2Proof.Machine
end

