-- ==== Sys2Proof/Laws/Receive.lean ====
section
/-! SUPPORT. What the operations of Machine/Receive.lean can change, and that they keep the invariant. -/

namespace Sys2Proof.Machine

theorem State.heard_moves {i : Nat} {r : Rec} {s : State} :
    Moves [.coll, .hop, .hall, .cmd, .verd, .brake, .outs] s (State.heard i r s) := by
  unfold State.heard
  try dsimp only
  repeat' first
    | with_reducible apply Moves.refl
    | assumption
    | ((with_reducible apply Moves.next (h' := State.heardDie_moves)); (case hq => decide))
    | ((with_reducible apply Moves.next (h' := State.peerHeard_moves)); (case hq => decide))
    | with_reducible apply Moves.ite
    | split

theorem State.useEpoch_moves {r : Rec} {s : State} :
    Moves [.time, .coll, .hop, .hall, .cmd, .crown, .verd, .brake, .outs] s (State.useEpoch r s) := by
  unfold State.useEpoch
  try dsimp only
  repeat' first
    | with_reducible apply Moves.refl
    | assumption
    | ((with_reducible apply Moves.next (h' := State.rxEpoch_moves)); (case hq => decide))
    | ((with_reducible apply Moves.next (h' := State.orderRestart_moves)); (case hq => decide))
    | ((with_reducible apply Moves.next (h' := State.rxRestart_moves)); (case hq => decide))
    | with_reducible apply Moves.ite
    | split

theorem State.showPower_moves {a : Laddr} {t : Nat} {asleep : Bool} {s : State} :
    Moves [.crown] s (State.showPower a t asleep s) := by
  unfold State.showPower
  try dsimp only
  repeat' first
    | with_reducible apply Moves.refl
    | assumption
    | ((with_reducible apply Moves.next (h' := State.seenPower_moves)); (case hq => decide))
    | with_reducible apply Moves.ite
    | split

theorem State.usePower_moves {r : Rec} {s : State} :
    Moves [.crown] s (State.usePower r s) := by
  unfold State.usePower
  try dsimp only
  repeat' first
    | with_reducible apply Moves.refl
    | assumption
    | ((with_reducible apply Moves.next (h' := State.showPower_moves)); (case hq => decide))
    | with_reducible apply Moves.ite
    | split

theorem State.useSample_moves {r : Rec} {s : State} :
    Moves [.crown] s (State.useSample r s) := by
  unfold State.useSample
  try dsimp only
  repeat' first
    | with_reducible apply Moves.refl
    | assumption
    | ((with_reducible apply Moves.next (h' := State.seenPower_moves)); (case hq => decide))
    | with_reducible apply Moves.ite
    | split

theorem State.useCorrection_moves {r : Rec} {s : State} :
    Moves [.time, .coll, .hop, .hall, .cmd, .verd, .outs] s (State.useCorrection r s) := by
  unfold State.useCorrection
  try dsimp only
  repeat' first
    | with_reducible apply Moves.refl
    | assumption
    | ((with_reducible apply Moves.next (h' := State.settleInsts_moves)); (case hq => decide))
    | ((with_reducible apply Moves.next (h' := State.rxCorrection_moves)); (case hq => decide))
    | ((with_reducible apply Moves.next (h' := State.passOn_moves)); (case hq => decide))
    | with_reducible apply Moves.ite
    | split

theorem State.forwardCopy_moves {r : Rec} {s : State} :
    Moves [.coll, .hop] s (State.forwardCopy r s) := by
  unfold State.forwardCopy
  try dsimp only
  repeat' first
    | with_reducible apply Moves.refl
    | assumption
    | ((with_reducible apply Moves.next (h' := State.passOn_moves)); (case hq => decide))
    | with_reducible apply Moves.ite
    | split

theorem State.use_moves {i : Nat} {via : Laddr} {wOk : Bool} {r : Rec} {s : State} :
    Moves [.sys, .pow, .time, .coll, .hop, .hall, .cmd, .crown, .model, .verd, .sentry, .trace, .brake, .test, .gov, .temper, .assay, .flash, .conf, .hoist, .outs] s (State.use i via wOk r s) := by
  unfold State.use
  try dsimp only
  repeat' first
    | with_reducible apply Moves.refl
    | assumption
    | ((with_reducible apply Moves.next (h' := State.useEpoch_moves)); (case hq => decide))
    | ((with_reducible apply Moves.next (h' := State.rxStampPairs_moves)); (case hq => decide))
    | ((with_reducible apply Moves.next (h' := State.useCorrection_moves)); (case hq => decide))
    | ((with_reducible apply Moves.next (h' := State.rxFeatures_moves)); (case hq => decide))
    | ((with_reducible apply Moves.next (h' := State.rxGasp_moves)); (case hq => decide))
    | ((with_reducible apply Moves.next (h' := State.rxJoin_moves)); (case hq => decide))
    | ((with_reducible apply Moves.next (h' := State.usePower_moves)); (case hq => decide))
    | ((with_reducible apply Moves.next (h' := State.useSample_moves)); (case hq => decide))
    | ((with_reducible apply Moves.next (h' := State.rxHealthy_moves)); (case hq => decide))
    | ((with_reducible apply Moves.next (h' := State.rxVerdict_moves)); (case hq => decide))
    | ((with_reducible apply Moves.next (h' := State.rxArrival_moves)); (case hq => decide))
    | ((with_reducible apply Moves.next (h' := State.rxBatch_moves)); (case hq => decide))
    | ((with_reducible apply Moves.next (h' := State.rxSentry_moves)); (case hq => decide))
    | ((with_reducible apply Moves.next (h' := State.rxContrib_moves)); (case hq => decide))
    | ((with_reducible apply Moves.next (h' := State.rxBcast_moves)); (case hq => decide))
    | ((with_reducible apply Moves.next (h' := State.rxAck_moves)); (case hq => decide))
    | ((with_reducible apply Moves.next (h' := State.rxCommand_moves)); (case hq => decide))
    | ((with_reducible apply Moves.next (h' := State.rxReply_moves)); (case hq => decide))
    | ((with_reducible apply Moves.next (h' := State.rxImage_moves)); (case hq => decide))
    | ((with_reducible apply Moves.next (h' := State.forwardCopy_moves)); (case hq => decide))
    | with_reducible apply Moves.ite
    | split

theorem State.takeRec_moves {i : Nat} {via : Laddr} {wOk : Bool} {r : Rec} {s : State} :
    Moves [.sys, .pow, .time, .coll, .hop, .hall, .cmd, .crown, .model, .verd, .sentry, .trace, .brake, .test, .gov, .temper, .assay, .flash, .conf, .hoist, .outs] s (State.takeRec i via wOk r s) := by
  unfold State.takeRec
  try dsimp only
  repeat' first
    | with_reducible apply Moves.refl
    | assumption
    | ((with_reducible apply Moves.next (h' := State.acceptRec_moves)); (case hq => decide))
    | ((with_reducible apply Moves.next (h' := State.use_moves)); (case hq => decide))
    | ((with_reducible apply Moves.next (h' := State.heard_moves)); (case hq => decide))
    | ((with_reducible apply Moves.next (h' := State.rxRepeat_moves)); (case hq => decide))
    | with_reducible apply Moves.ite
    | split

theorem State.rxRow_moves {ok : Bool} {i : Nat} {via : Laddr} {wOk : Bool} {r : Rec} {s : State} :
    Moves [.sys, .pow, .time, .coll, .hop, .hall, .cmd, .crown, .model, .verd, .sentry, .trace, .brake, .test, .gov, .temper, .assay, .flash, .conf, .hoist, .outs] s (State.rxRow ok i via wOk r s) := by
  unfold State.rxRow
  try dsimp only
  repeat' first
    | with_reducible apply Moves.refl
    | assumption
    | ((with_reducible apply Moves.next (h' := State.takeRec_moves)); (case hq => decide))
    | with_reducible apply Moves.ite

theorem State.rxFrom_moves {ok : Bool} {r : Rec} {s : State} :
    Moves [.sys, .pow, .time, .coll, .hop, .hall, .cmd, .crown, .model, .verd, .sentry, .trace, .brake, .test, .gov, .temper, .assay, .flash, .conf, .hoist, .outs] s (State.rxFrom ok r s) := by
  unfold State.rxFrom
  try dsimp only
  repeat' first
    | with_reducible apply Moves.refl
    | assumption
    | ((with_reducible apply Moves.next (h' := State.rxRow_moves)); (case hq => decide))

theorem execEpochReceived_moves {r : Rec} {s : State} :
    OutMoves [.sys, .pow, .time, .coll, .hop, .hall, .cmd, .crown, .model, .verd, .sentry, .trace, .brake, .test, .gov, .temper, .assay, .flash, .conf, .hoist, .outs] s (execEpochReceived r s) := by
  unfold execEpochReceived
  try dsimp only
  repeat' first
    | with_reducible apply Moves.refl
    | assumption
    | with_reducible apply OutMoves.next
    | with_reducible apply OutMoves.ite
    | ((with_reducible apply Moves.next (h' := State.rxFrom_moves)); (case hq => decide))

theorem execReconcileReceived_moves {r : Rec} {s : State} :
    OutMoves [.sys, .pow, .time, .coll, .hop, .hall, .cmd, .crown, .model, .verd, .sentry, .trace, .brake, .test, .gov, .temper, .assay, .flash, .conf, .hoist, .outs] s (execReconcileReceived r s) := by
  unfold execReconcileReceived
  try dsimp only
  repeat' first
    | with_reducible apply Moves.refl
    | assumption
    | with_reducible apply OutMoves.next
    | with_reducible apply OutMoves.ite
    | ((with_reducible apply Moves.next (h' := State.rxFrom_moves)); (case hq => decide))

theorem execLastGaspReceived_moves {r : Rec} {s : State} :
    OutMoves [.sys, .pow, .time, .coll, .hop, .hall, .cmd, .crown, .model, .verd, .sentry, .trace, .brake, .test, .gov, .temper, .assay, .flash, .conf, .hoist, .outs] s (execLastGaspReceived r s) := by
  unfold execLastGaspReceived
  try dsimp only
  repeat' first
    | with_reducible apply Moves.refl
    | assumption
    | with_reducible apply OutMoves.next
    | with_reducible apply OutMoves.ite
    | ((with_reducible apply Moves.next (h' := State.rxFrom_moves)); (case hq => decide))

theorem execJoinReceived_moves {ifc : Iface} {r : Rec} {s : State} :
    OutMoves [.sys, .pow, .time, .coll, .hop, .hall, .cmd, .crown, .model, .verd, .sentry, .trace, .brake, .test, .gov, .temper, .assay, .flash, .conf, .hoist, .outs] s (execJoinReceived ifc r s) := by
  unfold execJoinReceived
  try dsimp only
  repeat' first
    | with_reducible apply Moves.refl
    | assumption
    | with_reducible apply OutMoves.next
    | with_reducible apply OutMoves.ite
    | ((with_reducible apply Moves.next (h' := State.rxRow_moves)); (case hq => decide))

theorem execJoinAnswerReceived_moves {r : Rec} {s : State} :
    OutMoves [.sys, .pow, .time, .coll, .hop, .hall, .cmd, .crown, .model, .verd, .sentry, .trace, .brake, .test, .gov, .temper, .assay, .flash, .conf, .hoist, .outs] s (execJoinAnswerReceived r s) := by
  unfold execJoinAnswerReceived
  try dsimp only
  repeat' first
    | with_reducible apply Moves.refl
    | assumption
    | with_reducible apply OutMoves.next
    | with_reducible apply OutMoves.ite
    | ((with_reducible apply Moves.next (h' := State.rxFrom_moves)); (case hq => decide))

theorem execStampPairsReceived_moves {r : Rec} {s : State} :
    OutMoves [.sys, .pow, .time, .coll, .hop, .hall, .cmd, .crown, .model, .verd, .sentry, .trace, .brake, .test, .gov, .temper, .assay, .flash, .conf, .hoist, .outs] s (execStampPairsReceived r s) := by
  unfold execStampPairsReceived
  try dsimp only
  repeat' first
    | with_reducible apply Moves.refl
    | assumption
    | with_reducible apply OutMoves.next
    | with_reducible apply OutMoves.ite
    | ((with_reducible apply Moves.next (h' := State.rxFrom_moves)); (case hq => decide))

theorem execCorrectionReceived_moves {r : Rec} {s : State} :
    OutMoves [.sys, .pow, .time, .coll, .hop, .hall, .cmd, .crown, .model, .verd, .sentry, .trace, .brake, .test, .gov, .temper, .assay, .flash, .conf, .hoist, .outs] s (execCorrectionReceived r s) := by
  unfold execCorrectionReceived
  try dsimp only
  repeat' first
    | with_reducible apply Moves.refl
    | assumption
    | with_reducible apply OutMoves.next
    | with_reducible apply OutMoves.ite
    | ((with_reducible apply Moves.next (h' := State.rxFrom_moves)); (case hq => decide))

theorem execFeaturesReceived_moves {r : Rec} {s : State} :
    OutMoves [.sys, .pow, .time, .coll, .hop, .hall, .cmd, .crown, .model, .verd, .sentry, .trace, .brake, .test, .gov, .temper, .assay, .flash, .conf, .hoist, .outs] s (execFeaturesReceived r s) := by
  unfold execFeaturesReceived
  try dsimp only
  repeat' first
    | with_reducible apply Moves.refl
    | assumption
    | with_reducible apply OutMoves.next
    | with_reducible apply OutMoves.ite
    | ((with_reducible apply Moves.next (h' := State.rxFrom_moves)); (case hq => decide))

theorem execArrivalReceived_moves {r : Rec} {s : State} :
    OutMoves [.sys, .pow, .time, .coll, .hop, .hall, .cmd, .crown, .model, .verd, .sentry, .trace, .brake, .test, .gov, .temper, .assay, .flash, .conf, .hoist, .outs] s (execArrivalReceived r s) := by
  unfold execArrivalReceived
  try dsimp only
  repeat' first
    | with_reducible apply Moves.refl
    | assumption
    | with_reducible apply OutMoves.next
    | with_reducible apply OutMoves.ite
    | ((with_reducible apply Moves.next (h' := State.rxFrom_moves)); (case hq => decide))

theorem execBatchReceived_moves {r : Rec} {s : State} :
    OutMoves [.sys, .pow, .time, .coll, .hop, .hall, .cmd, .crown, .model, .verd, .sentry, .trace, .brake, .test, .gov, .temper, .assay, .flash, .conf, .hoist, .outs] s (execBatchReceived r s) := by
  unfold execBatchReceived
  try dsimp only
  repeat' first
    | with_reducible apply Moves.refl
    | assumption
    | with_reducible apply OutMoves.next
    | with_reducible apply OutMoves.ite
    | ((with_reducible apply Moves.next (h' := State.rxFrom_moves)); (case hq => decide))

theorem execExpelVerdictReceived_moves {r : Rec} {s : State} :
    OutMoves [.sys, .pow, .time, .coll, .hop, .hall, .cmd, .crown, .model, .verd, .sentry, .trace, .brake, .test, .gov, .temper, .assay, .flash, .conf, .hoist, .outs] s (execExpelVerdictReceived r s) := by
  unfold execExpelVerdictReceived
  try dsimp only
  repeat' first
    | with_reducible apply Moves.refl
    | assumption
    | with_reducible apply OutMoves.next
    | with_reducible apply OutMoves.ite
    | ((with_reducible apply Moves.next (h' := State.rxFrom_moves)); (case hq => decide))

theorem execHealthyStepReceived_moves {r : Rec} {s : State} :
    OutMoves [.sys, .pow, .time, .coll, .hop, .hall, .cmd, .crown, .model, .verd, .sentry, .trace, .brake, .test, .gov, .temper, .assay, .flash, .conf, .hoist, .outs] s (execHealthyStepReceived r s) := by
  unfold execHealthyStepReceived
  try dsimp only
  repeat' first
    | with_reducible apply Moves.refl
    | assumption
    | with_reducible apply OutMoves.next
    | with_reducible apply OutMoves.ite
    | ((with_reducible apply Moves.next (h' := State.rxFrom_moves)); (case hq => decide))

theorem execReplayReqReceived_moves {r : Rec} {s : State} :
    OutMoves [.sys, .pow, .time, .coll, .hop, .hall, .cmd, .crown, .model, .verd, .sentry, .trace, .brake, .test, .gov, .temper, .assay, .flash, .conf, .hoist, .outs] s (execReplayReqReceived r s) := by
  unfold execReplayReqReceived
  try dsimp only
  repeat' first
    | with_reducible apply Moves.refl
    | assumption
    | with_reducible apply OutMoves.next
    | with_reducible apply OutMoves.ite
    | ((with_reducible apply Moves.next (h' := State.rxFrom_moves)); (case hq => decide))

theorem execReplayDigestReceived_moves {r : Rec} {s : State} :
    OutMoves [.sys, .pow, .time, .coll, .hop, .hall, .cmd, .crown, .model, .verd, .sentry, .trace, .brake, .test, .gov, .temper, .assay, .flash, .conf, .hoist, .outs] s (execReplayDigestReceived r s) := by
  unfold execReplayDigestReceived
  try dsimp only
  repeat' first
    | with_reducible apply Moves.refl
    | assumption
    | with_reducible apply OutMoves.next
    | with_reducible apply OutMoves.ite
    | ((with_reducible apply Moves.next (h' := State.rxFrom_moves)); (case hq => decide))

theorem execRefusedReceived_moves {r : Rec} {s : State} :
    OutMoves [.sys, .pow, .time, .coll, .hop, .hall, .cmd, .crown, .model, .verd, .sentry, .trace, .brake, .test, .gov, .temper, .assay, .flash, .conf, .hoist, .outs] s (execRefusedReceived r s) := by
  unfold execRefusedReceived
  try dsimp only
  repeat' first
    | with_reducible apply Moves.refl
    | assumption
    | with_reducible apply OutMoves.next
    | with_reducible apply OutMoves.ite
    | ((with_reducible apply Moves.next (h' := State.rxFrom_moves)); (case hq => decide))

theorem execJobReleaseReceived_moves {r : Rec} {s : State} :
    OutMoves [.sys, .pow, .time, .coll, .hop, .hall, .cmd, .crown, .model, .verd, .sentry, .trace, .brake, .test, .gov, .temper, .assay, .flash, .conf, .hoist, .outs] s (execJobReleaseReceived r s) := by
  unfold execJobReleaseReceived
  try dsimp only
  repeat' first
    | with_reducible apply Moves.refl
    | assumption
    | with_reducible apply OutMoves.next
    | with_reducible apply OutMoves.ite
    | ((with_reducible apply Moves.next (h' := State.rxFrom_moves)); (case hq => decide))

theorem execCutContribReceived_moves {r : Rec} {s : State} :
    OutMoves [.sys, .pow, .time, .coll, .hop, .hall, .cmd, .crown, .model, .verd, .sentry, .trace, .brake, .test, .gov, .temper, .assay, .flash, .conf, .hoist, .outs] s (execCutContribReceived r s) := by
  unfold execCutContribReceived
  try dsimp only
  repeat' first
    | with_reducible apply Moves.refl
    | assumption
    | with_reducible apply OutMoves.next
    | with_reducible apply OutMoves.ite
    | ((with_reducible apply Moves.next (h' := State.rxFrom_moves)); (case hq => decide))

theorem execBroadcastReceived_moves {r : Rec} {s : State} :
    OutMoves [.sys, .pow, .time, .coll, .hop, .hall, .cmd, .crown, .model, .verd, .sentry, .trace, .brake, .test, .gov, .temper, .assay, .flash, .conf, .hoist, .outs] s (execBroadcastReceived r s) := by
  unfold execBroadcastReceived
  try dsimp only
  repeat' first
    | with_reducible apply Moves.refl
    | assumption
    | with_reducible apply OutMoves.next
    | with_reducible apply OutMoves.ite
    | ((with_reducible apply Moves.next (h' := State.rxRow_moves)); (case hq => decide))

theorem execBroadcastAckReceived_moves {r : Rec} {s : State} :
    OutMoves [.sys, .pow, .time, .coll, .hop, .hall, .cmd, .crown, .model, .verd, .sentry, .trace, .brake, .test, .gov, .temper, .assay, .flash, .conf, .hoist, .outs] s (execBroadcastAckReceived r s) := by
  unfold execBroadcastAckReceived
  try dsimp only
  repeat' first
    | with_reducible apply Moves.refl
    | assumption
    | with_reducible apply OutMoves.next
    | with_reducible apply OutMoves.ite
    | ((with_reducible apply Moves.next (h' := State.rxFrom_moves)); (case hq => decide))

theorem execCommandRecordReceived_moves {r : Rec} {s : State} :
    OutMoves [.sys, .pow, .time, .coll, .hop, .hall, .cmd, .crown, .model, .verd, .sentry, .trace, .brake, .test, .gov, .temper, .assay, .flash, .conf, .hoist, .outs] s (execCommandRecordReceived r s) := by
  unfold execCommandRecordReceived
  try dsimp only
  repeat' first
    | with_reducible apply Moves.refl
    | assumption
    | with_reducible apply OutMoves.next
    | with_reducible apply OutMoves.ite
    | ((with_reducible apply Moves.next (h' := State.rxFrom_moves)); (case hq => decide))

theorem execReplyRecordReceived_moves {r : Rec} {writesOk : Bool} {s : State} :
    OutMoves [.sys, .pow, .time, .coll, .hop, .hall, .cmd, .crown, .model, .verd, .sentry, .trace, .brake, .test, .gov, .temper, .assay, .flash, .conf, .hoist, .outs] s (execReplyRecordReceived r writesOk s) := by
  unfold execReplyRecordReceived
  try dsimp only
  repeat' first
    | with_reducible apply Moves.refl
    | assumption
    | with_reducible apply OutMoves.next
    | with_reducible apply OutMoves.ite
    | ((with_reducible apply Moves.next (h' := State.rxRow_moves)); (case hq => decide))

theorem execImageChunkData_moves {r : Rec} {s : State} :
    OutMoves [.sys, .pow, .time, .coll, .hop, .hall, .cmd, .crown, .model, .verd, .sentry, .trace, .brake, .test, .gov, .temper, .assay, .flash, .conf, .hoist, .outs] s (execImageChunkData r s) := by
  unfold execImageChunkData
  try dsimp only
  repeat' first
    | with_reducible apply Moves.refl
    | assumption
    | with_reducible apply OutMoves.next
    | with_reducible apply OutMoves.ite
    | ((with_reducible apply Moves.next (h' := State.rxFrom_moves)); (case hq => decide))

theorem execImageChunkAck_moves {r : Rec} {s : State} :
    OutMoves [.sys, .pow, .time, .coll, .hop, .hall, .cmd, .crown, .model, .verd, .sentry, .trace, .brake, .test, .gov, .temper, .assay, .flash, .conf, .hoist, .outs] s (execImageChunkAck r s) := by
  unfold execImageChunkAck
  try dsimp only
  repeat' first
    | with_reducible apply Moves.refl
    | assumption
    | with_reducible apply OutMoves.next
    | with_reducible apply OutMoves.ite
    | ((with_reducible apply Moves.next (h' := State.rxFrom_moves)); (case hq => decide))

theorem execStartReq_moves {r : Rec} {s : State} :
    OutMoves [.sys, .pow, .time, .coll, .hop, .hall, .cmd, .crown, .model, .verd, .sentry, .trace, .brake, .test, .gov, .temper, .assay, .flash, .conf, .hoist, .outs] s (execStartReq r s) := by
  unfold execStartReq
  try dsimp only
  repeat' first
    | with_reducible apply Moves.refl
    | assumption
    | with_reducible apply OutMoves.next
    | with_reducible apply OutMoves.ite
    | ((with_reducible apply Moves.next (h' := State.rxFrom_moves)); (case hq => decide))

theorem execStartGrant_moves {r : Rec} {s : State} :
    OutMoves [.sys, .pow, .time, .coll, .hop, .hall, .cmd, .crown, .model, .verd, .sentry, .trace, .brake, .test, .gov, .temper, .assay, .flash, .conf, .hoist, .outs] s (execStartGrant r s) := by
  unfold execStartGrant
  try dsimp only
  repeat' first
    | with_reducible apply Moves.refl
    | assumption
    | with_reducible apply OutMoves.next
    | with_reducible apply OutMoves.ite
    | ((with_reducible apply Moves.next (h' := State.rxFrom_moves)); (case hq => decide))

theorem execStartDeny_moves {r : Rec} {s : State} :
    OutMoves [.sys, .pow, .time, .coll, .hop, .hall, .cmd, .crown, .model, .verd, .sentry, .trace, .brake, .test, .gov, .temper, .assay, .flash, .conf, .hoist, .outs] s (execStartDeny r s) := by
  unfold execStartDeny
  try dsimp only
  repeat' first
    | with_reducible apply Moves.refl
    | assumption
    | with_reducible apply OutMoves.next
    | with_reducible apply OutMoves.ite
    | ((with_reducible apply Moves.next (h' := State.rxFrom_moves)); (case hq => decide))

theorem execStartDone_moves {r : Rec} {s : State} :
    OutMoves [.sys, .pow, .time, .coll, .hop, .hall, .cmd, .crown, .model, .verd, .sentry, .trace, .brake, .test, .gov, .temper, .assay, .flash, .conf, .hoist, .outs] s (execStartDone r s) := by
  unfold execStartDone
  try dsimp only
  repeat' first
    | with_reducible apply Moves.refl
    | assumption
    | with_reducible apply OutMoves.next
    | with_reducible apply OutMoves.ite
    | ((with_reducible apply Moves.next (h' := State.rxFrom_moves)); (case hq => decide))

theorem State.checkFail_moves {i : Nat} {s : State} :
    Moves [.coll] s (State.checkFail i s) := by
  unfold State.checkFail
  try dsimp only
  repeat' first
    | with_reducible apply Moves.refl
    | assumption
    | ((with_reducible apply Moves.next (h' := State.bump_moves)); (case hq => decide))
    | with_reducible apply Moves.ite

theorem State.frameRec_moves {i : Nat} {via : Laddr} {standby : Nat} {s : State} {b : List Byte} :
    Moves [.sys, .pow, .time, .coll, .hop, .hall, .cmd, .crown, .model, .verd, .sentry, .trace, .brake, .test, .gov, .temper, .assay, .flash, .conf, .hoist, .outs] s (State.frameRec i via standby s b) := by
  unfold State.frameRec
  try dsimp only
  repeat' first
    | with_reducible apply Moves.refl
    | assumption
    | ((with_reducible apply Moves.next (h' := State.bump_moves)); (case hq => decide))
    | ((with_reducible apply Moves.next (h' := State.relayStandby_moves)); (case hq => decide))
    | ((with_reducible apply Moves.next (h' := State.takeRec_moves)); (case hq => decide))
    | with_reducible apply Moves.ite
    | split

theorem State.deliverFrame_moves {i : Nat} {f : RxFrame} {ovf : Option (List Byte)} {s : State} :
    Moves [.sys, .pow, .time, .coll, .hop, .hall, .cmd, .crown, .model, .verd, .sentry, .trace, .brake, .test, .gov, .temper, .assay, .flash, .conf, .hoist, .outs] s (State.deliverFrame i f ovf s) := by
  unfold State.deliverFrame
  try dsimp only
  repeat' first
    | with_reducible apply Moves.refl
    | assumption
    | ((with_reducible apply Moves.next (h' := State.pushFwd_moves)); (case hq => decide))
    | ((with_reducible apply Moves.next (h' := State.frameRec_moves)); (case hq => decide))
    | ((with_reducible apply Moves.next (h' := State.bumpN_moves)); (case hq => decide))
    | with_reducible apply Moves.ite
    | ((with_reducible apply Moves.fold); (intro t x m))
    | split

theorem State.endPair_moves {i : Nat} {ovf : Option (List Byte)} {s : State} :
    Moves [.sys, .pow, .time, .coll, .hop, .hall, .cmd, .crown, .model, .verd, .sentry, .trace, .brake, .test, .gov, .temper, .assay, .flash, .conf, .hoist, .outs] s (State.endPair i ovf s) := by
  unfold State.endPair
  try dsimp only
  repeat' first
    | with_reducible apply Moves.refl
    | assumption
    | ((with_reducible apply Moves.next (h' := State.deliverFrame_moves)); (case hq => decide))
    | ((with_reducible apply Moves.next (h' := State.modIfc_moves)); (case hq => decide))
    | with_reducible apply Moves.ite
    | split

theorem State.returnCredits_moves {i len : Nat} {s : State} :
    Moves [.outs] s (State.returnCredits i len s) := by
  unfold State.returnCredits
  try dsimp only
  repeat' first
    | with_reducible apply Moves.refl
    | assumption
    | ((with_reducible apply Moves.next (h' := State.emit_moves)); (case hq => decide))

theorem State.takeFrame_moves {i : Nat} {s0 : State} {f : RxFrame} :
    Moves [.sys, .pow, .time, .coll, .hop, .hall, .cmd, .crown, .model, .verd, .sentry, .trace, .brake, .test, .gov, .temper, .assay, .flash, .conf, .hoist, .outs] s0 (State.takeFrame i s0 f) := by
  unfold State.takeFrame
  try dsimp only
  repeat' first
    | with_reducible apply Moves.refl
    | assumption
    | ((with_reducible apply Moves.next (h' := State.returnCredits_moves)); (case hq => decide))
    | ((with_reducible apply Moves.next (h' := State.checkFail_moves)); (case hq => decide))
    | ((with_reducible apply Moves.next (h' := State.endPair_moves)); (case hq => decide))
    | ((with_reducible apply Moves.next (h' := State.modIfc_moves)); (case hq => decide))
    | ((with_reducible apply Moves.next (h' := State.deliverFrame_moves)); (case hq => decide))
    | with_reducible apply Moves.ite

theorem State.drainRx_moves {s : State} :
    Moves [.sys, .pow, .time, .coll, .hop, .hall, .cmd, .crown, .model, .verd, .sentry, .trace, .brake, .test, .gov, .temper, .assay, .flash, .conf, .hoist, .outs] s (State.drainRx s) := by
  unfold State.drainRx
  try dsimp only
  repeat' first
    | with_reducible apply Moves.refl
    | assumption
    | ((with_reducible apply Moves.next (h' := State.takeFrame_moves)); (case hq => decide))
    | ((with_reducible apply Moves.next (h' := State.modIfc_moves)); (case hq => decide))
    | with_reducible apply Moves.ite
    | ((with_reducible apply Moves.fold); (intro t x m))

theorem State.frameIn_moves {i : Nat} {bytes : List Byte} {abort : Bool} {route : Routing} {s : State} :
    Moves [.sys, .pow, .time, .coll, .hop, .hall, .cmd, .crown, .model, .verd, .sentry, .trace, .brake, .test, .gov, .temper, .assay, .flash, .conf, .hoist, .outs] s (State.frameIn i bytes abort route s) := by
  unfold State.frameIn
  try dsimp only
  repeat' first
    | with_reducible apply Moves.refl
    | assumption
    | ((with_reducible apply Moves.next (h' := State.returnCredits_moves)); (case hq => decide))
    | ((with_reducible apply Moves.next (h' := State.endPair_moves)); (case hq => decide))
    | ((with_reducible apply Moves.next (h' := State.takeFrame_moves)); (case hq => decide))
    | ((with_reducible apply Moves.next (h' := State.drainRx_moves)); (case hq => decide))
    | ((with_reducible apply Moves.next (h' := State.demand_moves)); (case hq => decide))
    | ((with_reducible apply Moves.next (h' := State.modIfc_moves)); (case hq => decide))
    | with_reducible apply Moves.ite

theorem execDataFrameReceived_moves {ifc : Iface} {bytes : List Byte} {abort : Bool} {route : Routing} {s : State} :
    OutMoves [.sys, .pow, .time, .coll, .hop, .hall, .cmd, .crown, .model, .verd, .sentry, .trace, .brake, .test, .gov, .temper, .assay, .flash, .conf, .hoist, .outs] s (execDataFrameReceived ifc bytes abort route s) := by
  unfold execDataFrameReceived
  try dsimp only
  repeat' first
    | with_reducible apply Moves.refl
    | assumption
    | with_reducible apply OutMoves.next
    | with_reducible apply OutMoves.ite
    | ((with_reducible apply Moves.next (h' := State.frameIn_moves)); (case hq => decide))

theorem execOverflowFrameReceived_moves {ifc : Iface} {bytes : List Byte} {abort : Bool} {route : Routing} {s : State} :
    OutMoves [.sys, .pow, .time, .coll, .hop, .hall, .cmd, .crown, .model, .verd, .sentry, .trace, .brake, .test, .gov, .temper, .assay, .flash, .conf, .hoist, .outs] s (execOverflowFrameReceived ifc bytes abort route s) := by
  unfold execOverflowFrameReceived
  try dsimp only
  repeat' first
    | with_reducible apply Moves.refl
    | assumption
    | with_reducible apply OutMoves.next
    | with_reducible apply OutMoves.ite
    | ((with_reducible apply Moves.next (h' := State.frameIn_moves)); (case hq => decide))

theorem State.linkReady_moves {i init : Nat} {s : State} :
    Moves [.sys, .coll, .hop, .hall, .cmd, .brake, .outs] s (State.linkReady i init s) := by
  unfold State.linkReady
  try dsimp only
  repeat' first
    | with_reducible apply Moves.refl
    | assumption
    | ((with_reducible apply Moves.next (h' := State.linkInit_moves)); (case hq => decide))
    | ((with_reducible apply Moves.next (h' := State.askJoin_moves)); (case hq => decide))
    | with_reducible apply Moves.ite
    | split

theorem execLinkUpRise_moves {ifc : Iface} {initCred : BitVec 12} {peer : Laddr} {s : State} :
    OutMoves [.sys, .coll, .hop, .hall, .cmd, .brake, .outs] s (execLinkUpRise ifc initCred peer s) := by
  unfold execLinkUpRise
  try dsimp only
  repeat' first
    | with_reducible apply Moves.refl
    | assumption
    | with_reducible apply OutMoves.next
    | with_reducible apply OutMoves.ite
    | ((with_reducible apply Moves.next (h' := State.modIfc_moves)); (case hq => decide))
    | ((with_reducible apply Moves.next (h' := State.linkReady_moves)); (case hq => decide))
    | with_reducible apply Moves.ite
    | split

theorem execLinkUpFall_moves {ifc : Iface} {s : State} :
    OutMoves [.sys, .pow, .time, .coll, .hop, .hall, .cmd, .crown, .model, .verd, .sentry, .trace, .brake, .test, .gov, .temper, .assay, .flash, .conf, .hoist, .outs] s (execLinkUpFall ifc s) := by
  unfold execLinkUpFall
  try dsimp only
  repeat' first
    | with_reducible apply Moves.refl
    | assumption
    | with_reducible apply OutMoves.next
    | with_reducible apply OutMoves.ite
    | ((with_reducible apply Moves.next (h' := State.linkLost_moves)); (case hq => decide))
    | ((with_reducible apply Moves.next (h' := State.modIfc_moves)); (case hq => decide))
    | ((with_reducible apply Moves.next (h' := State.endPair_moves)); (case hq => decide))
    | with_reducible apply Moves.ite
    | split

theorem State.ifcRelease_moves {s : State} {i : Nat} :
    Moves [.sys, .coll, .hop, .hall, .cmd, .brake, .outs] s (State.ifcRelease s i) := by
  unfold State.ifcRelease
  try dsimp only
  repeat' first
    | with_reducible apply Moves.refl
    | assumption
    | ((with_reducible apply Moves.next (h' := State.modIfc_moves)); (case hq => decide))
    | ((with_reducible apply Moves.modHop); (case hq => decide); (case e0 => with_reducible rfl))
    | ((with_reducible apply Moves.next (h' := State.linkReady_moves)); (case hq => decide))
    | ((with_reducible apply Moves.hopOk); (case hq => decide); (case k => intro k; intro o ho; obtain ⟨x, hx, rfl⟩ := List.mem_map.mp ho; exact k x hx))
    | with_reducible apply Moves.ite
    | split

theorem State.portRelease_moves {p : Nat} {s : State} :
    Moves [.sys, .pow, .coll, .hop, .hall, .cmd, .brake, .outs] s (State.portRelease p s) := by
  unfold State.portRelease
  try dsimp only
  repeat' first
    | with_reducible apply Moves.refl
    | assumption
    | ((with_reducible apply Moves.next (h' := State.ifcRelease_moves)); (case hq => decide))
    | ((with_reducible apply Moves.next (h' := State.modPow_moves)); (case hq => decide))
    | with_reducible apply Moves.ite
    | ((with_reducible apply Moves.fold); (intro t x m))
    | split

theorem execPortDomainRelease_moves {port : PortName} {initCred : BitVec 12} {s : State} :
    OutMoves [.sys, .pow, .coll, .hop, .hall, .cmd, .brake, .outs] s (execPortDomainRelease port initCred s) := by
  unfold execPortDomainRelease
  try dsimp only
  repeat' first
    | with_reducible apply Moves.refl
    | assumption
    | with_reducible apply OutMoves.next
    | with_reducible apply OutMoves.ite
    | ((with_reducible apply Moves.next (h' := State.ifcRelease_moves)); (case hq => decide))
    | ((with_reducible apply Moves.next (h' := State.modIfc_moves)); (case hq => decide))
    | ((with_reducible apply Moves.next (h' := State.modPow_moves)); (case hq => decide))
    | ((with_reducible apply Moves.next (h' := State.portRelease_moves)); (case hq => decide))
    | with_reducible apply Moves.ite
    | split

theorem State.tapEvent_moves {s : State} {t : TapSlot} :
    Moves [.sys, .coll, .hop, .hall, .cmd, .verd, .brake, .test, .flash, .conf, .hoist, .outs] s (State.tapEvent s t) := by
  unfold State.tapEvent
  try dsimp only
  repeat' first
    | with_reducible apply Moves.refl
    | assumption
    | ((with_reducible apply Moves.next (h' := State.modVerd_moves)); (case hq => decide))
    | ((with_reducible apply Moves.next (h' := State.engineHang_moves)); (case hq => decide))
    | ((with_reducible apply Moves.next (h' := State.engineResumed_moves)); (case hq => decide))
    | ((with_reducible apply Moves.next (h' := State.coreActive_moves)); (case hq => decide))
    | with_reducible apply Moves.ite

theorem execTapBeat_moves {slots : List TapSlot} {s : State} :
    OutMoves [.sys, .coll, .hop, .hall, .cmd, .verd, .brake, .test, .flash, .conf, .hoist, .outs] s (execTapBeat slots s) := by
  unfold execTapBeat
  try dsimp only
  repeat' first
    | with_reducible apply Moves.refl
    | assumption
    | with_reducible apply OutMoves.next
    | with_reducible apply OutMoves.ite
    | ((with_reducible apply Moves.next (h' := State.tapCount_moves)); (case hq => decide))
    | ((with_reducible apply Moves.next (h' := State.tapEvent_moves)); (case hq => decide))
    | with_reducible apply Moves.ite
    | ((with_reducible apply Moves.fold); (intro t x m))

theorem execDiscConditionedChange_moves {input : Fin 32} {level : Bool} {s : State} :
    OutMoves [.coll, .hop, .hall, .cmd, .verd, .gov, .outs] s (execDiscConditionedChange input level s) := by
  unfold execDiscConditionedChange
  try dsimp only
  repeat' first
    | with_reducible apply Moves.refl
    | assumption
    | with_reducible apply OutMoves.next
    | with_reducible apply OutMoves.ite
    | ((with_reducible apply Moves.next (h' := State.discChange_moves)); (case hq => decide))
    | ((with_reducible apply Moves.next (h' := State.stage_moves)); (case hq => decide))
    | ((with_reducible apply Moves.next (h' := State.clampSettle_moves)); (case hq => decide))
    | with_reducible apply Moves.ite

theorem execEpochPulse_moves {s : State} :
    OutMoves [.coll, .hop, .hall, .cmd, .metro, .outs] s (execEpochPulse s) := by
  unfold execEpochPulse
  try dsimp only
  repeat' first
    | with_reducible apply Moves.refl
    | assumption
    | with_reducible apply OutMoves.next
    | with_reducible apply OutMoves.ite
    | ((with_reducible apply Moves.next (h' := State.stage_moves)); (case hq => decide))
    | ((with_reducible apply Moves.next (h' := State.bump_moves)); (case hq => decide))
    | ((with_reducible apply Moves.next (h' := State.metroPulse_moves)); (case hq => decide))
    | ((with_reducible apply Moves.next (h' := State.epochEverywhere_moves)); (case hq => decide))
    | with_reducible apply Moves.ite

theorem execCorrectionPublish_moves {s : State} :
    OutMoves [.time, .coll, .hop, .hall, .cmd, .verd, .outs] s (execCorrectionPublish s) := by
  unfold execCorrectionPublish
  try dsimp only
  repeat' first
    | with_reducible apply Moves.refl
    | assumption
    | with_reducible apply OutMoves.next
    | with_reducible apply OutMoves.ite
    | ((with_reducible apply Moves.next (h' := State.holdTable_moves)); (case hq => decide))
    | ((with_reducible apply Moves.next (h' := State.modTime_moves)); (case hq => decide))
    | ((with_reducible apply Moves.next (h' := State.settleInsts_moves)); (case hq => decide))
    | ((with_reducible apply Moves.next (h' := State.forwardAway_moves)); (case hq => decide))
    | ((with_reducible apply Moves.next (h' := State.publishCorr_moves)); (case hq => decide))
    | with_reducible apply Moves.ite
    | split

theorem execSolveDeadline_moves {s : State} :
    OutMoves [.time, .coll, .hop, .hall, .cmd, .verd, .outs] s (execSolveDeadline s) := by
  unfold execSolveDeadline
  try dsimp only
  repeat' first
    | with_reducible apply Moves.refl
    | assumption
    | with_reducible apply OutMoves.next
    | with_reducible apply OutMoves.ite
    | ((with_reducible apply Moves.next (h' := State.settleInsts_moves)); (case hq => decide))
    | ((with_reducible apply Moves.next (h' := State.solveLate_moves)); (case hq => decide))
    | with_reducible apply Moves.ite
    | split

theorem State.modelStop_moves {mill : Bool} {i : Nat} {s : State} :
    Moves [.coll, .hop, .hall, .cmd, .crown, .model, .verd, .brake, .outs] s (State.modelStop mill i s) := by
  unfold State.modelStop
  try dsimp only
  repeat' first
    | with_reducible apply Moves.refl
    | assumption
    | ((with_reducible apply Moves.next (h' := State.stage_moves)); (case hq => decide))
    | ((with_reducible apply Moves.next (h' := State.loadFail_moves)); (case hq => decide))
    | ((with_reducible apply Moves.next (h' := State.modHnd_moves)); (case hq => decide))
    | ((with_reducible apply Moves.next (h' := State.voidRollouts_moves)); (case hq => decide))
    | ((with_reducible apply Moves.next (h' := State.modChan_moves)); (case hq => decide))
    | ((with_reducible apply Moves.next (h' := State.deliverMissing_moves)); (case hq => decide))
    | ((with_reducible apply Moves.next (h' := State.modQ_moves)); (case hq => decide))
    | with_reducible apply Moves.ite
    | ((with_reducible apply Moves.fold); (intro t x m))
    | split

theorem State.dropEcc_moves {c k : Nat} {s : State} :
    Moves [.coll, .hop] s (State.dropEcc c k s) := by
  unfold State.dropEcc
  try dsimp only
  repeat' first
    | with_reducible apply Moves.refl
    | assumption
    | ((with_reducible apply Moves.next (h' := State.dropMark_moves)); (case hq => decide))
    | ((with_reducible apply Moves.modOut); (case hq => decide); (case hf => exact fun _ k => k))
    | ((with_reducible apply Moves.next (h' := State.leave_moves)); (case hq => decide))
    | with_reducible apply Moves.ite
    | split

theorem State.eccAction_moves {array : EccArray} {a b : Nat} {s : State} :
    Moves [.sys, .pow, .time, .coll, .hop, .hall, .cmd, .crown, .model, .verd, .sentry, .trace, .brake, .test, .temper, .flash, .conf, .hoist, .outs] s (State.eccAction array a b s) := by
  unfold State.eccAction
  try dsimp only
  repeat' first
    | with_reducible apply Moves.refl
    | assumption
    | ((with_reducible apply Moves.modColl); (case hq => decide); (case e0 => with_reducible rfl); (case e1 => with_reducible rfl); (case e2 => with_reducible rfl))
    | ((with_reducible apply Moves.next (h' := State.dropEcc_moves)); (case hq => decide))
    | ((with_reducible apply Moves.next (h' := State.traceEcc_moves)); (case hq => decide))
    | ((with_reducible apply Moves.next (h' := State.modelStop_moves)); (case hq => decide))
    | ((with_reducible apply Moves.next (h' := State.modLevel_moves)); (case hq => decide))
    | ((with_reducible apply Moves.next (h' := State.resetEntry_moves)); (case hq => decide))
    | ((with_reducible apply Moves.next (h' := State.hallSettle_moves)); (case hq => decide))
    | ((with_reducible apply Moves.next (h' := State.reclaimFull_moves)); (case hq => decide))
    | ((with_reducible apply Moves.next (h' := State.bump_moves)); (case hq => decide))
    | ((with_reducible apply Moves.modHall); (case hq => decide); (case e0 => with_reducible rfl); (case e1 => with_reducible rfl); (case e2 => with_reducible rfl))
    | ((with_reducible apply Moves.next (h' := State.modSys_moves)); (case hq => decide))
    | ((with_reducible apply Moves.collOk); (case hq => decide); (case k => intro k; exact ⟨by dsimp only; exact counterTableOk_put k.1, k.2⟩))
    | ((with_reducible apply Moves.hallOk); (case hq => decide); (case k => intro k; exact ⟨Nat.le_trans (List.length_eraseIdx_le _ _) (HallUnit.tearIf_ok k).1, (HallUnit.tearIf_ok k).2⟩))
    | with_reducible apply Moves.ite
    | split

theorem execScrubWord_moves {hit : EccHit} {s : State} :
    OutMoves [.sys, .pow, .time, .coll, .hop, .hall, .cmd, .crown, .model, .verd, .sentry, .trace, .brake, .test, .temper, .flash, .conf, .hoist, .outs] s (execScrubWord hit s) := by
  unfold execScrubWord
  try dsimp only
  repeat' first
    | with_reducible apply Moves.refl
    | assumption
    | with_reducible apply OutMoves.next
    | with_reducible apply OutMoves.ite
    | ((with_reducible apply Moves.next (h' := State.bump_moves)); (case hq => decide))
    | ((with_reducible apply Moves.next (h' := State.eccAction_moves)); (case hq => decide))

end Sys2Proof.Machine
end

