-- ==== Sys2Proof/Laws/PowerRows.lean ====
section
/-! SUPPORT. What the operations of Machine/PowerRows.lean can change, and that they keep the invariant. -/

namespace Sys2Proof.Machine

theorem execDrainEnd_moves {s : State} :
    OutMoves [.sys, .pow, .time, .coll, .hop, .hall, .cmd, .crown, .model, .verd, .sentry, .trace, .brake, .test, .gov, .temper, .assay, .flash, .conf, .hoist, .outs] s (execDrainEnd s) := by
  unfold execDrainEnd
  try dsimp only
  repeat' first
    | with_reducible apply Moves.refl
    | assumption
    | with_reducible apply OutMoves.next
    | with_reducible apply OutMoves.ite
    | ((with_reducible apply Moves.next (h' := State.drainRx_moves)); (case hq => decide))
    | ((with_reducible apply Moves.next (h' := State.drainEnd_moves)); (case hq => decide))

theorem execWakeDemand_moves {kind : Demand} {s : State} :
    OutMoves [.sys, .pow, .time, .coll, .hop, .hall, .cmd, .crown, .model, .verd, .sentry, .trace, .brake, .test, .gov, .temper, .assay, .flash, .conf, .hoist, .outs] s (execWakeDemand kind s) := by
  unfold execWakeDemand
  try dsimp only
  repeat' first
    | with_reducible apply Moves.refl
    | assumption
    | with_reducible apply OutMoves.next
    | with_reducible apply OutMoves.ite
    | ((with_reducible apply Moves.next (h' := State.ctlWake_moves)); (case hq => decide))
    | ((with_reducible apply Moves.next (h' := State.drainRx_moves)); (case hq => decide))
    | ((with_reducible apply Moves.next (h' := State.demand_moves)); (case hq => decide))
    | with_reducible apply Moves.ite

theorem execWakeHoldExpiry_moves {s : State} :
    OutMoves [.pow, .coll, .hop, .hall, .cmd, .crown, .model, .verd, .trace, .brake, .test, .flash, .conf, .outs] s (execWakeHoldExpiry s) := by
  unfold execWakeHoldExpiry
  try dsimp only
  repeat' first
    | with_reducible apply Moves.refl
    | assumption
    | with_reducible apply OutMoves.next
    | with_reducible apply OutMoves.ite
    | ((with_reducible apply Moves.next (h' := State.beginEntry_moves)); (case hq => decide))

end Sys2Proof.Machine
end

