-- ==== Sys2Proof/Laws/Startup.lean ====
section
/-! SUPPORT. What the operations of Machine/Startup.lean can change, and that they keep the invariant. -/

namespace Sys2Proof.Machine

theorem State.aoReset_moves {r : Role} {s : State} :
    Moves [.sys, .pow, .time, .coll, .hop, .hall, .cmd, .crown, .model, .verd, .sentry, .trace, .brake, .test, .gov, .temper, .assay, .conf, .hoist] s (State.aoReset r s) := by
  refine ⟨fun p q => ?_, fun i => ⟨⟨Nat.zero_le _, Nat.zero_le _, i.1.2.2⟩, ⟨Nat.zero_le _, Nat.zero_le _⟩,
    ⟨rfl, Nat.zero_le _, Nat.zero_le _⟩, ?_, Nat.zero_le _⟩⟩
  · cases p <;> first | rfl | (exact absurd q (by decide))
  · intro o ho
    have : o = outReset := List.eq_of_mem_replicate ho
    rw [this]
    rfl

theorem execPgAoDeassert_moves {s : State} :
    OutMoves [.sys, .pow, .time, .coll, .hop, .hall, .cmd, .crown, .model, .verd, .sentry, .trace, .brake, .test, .gov, .temper, .assay, .conf, .hoist, .outs] s (execPgAoDeassert s) := by
  unfold execPgAoDeassert
  try dsimp only
  repeat' first
    | with_reducible apply Moves.refl
    | assumption
    | with_reducible apply OutMoves.next
    | with_reducible apply OutMoves.ite
    | ((with_reducible apply Moves.next (h' := State.aoReset_moves)); (case hq => decide))
    | ((with_reducible apply Moves.modHall); (case hq => decide); (case e0 => with_reducible rfl); (case e1 => with_reducible rfl); (case e2 => with_reducible rfl))
    | ((with_reducible apply Moves.next (h' := State.ownNotice_moves)); (case hq => decide))
    | ((with_reducible apply Moves.hallOk); (case hq => decide); (case k => intro k; exact HallUnit.tear_ok k))
    | with_reducible apply Moves.ite
    | split

theorem State.dirClean_moves {s : State} :
    Moves [.flash, .outs] s (State.dirClean s) := by
  unfold State.dirClean
  refine Moves.fold (fun t i m => Moves.ite ?_ m) (Moves.refl s)
  exact (m.next State.modDir_moves (by decide)).next State.eraseSlot_moves (by decide)

theorem State.ingotTorn_moves {s : State} :
    Moves [.coll, .hop, .hall, .cmd, .outs] s (State.ingotTorn s) := by
  unfold State.ingotTorn
  try dsimp only
  repeat' first
    | with_reducible apply Moves.refl
    | assumption
    | ((with_reducible apply Moves.next (h' := State.stage_moves)); (case hq => decide))
    | with_reducible apply Moves.ite

theorem State.flashStart_moves {s : State} :
    Moves [.outs] s (State.flashStart s) := by
  unfold State.flashStart
  try dsimp only
  repeat' first
    | with_reducible apply Moves.refl
    | assumption
    | ((with_reducible apply Moves.next (h' := State.readFlash_moves)); (case hq => decide))
    | ((with_reducible apply Moves.next (h' := State.xspiStart_moves)); (case hq => decide))
    | with_reducible apply Moves.ite
    | split

theorem State.aoStart_moves {r : Role} {refclk : Bool} {s : State} :
    Moves [.sys, .pow, .time, .coll, .hop, .hall, .cmd, .crown, .model, .verd, .sentry, .trace, .brake, .test, .gov, .temper, .assay, .flash, .conf, .hoist, .outs] s (State.aoStart r refclk s) := by
  unfold State.aoStart
  try dsimp only
  repeat' first
    | with_reducible apply Moves.refl
    | assumption
    | ((with_reducible apply Moves.next (h' := State.modPow_moves)); (case hq => decide))
    | ((with_reducible apply Moves.next (h' := State.aoReset_moves)); (case hq => decide))
    | ((with_reducible apply Moves.next (h' := State.bump_moves)); (case hq => decide))
    | ((with_reducible apply Moves.next (h' := State.modTime_moves)); (case hq => decide))
    | ((with_reducible apply Moves.next (h' := State.ingotTorn_moves)); (case hq => decide))
    | ((with_reducible apply Moves.next (h' := State.hallScan_moves)); (case hq => decide))
    | ((with_reducible apply Moves.next (h' := State.dirClean_moves)); (case hq => decide))
    | ((with_reducible apply Moves.next (h' := State.flashStart_moves)); (case hq => decide))
    | with_reducible apply Moves.ite
    | split

theorem State.loadImage_moves {s : State} :
    Moves [.sys, .hoist, .outs] s (State.loadImage s) := by
  unfold State.loadImage
  try dsimp only
  repeat' first
    | with_reducible apply Moves.refl
    | assumption
    | ((with_reducible apply Moves.next (h' := State.modSys_moves)); (case hq => decide))
    | ((with_reducible apply Moves.next (h' := State.modHoist_moves)); (case hq => decide))
    | ((with_reducible apply Moves.next (h' := State.readFlash_moves)); (case hq => decide))
    | with_reducible apply Moves.ite
    | split

theorem State.loadTestDone_moves {s : State} :
    Moves [.test] s (State.loadTestDone s) := by
  unfold State.loadTestDone
  try dsimp only
  repeat' first
    | with_reducible apply Moves.refl
    | assumption
    | ((with_reducible apply Moves.next (h' := State.modTest_moves)); (case hq => decide))

theorem State.startOffset_moves {s : State} :
    Moves [.time, .coll, .hop, .hall, .cmd, .gov, .outs] s (State.startOffset s) := by
  unfold State.startOffset
  try dsimp only
  repeat' first
    | with_reducible apply Moves.refl
    | assumption
    | ((with_reducible apply Moves.next (h' := State.modGov_moves)); (case hq => decide))
    | ((with_reducible apply Moves.next (h' := State.agentPlan_moves)); (case hq => decide))
    | ((with_reducible apply Moves.next (h' := State.writeVout_moves)); (case hq => decide))
    | ((with_reducible apply Moves.next (h' := State.tickFree_moves)); (case hq => decide))
    | with_reducible apply Moves.ite

theorem State.clocksUp_moves {s : State} :
    Moves [.pow, .coll, .hop, .trace] s (State.clocksUp s) := by
  unfold State.clocksUp
  try dsimp only
  repeat' first
    | with_reducible apply Moves.refl
    | assumption
    | ((with_reducible apply Moves.next (h' := State.modPow_moves)); (case hq => decide))
    | ((with_reducible apply Moves.next (h' := State.heavySets_moves)); (case hq => decide))
    | ((with_reducible apply Moves.next (h' := State.tensorRefill_moves)); (case hq => decide))
    | ((with_reducible apply Moves.next (h' := State.refill_moves)); (case hq => decide))
    | with_reducible apply Moves.ite
    | split

theorem State.toRestore_moves {s : State} :
    Moves [.pow] s (State.toRestore s) := by
  unfold State.toRestore
  try dsimp only
  repeat' first
    | with_reducible apply Moves.refl
    | assumption
    | ((with_reducible apply Moves.next (h' := State.modPow_moves)); (case hq => decide))

theorem execPgAoAssert_moves {strap : Role} {refclk : Bool} {slotOk : Bool} {selfOk : Bool} {s : State} :
    OutMoves [.sys, .pow, .time, .coll, .hop, .hall, .cmd, .crown, .model, .verd, .sentry, .trace, .brake, .test, .gov, .temper, .assay, .flash, .conf, .hoist, .outs] s (execPgAoAssert strap refclk slotOk selfOk s) := by
  unfold execPgAoAssert
  try dsimp only
  repeat' first
    | with_reducible apply Moves.refl
    | assumption
    | with_reducible apply OutMoves.next
    | with_reducible apply OutMoves.ite
    | ((with_reducible apply Moves.next (h' := State.aoStart_moves)); (case hq => decide))
    | ((with_reducible apply Moves.next (h' := State.modPow_moves)); (case hq => decide))
    | ((with_reducible apply Moves.next (h' := State.modHoist_moves)); (case hq => decide))
    | ((with_reducible apply Moves.next (h' := State.toRestore_moves)); (case hq => decide))
    | ((with_reducible apply Moves.next (h' := State.startOffset_moves)); (case hq => decide))
    | ((with_reducible apply Moves.next (h' := State.loadTestDone_moves)); (case hq => decide))
    | ((with_reducible apply Moves.next (h' := State.migrate_moves)); (case hq => decide))
    | ((with_reducible apply Moves.next (h' := State.readConf_moves)); (case hq => decide))
    | ((with_reducible apply Moves.next (h' := State.loadImage_moves)); (case hq => decide))
    | ((with_reducible apply Moves.next (h' := State.clocksUp_moves)); (case hq => decide))
    | ((with_reducible apply Moves.next (h' := State.readFlash_moves)); (case hq => decide))
    | with_reducible apply Moves.ite
    | split

theorem State.restoreOne_moves {s : State} {i : Nat} :
    Moves [.sys, .pow, .time, .coll, .hop, .hall, .cmd, .crown, .model, .verd, .sentry, .trace, .brake, .test, .gov, .temper, .assay, .flash, .conf, .hoist, .outs] s (State.restoreOne s i) := by
  unfold State.restoreOne
  try dsimp only
  repeat' first
    | with_reducible apply Moves.refl
    | assumption
    | ((with_reducible apply Moves.next (h' := State.runPacket_moves)); (case hq => decide))
    | with_reducible apply Moves.ite
    | split

theorem State.restoreAll_moves {s : State} :
    Moves [.sys, .pow, .time, .coll, .hop, .hall, .cmd, .crown, .model, .verd, .sentry, .trace, .brake, .test, .gov, .temper, .assay, .flash, .conf, .hoist, .outs] s (State.restoreAll s) := by
  unfold State.restoreAll
  try dsimp only
  repeat' first
    | with_reducible apply Moves.refl
    | assumption
    | ((with_reducible apply Moves.next (h' := State.restoreOne_moves)); (case hq => decide))
    | with_reducible apply Moves.ite
    | ((with_reducible apply Moves.fold); (intro t x m))

theorem State.releasePorts_moves {s : State} :
    Moves [.sys, .pow, .coll, .hop, .hall, .cmd, .brake, .outs] s (State.releasePorts s) := by
  unfold State.releasePorts
  try dsimp only
  repeat' first
    | with_reducible apply Moves.refl
    | assumption
    | ((with_reducible apply Moves.next (h' := State.portRelease_moves)); (case hq => decide))
    | with_reducible apply Moves.ite
    | ((with_reducible apply Moves.fold); (intro t x m))
    | split

theorem State.restartEvent_moves {fab : Bool} {s : State} :
    Moves [.cmd, .outs] s (State.restartEvent fab s) := by
  unfold State.restartEvent
  try dsimp only
  repeat' first
    | with_reducible apply Moves.refl
    | assumption
    | ((with_reducible apply Moves.next (h' := State.putEvent_moves)); (case hq => decide))
    | with_reducible apply Moves.ite
    | split

theorem State.restartStreams_moves {s : State} :
    Moves [.coll, .hop, .hall, .cmd, .outs] s (State.restartStreams s) := by
  unfold State.restartStreams
  try dsimp only
  repeat' first
    | with_reducible apply Moves.refl
    | assumption
    | ((with_reducible apply Moves.next (h' := State.settleEpoch_moves)); (case hq => decide))
    | with_reducible apply Moves.ite
    | ((with_reducible apply Moves.fold); (intro t x m))
    | split

theorem State.backToRun_moves {s : State} :
    Moves [.pow, .coll, .hop, .hall, .cmd, .crown, .model, .trace, .brake, .assay, .hoist, .outs] s (State.backToRun s) := by
  unfold State.backToRun
  try dsimp only
  repeat' first
    | with_reducible apply Moves.refl
    | assumption
    | ((with_reducible apply Moves.next (h' := State.offerHeld_moves)); (case hq => decide))
    | ((with_reducible apply Moves.next (h' := State.fullIfDue_moves)); (case hq => decide))
    | ((with_reducible apply Moves.next (h' := State.modPow_moves)); (case hq => decide))
    | ((with_reducible apply Moves.next (h' := State.exitRun_moves)); (case hq => decide))
    | with_reducible apply Moves.ite
    | split

theorem State.begin'_moves {s : State} :
    Moves [.sys, .pow, .coll, .hop, .hall, .cmd, .crown, .model, .trace, .brake, .assay, .hoist, .outs] s (State.begin' s) := by
  unfold State.begin'
  try dsimp only
  repeat' first
    | with_reducible apply Moves.refl
    | assumption
    | ((with_reducible apply Moves.next (h' := State.backToRun_moves)); (case hq => decide))
    | ((with_reducible apply Moves.next (h' := State.restartStreams_moves)); (case hq => decide))
    | ((with_reducible apply Moves.next (h' := State.modPow_moves)); (case hq => decide))
    | ((with_reducible apply Moves.next (h' := State.releasePorts_moves)); (case hq => decide))
    | ((with_reducible apply Moves.next (h' := State.restartEvent_moves)); (case hq => decide))
    | ((with_reducible apply Moves.next (h' := State.missedCuts_moves)); (case hq => decide))
    | ((with_reducible apply Moves.next (h' := State.askJoin_moves)); (case hq => decide))
    | ((with_reducible apply Moves.next (h' := State.startReply_moves)); (case hq => decide))
    | ((with_reducible apply Moves.next (h' := State.pmbStart_moves)); (case hq => decide))
    | with_reducible apply Moves.ite
    | split

theorem execRestoreDone_moves {s : State} :
    OutMoves [.sys, .pow, .time, .coll, .hop, .hall, .cmd, .crown, .model, .verd, .sentry, .trace, .brake, .test, .gov, .temper, .assay, .flash, .conf, .hoist, .outs] s (execRestoreDone s) := by
  unfold execRestoreDone
  try dsimp only
  repeat' first
    | with_reducible apply Moves.refl
    | assumption
    | with_reducible apply OutMoves.next
    | with_reducible apply OutMoves.ite
    | ((with_reducible apply Moves.next (h' := State.restoreAll_moves)); (case hq => decide))
    | ((with_reducible apply Moves.next (h' := State.begin'_moves)); (case hq => decide))

theorem execRstHostNAssert_moves {s : State} :
    OutMoves [.sys, .pow, .time, .coll, .hop, .hall, .cmd, .crown, .model, .verd, .sentry, .trace, .brake, .test, .temper, .flash, .conf, .hoist, .outs] s (execRstHostNAssert s) := by
  unfold execRstHostNAssert
  try dsimp only
  repeat' first
    | with_reducible apply Moves.refl
    | assumption
    | with_reducible apply OutMoves.next
    | with_reducible apply OutMoves.ite
    | ((with_reducible apply Moves.next (h' := State.resetEntry_moves)); (case hq => decide))
    | ((with_reducible apply Moves.next (h' := State.hostResetSeen_moves)); (case hq => decide))
    | ((with_reducible apply Moves.next (h' := State.modPow_moves)); (case hq => decide))

theorem execRstWarmNAssert_moves {s : State} :
    OutMoves [.pow, .time, .coll, .hop, .hall, .cmd, .brake, .test, .flash, .conf, .outs] s (execRstWarmNAssert s) := by
  unfold execRstWarmNAssert
  try dsimp only
  repeat' first
    | with_reducible apply Moves.refl
    | assumption
    | with_reducible apply OutMoves.next
    | with_reducible apply OutMoves.ite
    | ((with_reducible apply Moves.next (h' := State.portReset_moves)); (case hq => decide))
    | ((with_reducible apply Moves.next (h' := State.testReset_moves)); (case hq => decide))
    | ((with_reducible apply Moves.next (h' := State.warmResetSeen_moves)); (case hq => decide))
    | ((with_reducible apply Moves.next (h' := State.modPow_moves)); (case hq => decide))
    | with_reducible apply Moves.ite
    | ((with_reducible apply Moves.fold); (intro t x m))

theorem execRstWarmNRelease_moves {s : State} :
    OutMoves [.sys, .pow, .coll, .hop, .hall, .cmd, .verd, .brake, .outs] s (execRstWarmNRelease s) := by
  unfold execRstWarmNRelease
  try dsimp only
  repeat' first
    | with_reducible apply Moves.refl
    | assumption
    | with_reducible apply OutMoves.next
    | with_reducible apply OutMoves.ite
    | ((with_reducible apply Moves.next (h' := State.warmReleased_moves)); (case hq => decide))
    | ((with_reducible apply Moves.next (h' := State.modPow_moves)); (case hq => decide))
    | ((with_reducible apply Moves.next (h' := State.portRelease_moves)); (case hq => decide))
    | with_reducible apply Moves.ite
    | ((with_reducible apply Moves.fold); (intro t x m))

theorem State.engRestart_moves {s : State} :
    Moves [.coll, .hop, .hall, .cmd, .verd, .sentry, .brake, .outs] s (State.engRestart s) := by
  unfold State.engRestart
  try dsimp only
  repeat' first
    | with_reducible apply Moves.refl
    | assumption
    | ((with_reducible apply Moves.next (h' := State.sentryRestart_moves)); (case hq => decide))
    | ((with_reducible apply Moves.next (h' := State.sendWithdrawal_moves)); (case hq => decide))
    | with_reducible apply Moves.ite

theorem State.ctlRestart_moves {selfOk : Bool} {s : State} :
    Moves [.sys, .pow, .time, .coll, .hop, .hall, .cmd, .crown, .model, .verd, .sentry, .trace, .brake, .test, .temper, .flash, .conf, .hoist, .outs] s (State.ctlRestart selfOk s) := by
  unfold State.ctlRestart
  try dsimp only
  repeat' first
    | with_reducible apply Moves.refl
    | assumption
    | ((with_reducible apply Moves.next (h' := State.modHoist_moves)); (case hq => decide))
    | ((with_reducible apply Moves.next (h' := State.loadImage_moves)); (case hq => decide))
    | ((with_reducible apply Moves.next (h' := State.fallBack_moves)); (case hq => decide))
    | ((with_reducible apply Moves.next (h' := State.readConf_moves)); (case hq => decide))
    | ((with_reducible apply Moves.next (h' := State.toRestore_moves)); (case hq => decide))
    | ((with_reducible apply Moves.next (h' := State.migrate_moves)); (case hq => decide))
    | with_reducible apply Moves.ite
    | split

theorem execResetRelease_moves {selfOk : Bool} {s : State} :
    OutMoves [.sys, .pow, .time, .coll, .hop, .hall, .cmd, .crown, .model, .verd, .sentry, .trace, .brake, .test, .temper, .flash, .conf, .hoist, .outs] s (execResetRelease selfOk s) := by
  unfold execResetRelease
  try dsimp only
  repeat' first
    | with_reducible apply Moves.refl
    | assumption
    | with_reducible apply OutMoves.next
    | with_reducible apply OutMoves.ite
    | ((with_reducible apply Moves.next (h' := State.watchRelease_moves)); (case hq => decide))
    | ((with_reducible apply Moves.next (h' := State.modPow_moves)); (case hq => decide))
    | ((with_reducible apply Moves.next (h' := State.ctlRestart_moves)); (case hq => decide))
    | ((with_reducible apply Moves.next (h' := State.engRestart_moves)); (case hq => decide))
    | ((with_reducible apply Moves.next (h' := State.clocksUp_moves)); (case hq => decide))
    | with_reducible apply Moves.ite

end Sys2Proof.Machine
end

