-- ==== Sys2Proof/Laws/State.lean ====
section
/-! SUPPORT. What each update of one unit leaves in every part of the state. -/

namespace Sys2Proof.Machine

@[simp] theorem State.modSys_sys (f : SysUnit → SysUnit) (s : State) : (s.modSys f).sys = f s.sys := rfl
@[simp] theorem State.modSys_pow (f : SysUnit → SysUnit) (s : State) : (s.modSys f).pow = s.pow := rfl
@[simp] theorem State.modSys_time (f : SysUnit → SysUnit) (s : State) : (s.modSys f).time = s.time := rfl
@[simp] theorem State.modSys_coll (f : SysUnit → SysUnit) (s : State) : (s.modSys f).coll = s.coll := rfl
@[simp] theorem State.modSys_hop (f : SysUnit → SysUnit) (s : State) : (s.modSys f).hop = s.hop := rfl
@[simp] theorem State.modSys_hall (f : SysUnit → SysUnit) (s : State) : (s.modSys f).hall = s.hall := rfl
@[simp] theorem State.modSys_cmd (f : SysUnit → SysUnit) (s : State) : (s.modSys f).cmd = s.cmd := rfl
@[simp] theorem State.modSys_crown (f : SysUnit → SysUnit) (s : State) : (s.modSys f).crown = s.crown := rfl
@[simp] theorem State.modSys_model (f : SysUnit → SysUnit) (s : State) : (s.modSys f).model = s.model := rfl
@[simp] theorem State.modSys_verd (f : SysUnit → SysUnit) (s : State) : (s.modSys f).verd = s.verd := rfl
@[simp] theorem State.modSys_sentry (f : SysUnit → SysUnit) (s : State) : (s.modSys f).sentry = s.sentry := rfl
@[simp] theorem State.modSys_trace (f : SysUnit → SysUnit) (s : State) : (s.modSys f).trace = s.trace := rfl
@[simp] theorem State.modSys_brake (f : SysUnit → SysUnit) (s : State) : (s.modSys f).brake = s.brake := rfl
@[simp] theorem State.modSys_test (f : SysUnit → SysUnit) (s : State) : (s.modSys f).test = s.test := rfl
@[simp] theorem State.modSys_gov (f : SysUnit → SysUnit) (s : State) : (s.modSys f).gov = s.gov := rfl
@[simp] theorem State.modSys_temper (f : SysUnit → SysUnit) (s : State) : (s.modSys f).temper = s.temper := rfl
@[simp] theorem State.modSys_metro (f : SysUnit → SysUnit) (s : State) : (s.modSys f).metro = s.metro := rfl
@[simp] theorem State.modSys_assay (f : SysUnit → SysUnit) (s : State) : (s.modSys f).assay = s.assay := rfl
@[simp] theorem State.modSys_flash (f : SysUnit → SysUnit) (s : State) : (s.modSys f).flash = s.flash := rfl
@[simp] theorem State.modSys_conf (f : SysUnit → SysUnit) (s : State) : (s.modSys f).conf = s.conf := rfl
@[simp] theorem State.modSys_hoist (f : SysUnit → SysUnit) (s : State) : (s.modSys f).hoist = s.hoist := rfl
@[simp] theorem State.modSys_outs (f : SysUnit → SysUnit) (s : State) : (s.modSys f).outs = s.outs := rfl
@[simp] theorem State.modSys_pending (f : SysUnit → SysUnit) (s : State) : (s.modSys f).pending = s.pending := rfl

@[simp] theorem State.modPow_sys (f : PowUnit → PowUnit) (s : State) : (s.modPow f).sys = s.sys := rfl
@[simp] theorem State.modPow_pow (f : PowUnit → PowUnit) (s : State) : (s.modPow f).pow = f s.pow := rfl
@[simp] theorem State.modPow_time (f : PowUnit → PowUnit) (s : State) : (s.modPow f).time = s.time := rfl
@[simp] theorem State.modPow_coll (f : PowUnit → PowUnit) (s : State) : (s.modPow f).coll = s.coll := rfl
@[simp] theorem State.modPow_hop (f : PowUnit → PowUnit) (s : State) : (s.modPow f).hop = s.hop := rfl
@[simp] theorem State.modPow_hall (f : PowUnit → PowUnit) (s : State) : (s.modPow f).hall = s.hall := rfl
@[simp] theorem State.modPow_cmd (f : PowUnit → PowUnit) (s : State) : (s.modPow f).cmd = s.cmd := rfl
@[simp] theorem State.modPow_crown (f : PowUnit → PowUnit) (s : State) : (s.modPow f).crown = s.crown := rfl
@[simp] theorem State.modPow_model (f : PowUnit → PowUnit) (s : State) : (s.modPow f).model = s.model := rfl
@[simp] theorem State.modPow_verd (f : PowUnit → PowUnit) (s : State) : (s.modPow f).verd = s.verd := rfl
@[simp] theorem State.modPow_sentry (f : PowUnit → PowUnit) (s : State) : (s.modPow f).sentry = s.sentry := rfl
@[simp] theorem State.modPow_trace (f : PowUnit → PowUnit) (s : State) : (s.modPow f).trace = s.trace := rfl
@[simp] theorem State.modPow_brake (f : PowUnit → PowUnit) (s : State) : (s.modPow f).brake = s.brake := rfl
@[simp] theorem State.modPow_test (f : PowUnit → PowUnit) (s : State) : (s.modPow f).test = s.test := rfl
@[simp] theorem State.modPow_gov (f : PowUnit → PowUnit) (s : State) : (s.modPow f).gov = s.gov := rfl
@[simp] theorem State.modPow_temper (f : PowUnit → PowUnit) (s : State) : (s.modPow f).temper = s.temper := rfl
@[simp] theorem State.modPow_metro (f : PowUnit → PowUnit) (s : State) : (s.modPow f).metro = s.metro := rfl
@[simp] theorem State.modPow_assay (f : PowUnit → PowUnit) (s : State) : (s.modPow f).assay = s.assay := rfl
@[simp] theorem State.modPow_flash (f : PowUnit → PowUnit) (s : State) : (s.modPow f).flash = s.flash := rfl
@[simp] theorem State.modPow_conf (f : PowUnit → PowUnit) (s : State) : (s.modPow f).conf = s.conf := rfl
@[simp] theorem State.modPow_hoist (f : PowUnit → PowUnit) (s : State) : (s.modPow f).hoist = s.hoist := rfl
@[simp] theorem State.modPow_outs (f : PowUnit → PowUnit) (s : State) : (s.modPow f).outs = s.outs := rfl
@[simp] theorem State.modPow_pending (f : PowUnit → PowUnit) (s : State) : (s.modPow f).pending = s.pending := rfl

@[simp] theorem State.modTime_sys (f : TimeUnit → TimeUnit) (s : State) : (s.modTime f).sys = s.sys := rfl
@[simp] theorem State.modTime_pow (f : TimeUnit → TimeUnit) (s : State) : (s.modTime f).pow = s.pow := rfl
@[simp] theorem State.modTime_time (f : TimeUnit → TimeUnit) (s : State) : (s.modTime f).time = f s.time := rfl
@[simp] theorem State.modTime_coll (f : TimeUnit → TimeUnit) (s : State) : (s.modTime f).coll = s.coll := rfl
@[simp] theorem State.modTime_hop (f : TimeUnit → TimeUnit) (s : State) : (s.modTime f).hop = s.hop := rfl
@[simp] theorem State.modTime_hall (f : TimeUnit → TimeUnit) (s : State) : (s.modTime f).hall = s.hall := rfl
@[simp] theorem State.modTime_cmd (f : TimeUnit → TimeUnit) (s : State) : (s.modTime f).cmd = s.cmd := rfl
@[simp] theorem State.modTime_crown (f : TimeUnit → TimeUnit) (s : State) : (s.modTime f).crown = s.crown := rfl
@[simp] theorem State.modTime_model (f : TimeUnit → TimeUnit) (s : State) : (s.modTime f).model = s.model := rfl
@[simp] theorem State.modTime_verd (f : TimeUnit → TimeUnit) (s : State) : (s.modTime f).verd = s.verd := rfl
@[simp] theorem State.modTime_sentry (f : TimeUnit → TimeUnit) (s : State) : (s.modTime f).sentry = s.sentry := rfl
@[simp] theorem State.modTime_trace (f : TimeUnit → TimeUnit) (s : State) : (s.modTime f).trace = s.trace := rfl
@[simp] theorem State.modTime_brake (f : TimeUnit → TimeUnit) (s : State) : (s.modTime f).brake = s.brake := rfl
@[simp] theorem State.modTime_test (f : TimeUnit → TimeUnit) (s : State) : (s.modTime f).test = s.test := rfl
@[simp] theorem State.modTime_gov (f : TimeUnit → TimeUnit) (s : State) : (s.modTime f).gov = s.gov := rfl
@[simp] theorem State.modTime_temper (f : TimeUnit → TimeUnit) (s : State) : (s.modTime f).temper = s.temper := rfl
@[simp] theorem State.modTime_metro (f : TimeUnit → TimeUnit) (s : State) : (s.modTime f).metro = s.metro := rfl
@[simp] theorem State.modTime_assay (f : TimeUnit → TimeUnit) (s : State) : (s.modTime f).assay = s.assay := rfl
@[simp] theorem State.modTime_flash (f : TimeUnit → TimeUnit) (s : State) : (s.modTime f).flash = s.flash := rfl
@[simp] theorem State.modTime_conf (f : TimeUnit → TimeUnit) (s : State) : (s.modTime f).conf = s.conf := rfl
@[simp] theorem State.modTime_hoist (f : TimeUnit → TimeUnit) (s : State) : (s.modTime f).hoist = s.hoist := rfl
@[simp] theorem State.modTime_outs (f : TimeUnit → TimeUnit) (s : State) : (s.modTime f).outs = s.outs := rfl
@[simp] theorem State.modTime_pending (f : TimeUnit → TimeUnit) (s : State) : (s.modTime f).pending = s.pending := rfl

@[simp] theorem State.modColl_sys (f : CollUnit → CollUnit) (s : State) : (s.modColl f).sys = s.sys := rfl
@[simp] theorem State.modColl_pow (f : CollUnit → CollUnit) (s : State) : (s.modColl f).pow = s.pow := rfl
@[simp] theorem State.modColl_time (f : CollUnit → CollUnit) (s : State) : (s.modColl f).time = s.time := rfl
@[simp] theorem State.modColl_coll (f : CollUnit → CollUnit) (s : State) : (s.modColl f).coll = f s.coll := rfl
@[simp] theorem State.modColl_hop (f : CollUnit → CollUnit) (s : State) : (s.modColl f).hop = s.hop := rfl
@[simp] theorem State.modColl_hall (f : CollUnit → CollUnit) (s : State) : (s.modColl f).hall = s.hall := rfl
@[simp] theorem State.modColl_cmd (f : CollUnit → CollUnit) (s : State) : (s.modColl f).cmd = s.cmd := rfl
@[simp] theorem State.modColl_crown (f : CollUnit → CollUnit) (s : State) : (s.modColl f).crown = s.crown := rfl
@[simp] theorem State.modColl_model (f : CollUnit → CollUnit) (s : State) : (s.modColl f).model = s.model := rfl
@[simp] theorem State.modColl_verd (f : CollUnit → CollUnit) (s : State) : (s.modColl f).verd = s.verd := rfl
@[simp] theorem State.modColl_sentry (f : CollUnit → CollUnit) (s : State) : (s.modColl f).sentry = s.sentry := rfl
@[simp] theorem State.modColl_trace (f : CollUnit → CollUnit) (s : State) : (s.modColl f).trace = s.trace := rfl
@[simp] theorem State.modColl_brake (f : CollUnit → CollUnit) (s : State) : (s.modColl f).brake = s.brake := rfl
@[simp] theorem State.modColl_test (f : CollUnit → CollUnit) (s : State) : (s.modColl f).test = s.test := rfl
@[simp] theorem State.modColl_gov (f : CollUnit → CollUnit) (s : State) : (s.modColl f).gov = s.gov := rfl
@[simp] theorem State.modColl_temper (f : CollUnit → CollUnit) (s : State) : (s.modColl f).temper = s.temper := rfl
@[simp] theorem State.modColl_metro (f : CollUnit → CollUnit) (s : State) : (s.modColl f).metro = s.metro := rfl
@[simp] theorem State.modColl_assay (f : CollUnit → CollUnit) (s : State) : (s.modColl f).assay = s.assay := rfl
@[simp] theorem State.modColl_flash (f : CollUnit → CollUnit) (s : State) : (s.modColl f).flash = s.flash := rfl
@[simp] theorem State.modColl_conf (f : CollUnit → CollUnit) (s : State) : (s.modColl f).conf = s.conf := rfl
@[simp] theorem State.modColl_hoist (f : CollUnit → CollUnit) (s : State) : (s.modColl f).hoist = s.hoist := rfl
@[simp] theorem State.modColl_outs (f : CollUnit → CollUnit) (s : State) : (s.modColl f).outs = s.outs := rfl
@[simp] theorem State.modColl_pending (f : CollUnit → CollUnit) (s : State) : (s.modColl f).pending = s.pending := rfl

@[simp] theorem State.modHop_sys (f : HopUnit → HopUnit) (s : State) : (s.modHop f).sys = s.sys := rfl
@[simp] theorem State.modHop_pow (f : HopUnit → HopUnit) (s : State) : (s.modHop f).pow = s.pow := rfl
@[simp] theorem State.modHop_time (f : HopUnit → HopUnit) (s : State) : (s.modHop f).time = s.time := rfl
@[simp] theorem State.modHop_coll (f : HopUnit → HopUnit) (s : State) : (s.modHop f).coll = s.coll := rfl
@[simp] theorem State.modHop_hop (f : HopUnit → HopUnit) (s : State) : (s.modHop f).hop = f s.hop := rfl
@[simp] theorem State.modHop_hall (f : HopUnit → HopUnit) (s : State) : (s.modHop f).hall = s.hall := rfl
@[simp] theorem State.modHop_cmd (f : HopUnit → HopUnit) (s : State) : (s.modHop f).cmd = s.cmd := rfl
@[simp] theorem State.modHop_crown (f : HopUnit → HopUnit) (s : State) : (s.modHop f).crown = s.crown := rfl
@[simp] theorem State.modHop_model (f : HopUnit → HopUnit) (s : State) : (s.modHop f).model = s.model := rfl
@[simp] theorem State.modHop_verd (f : HopUnit → HopUnit) (s : State) : (s.modHop f).verd = s.verd := rfl
@[simp] theorem State.modHop_sentry (f : HopUnit → HopUnit) (s : State) : (s.modHop f).sentry = s.sentry := rfl
@[simp] theorem State.modHop_trace (f : HopUnit → HopUnit) (s : State) : (s.modHop f).trace = s.trace := rfl
@[simp] theorem State.modHop_brake (f : HopUnit → HopUnit) (s : State) : (s.modHop f).brake = s.brake := rfl
@[simp] theorem State.modHop_test (f : HopUnit → HopUnit) (s : State) : (s.modHop f).test = s.test := rfl
@[simp] theorem State.modHop_gov (f : HopUnit → HopUnit) (s : State) : (s.modHop f).gov = s.gov := rfl
@[simp] theorem State.modHop_temper (f : HopUnit → HopUnit) (s : State) : (s.modHop f).temper = s.temper := rfl
@[simp] theorem State.modHop_metro (f : HopUnit → HopUnit) (s : State) : (s.modHop f).metro = s.metro := rfl
@[simp] theorem State.modHop_assay (f : HopUnit → HopUnit) (s : State) : (s.modHop f).assay = s.assay := rfl
@[simp] theorem State.modHop_flash (f : HopUnit → HopUnit) (s : State) : (s.modHop f).flash = s.flash := rfl
@[simp] theorem State.modHop_conf (f : HopUnit → HopUnit) (s : State) : (s.modHop f).conf = s.conf := rfl
@[simp] theorem State.modHop_hoist (f : HopUnit → HopUnit) (s : State) : (s.modHop f).hoist = s.hoist := rfl
@[simp] theorem State.modHop_outs (f : HopUnit → HopUnit) (s : State) : (s.modHop f).outs = s.outs := rfl
@[simp] theorem State.modHop_pending (f : HopUnit → HopUnit) (s : State) : (s.modHop f).pending = s.pending := rfl

@[simp] theorem State.modHall_sys (f : HallUnit → HallUnit) (s : State) : (s.modHall f).sys = s.sys := rfl
@[simp] theorem State.modHall_pow (f : HallUnit → HallUnit) (s : State) : (s.modHall f).pow = s.pow := rfl
@[simp] theorem State.modHall_time (f : HallUnit → HallUnit) (s : State) : (s.modHall f).time = s.time := rfl
@[simp] theorem State.modHall_coll (f : HallUnit → HallUnit) (s : State) : (s.modHall f).coll = s.coll := rfl
@[simp] theorem State.modHall_hop (f : HallUnit → HallUnit) (s : State) : (s.modHall f).hop = s.hop := rfl
@[simp] theorem State.modHall_hall (f : HallUnit → HallUnit) (s : State) : (s.modHall f).hall = f s.hall := rfl
@[simp] theorem State.modHall_cmd (f : HallUnit → HallUnit) (s : State) : (s.modHall f).cmd = s.cmd := rfl
@[simp] theorem State.modHall_crown (f : HallUnit → HallUnit) (s : State) : (s.modHall f).crown = s.crown := rfl
@[simp] theorem State.modHall_model (f : HallUnit → HallUnit) (s : State) : (s.modHall f).model = s.model := rfl
@[simp] theorem State.modHall_verd (f : HallUnit → HallUnit) (s : State) : (s.modHall f).verd = s.verd := rfl
@[simp] theorem State.modHall_sentry (f : HallUnit → HallUnit) (s : State) : (s.modHall f).sentry = s.sentry := rfl
@[simp] theorem State.modHall_trace (f : HallUnit → HallUnit) (s : State) : (s.modHall f).trace = s.trace := rfl
@[simp] theorem State.modHall_brake (f : HallUnit → HallUnit) (s : State) : (s.modHall f).brake = s.brake := rfl
@[simp] theorem State.modHall_test (f : HallUnit → HallUnit) (s : State) : (s.modHall f).test = s.test := rfl
@[simp] theorem State.modHall_gov (f : HallUnit → HallUnit) (s : State) : (s.modHall f).gov = s.gov := rfl
@[simp] theorem State.modHall_temper (f : HallUnit → HallUnit) (s : State) : (s.modHall f).temper = s.temper := rfl
@[simp] theorem State.modHall_metro (f : HallUnit → HallUnit) (s : State) : (s.modHall f).metro = s.metro := rfl
@[simp] theorem State.modHall_assay (f : HallUnit → HallUnit) (s : State) : (s.modHall f).assay = s.assay := rfl
@[simp] theorem State.modHall_flash (f : HallUnit → HallUnit) (s : State) : (s.modHall f).flash = s.flash := rfl
@[simp] theorem State.modHall_conf (f : HallUnit → HallUnit) (s : State) : (s.modHall f).conf = s.conf := rfl
@[simp] theorem State.modHall_hoist (f : HallUnit → HallUnit) (s : State) : (s.modHall f).hoist = s.hoist := rfl
@[simp] theorem State.modHall_outs (f : HallUnit → HallUnit) (s : State) : (s.modHall f).outs = s.outs := rfl
@[simp] theorem State.modHall_pending (f : HallUnit → HallUnit) (s : State) : (s.modHall f).pending = s.pending := rfl

@[simp] theorem State.modCmd_sys (f : CmdUnit → CmdUnit) (s : State) : (s.modCmd f).sys = s.sys := rfl
@[simp] theorem State.modCmd_pow (f : CmdUnit → CmdUnit) (s : State) : (s.modCmd f).pow = s.pow := rfl
@[simp] theorem State.modCmd_time (f : CmdUnit → CmdUnit) (s : State) : (s.modCmd f).time = s.time := rfl
@[simp] theorem State.modCmd_coll (f : CmdUnit → CmdUnit) (s : State) : (s.modCmd f).coll = s.coll := rfl
@[simp] theorem State.modCmd_hop (f : CmdUnit → CmdUnit) (s : State) : (s.modCmd f).hop = s.hop := rfl
@[simp] theorem State.modCmd_hall (f : CmdUnit → CmdUnit) (s : State) : (s.modCmd f).hall = s.hall := rfl
@[simp] theorem State.modCmd_cmd (f : CmdUnit → CmdUnit) (s : State) : (s.modCmd f).cmd = f s.cmd := rfl
@[simp] theorem State.modCmd_crown (f : CmdUnit → CmdUnit) (s : State) : (s.modCmd f).crown = s.crown := rfl
@[simp] theorem State.modCmd_model (f : CmdUnit → CmdUnit) (s : State) : (s.modCmd f).model = s.model := rfl
@[simp] theorem State.modCmd_verd (f : CmdUnit → CmdUnit) (s : State) : (s.modCmd f).verd = s.verd := rfl
@[simp] theorem State.modCmd_sentry (f : CmdUnit → CmdUnit) (s : State) : (s.modCmd f).sentry = s.sentry := rfl
@[simp] theorem State.modCmd_trace (f : CmdUnit → CmdUnit) (s : State) : (s.modCmd f).trace = s.trace := rfl
@[simp] theorem State.modCmd_brake (f : CmdUnit → CmdUnit) (s : State) : (s.modCmd f).brake = s.brake := rfl
@[simp] theorem State.modCmd_test (f : CmdUnit → CmdUnit) (s : State) : (s.modCmd f).test = s.test := rfl
@[simp] theorem State.modCmd_gov (f : CmdUnit → CmdUnit) (s : State) : (s.modCmd f).gov = s.gov := rfl
@[simp] theorem State.modCmd_temper (f : CmdUnit → CmdUnit) (s : State) : (s.modCmd f).temper = s.temper := rfl
@[simp] theorem State.modCmd_metro (f : CmdUnit → CmdUnit) (s : State) : (s.modCmd f).metro = s.metro := rfl
@[simp] theorem State.modCmd_assay (f : CmdUnit → CmdUnit) (s : State) : (s.modCmd f).assay = s.assay := rfl
@[simp] theorem State.modCmd_flash (f : CmdUnit → CmdUnit) (s : State) : (s.modCmd f).flash = s.flash := rfl
@[simp] theorem State.modCmd_conf (f : CmdUnit → CmdUnit) (s : State) : (s.modCmd f).conf = s.conf := rfl
@[simp] theorem State.modCmd_hoist (f : CmdUnit → CmdUnit) (s : State) : (s.modCmd f).hoist = s.hoist := rfl
@[simp] theorem State.modCmd_outs (f : CmdUnit → CmdUnit) (s : State) : (s.modCmd f).outs = s.outs := rfl
@[simp] theorem State.modCmd_pending (f : CmdUnit → CmdUnit) (s : State) : (s.modCmd f).pending = s.pending := rfl

@[simp] theorem State.modCrown_sys (f : CrownUnit → CrownUnit) (s : State) : (s.modCrown f).sys = s.sys := rfl
@[simp] theorem State.modCrown_pow (f : CrownUnit → CrownUnit) (s : State) : (s.modCrown f).pow = s.pow := rfl
@[simp] theorem State.modCrown_time (f : CrownUnit → CrownUnit) (s : State) : (s.modCrown f).time = s.time := rfl
@[simp] theorem State.modCrown_coll (f : CrownUnit → CrownUnit) (s : State) : (s.modCrown f).coll = s.coll := rfl
@[simp] theorem State.modCrown_hop (f : CrownUnit → CrownUnit) (s : State) : (s.modCrown f).hop = s.hop := rfl
@[simp] theorem State.modCrown_hall (f : CrownUnit → CrownUnit) (s : State) : (s.modCrown f).hall = s.hall := rfl
@[simp] theorem State.modCrown_cmd (f : CrownUnit → CrownUnit) (s : State) : (s.modCrown f).cmd = s.cmd := rfl
@[simp] theorem State.modCrown_crown (f : CrownUnit → CrownUnit) (s : State) : (s.modCrown f).crown = f s.crown := rfl
@[simp] theorem State.modCrown_model (f : CrownUnit → CrownUnit) (s : State) : (s.modCrown f).model = s.model := rfl
@[simp] theorem State.modCrown_verd (f : CrownUnit → CrownUnit) (s : State) : (s.modCrown f).verd = s.verd := rfl
@[simp] theorem State.modCrown_sentry (f : CrownUnit → CrownUnit) (s : State) : (s.modCrown f).sentry = s.sentry := rfl
@[simp] theorem State.modCrown_trace (f : CrownUnit → CrownUnit) (s : State) : (s.modCrown f).trace = s.trace := rfl
@[simp] theorem State.modCrown_brake (f : CrownUnit → CrownUnit) (s : State) : (s.modCrown f).brake = s.brake := rfl
@[simp] theorem State.modCrown_test (f : CrownUnit → CrownUnit) (s : State) : (s.modCrown f).test = s.test := rfl
@[simp] theorem State.modCrown_gov (f : CrownUnit → CrownUnit) (s : State) : (s.modCrown f).gov = s.gov := rfl
@[simp] theorem State.modCrown_temper (f : CrownUnit → CrownUnit) (s : State) : (s.modCrown f).temper = s.temper := rfl
@[simp] theorem State.modCrown_metro (f : CrownUnit → CrownUnit) (s : State) : (s.modCrown f).metro = s.metro := rfl
@[simp] theorem State.modCrown_assay (f : CrownUnit → CrownUnit) (s : State) : (s.modCrown f).assay = s.assay := rfl
@[simp] theorem State.modCrown_flash (f : CrownUnit → CrownUnit) (s : State) : (s.modCrown f).flash = s.flash := rfl
@[simp] theorem State.modCrown_conf (f : CrownUnit → CrownUnit) (s : State) : (s.modCrown f).conf = s.conf := rfl
@[simp] theorem State.modCrown_hoist (f : CrownUnit → CrownUnit) (s : State) : (s.modCrown f).hoist = s.hoist := rfl
@[simp] theorem State.modCrown_outs (f : CrownUnit → CrownUnit) (s : State) : (s.modCrown f).outs = s.outs := rfl
@[simp] theorem State.modCrown_pending (f : CrownUnit → CrownUnit) (s : State) : (s.modCrown f).pending = s.pending := rfl

@[simp] theorem State.modModel_sys (f : ModelUnit → ModelUnit) (s : State) : (s.modModel f).sys = s.sys := rfl
@[simp] theorem State.modModel_pow (f : ModelUnit → ModelUnit) (s : State) : (s.modModel f).pow = s.pow := rfl
@[simp] theorem State.modModel_time (f : ModelUnit → ModelUnit) (s : State) : (s.modModel f).time = s.time := rfl
@[simp] theorem State.modModel_coll (f : ModelUnit → ModelUnit) (s : State) : (s.modModel f).coll = s.coll := rfl
@[simp] theorem State.modModel_hop (f : ModelUnit → ModelUnit) (s : State) : (s.modModel f).hop = s.hop := rfl
@[simp] theorem State.modModel_hall (f : ModelUnit → ModelUnit) (s : State) : (s.modModel f).hall = s.hall := rfl
@[simp] theorem State.modModel_cmd (f : ModelUnit → ModelUnit) (s : State) : (s.modModel f).cmd = s.cmd := rfl
@[simp] theorem State.modModel_crown (f : ModelUnit → ModelUnit) (s : State) : (s.modModel f).crown = s.crown := rfl
@[simp] theorem State.modModel_model (f : ModelUnit → ModelUnit) (s : State) : (s.modModel f).model = f s.model := rfl
@[simp] theorem State.modModel_verd (f : ModelUnit → ModelUnit) (s : State) : (s.modModel f).verd = s.verd := rfl
@[simp] theorem State.modModel_sentry (f : ModelUnit → ModelUnit) (s : State) : (s.modModel f).sentry = s.sentry := rfl
@[simp] theorem State.modModel_trace (f : ModelUnit → ModelUnit) (s : State) : (s.modModel f).trace = s.trace := rfl
@[simp] theorem State.modModel_brake (f : ModelUnit → ModelUnit) (s : State) : (s.modModel f).brake = s.brake := rfl
@[simp] theorem State.modModel_test (f : ModelUnit → ModelUnit) (s : State) : (s.modModel f).test = s.test := rfl
@[simp] theorem State.modModel_gov (f : ModelUnit → ModelUnit) (s : State) : (s.modModel f).gov = s.gov := rfl
@[simp] theorem State.modModel_temper (f : ModelUnit → ModelUnit) (s : State) : (s.modModel f).temper = s.temper := rfl
@[simp] theorem State.modModel_metro (f : ModelUnit → ModelUnit) (s : State) : (s.modModel f).metro = s.metro := rfl
@[simp] theorem State.modModel_assay (f : ModelUnit → ModelUnit) (s : State) : (s.modModel f).assay = s.assay := rfl
@[simp] theorem State.modModel_flash (f : ModelUnit → ModelUnit) (s : State) : (s.modModel f).flash = s.flash := rfl
@[simp] theorem State.modModel_conf (f : ModelUnit → ModelUnit) (s : State) : (s.modModel f).conf = s.conf := rfl
@[simp] theorem State.modModel_hoist (f : ModelUnit → ModelUnit) (s : State) : (s.modModel f).hoist = s.hoist := rfl
@[simp] theorem State.modModel_outs (f : ModelUnit → ModelUnit) (s : State) : (s.modModel f).outs = s.outs := rfl
@[simp] theorem State.modModel_pending (f : ModelUnit → ModelUnit) (s : State) : (s.modModel f).pending = s.pending := rfl

@[simp] theorem State.modVerd_sys (f : VerdictUnit → VerdictUnit) (s : State) : (s.modVerd f).sys = s.sys := rfl
@[simp] theorem State.modVerd_pow (f : VerdictUnit → VerdictUnit) (s : State) : (s.modVerd f).pow = s.pow := rfl
@[simp] theorem State.modVerd_time (f : VerdictUnit → VerdictUnit) (s : State) : (s.modVerd f).time = s.time := rfl
@[simp] theorem State.modVerd_coll (f : VerdictUnit → VerdictUnit) (s : State) : (s.modVerd f).coll = s.coll := rfl
@[simp] theorem State.modVerd_hop (f : VerdictUnit → VerdictUnit) (s : State) : (s.modVerd f).hop = s.hop := rfl
@[simp] theorem State.modVerd_hall (f : VerdictUnit → VerdictUnit) (s : State) : (s.modVerd f).hall = s.hall := rfl
@[simp] theorem State.modVerd_cmd (f : VerdictUnit → VerdictUnit) (s : State) : (s.modVerd f).cmd = s.cmd := rfl
@[simp] theorem State.modVerd_crown (f : VerdictUnit → VerdictUnit) (s : State) : (s.modVerd f).crown = s.crown := rfl
@[simp] theorem State.modVerd_model (f : VerdictUnit → VerdictUnit) (s : State) : (s.modVerd f).model = s.model := rfl
@[simp] theorem State.modVerd_verd (f : VerdictUnit → VerdictUnit) (s : State) : (s.modVerd f).verd = f s.verd := rfl
@[simp] theorem State.modVerd_sentry (f : VerdictUnit → VerdictUnit) (s : State) : (s.modVerd f).sentry = s.sentry := rfl
@[simp] theorem State.modVerd_trace (f : VerdictUnit → VerdictUnit) (s : State) : (s.modVerd f).trace = s.trace := rfl
@[simp] theorem State.modVerd_brake (f : VerdictUnit → VerdictUnit) (s : State) : (s.modVerd f).brake = s.brake := rfl
@[simp] theorem State.modVerd_test (f : VerdictUnit → VerdictUnit) (s : State) : (s.modVerd f).test = s.test := rfl
@[simp] theorem State.modVerd_gov (f : VerdictUnit → VerdictUnit) (s : State) : (s.modVerd f).gov = s.gov := rfl
@[simp] theorem State.modVerd_temper (f : VerdictUnit → VerdictUnit) (s : State) : (s.modVerd f).temper = s.temper := rfl
@[simp] theorem State.modVerd_metro (f : VerdictUnit → VerdictUnit) (s : State) : (s.modVerd f).metro = s.metro := rfl
@[simp] theorem State.modVerd_assay (f : VerdictUnit → VerdictUnit) (s : State) : (s.modVerd f).assay = s.assay := rfl
@[simp] theorem State.modVerd_flash (f : VerdictUnit → VerdictUnit) (s : State) : (s.modVerd f).flash = s.flash := rfl
@[simp] theorem State.modVerd_conf (f : VerdictUnit → VerdictUnit) (s : State) : (s.modVerd f).conf = s.conf := rfl
@[simp] theorem State.modVerd_hoist (f : VerdictUnit → VerdictUnit) (s : State) : (s.modVerd f).hoist = s.hoist := rfl
@[simp] theorem State.modVerd_outs (f : VerdictUnit → VerdictUnit) (s : State) : (s.modVerd f).outs = s.outs := rfl
@[simp] theorem State.modVerd_pending (f : VerdictUnit → VerdictUnit) (s : State) : (s.modVerd f).pending = s.pending := rfl

@[simp] theorem State.modSentry_sys (f : SentryUnit → SentryUnit) (s : State) : (s.modSentry f).sys = s.sys := rfl
@[simp] theorem State.modSentry_pow (f : SentryUnit → SentryUnit) (s : State) : (s.modSentry f).pow = s.pow := rfl
@[simp] theorem State.modSentry_time (f : SentryUnit → SentryUnit) (s : State) : (s.modSentry f).time = s.time := rfl
@[simp] theorem State.modSentry_coll (f : SentryUnit → SentryUnit) (s : State) : (s.modSentry f).coll = s.coll := rfl
@[simp] theorem State.modSentry_hop (f : SentryUnit → SentryUnit) (s : State) : (s.modSentry f).hop = s.hop := rfl
@[simp] theorem State.modSentry_hall (f : SentryUnit → SentryUnit) (s : State) : (s.modSentry f).hall = s.hall := rfl
@[simp] theorem State.modSentry_cmd (f : SentryUnit → SentryUnit) (s : State) : (s.modSentry f).cmd = s.cmd := rfl
@[simp] theorem State.modSentry_crown (f : SentryUnit → SentryUnit) (s : State) : (s.modSentry f).crown = s.crown := rfl
@[simp] theorem State.modSentry_model (f : SentryUnit → SentryUnit) (s : State) : (s.modSentry f).model = s.model := rfl
@[simp] theorem State.modSentry_verd (f : SentryUnit → SentryUnit) (s : State) : (s.modSentry f).verd = s.verd := rfl
@[simp] theorem State.modSentry_sentry (f : SentryUnit → SentryUnit) (s : State) : (s.modSentry f).sentry = f s.sentry := rfl
@[simp] theorem State.modSentry_trace (f : SentryUnit → SentryUnit) (s : State) : (s.modSentry f).trace = s.trace := rfl
@[simp] theorem State.modSentry_brake (f : SentryUnit → SentryUnit) (s : State) : (s.modSentry f).brake = s.brake := rfl
@[simp] theorem State.modSentry_test (f : SentryUnit → SentryUnit) (s : State) : (s.modSentry f).test = s.test := rfl
@[simp] theorem State.modSentry_gov (f : SentryUnit → SentryUnit) (s : State) : (s.modSentry f).gov = s.gov := rfl
@[simp] theorem State.modSentry_temper (f : SentryUnit → SentryUnit) (s : State) : (s.modSentry f).temper = s.temper := rfl
@[simp] theorem State.modSentry_metro (f : SentryUnit → SentryUnit) (s : State) : (s.modSentry f).metro = s.metro := rfl
@[simp] theorem State.modSentry_assay (f : SentryUnit → SentryUnit) (s : State) : (s.modSentry f).assay = s.assay := rfl
@[simp] theorem State.modSentry_flash (f : SentryUnit → SentryUnit) (s : State) : (s.modSentry f).flash = s.flash := rfl
@[simp] theorem State.modSentry_conf (f : SentryUnit → SentryUnit) (s : State) : (s.modSentry f).conf = s.conf := rfl
@[simp] theorem State.modSentry_hoist (f : SentryUnit → SentryUnit) (s : State) : (s.modSentry f).hoist = s.hoist := rfl
@[simp] theorem State.modSentry_outs (f : SentryUnit → SentryUnit) (s : State) : (s.modSentry f).outs = s.outs := rfl
@[simp] theorem State.modSentry_pending (f : SentryUnit → SentryUnit) (s : State) : (s.modSentry f).pending = s.pending := rfl

@[simp] theorem State.modTrace_sys (f : TraceUnit → TraceUnit) (s : State) : (s.modTrace f).sys = s.sys := rfl
@[simp] theorem State.modTrace_pow (f : TraceUnit → TraceUnit) (s : State) : (s.modTrace f).pow = s.pow := rfl
@[simp] theorem State.modTrace_time (f : TraceUnit → TraceUnit) (s : State) : (s.modTrace f).time = s.time := rfl
@[simp] theorem State.modTrace_coll (f : TraceUnit → TraceUnit) (s : State) : (s.modTrace f).coll = s.coll := rfl
@[simp] theorem State.modTrace_hop (f : TraceUnit → TraceUnit) (s : State) : (s.modTrace f).hop = s.hop := rfl
@[simp] theorem State.modTrace_hall (f : TraceUnit → TraceUnit) (s : State) : (s.modTrace f).hall = s.hall := rfl
@[simp] theorem State.modTrace_cmd (f : TraceUnit → TraceUnit) (s : State) : (s.modTrace f).cmd = s.cmd := rfl
@[simp] theorem State.modTrace_crown (f : TraceUnit → TraceUnit) (s : State) : (s.modTrace f).crown = s.crown := rfl
@[simp] theorem State.modTrace_model (f : TraceUnit → TraceUnit) (s : State) : (s.modTrace f).model = s.model := rfl
@[simp] theorem State.modTrace_verd (f : TraceUnit → TraceUnit) (s : State) : (s.modTrace f).verd = s.verd := rfl
@[simp] theorem State.modTrace_sentry (f : TraceUnit → TraceUnit) (s : State) : (s.modTrace f).sentry = s.sentry := rfl
@[simp] theorem State.modTrace_trace (f : TraceUnit → TraceUnit) (s : State) : (s.modTrace f).trace = f s.trace := rfl
@[simp] theorem State.modTrace_brake (f : TraceUnit → TraceUnit) (s : State) : (s.modTrace f).brake = s.brake := rfl
@[simp] theorem State.modTrace_test (f : TraceUnit → TraceUnit) (s : State) : (s.modTrace f).test = s.test := rfl
@[simp] theorem State.modTrace_gov (f : TraceUnit → TraceUnit) (s : State) : (s.modTrace f).gov = s.gov := rfl
@[simp] theorem State.modTrace_temper (f : TraceUnit → TraceUnit) (s : State) : (s.modTrace f).temper = s.temper := rfl
@[simp] theorem State.modTrace_metro (f : TraceUnit → TraceUnit) (s : State) : (s.modTrace f).metro = s.metro := rfl
@[simp] theorem State.modTrace_assay (f : TraceUnit → TraceUnit) (s : State) : (s.modTrace f).assay = s.assay := rfl
@[simp] theorem State.modTrace_flash (f : TraceUnit → TraceUnit) (s : State) : (s.modTrace f).flash = s.flash := rfl
@[simp] theorem State.modTrace_conf (f : TraceUnit → TraceUnit) (s : State) : (s.modTrace f).conf = s.conf := rfl
@[simp] theorem State.modTrace_hoist (f : TraceUnit → TraceUnit) (s : State) : (s.modTrace f).hoist = s.hoist := rfl
@[simp] theorem State.modTrace_outs (f : TraceUnit → TraceUnit) (s : State) : (s.modTrace f).outs = s.outs := rfl
@[simp] theorem State.modTrace_pending (f : TraceUnit → TraceUnit) (s : State) : (s.modTrace f).pending = s.pending := rfl

@[simp] theorem State.modBrake_sys (f : BrakeUnit → BrakeUnit) (s : State) : (s.modBrake f).sys = s.sys := rfl
@[simp] theorem State.modBrake_pow (f : BrakeUnit → BrakeUnit) (s : State) : (s.modBrake f).pow = s.pow := rfl
@[simp] theorem State.modBrake_time (f : BrakeUnit → BrakeUnit) (s : State) : (s.modBrake f).time = s.time := rfl
@[simp] theorem State.modBrake_coll (f : BrakeUnit → BrakeUnit) (s : State) : (s.modBrake f).coll = s.coll := rfl
@[simp] theorem State.modBrake_hop (f : BrakeUnit → BrakeUnit) (s : State) : (s.modBrake f).hop = s.hop := rfl
@[simp] theorem State.modBrake_hall (f : BrakeUnit → BrakeUnit) (s : State) : (s.modBrake f).hall = s.hall := rfl
@[simp] theorem State.modBrake_cmd (f : BrakeUnit → BrakeUnit) (s : State) : (s.modBrake f).cmd = s.cmd := rfl
@[simp] theorem State.modBrake_crown (f : BrakeUnit → BrakeUnit) (s : State) : (s.modBrake f).crown = s.crown := rfl
@[simp] theorem State.modBrake_model (f : BrakeUnit → BrakeUnit) (s : State) : (s.modBrake f).model = s.model := rfl
@[simp] theorem State.modBrake_verd (f : BrakeUnit → BrakeUnit) (s : State) : (s.modBrake f).verd = s.verd := rfl
@[simp] theorem State.modBrake_sentry (f : BrakeUnit → BrakeUnit) (s : State) : (s.modBrake f).sentry = s.sentry := rfl
@[simp] theorem State.modBrake_trace (f : BrakeUnit → BrakeUnit) (s : State) : (s.modBrake f).trace = s.trace := rfl
@[simp] theorem State.modBrake_brake (f : BrakeUnit → BrakeUnit) (s : State) : (s.modBrake f).brake = f s.brake := rfl
@[simp] theorem State.modBrake_test (f : BrakeUnit → BrakeUnit) (s : State) : (s.modBrake f).test = s.test := rfl
@[simp] theorem State.modBrake_gov (f : BrakeUnit → BrakeUnit) (s : State) : (s.modBrake f).gov = s.gov := rfl
@[simp] theorem State.modBrake_temper (f : BrakeUnit → BrakeUnit) (s : State) : (s.modBrake f).temper = s.temper := rfl
@[simp] theorem State.modBrake_metro (f : BrakeUnit → BrakeUnit) (s : State) : (s.modBrake f).metro = s.metro := rfl
@[simp] theorem State.modBrake_assay (f : BrakeUnit → BrakeUnit) (s : State) : (s.modBrake f).assay = s.assay := rfl
@[simp] theorem State.modBrake_flash (f : BrakeUnit → BrakeUnit) (s : State) : (s.modBrake f).flash = s.flash := rfl
@[simp] theorem State.modBrake_conf (f : BrakeUnit → BrakeUnit) (s : State) : (s.modBrake f).conf = s.conf := rfl
@[simp] theorem State.modBrake_hoist (f : BrakeUnit → BrakeUnit) (s : State) : (s.modBrake f).hoist = s.hoist := rfl
@[simp] theorem State.modBrake_outs (f : BrakeUnit → BrakeUnit) (s : State) : (s.modBrake f).outs = s.outs := rfl
@[simp] theorem State.modBrake_pending (f : BrakeUnit → BrakeUnit) (s : State) : (s.modBrake f).pending = s.pending := rfl

@[simp] theorem State.modTest_sys (f : TestUnit → TestUnit) (s : State) : (s.modTest f).sys = s.sys := rfl
@[simp] theorem State.modTest_pow (f : TestUnit → TestUnit) (s : State) : (s.modTest f).pow = s.pow := rfl
@[simp] theorem State.modTest_time (f : TestUnit → TestUnit) (s : State) : (s.modTest f).time = s.time := rfl
@[simp] theorem State.modTest_coll (f : TestUnit → TestUnit) (s : State) : (s.modTest f).coll = s.coll := rfl
@[simp] theorem State.modTest_hop (f : TestUnit → TestUnit) (s : State) : (s.modTest f).hop = s.hop := rfl
@[simp] theorem State.modTest_hall (f : TestUnit → TestUnit) (s : State) : (s.modTest f).hall = s.hall := rfl
@[simp] theorem State.modTest_cmd (f : TestUnit → TestUnit) (s : State) : (s.modTest f).cmd = s.cmd := rfl
@[simp] theorem State.modTest_crown (f : TestUnit → TestUnit) (s : State) : (s.modTest f).crown = s.crown := rfl
@[simp] theorem State.modTest_model (f : TestUnit → TestUnit) (s : State) : (s.modTest f).model = s.model := rfl
@[simp] theorem State.modTest_verd (f : TestUnit → TestUnit) (s : State) : (s.modTest f).verd = s.verd := rfl
@[simp] theorem State.modTest_sentry (f : TestUnit → TestUnit) (s : State) : (s.modTest f).sentry = s.sentry := rfl
@[simp] theorem State.modTest_trace (f : TestUnit → TestUnit) (s : State) : (s.modTest f).trace = s.trace := rfl
@[simp] theorem State.modTest_brake (f : TestUnit → TestUnit) (s : State) : (s.modTest f).brake = s.brake := rfl
@[simp] theorem State.modTest_test (f : TestUnit → TestUnit) (s : State) : (s.modTest f).test = f s.test := rfl
@[simp] theorem State.modTest_gov (f : TestUnit → TestUnit) (s : State) : (s.modTest f).gov = s.gov := rfl
@[simp] theorem State.modTest_temper (f : TestUnit → TestUnit) (s : State) : (s.modTest f).temper = s.temper := rfl
@[simp] theorem State.modTest_metro (f : TestUnit → TestUnit) (s : State) : (s.modTest f).metro = s.metro := rfl
@[simp] theorem State.modTest_assay (f : TestUnit → TestUnit) (s : State) : (s.modTest f).assay = s.assay := rfl
@[simp] theorem State.modTest_flash (f : TestUnit → TestUnit) (s : State) : (s.modTest f).flash = s.flash := rfl
@[simp] theorem State.modTest_conf (f : TestUnit → TestUnit) (s : State) : (s.modTest f).conf = s.conf := rfl
@[simp] theorem State.modTest_hoist (f : TestUnit → TestUnit) (s : State) : (s.modTest f).hoist = s.hoist := rfl
@[simp] theorem State.modTest_outs (f : TestUnit → TestUnit) (s : State) : (s.modTest f).outs = s.outs := rfl
@[simp] theorem State.modTest_pending (f : TestUnit → TestUnit) (s : State) : (s.modTest f).pending = s.pending := rfl

@[simp] theorem State.modGov_sys (f : GovUnit → GovUnit) (s : State) : (s.modGov f).sys = s.sys := rfl
@[simp] theorem State.modGov_pow (f : GovUnit → GovUnit) (s : State) : (s.modGov f).pow = s.pow := rfl
@[simp] theorem State.modGov_time (f : GovUnit → GovUnit) (s : State) : (s.modGov f).time = s.time := rfl
@[simp] theorem State.modGov_coll (f : GovUnit → GovUnit) (s : State) : (s.modGov f).coll = s.coll := rfl
@[simp] theorem State.modGov_hop (f : GovUnit → GovUnit) (s : State) : (s.modGov f).hop = s.hop := rfl
@[simp] theorem State.modGov_hall (f : GovUnit → GovUnit) (s : State) : (s.modGov f).hall = s.hall := rfl
@[simp] theorem State.modGov_cmd (f : GovUnit → GovUnit) (s : State) : (s.modGov f).cmd = s.cmd := rfl
@[simp] theorem State.modGov_crown (f : GovUnit → GovUnit) (s : State) : (s.modGov f).crown = s.crown := rfl
@[simp] theorem State.modGov_model (f : GovUnit → GovUnit) (s : State) : (s.modGov f).model = s.model := rfl
@[simp] theorem State.modGov_verd (f : GovUnit → GovUnit) (s : State) : (s.modGov f).verd = s.verd := rfl
@[simp] theorem State.modGov_sentry (f : GovUnit → GovUnit) (s : State) : (s.modGov f).sentry = s.sentry := rfl
@[simp] theorem State.modGov_trace (f : GovUnit → GovUnit) (s : State) : (s.modGov f).trace = s.trace := rfl
@[simp] theorem State.modGov_brake (f : GovUnit → GovUnit) (s : State) : (s.modGov f).brake = s.brake := rfl
@[simp] theorem State.modGov_test (f : GovUnit → GovUnit) (s : State) : (s.modGov f).test = s.test := rfl
@[simp] theorem State.modGov_gov (f : GovUnit → GovUnit) (s : State) : (s.modGov f).gov = f s.gov := rfl
@[simp] theorem State.modGov_temper (f : GovUnit → GovUnit) (s : State) : (s.modGov f).temper = s.temper := rfl
@[simp] theorem State.modGov_metro (f : GovUnit → GovUnit) (s : State) : (s.modGov f).metro = s.metro := rfl
@[simp] theorem State.modGov_assay (f : GovUnit → GovUnit) (s : State) : (s.modGov f).assay = s.assay := rfl
@[simp] theorem State.modGov_flash (f : GovUnit → GovUnit) (s : State) : (s.modGov f).flash = s.flash := rfl
@[simp] theorem State.modGov_conf (f : GovUnit → GovUnit) (s : State) : (s.modGov f).conf = s.conf := rfl
@[simp] theorem State.modGov_hoist (f : GovUnit → GovUnit) (s : State) : (s.modGov f).hoist = s.hoist := rfl
@[simp] theorem State.modGov_outs (f : GovUnit → GovUnit) (s : State) : (s.modGov f).outs = s.outs := rfl
@[simp] theorem State.modGov_pending (f : GovUnit → GovUnit) (s : State) : (s.modGov f).pending = s.pending := rfl

@[simp] theorem State.modTemper_sys (f : TemperUnit → TemperUnit) (s : State) : (s.modTemper f).sys = s.sys := rfl
@[simp] theorem State.modTemper_pow (f : TemperUnit → TemperUnit) (s : State) : (s.modTemper f).pow = s.pow := rfl
@[simp] theorem State.modTemper_time (f : TemperUnit → TemperUnit) (s : State) : (s.modTemper f).time = s.time := rfl
@[simp] theorem State.modTemper_coll (f : TemperUnit → TemperUnit) (s : State) : (s.modTemper f).coll = s.coll := rfl
@[simp] theorem State.modTemper_hop (f : TemperUnit → TemperUnit) (s : State) : (s.modTemper f).hop = s.hop := rfl
@[simp] theorem State.modTemper_hall (f : TemperUnit → TemperUnit) (s : State) : (s.modTemper f).hall = s.hall := rfl
@[simp] theorem State.modTemper_cmd (f : TemperUnit → TemperUnit) (s : State) : (s.modTemper f).cmd = s.cmd := rfl
@[simp] theorem State.modTemper_crown (f : TemperUnit → TemperUnit) (s : State) : (s.modTemper f).crown = s.crown := rfl
@[simp] theorem State.modTemper_model (f : TemperUnit → TemperUnit) (s : State) : (s.modTemper f).model = s.model := rfl
@[simp] theorem State.modTemper_verd (f : TemperUnit → TemperUnit) (s : State) : (s.modTemper f).verd = s.verd := rfl
@[simp] theorem State.modTemper_sentry (f : TemperUnit → TemperUnit) (s : State) : (s.modTemper f).sentry = s.sentry := rfl
@[simp] theorem State.modTemper_trace (f : TemperUnit → TemperUnit) (s : State) : (s.modTemper f).trace = s.trace := rfl
@[simp] theorem State.modTemper_brake (f : TemperUnit → TemperUnit) (s : State) : (s.modTemper f).brake = s.brake := rfl
@[simp] theorem State.modTemper_test (f : TemperUnit → TemperUnit) (s : State) : (s.modTemper f).test = s.test := rfl
@[simp] theorem State.modTemper_gov (f : TemperUnit → TemperUnit) (s : State) : (s.modTemper f).gov = s.gov := rfl
@[simp] theorem State.modTemper_temper (f : TemperUnit → TemperUnit) (s : State) : (s.modTemper f).temper = f s.temper := rfl
@[simp] theorem State.modTemper_metro (f : TemperUnit → TemperUnit) (s : State) : (s.modTemper f).metro = s.metro := rfl
@[simp] theorem State.modTemper_assay (f : TemperUnit → TemperUnit) (s : State) : (s.modTemper f).assay = s.assay := rfl
@[simp] theorem State.modTemper_flash (f : TemperUnit → TemperUnit) (s : State) : (s.modTemper f).flash = s.flash := rfl
@[simp] theorem State.modTemper_conf (f : TemperUnit → TemperUnit) (s : State) : (s.modTemper f).conf = s.conf := rfl
@[simp] theorem State.modTemper_hoist (f : TemperUnit → TemperUnit) (s : State) : (s.modTemper f).hoist = s.hoist := rfl
@[simp] theorem State.modTemper_outs (f : TemperUnit → TemperUnit) (s : State) : (s.modTemper f).outs = s.outs := rfl
@[simp] theorem State.modTemper_pending (f : TemperUnit → TemperUnit) (s : State) : (s.modTemper f).pending = s.pending := rfl

@[simp] theorem State.modMetro_sys (f : MetroUnit → MetroUnit) (s : State) : (s.modMetro f).sys = s.sys := rfl
@[simp] theorem State.modMetro_pow (f : MetroUnit → MetroUnit) (s : State) : (s.modMetro f).pow = s.pow := rfl
@[simp] theorem State.modMetro_time (f : MetroUnit → MetroUnit) (s : State) : (s.modMetro f).time = s.time := rfl
@[simp] theorem State.modMetro_coll (f : MetroUnit → MetroUnit) (s : State) : (s.modMetro f).coll = s.coll := rfl
@[simp] theorem State.modMetro_hop (f : MetroUnit → MetroUnit) (s : State) : (s.modMetro f).hop = s.hop := rfl
@[simp] theorem State.modMetro_hall (f : MetroUnit → MetroUnit) (s : State) : (s.modMetro f).hall = s.hall := rfl
@[simp] theorem State.modMetro_cmd (f : MetroUnit → MetroUnit) (s : State) : (s.modMetro f).cmd = s.cmd := rfl
@[simp] theorem State.modMetro_crown (f : MetroUnit → MetroUnit) (s : State) : (s.modMetro f).crown = s.crown := rfl
@[simp] theorem State.modMetro_model (f : MetroUnit → MetroUnit) (s : State) : (s.modMetro f).model = s.model := rfl
@[simp] theorem State.modMetro_verd (f : MetroUnit → MetroUnit) (s : State) : (s.modMetro f).verd = s.verd := rfl
@[simp] theorem State.modMetro_sentry (f : MetroUnit → MetroUnit) (s : State) : (s.modMetro f).sentry = s.sentry := rfl
@[simp] theorem State.modMetro_trace (f : MetroUnit → MetroUnit) (s : State) : (s.modMetro f).trace = s.trace := rfl
@[simp] theorem State.modMetro_brake (f : MetroUnit → MetroUnit) (s : State) : (s.modMetro f).brake = s.brake := rfl
@[simp] theorem State.modMetro_test (f : MetroUnit → MetroUnit) (s : State) : (s.modMetro f).test = s.test := rfl
@[simp] theorem State.modMetro_gov (f : MetroUnit → MetroUnit) (s : State) : (s.modMetro f).gov = s.gov := rfl
@[simp] theorem State.modMetro_temper (f : MetroUnit → MetroUnit) (s : State) : (s.modMetro f).temper = s.temper := rfl
@[simp] theorem State.modMetro_metro (f : MetroUnit → MetroUnit) (s : State) : (s.modMetro f).metro = f s.metro := rfl
@[simp] theorem State.modMetro_assay (f : MetroUnit → MetroUnit) (s : State) : (s.modMetro f).assay = s.assay := rfl
@[simp] theorem State.modMetro_flash (f : MetroUnit → MetroUnit) (s : State) : (s.modMetro f).flash = s.flash := rfl
@[simp] theorem State.modMetro_conf (f : MetroUnit → MetroUnit) (s : State) : (s.modMetro f).conf = s.conf := rfl
@[simp] theorem State.modMetro_hoist (f : MetroUnit → MetroUnit) (s : State) : (s.modMetro f).hoist = s.hoist := rfl
@[simp] theorem State.modMetro_outs (f : MetroUnit → MetroUnit) (s : State) : (s.modMetro f).outs = s.outs := rfl
@[simp] theorem State.modMetro_pending (f : MetroUnit → MetroUnit) (s : State) : (s.modMetro f).pending = s.pending := rfl

@[simp] theorem State.modAssay_sys (f : AssayAo → AssayAo) (s : State) : (s.modAssay f).sys = s.sys := rfl
@[simp] theorem State.modAssay_pow (f : AssayAo → AssayAo) (s : State) : (s.modAssay f).pow = s.pow := rfl
@[simp] theorem State.modAssay_time (f : AssayAo → AssayAo) (s : State) : (s.modAssay f).time = s.time := rfl
@[simp] theorem State.modAssay_coll (f : AssayAo → AssayAo) (s : State) : (s.modAssay f).coll = s.coll := rfl
@[simp] theorem State.modAssay_hop (f : AssayAo → AssayAo) (s : State) : (s.modAssay f).hop = s.hop := rfl
@[simp] theorem State.modAssay_hall (f : AssayAo → AssayAo) (s : State) : (s.modAssay f).hall = s.hall := rfl
@[simp] theorem State.modAssay_cmd (f : AssayAo → AssayAo) (s : State) : (s.modAssay f).cmd = s.cmd := rfl
@[simp] theorem State.modAssay_crown (f : AssayAo → AssayAo) (s : State) : (s.modAssay f).crown = s.crown := rfl
@[simp] theorem State.modAssay_model (f : AssayAo → AssayAo) (s : State) : (s.modAssay f).model = s.model := rfl
@[simp] theorem State.modAssay_verd (f : AssayAo → AssayAo) (s : State) : (s.modAssay f).verd = s.verd := rfl
@[simp] theorem State.modAssay_sentry (f : AssayAo → AssayAo) (s : State) : (s.modAssay f).sentry = s.sentry := rfl
@[simp] theorem State.modAssay_trace (f : AssayAo → AssayAo) (s : State) : (s.modAssay f).trace = s.trace := rfl
@[simp] theorem State.modAssay_brake (f : AssayAo → AssayAo) (s : State) : (s.modAssay f).brake = s.brake := rfl
@[simp] theorem State.modAssay_test (f : AssayAo → AssayAo) (s : State) : (s.modAssay f).test = s.test := rfl
@[simp] theorem State.modAssay_gov (f : AssayAo → AssayAo) (s : State) : (s.modAssay f).gov = s.gov := rfl
@[simp] theorem State.modAssay_temper (f : AssayAo → AssayAo) (s : State) : (s.modAssay f).temper = s.temper := rfl
@[simp] theorem State.modAssay_metro (f : AssayAo → AssayAo) (s : State) : (s.modAssay f).metro = s.metro := rfl
@[simp] theorem State.modAssay_assay (f : AssayAo → AssayAo) (s : State) : (s.modAssay f).assay = f s.assay := rfl
@[simp] theorem State.modAssay_flash (f : AssayAo → AssayAo) (s : State) : (s.modAssay f).flash = s.flash := rfl
@[simp] theorem State.modAssay_conf (f : AssayAo → AssayAo) (s : State) : (s.modAssay f).conf = s.conf := rfl
@[simp] theorem State.modAssay_hoist (f : AssayAo → AssayAo) (s : State) : (s.modAssay f).hoist = s.hoist := rfl
@[simp] theorem State.modAssay_outs (f : AssayAo → AssayAo) (s : State) : (s.modAssay f).outs = s.outs := rfl
@[simp] theorem State.modAssay_pending (f : AssayAo → AssayAo) (s : State) : (s.modAssay f).pending = s.pending := rfl

@[simp] theorem State.modFlash_sys (f : FlashUnit → FlashUnit) (s : State) : (s.modFlash f).sys = s.sys := rfl
@[simp] theorem State.modFlash_pow (f : FlashUnit → FlashUnit) (s : State) : (s.modFlash f).pow = s.pow := rfl
@[simp] theorem State.modFlash_time (f : FlashUnit → FlashUnit) (s : State) : (s.modFlash f).time = s.time := rfl
@[simp] theorem State.modFlash_coll (f : FlashUnit → FlashUnit) (s : State) : (s.modFlash f).coll = s.coll := rfl
@[simp] theorem State.modFlash_hop (f : FlashUnit → FlashUnit) (s : State) : (s.modFlash f).hop = s.hop := rfl
@[simp] theorem State.modFlash_hall (f : FlashUnit → FlashUnit) (s : State) : (s.modFlash f).hall = s.hall := rfl
@[simp] theorem State.modFlash_cmd (f : FlashUnit → FlashUnit) (s : State) : (s.modFlash f).cmd = s.cmd := rfl
@[simp] theorem State.modFlash_crown (f : FlashUnit → FlashUnit) (s : State) : (s.modFlash f).crown = s.crown := rfl
@[simp] theorem State.modFlash_model (f : FlashUnit → FlashUnit) (s : State) : (s.modFlash f).model = s.model := rfl
@[simp] theorem State.modFlash_verd (f : FlashUnit → FlashUnit) (s : State) : (s.modFlash f).verd = s.verd := rfl
@[simp] theorem State.modFlash_sentry (f : FlashUnit → FlashUnit) (s : State) : (s.modFlash f).sentry = s.sentry := rfl
@[simp] theorem State.modFlash_trace (f : FlashUnit → FlashUnit) (s : State) : (s.modFlash f).trace = s.trace := rfl
@[simp] theorem State.modFlash_brake (f : FlashUnit → FlashUnit) (s : State) : (s.modFlash f).brake = s.brake := rfl
@[simp] theorem State.modFlash_test (f : FlashUnit → FlashUnit) (s : State) : (s.modFlash f).test = s.test := rfl
@[simp] theorem State.modFlash_gov (f : FlashUnit → FlashUnit) (s : State) : (s.modFlash f).gov = s.gov := rfl
@[simp] theorem State.modFlash_temper (f : FlashUnit → FlashUnit) (s : State) : (s.modFlash f).temper = s.temper := rfl
@[simp] theorem State.modFlash_metro (f : FlashUnit → FlashUnit) (s : State) : (s.modFlash f).metro = s.metro := rfl
@[simp] theorem State.modFlash_assay (f : FlashUnit → FlashUnit) (s : State) : (s.modFlash f).assay = s.assay := rfl
@[simp] theorem State.modFlash_flash (f : FlashUnit → FlashUnit) (s : State) : (s.modFlash f).flash = f s.flash := rfl
@[simp] theorem State.modFlash_conf (f : FlashUnit → FlashUnit) (s : State) : (s.modFlash f).conf = s.conf := rfl
@[simp] theorem State.modFlash_hoist (f : FlashUnit → FlashUnit) (s : State) : (s.modFlash f).hoist = s.hoist := rfl
@[simp] theorem State.modFlash_outs (f : FlashUnit → FlashUnit) (s : State) : (s.modFlash f).outs = s.outs := rfl
@[simp] theorem State.modFlash_pending (f : FlashUnit → FlashUnit) (s : State) : (s.modFlash f).pending = s.pending := rfl

@[simp] theorem State.modConf_sys (f : ConfUnit → ConfUnit) (s : State) : (s.modConf f).sys = s.sys := rfl
@[simp] theorem State.modConf_pow (f : ConfUnit → ConfUnit) (s : State) : (s.modConf f).pow = s.pow := rfl
@[simp] theorem State.modConf_time (f : ConfUnit → ConfUnit) (s : State) : (s.modConf f).time = s.time := rfl
@[simp] theorem State.modConf_coll (f : ConfUnit → ConfUnit) (s : State) : (s.modConf f).coll = s.coll := rfl
@[simp] theorem State.modConf_hop (f : ConfUnit → ConfUnit) (s : State) : (s.modConf f).hop = s.hop := rfl
@[simp] theorem State.modConf_hall (f : ConfUnit → ConfUnit) (s : State) : (s.modConf f).hall = s.hall := rfl
@[simp] theorem State.modConf_cmd (f : ConfUnit → ConfUnit) (s : State) : (s.modConf f).cmd = s.cmd := rfl
@[simp] theorem State.modConf_crown (f : ConfUnit → ConfUnit) (s : State) : (s.modConf f).crown = s.crown := rfl
@[simp] theorem State.modConf_model (f : ConfUnit → ConfUnit) (s : State) : (s.modConf f).model = s.model := rfl
@[simp] theorem State.modConf_verd (f : ConfUnit → ConfUnit) (s : State) : (s.modConf f).verd = s.verd := rfl
@[simp] theorem State.modConf_sentry (f : ConfUnit → ConfUnit) (s : State) : (s.modConf f).sentry = s.sentry := rfl
@[simp] theorem State.modConf_trace (f : ConfUnit → ConfUnit) (s : State) : (s.modConf f).trace = s.trace := rfl
@[simp] theorem State.modConf_brake (f : ConfUnit → ConfUnit) (s : State) : (s.modConf f).brake = s.brake := rfl
@[simp] theorem State.modConf_test (f : ConfUnit → ConfUnit) (s : State) : (s.modConf f).test = s.test := rfl
@[simp] theorem State.modConf_gov (f : ConfUnit → ConfUnit) (s : State) : (s.modConf f).gov = s.gov := rfl
@[simp] theorem State.modConf_temper (f : ConfUnit → ConfUnit) (s : State) : (s.modConf f).temper = s.temper := rfl
@[simp] theorem State.modConf_metro (f : ConfUnit → ConfUnit) (s : State) : (s.modConf f).metro = s.metro := rfl
@[simp] theorem State.modConf_assay (f : ConfUnit → ConfUnit) (s : State) : (s.modConf f).assay = s.assay := rfl
@[simp] theorem State.modConf_flash (f : ConfUnit → ConfUnit) (s : State) : (s.modConf f).flash = s.flash := rfl
@[simp] theorem State.modConf_conf (f : ConfUnit → ConfUnit) (s : State) : (s.modConf f).conf = f s.conf := rfl
@[simp] theorem State.modConf_hoist (f : ConfUnit → ConfUnit) (s : State) : (s.modConf f).hoist = s.hoist := rfl
@[simp] theorem State.modConf_outs (f : ConfUnit → ConfUnit) (s : State) : (s.modConf f).outs = s.outs := rfl
@[simp] theorem State.modConf_pending (f : ConfUnit → ConfUnit) (s : State) : (s.modConf f).pending = s.pending := rfl

@[simp] theorem State.modHoist_sys (f : HoistUnit → HoistUnit) (s : State) : (s.modHoist f).sys = s.sys := rfl
@[simp] theorem State.modHoist_pow (f : HoistUnit → HoistUnit) (s : State) : (s.modHoist f).pow = s.pow := rfl
@[simp] theorem State.modHoist_time (f : HoistUnit → HoistUnit) (s : State) : (s.modHoist f).time = s.time := rfl
@[simp] theorem State.modHoist_coll (f : HoistUnit → HoistUnit) (s : State) : (s.modHoist f).coll = s.coll := rfl
@[simp] theorem State.modHoist_hop (f : HoistUnit → HoistUnit) (s : State) : (s.modHoist f).hop = s.hop := rfl
@[simp] theorem State.modHoist_hall (f : HoistUnit → HoistUnit) (s : State) : (s.modHoist f).hall = s.hall := rfl
@[simp] theorem State.modHoist_cmd (f : HoistUnit → HoistUnit) (s : State) : (s.modHoist f).cmd = s.cmd := rfl
@[simp] theorem State.modHoist_crown (f : HoistUnit → HoistUnit) (s : State) : (s.modHoist f).crown = s.crown := rfl
@[simp] theorem State.modHoist_model (f : HoistUnit → HoistUnit) (s : State) : (s.modHoist f).model = s.model := rfl
@[simp] theorem State.modHoist_verd (f : HoistUnit → HoistUnit) (s : State) : (s.modHoist f).verd = s.verd := rfl
@[simp] theorem State.modHoist_sentry (f : HoistUnit → HoistUnit) (s : State) : (s.modHoist f).sentry = s.sentry := rfl
@[simp] theorem State.modHoist_trace (f : HoistUnit → HoistUnit) (s : State) : (s.modHoist f).trace = s.trace := rfl
@[simp] theorem State.modHoist_brake (f : HoistUnit → HoistUnit) (s : State) : (s.modHoist f).brake = s.brake := rfl
@[simp] theorem State.modHoist_test (f : HoistUnit → HoistUnit) (s : State) : (s.modHoist f).test = s.test := rfl
@[simp] theorem State.modHoist_gov (f : HoistUnit → HoistUnit) (s : State) : (s.modHoist f).gov = s.gov := rfl
@[simp] theorem State.modHoist_temper (f : HoistUnit → HoistUnit) (s : State) : (s.modHoist f).temper = s.temper := rfl
@[simp] theorem State.modHoist_metro (f : HoistUnit → HoistUnit) (s : State) : (s.modHoist f).metro = s.metro := rfl
@[simp] theorem State.modHoist_assay (f : HoistUnit → HoistUnit) (s : State) : (s.modHoist f).assay = s.assay := rfl
@[simp] theorem State.modHoist_flash (f : HoistUnit → HoistUnit) (s : State) : (s.modHoist f).flash = s.flash := rfl
@[simp] theorem State.modHoist_conf (f : HoistUnit → HoistUnit) (s : State) : (s.modHoist f).conf = s.conf := rfl
@[simp] theorem State.modHoist_hoist (f : HoistUnit → HoistUnit) (s : State) : (s.modHoist f).hoist = f s.hoist := rfl
@[simp] theorem State.modHoist_outs (f : HoistUnit → HoistUnit) (s : State) : (s.modHoist f).outs = s.outs := rfl
@[simp] theorem State.modHoist_pending (f : HoistUnit → HoistUnit) (s : State) : (s.modHoist f).pending = s.pending := rfl

@[simp] theorem State.emit_sys (o : Out) (s : State) : (s.emit o).sys = s.sys := rfl
@[simp] theorem State.emit_pow (o : Out) (s : State) : (s.emit o).pow = s.pow := rfl
@[simp] theorem State.emit_time (o : Out) (s : State) : (s.emit o).time = s.time := rfl
@[simp] theorem State.emit_coll (o : Out) (s : State) : (s.emit o).coll = s.coll := rfl
@[simp] theorem State.emit_hop (o : Out) (s : State) : (s.emit o).hop = s.hop := rfl
@[simp] theorem State.emit_hall (o : Out) (s : State) : (s.emit o).hall = s.hall := rfl
@[simp] theorem State.emit_cmd (o : Out) (s : State) : (s.emit o).cmd = s.cmd := rfl
@[simp] theorem State.emit_crown (o : Out) (s : State) : (s.emit o).crown = s.crown := rfl
@[simp] theorem State.emit_model (o : Out) (s : State) : (s.emit o).model = s.model := rfl
@[simp] theorem State.emit_verd (o : Out) (s : State) : (s.emit o).verd = s.verd := rfl
@[simp] theorem State.emit_sentry (o : Out) (s : State) : (s.emit o).sentry = s.sentry := rfl
@[simp] theorem State.emit_trace (o : Out) (s : State) : (s.emit o).trace = s.trace := rfl
@[simp] theorem State.emit_brake (o : Out) (s : State) : (s.emit o).brake = s.brake := rfl
@[simp] theorem State.emit_test (o : Out) (s : State) : (s.emit o).test = s.test := rfl
@[simp] theorem State.emit_gov (o : Out) (s : State) : (s.emit o).gov = s.gov := rfl
@[simp] theorem State.emit_temper (o : Out) (s : State) : (s.emit o).temper = s.temper := rfl
@[simp] theorem State.emit_metro (o : Out) (s : State) : (s.emit o).metro = s.metro := rfl
@[simp] theorem State.emit_assay (o : Out) (s : State) : (s.emit o).assay = s.assay := rfl
@[simp] theorem State.emit_flash (o : Out) (s : State) : (s.emit o).flash = s.flash := rfl
@[simp] theorem State.emit_conf (o : Out) (s : State) : (s.emit o).conf = s.conf := rfl
@[simp] theorem State.emit_hoist (o : Out) (s : State) : (s.emit o).hoist = s.hoist := rfl
@[simp] theorem State.emit_outs (o : Out) (s : State) : (s.emit o).outs = o :: s.outs := rfl
@[simp] theorem State.emit_pending (o : Out) (s : State) : (s.emit o).pending = s.pending := rfl

end Sys2Proof.Machine
end

