-- ==== Sys2Proof/WellFormed.lean ====
section
/-! DEFINITION. Which commands the ports of the block can present: the shapes of packets, records, frames and port traffic. A meaning
asks none of these of its command; it answers for every term. -/

namespace Sys2Proof

/-- A command packet: 56 parameter bytes (Table 16.2); inline data only where the path carries it inline, and at most 61,440 bytes of
it (R405). -/
def cmdWf (c : Cmd) : Bool :=
  decide (c.params.length = 56) && decide (c.inl.length ≤ 61440) && (match c.path with | .localQueue => c.inl.isEmpty | _ => true)

/-- A record of 1 to 32 cells whose body fills it (R98, Table 4.1). -/
def recWf (r : Rec) : Bool :=
  decide (1 ≤ r.cells.toNat) && decide (r.cells.toNat ≤ 32) && decide (r.body.length = 64 * r.cells.toNat - 20)

/-- A trace packet: the NW field of its header counts its payload words (Table 12.1). -/
def trcWf (p : TrcPacket) : Bool := decide (p.words.length = (p.header.toNat / 2 ^ 42) % 64)

/-- A frame is not empty, and ends at a byte of its last flit (R466). -/
def frameWf (bytes : List Byte) : Bool := !bytes.isEmpty

/-- A snoop frame has a byte count that SNP_BLEN can carry (R468). -/
def snoopWf (f : Snoop) : Bool := decide (f.data.length < 65536)

/-- A queue entry has 64 bytes on the local pair and 128 on the fabric pair (R386, Table 16.22). -/
def entryWf (fab : Bool) (e : Option (List Byte)) : Bool :=
  match e with
  | some b => decide (b.length = if fab then 128 else 64)
  | none => true

/-- The commands that the ports can present. -/
def Instr.wf : Instr → Bool
  | .pgAoAssert _ _ _ _ | .restoreDone | .pgAoDeassert | .pgMetroAssert _ | .pgMetroDeassert | .rstHostNAssert
  | .rstWarmNAssert | .rstWarmNRelease | .resetRelease _ | .refclkLoss | .refclkReturn | .epochPulse | .syncReceived _
  | .followUpReceived _ | .delayRespReceived _ | .announceReceived _ | .delayReq | .syncTimeout | .discConditionedChange _ _
  | .chatterWindowEnd _ | .stuckTimeout _ | .hbPinBeat | .pwrReqChange _ | .linkUpRise _ _ _ | .linkUpFall _
  | .creditReturn _ _ | .linkErrorPulse _ | .insertionSlot _ _ _ | .stampPair _ _ _ _ | .sideReadTimeout | .assayConversion
  | .assaySamplePair _ _ | .assayPairMissing | .assayReadoutFrame | .heartbeatWrite _ | .cqTailWrite _ _ | .rqHeadWrite _ _
  | .queuePairEnable _ _ _ | .queuePairDisable _ | .tsTb0LoRead _ | .intEnableWrite _ | .replyWriteFail _
  | .asyncCommandDone _ _ | .cmdRetryExpiry _ _ | .seqGapSkip _ _ | .domainResetStart | .joinTimeout | .fabJoinRepeat
  | .ackTimerExpiry _ _ | .resendAckTimerExpiry _ _ | .chunkWritten _ | .hoistRtoExpiry | .hoistWaitExpiry | .startReqTimeout
  | .startGrantExpiry | .grantMessage _ | .reportMessage _ _ | .plan _ _ _ | .planAck _ | .grantPeriodStart | .phase2Start
  | .glToExpiry | .memberSilent _ | .silentAccountRelease _ | .reportInterval | .grantRecBoundary | .planHoldRelease _ _
  | .tmPeriodBoundary _ | .temperMeasurementDone _ _ _ | .sampleBoundary _ _ | .residWaitExpiry _ | .reconcilePeriod _
  | .epochRecordInterval _ | .frameSelection _ _ | .fwdFrameStale _ _ | .creditTimerExpiry _ | .shaperRefill | .sluiceRefill
  | .admissionRefill | .teardownFlush | .correctionWindowEnd | .correctionPublish | .solveDeadline | .cutWindowEnd _
  | .cutClose _ | .quernEvalStart _ | .quernEvalComplete _ | .eachWaitExpiry _ _ | .actAtReached _ _ | .modelLoadComplete _ _
  | .modelBroadcastWaitExpiry _ _ | .millraceStepStart _ | .millraceStepComplete _ | .rolloutComplete _ _
  | .expelBucketRefill _ | .batchWaitExpiry _ _ _ | .arrWaitExpiry _ _ _ | .silentToExpiry _ | .disHoldExpiry _
  | .snoopSettleExpiry _ | .replayToExpiry _ | .heartbeatPeriodEnd | .bootToExpiry | .engConfToExpiry | .blockBeatPeriodEnd _
  | .internalWatchPeriod _ _ | .recovToExpiry | .coldRung | .reqToExpiry | .peerLinkDownTimeout _ | .ingotCaptureEnd
  | .ingotWriteDone | .gpToExpiry | .trFlushExpiry _ | .syncPeriodBoundary | .authExpiry | .authLockoutEnd
  | .tensorBucketRefill | .hallmarkFlashWriteDone | .rlBucketRefill _ | .flashBucketRefill | .optTick | .testDue _
  | .reaskExpiry | .testOverdue _ | .winUsExpiry | .selAckTimeout | .scanSegmentEnd _ | .exitSequenceDone | .stageComplete _
  | .fwSelfConfirm | .fwHealthDeadline | .drainEnd | .offFlashFlushDone | .wakeDemand _ | .wakeHoldExpiry | .ctlIdleStop
  | .crownPowered | .scrubWord _ | .monitorWindowEnd _ | .other1588Message | .portClockStop _ | .resetRequestRelease _
  | .portDomainRelease _ _ =>
    true
  | .tapBeat slots =>
    decide (slots.length ≤ 16)
  | .snoopFrame _ f =>
    snoopWf f
  | .tracePacket p | .stepMark p | .collMark p | .streamMark p | .tensorPacket p =>
    trcWf p
  | .smbalert status =>
    decide (status.length ≤ 16)
  | .pmbPoll readings =>
    decide (readings.length ≤ 16)
  | .sideReadResponse data _ =>
    decide (data.length ≤ 256)
  | .loHalfRead off | .w1cStatusWrite off _ | .registerWrite off _ =>
    off.toNat % 4 == 0
  | .badAccess _ off size =>
    !((size == 4 || size == 8) && off.toNat % size == 0)
  | .commandFetch fab entry _ _ =>
    entryWf fab entry
  | .fabricQueueEntry entry _ _ =>
    entryWf true (some entry)
  | .commandRecordReceived r | .replyRecordReceived r _ | .epochReceived r | .reconcileReceived r | .lastGaspReceived r
  | .joinReceived _ r | .joinAnswerReceived r | .stampPairsReceived r | .correctionReceived r | .featuresReceived r
  | .arrivalReceived r | .batchReceived r | .expelVerdictReceived r | .healthyStepReceived r | .replayReqReceived r
  | .replayDigestReceived r | .refusedReceived r | .jobReleaseReceived r | .cutContribReceived r | .broadcastReceived r
  | .broadcastAckReceived r | .imageChunkData r | .imageChunkAck r | .startReq r | .startGrant r | .startDeny r
  | .startDone r =>
    recWf r
  | .sysIdentify c | .sysStatus c | .sysAddress c | .sysPhase c | .sysPstate c | .domainReset c | .serviceRestore c
  | .trayDesignate c | .sysInject c | .timeConfig c | .timeJob c | .timeAsym c | .timeCal c | .timeStatus c
  | .collectCounter c | .collectSet c | .collectArm c | .collectMap c | .collectRead c | .discConfig c | .collectStatus c
  | .streamConfig c | .streamShaper c | .streamGate c | .streamLink c | .streamStatus c | .reduceDefine c | .reduceDelete c
  | .cutConfig c | .cutRead c | .cutRegister c | .cutRelease c | .treeInstall c | .bcastSend c | .mapConfig c
  | .reduceStatus c | .modelLoad c | .modelActivate c | .modelDeactivate c | .modelUnload c | .modelStatus c | .channelOpen c
  | .channelClose c | .channelReset c | .channelForecast c | .modelParam c | .scoreSet c | .scoreClear c | .verdictWithdraw c
  | .verdictConfig c | .verdictBudget c | .verdictDrill c | .jobMembers c | .jobEnd c | .verdictParam c | .verdictStatus c
  | .sentryWatch c | .sentryPartners c | .sentryGoal c | .sentryRollback c | .sentryRelease c | .sentryStatus c
  | .sentryParam c | .heartbeatConfig c | .ingotConfig c | .ingotTake c | .ingotRead c | .ingotClear c | .contextResult c
  | .brakeStatus c | .traceConfig c | .traceAuth c | .traceDeauth c | .traceStatus c | .watchArm c | .watchDisarm c
  | .watchRate c | .watchStatus c | .recorderRead c | .recorderStatus c | .recorderClear c | .recorderNote c
  | .recorderConfig c | .powerBudget c | .powerMember c | .powerStatic c | .powerConfig c | .powerStatus c | .temperConfig c
  | .metroRead c | .testConfig c | .testGrant c | .testDefer c | .testDone c | .testClear c | .testStatus c | .updateStage c
  | .updateChain c | .updateStart c | .updateConfirm c | .updateStatus c =>
    cmdWf c
  | .dataFrameReceived _ bytes _ _ | .overflowFrameReceived _ bytes _ _ =>
    frameWf bytes
  | .assayCalibrationWrite data =>
    decide (data.length = 52)
  | .faultInjectionEnd fault =>
    decide (fault ≤ 3)

end Sys2Proof
end

