-- ==== Sys2Proof/Tests/Slice0.lean ====
section
/-! SUPPORT. Tests: ill-formed commands, worked examples of the spec, and for each statement a state and operands that meet the
hypotheses of each of its clauses. -/

namespace Sys2Proof.Tests

open Sys2Proof Sys2Proof.Machine

/-! ### States and packets to try -/

/-- A block of a role in operation: every domain and port out of reset, every link up, TB0 and TB1 at 10^15 ns for some
cycles. -/
def up (r : Role) : State :=
  let t0 := BitVec.ofNat 96 (10 ^ 15 * 2 ^ 32)
  let t1 := BitVec.ofNat 80 (10 ^ 15 * 2 ^ 16)
  { State.reset with
    sys := sysReset r
    pow := { powReset with
      phase := .running, aoHeld := false, ctlHeld := false, engHeld := false, metroHeld := false, ctlOn := true, engOn := true,
      heldPorts := [] }
    time := { timeReset with tb0 := t0, tb0p1 := t0, tb0p2 := t0, tb1 := t1, tb1p1 := t1, monCycles := 1024 }
    hop := { hopReset r with
      admK := 10 ^ 9
      ifcs := (hopReset r).ifcs.map fun f => { f with portReset := false, linkUp := true } } }

/-- A command packet with fields (offset, size, value): over the fabric from the fabric manager, or by the local queue where only host
firmware may send it. -/
def pk (o : OpSpec) (fs : List (Nat × Nat × Nat)) (data : List Byte := []) : Cmd where
  path := if o.f then .fabric 9 .fm 0 else .localQueue
  tag := 7
  fence := false
  plen := BitVec.ofNat 8 o.plen
  flagsRsvd := 0
  params := (List.range 56).map fun i =>
    (fs.findSome? fun f => if f.1 ≤ i ∧ i < f.1 + f.2.1 then (be f.2.1 f.2.2)[i - f.1]? else none).getD 0
  reads := [some data, some []]
  inl := if o.f then data else []
  writesOk := true

/-- A record of a TYPE from block 9. -/
def rec9 (typ : BitVec 8) (body : List Byte) : Rec where
  typ := typ
  role := 0
  cls := 1
  src := 9
  unit := 1
  pos := 0
  stamp := 0
  cells := 1
  flags := 0
  epochLo := 0
  body := body

/-! ### Things to hold -/

def qmodel : QModel :=
  { wcode := 0, k := 1, modelId := 1, modelVer := 1, nfeat := 0, inmode := 0, set := 0, len := 64, bias := [0], gather := [],
    trees := [] }

def mmodel : MModel :=
  { wtype := 0, atype := 0, modelId := 1, modelVer := 1, n := 32, r := 16, din := 1, target := 0, ash := 0, warm := 0, len := 64,
    vinit := 0, vfloor := 0, c0 := 0, lambda := [], iz := [], is := [], b := [], q := [], p := [], c := [] }

/-- Quern handle 15 in a state, with a model. -/
def quernAt (st : HandleSt) : ModelUnit :=
  { modelReset with
    quern := modelReset.quern.set 15
      { h := { handleReset with st := st }, model := some qmodel, pend := [], run := [], skip := 0, late := 0 } }

/-- Millrace handle 15 in a state, with a model. -/
def millAt (st : HandleSt) : ModelUnit :=
  { modelReset with mill := modelReset.mill.set 15 { h := { handleReset with st := st }, model := some mmodel } }

/-- A channel of Millrace handle 15 that has stepped once. -/
def channel : Channel :=
  { handle := 15, moves := [], kind := 0, src := 0, set := 0, miss := 0, stream := 0, rate := 0, idx := [],
    ctx := { x := [], f := some 0, v := 0, m := 0, n := 0, cep := 0, steps := 1, last := [], drift := none },
    diverged := false, pend := [], running := none, resetDue := false, skip := 0, lateSteps := 0, lateFrom := 0, gapNext := false,
    prev := none, done := [{ stamp := 1, resid := 0, drift := 0, fcast := 0 }] }

def input : MInput := { stamp := 1, raws := [some 0], gap := false }

def qvec : QVec := { src := 0, stamp := 1, flags := 0, codes := [] }

def redn : Redn := parseRedn (pk (opReduceDefine 1) [(0, 2, 3), (3, 1, 1), (8, 4, 4)])

def reader : Reader :=
  { path := .fabric 9 .fm 0, tag := 1, hlen := 64, h0 := 4096, h1 := 8192, held0 := true, held1 := true, missed := 0, missedAt := 0,
    owed := false }

def scoreD : ScoreDesc :=
  { drift := false, handle := 15, ssh := 8, confWin := 2, wdWin := 2, prep := 3, thW := 0, thS := 0, thE := 0, hyst := 0,
    terms := [] }

def pairV : Pair :=
  { score := 3, subj := 262143, h := 0, cp := 0, s := 2,
    v := some { vid := 7, v := 2, hold := 1, age := 1, raiseT := 0, drill := false }, strag := 0 }

def ownV : OwnV := { kind := 2, vid := 7, subj := 262143, source := 1, engine := 0, step := 0, raiseT := 0, drill := false }

def demotedV : VRec :=
  { vid := 7, subj := 262143, kind := 1, cls := 3, prevs := 0, state := 0, vflags := 0, score := 0, hold := 0, age := 0, h := 0,
    modelver := 0, orig := 9, raiseT := 0, step := 0 }

def inst5 : Inst :=
  { job := 5, coll := 0, step := 1, opened := 0, arrivals := [{ addr := 9, hints := 0, qual := 0, via := none, t := 0 }], sent := [] }

def step1 : TStep :=
  { step := 1, modulus := 1, stats := [], ended := some 0, closed := false, part := false, forced := false, staged := false,
    rep := .partner, asked := 0, first := .waits, peer := 9, alt := 10, peerAns := [], answers := [], badWid := none,
    reported := false }

def watchE : WatchEnt :=
  { etype := 0, every := false, pcls := 2, name := 0, job := 0, cap := 4096, step := 0, stride := 0, offLo := 0, nelem := 100,
    posLo := 0, posHi := 5, count := 0, raw := [] }

def dump0 : Dump := { step := 1, left := 64, trunc := false, gap := false, data := [], pkts := [], pos := 0, off := 0, done := false }

def hrec : HRec :=
  { code := 0x0101, sev := .notice, carried := false, drill := false, supp := false, lock := false, argb := 0, seq := 1, t := 0,
    opt := 0, powc := 1, arg := 0 }

def regions : List Byte := be 8 (2 * 2 ^ 56 + 1048576) ++ be 8 (2 ^ 48 - 1)

def search6 : Search := { vid := 7, core := 0, engine := 0, drill := false, cur := 6, since := 0, todo := [] }

def stage0 : Stage :=
  { kind := 3, slot := 0, src := 1, len := 0, digest := 0, xfer := some 1, bytes := [], expect := 0, written := 0, sent := 0,
    acked := 0, rounds := 0, broken := false, dup := false, erased := true, lastChunk := 0, lastAck := 0, ended := false }

/-- A firmware image that is all header (R425). -/
def image1 : List Byte :=
  let h := be 4 0x46574931 ++ be 2 1 ++ [1, 0] ++ be 4 5 ++ be 2 1 ++ [1, 0] ++ List.replicate 8 0 ++ be 4 64 ++ be 4 0
    ++ be 8 (crc64 []) ++ List.replicate 20 0
  h ++ be 4 (crc32c h)

/-- A library with item 1 of one segment. -/
def library : List Byte :=
  List.replicate 64 0 ++ be 4 0x54534C31 ++ [0, 0, 0, 1] ++ be 4 1 ++ be 4 64 ++ List.replicate 48 0

/-- A frame of a header and a payload under the hop CRC. -/
def frame (h : Nat) (p : List Byte) : List Byte := be 16 h ++ p ++ be 8 (hopCrc 0 (be 16 h ++ p))

/-- An IEEE 1588 message of master 5. -/
def ptp (two : Bool) (iv : Int) : Ptp :=
  { etherType := 0x88F7, version := 2, minor := 1, domain := 0, clkId := 5, seq := 7, corr := 0, ts := 0, twoStep := two, interval := iv }

/-- The time unit in operation, with master 5. -/
def timeUp : TimeUnit := { (up .die).time with cfg := { timeCfgReset with clkId := 5 } }

def flight5 (n : Nat) : Flight :=
  { dest := 9, issuer := .fm, seq := 3, tag := 7, opcode := 0x0100, packet := [], inl := [], omax := 0, optr := 0, sent := n,
    lastSent := 0, answered := false, parts := [] }

/-- A broadcast whose one chunk has been relayed and that waits for child 0. -/
def bcast0 (again : Bool) : Bcast :=
  { src := 0, bid := 4, tree := 0, gen := 1, kind := 0, nchunk := 1, upTo := none, also := [], got := 1, gap := false, recs := [],
    waits := [{ addr := 9, index := 0, height := 1, resent := again, done := false, since := 0, reached := 0, miss := [], parts := 0 }],
    held := some { gen := 1, parent := none, ackTo := 20000000, children := (parseChildren 1 (be 4 9 ++ List.replicate 12 0)).1 } }

/-! ### Commands that the ports cannot present (well-formedness) -/

theorem test_packet_of_55_bytes_is_refused :
    (Instr.sysStatus { pk opSysStatus [] with params := List.replicate 55 0 }).wf = false := by decide

theorem test_local_packet_with_inline_data_is_refused :
    (Instr.sysStatus { pk opSysStatus [] with path := .localQueue, inl := [0] }).wf = false := by decide

theorem test_packet_with_61441_inline_bytes_is_refused :
    (Instr.sysStatus { pk opSysStatus [] with inl := List.replicate 61441 0 }).wf = false := by
  simp only [Instr.wf, cmdWf, List.length_replicate]; decide

theorem test_packet_of_56_bytes_is_taken : (Instr.sysStatus (pk opSysStatus [])).wf = true := by decide

theorem test_record_of_no_cells_is_refused : (Instr.epochReceived { rec9 0 [] with cells := 0 }).wf = false := by decide

theorem test_record_of_33_cells_is_refused :
    (Instr.epochReceived { rec9 0 (List.replicate 2092 0) with cells := 33 }).wf = false := by
  simp only [Instr.wf, recWf, rec9, List.length_replicate]; decide

theorem test_record_with_a_short_body_is_refused : (Instr.epochReceived (rec9 0 (List.replicate 43 0))).wf = false := by decide

theorem test_trace_packet_with_a_wrong_count_is_refused :
    (Instr.tracePacket { header := BitVec.ofNat 64 (2 ^ 42), words := [] }).wf = false := by decide

theorem test_empty_frame_is_refused : (Instr.dataFrameReceived 0 [] false .consume).wf = false := by decide

theorem test_long_snoop_frame_is_refused :
    (Instr.snoopFrame 0 { wid := 0, stepLo := 0, replay := false, boff := 0, data := List.replicate 65536 0 }).wf = false := by
  simp only [Instr.wf, snoopWf, List.length_replicate]; decide

theorem test_short_queue_entry_is_refused : (Instr.commandFetch true (some (List.replicate 64 0)) [] true).wf = false := by decide

theorem test_beat_of_17_slots_is_refused : (Instr.tapBeat (List.replicate 17 { word := 0, par := false })).wf = false := by decide

theorem test_alert_of_17_pages_is_refused : (Instr.smbalert (List.replicate 17 0)).wf = false := by decide

theorem test_poll_of_17_pages_is_refused :
    (Instr.pmbPoll (List.replicate 17 { idx := 0, ok := true, iout := 0, vout := 0, temp := 0, status := 0 })).wf = false := by decide

theorem test_side_read_of_257_bytes_is_refused : (Instr.sideReadResponse (List.replicate 257 0) none).wf = false := by
  simp only [Instr.wf, List.length_replicate]; decide

theorem test_unaligned_register_is_refused : (Instr.registerWrite 0x1002 0).wf = false := by decide

theorem test_aligned_word_is_no_bad_access : (Instr.badAccess true 0x1008 8).wf = false := by decide

theorem test_calibration_of_51_bytes_is_refused : (Instr.assayCalibrationWrite (List.replicate 51 0)).wf = false := by decide

theorem test_fault_4_is_refused : (Instr.faultInjectionEnd 4).wf = false := by decide

/-! ### Worked examples of the spec -/

/-- Chapter 2, "extending wire stamps across the 2^32 ns boundary", steps 3 and 5. -/
theorem test_stamp_extension : extendWith 0x4FFF00000 0x30D40 = 0x500030D40 ∧ extendWith 0x4FFF00000 0xFF000000 = 0x4FF000000 := by
  decide

/-- Chapter 3, "a LOG2 code and a RATE code", steps 3, 6 and 7: 3,000 at SCALE 256.0, 3,000,000.0 at 2^-10 and at 64.0. -/
theorem test_feature_codes : quantise 1 0x453B8000 0 0x43800000 = 0x0B78 ∧ quantise 0 0x4A371B00 0 0x3A800000 = 0x0B71
    ∧ quantise 0 0x4A371B00 0 0x42800000 = 0xFFFE := by decide +kernel

/-- Table 4.9, the CHECK column. -/
theorem test_check_values : (let s : List Byte := [0x31, 0x32, 0x33, 0x34, 0x35, 0x36, 0x37, 0x38, 0x39]
    crc32c s = 0xE3069283 ∧ crc32 s = 0xCBF43926 ∧ crc64 s = 0x6C40DF5F0B497347 ∧ crc16 s = 0x29B1) := by decide +kernel

/-- Chapter 4, "coding one Billet at both ratios", steps 6 and 7: 69 payload bytes of 4 cells. -/
theorem test_billet_control : (let b : Billet := { ncell := 4, first := 0, crc := 0, tags := 0, payload := List.replicate 69 0 }
    (slotBytes false 1 b).take 2 = be 2 0x3045 ∧ (slotBytes true 1 b).take 2 = be 2 0xF045 ∧ (chunkBytes true 1 b).length = 32) := by
  decide

/-- Chapter 4, the same example, steps 1 and 2. -/
theorem test_billet_tags : codeDiff (0x1_0000_0003_A1B0) = (3, 8) ∧ codeDiff (0x1_0000_0003_A1F4 ^^^ 0x1_0000_0003_A1B0) = (1, 1) := by
  decide

/-- Chapter 7, "exit leaf of a six-leaf tree": node n1. -/
theorem test_node_word : parseNode 0x8030800000200000 = some (some { defLeft := false, feat := 3, thresh := 0x0800, lo := 0, hi := 2 }) := by
  decide

/-- Chapter 7, "two trees, two outputs": both results. -/
theorem test_tree_sums : (let t := fun (a b : Nat) => ({ nleaf := 1, nodes := [], leaves := [[a, b]] } : QTree)
    ({ qmodel with k := 2, bias := [0x3E800000, 0], trees := [t 0x3C00 0xB800, t 0x2E66 0x0001] } : QModel).eval []
      = [0x3FACCC00, 0xBEFFFFFE]) := by decide +kernel

/-- Chapter 8, "one state block at both element types", steps 2 and 3. -/
theorem test_state_blocks : (let l := [0x40400000, 0xBDCCCCCD, 0x43FA0000]
    ((mxBlock 0 l).scale, (mxBlock 0 l).els.take 3) = (0x7F, [0x44, 0x9D, 0x7E])
      ∧ ((mxBlock 1 l).scale, (mxBlock 1 l).els.take 3) = (0x87, [0x01, 0x00, 0x7D])) := by decide +kernel

/-- Chapter 8, the same example, steps 4 and 5: 113.5 and 127.0. -/
theorem test_block_products : (let l := [0x40400000, 0xBDCCCCCD, 0x43FA0000]
    let w : MxBlock := { scale := 0x7E, els := [0x38, 0, 0x30] ++ List.replicate 29 0 }
    mxDot 0 0 w (mxBlock 0 l) = 0x42E30000 ∧ mxDot 0 1 w (mxBlock 1 l) = 0x42FE0000) := by decide +kernel

/-- Chapter 8, "residual and drift codes", steps 2 and 4: m = 1.0 after 2 steps, and 2^-5 after 2^24. -/
theorem test_drift_codes : driftCode 0x3F800000 2 = 0x816A ∧ driftCode 0x3D000000 (2 ^ 24) = 0xFFFE := by decide +kernel

/-- Chapter 10, "modulus under BOUND". -/
theorem test_replay_modulus : goalModulus (BitVec.ofNat 64 (2 ^ 62 + 58982 * 2 ^ 32 + 100 * 2 ^ 16 + 1200)) = 5 := by decide

/-- Chapter 14, "reduce before raise in one period", steps 1 to 3: the shares of 200 units. -/
theorem test_grant_shares : (shareAll 2048 [{ i := 0, w := 1, want := 20, t := 100 }, { i := 1, w := 1, want := 150, t := 100 },
    { i := 2, w := 1, want := 150, t := 100 }, { i := 3, w := 1, want := 150, t := 100 }] 200).map (·.t) = [120, 160, 160, 160] := by
  decide

/-- Chapter 14, "raising the guard band of an aged die", steps 2 and 4. -/
theorem test_guard_band : ({ temperReset with mins := [37, 35, 38, 34], tgt := 40, tps := 4 } : TemperUnit).want 2 = 4
    ∧ voutCommand 750 4 0x14 = 3113 := by decide

/-- Chapter 17, "a wrap of both queues on the local pair", steps 1, 2 and 5. -/
theorem test_queue_wrap : ({ qpairReset with cqHead := 14, cqTail := 1 } : QPair).visible = 3
    ∧ ({ qpairReset with rqTail := 15, rqHead := 12 } : QPair).freeSlots = 12
    ∧ ({ qpairReset with rqTail := 2, rqHead := 2 } : QPair).freeSlots = 15 := by decide

/-- Chapter 17, the same example, step 6: DBERR, RQ_HEAD as it was. -/
theorem test_head_outside_the_span :
    (match exec (.rqHeadWrite false 5) { up .die with cmd := { cmdReset with
        loc := { qpairReset with en := true, rqTail := 2, rqHead := 2 } } } with
      | .next t => t.cmd.loc.rqHead == 2 && t.cmd.loc.dberr
      | _ => false) = true := by decide

/-- R397: a packet with TAG 0 fails a shared check, whichever its opcode. -/
theorem witness_RejectedCommandsHaveNoEffect_rows : ∀ o ∈ [opSysIdentify, opTimeConfig, opCollectArm, opStreamLink, opModelParam,
    opScoreClear, opSentryGoal, opBrakeStatus, opTraceStatus, opRecorderClear, opTemperConfig, opTestClear, opUpdateStart],
    (up .die).pathReady o.code { pk o [] with tag := 0 } = true
      ∧ (firstFail (baseChecks o { pk o [] with tag := 0 } (up .die))).isSome = true := by decide

theorem witness_FramesOfSystemToModelCommands : ∃ t, exec (.sysStatus (pk opSysStatus [])) (up .die) = .next t := ⟨_, rfl⟩

theorem witness_FramesOfVerdictToUpdateCommands : ∃ t, exec (.brakeStatus (pk opBrakeStatus [])) (up .die) = .next t := ⟨_, rfl⟩

theorem witness_FramesOfFirstRows : ∃ t, exec .pgAoDeassert (up .die) = .next t := ⟨_, rfl⟩

theorem witness_FramesOfOtherRows : ∃ t, exec .shaperRefill (up .die) = .next t := ⟨_, rfl⟩

/-! ### The hypotheses of the statements are met -/

theorem witness_StepRunsFront :
    ∃ (c : Instr) (rest : List Instr) (s : State), s.pending = c :: rest :=
  ⟨.epochPulse, [], { up .die with pending := [.epochPulse] }, by decide⟩

theorem witness_EmptyQueueTicks :
    ∃ (s : State), s.pending = [] ∧ s.aoUp = true :=
  ⟨up .die, by decide⟩

theorem witness_GroupOfFiveCycles :
    ∃ (s : State) (a : State) (b : State) (c : State) (d : State) (e : State), s.pending = [] ∧ s.aoUp = true ∧ s.time.phase = 0 ∧
      step s = .next a ∧ step a = .next b ∧ step b = .next c ∧ step c = .next d ∧ step d = .next e :=
  ⟨up .die, (up .die).aoTick, _, _, _, _, by decide, by decide, by decide, rfl, rfl, rfl, rfl, rfl⟩

theorem witness_StepKeepsInvariant :
    ∃ (s : State) (t : State), s.Inv ∧ step s = .next t :=
  ⟨{ State.reset with pending := [.epochPulse] }, _, by decide, rfl⟩

theorem witness_CommandsLeaveQueue :
    ∃ (c : Instr) (s : State) (t : State), exec c s = .next t :=
  ⟨.epochPulse, up .die, _, rfl⟩

theorem witness_CreditTimer :
    (∃ (i : Iface) (s : State), s.linkOk i.val = true) ∧
    (∃ (i : Iface) (s : State), s.linkOk i.val = true ∧ (0 < (s.ifc i.val).outstanding) ∧
      (s.past1 ((s.ifc i.val).credStart + (s.ifc i.val).credTo * 1000000) = true)) ∧
    (∃ (i : Iface) (s : State),
      ((s.ifc i.val).outstanding = 0 ∨ s.past1 ((s.ifc i.val).credStart + (s.ifc i.val).credTo * 1000000) = false)) ∧
    (∃ (c : Cmd) (s : State) (k : Dword), k = errDetail 0 0 2 ∧ s.pathReady opStreamLink.code c = true ∧
      firstFail (baseChecks opStreamLink c s) = none ∧ NoInput c ∧ cp c 0 1 ≤ 16 ∧ (cp c 2 2 = 0 ∨ 1000 < cp c 2 2)) :=
  ⟨⟨16, up .die, by decide⟩,
   ⟨1, { up .die with hop := { hopReset .die with ifcs := (up .die).hop.ifcs.map fun f => { f with outstanding := 3 } } },
     by decide⟩,
   ⟨1, { up .die with time := timeReset }, .inl (by decide +kernel)⟩,
   ⟨pk opStreamLink [(0, 1, 16), (2, 2, 1001)], up .die, _, rfl, by decide⟩⟩

theorem witness_AdmissionBucket :
    (∃ (c : Cmd) (s : State), s.admitDue.hop.admission = 0 ∧ s.pathReady opTimeJob.code c = true ∧
      firstFail (baseChecks opTimeJob c s) = none ∧ s.engUp = true ∧ NoInput c) ∧
    (∃ (c : Cmd) (s : State), s.admitDue.hop.admission = 0 ∧ s.pathReady opJobEnd.code c = true ∧
      firstFail (baseChecks opJobEnd c s) = none ∧ s.engUp = true ∧ NoInput c ∧
      ((s.job (BitVec.ofNat 32 (cp c 0 4))).isSome = true ∨ s.sentry.job = some (BitVec.ofNat 32 (cp c 0 4)))) ∧
    (∃ (c : Cmd) (s : State), s.admitDue.hop.admission = 0 ∧ s.pathReady opSentryPartners.code c = true ∧
      firstFail (baseChecks opSentryPartners c s) = none ∧ s.engUp = true ∧ NoInput c ∧ cp c 0 4 < 2 ^ 18 ∧ cp c 4 4 < 2 ^ 18) ∧
    (∃ (c : Cmd) (s : State), s.admitDue.hop.admission = 0 ∧ s.pathReady opSentryWatch.code c = true ∧
      firstFail (baseChecks opSentryWatch c s) = none ∧ s.engUp = true ∧ (ckData opSentryWatch c 0 (16 * cp c 4 1)).ok = true ∧
      (∀ i < cp c 4 1, watchOk (rd (cdata c 0) (16 * i) 16) = true) ∧ BitVec.ofNat 64 (cp c 16 8) ≠ 0 ∧ cp c 4 1 ≤ 64) ∧
    (∃ (c : Cmd) (s : State) (n : Nat) (old : List JobMember) (ms : List JobMember) (all : List JobMember), n = cp c 8 4 ∧
      (ms = (List.range n).map (fun i => parseMember (cdata c 0) (16 * i))) ∧
      (old = (match tget s.verd.jobs (cp c 0 4) with | some v => if cp c 12 1 = 1 then v.members else [] | none => [])) ∧
      (all = (old.filter fun m => !(ms.any fun x => x.addr == m.addr)) ++ ms) ∧ s.admitDue.hop.admission = 0 ∧
      s.pathReady opJobMembers.code c = true ∧ firstFail (baseChecks opJobMembers c s) = none ∧ s.engUp = true ∧
      (ckData opJobMembers c 0 (16 * n)).ok = true ∧ cp c 4 4 < 2 ^ 18 ∧ cp c 12 1 ≤ 1 ∧
      (∀ i < n, rd (cdata c 0) (16 * i) 4 < 2 ^ 18 ∧ rd (cdata c 0) (16 * i + 4) 1 ≤ 3 ∧ rd (cdata c 0) (16 * i + 5) 1 ≤ 1 ∧ rd (cdata c 0) (16 * i + 6) 2 = 0) ∧
      ((tget s.verd.jobs (cp c 0 4)).isSome = true ∨ s.verd.jobs.length < 64) ∧
      (((s.verd.jobs.filter fun e => e.1 != cp c 0 4).map fun e => e.2.members.length).sum + all.length ≤ 131072)) ∧
    (∃ (s : State), s.aoUp = true) ∧
    (∃ (s : State), s.tb1Ns / 1000000 = s.hop.admK ∧ s.hop.admission ≤ 16) ∧
    (∃ (s : State) (t : State), exec .pgAoDeassert s = .next t) :=
  ⟨⟨pk opTimeJob [], { up .die with hop := { (up .die).hop with admission := 0 } }, by decide⟩,
   ⟨pk opJobEnd [], { up .die with hop := { (up .die).hop with admission := 0 }, sentry := { sentryReset with job := some 0 } },
     by decide⟩,
   ⟨pk opSentryPartners [], { up .die with hop := { (up .die).hop with admission := 0 } }, by decide⟩,
   ⟨pk opSentryWatch [(4, 1, 0), (16, 8, 1)], { up .die with hop := { (up .die).hop with admission := 0 } }, by decide⟩,
   ⟨pk opJobMembers [], { up .die with hop := { (up .die).hop with admission := 0 } }, _, _, _, _, rfl, rfl, rfl, rfl, by decide⟩,
   ⟨{ up .die with hop := { (up .die).hop with admission := 0 } }, by decide⟩,
   ⟨State.reset, by decide⟩,
   ⟨up .die, _, rfl⟩⟩

theorem witness_SnapshotCapture :
    (∃ (s : State) (t : State) (wide : Bool), s.windowUp = true ∧ exec (.tsTb0LoRead wide) s = .next t) ∧
    (∃ (s : State), s.windowUp = true) :=
  ⟨⟨up .die, _, true, by decide, rfl⟩,
   ⟨up .die, by decide⟩⟩

theorem witness_CommandQueuePointers :
    (∃ (p : QPair), p.cqHead.toNat < qSize p.cqLog2) ∧
    (∃ (fab : Bool) (v : BitVec 12) (s : State) (p : QPair), s.windowUp = true ∧ s.hasPair fab = true ∧ p = s.pair fab ∧
      p.en = true ∧ v.toNat < qSize p.cqLog2) ∧
    (∃ (fab : Bool) (v : BitVec 12) (s : State) (p : QPair), s.windowUp = true ∧ s.hasPair fab = true ∧ p = s.pair fab ∧
      (p.en = false ∨ qSize p.cqLog2 ≤ v.toNat)) :=
  ⟨⟨{ qpairReset with cqHead := 255, cqLog2 := 8 }, by decide⟩,
   ⟨false, 15, { up .die with cmd := { cmdReset with loc := { qpairReset with en := true } } }, _, by decide, by decide, rfl,
     by decide⟩,
   ⟨false, 15, up .die, _, by decide, by decide, rfl, .inl (by decide +kernel)⟩⟩

theorem witness_ReplyQueuePointers :
    (∃ (p : QPair), p.rqHead.toNat < qSize p.rqLog2) ∧
    (∃ (fab : Bool) (s : State), (s.pair fab).freeSlots = 0) ∧
    (∃ (fab : Bool) (l : List Reply) (s : State), (s.pair fab).freeSlots < l.length) ∧
    (∃ (fab : Bool) (v : BitVec 12) (s : State) (p : QPair) (n : Nat), s.windowUp = true ∧ s.hasPair fab = true ∧ p = s.pair fab ∧
      n = qSize p.rqLog2 ∧ v.toNat < n ∧ (v.toNat + n - p.rqHead.toNat) % n ≤ (p.rqTail.toNat + n - p.rqHead.toNat) % n) ∧
    (∃ (fab : Bool) (v : BitVec 12) (s : State) (p : QPair) (n : Nat), s.windowUp = true ∧ s.hasPair fab = true ∧ p = s.pair fab ∧
      n = qSize p.rqLog2 ∧ (n ≤ v.toNat ∨ (p.rqTail.toNat + n - p.rqHead.toNat) % n < (v.toNat + n - p.rqHead.toNat) % n)) :=
  ⟨⟨{ qpairReset with rqHead := 255, rqLog2 := 8 }, by decide⟩,
   ⟨false, { up .die with cmd := { cmdReset with loc := { qpairReset with en := true, rqTail := 15 } } }, by decide⟩,
   ⟨false, [{ tag := 7, status := 0, opcode := 0, final := true, event := false, detail := 0, result := [] }],
     { up .die with cmd := { cmdReset with loc := { qpairReset with en := true, rqTail := 11, rqHead := 12 } } }, by decide⟩,
   ⟨false, 3, { up .die with cmd := { cmdReset with loc := { qpairReset with en := true, rqTail := 3, rqHead := 14 } } }, _, _,
     by decide, by decide, rfl, rfl, by decide⟩,
   ⟨false, 4, { up .die with cmd := { cmdReset with loc := { qpairReset with en := true, rqTail := 3, rqHead := 14 } } }, _, _,
     by decide, by decide, rfl, rfl, by decide⟩⟩

theorem witness_SystemCommandsRun :
    (∃ (c : Cmd) (s : State), (Clean opSysIdentify c s) ∧ NoInput c) ∧
    (∃ (c : Cmd) (s : State), Clean opSysStatus c s ∧ NoInput c) ∧
    (∃ (c : Cmd) (s : State), Clean opSysAddress c s ∧ NoInput c ∧ cp c 0 4 < 2 ^ 18 ∧ s.named = false) ∧
    (∃ (c : Cmd) (s : State), Clean opSysPhase c s ∧ NoInput c ∧ cp c 0 1 ≤ 3) ∧
    (∃ (c : Cmd) (s : State), Clean opSysPstate c s ∧ NoInput c ∧ cp c 0 1 ≤ 3 ∧ s.pstateForbidden (pstateOf (cp c 0 1)) = false) ∧
    (∃ (c : Cmd) (s : State), Clean opDomainReset c s ∧ NoInput c ∧ s.hangHold = false ∧ cp c 0 1 < 16 ∧ cp c 8 8 < 2 ^ 15 ∧
      bit (cp c 0 1) 0 = false) ∧
    (∃ (c : Cmd) (s : State), Clean opServiceRestore c s ∧ NoInput c ∧ s.sys.oos = true) ∧
    (∃ (c : Cmd) (s : State), cp c 4 1 = 0 ∧ Clean (opTrayDesignate 0) c s ∧ (ckData (opTrayDesignate 0) c 0 0).ok = true ∧
      cp c 0 4 < 2 ^ 18) ∧
    (∃ (c : Cmd) (s : State), cp c 4 1 = 1 ∧ Clean (opTrayDesignate 1) c s ∧
      (ckData (opTrayDesignate 1) c 0 (4 * cp c 5 1)).ok = true ∧ cp c 0 4 < 2 ^ 18 ∧ 1 ≤ cp c 5 1 ∧ cp c 5 1 ≤ 16 ∧
      (∀ i < cp c 5 1, rd (cdata c 0) (4 * i) 4 < 2 ^ 18) ∧
      ((s.modSys fun u => { u with acting := true, actMembers := parseAddrs (cp c 5 1) (cdata c 0) }).ratesOk = true)) ∧
    (∃ (c : Cmd) (s : State), Clean (opSysInject (cp c 4 1)) c s ∧ NoInput c ∧ cp c 4 1 ≤ 3 ∧ (cp c 4 1 = 1 → cp c 5 1 ≤ 3) ∧
      (cp c 4 1 = 2 → cp c 5 1 ≤ 16) ∧ s.drillCovers (cp c 0 4) s.tb0Ns (s.tb0Ns + cp c 8 4 * 1000) = true) :=
  ⟨⟨pk opSysIdentify [], up .die, by decide⟩,
   ⟨pk opSysStatus [], up .die, by decide⟩,
   ⟨pk opSysAddress [(0, 4, 262143)], up .die, by decide⟩,
   ⟨pk opSysPhase [(0, 1, 3)], up .die, by decide⟩,
   ⟨pk opSysPstate [(0, 1, 1)], up .die, by decide⟩,
   ⟨pk opDomainReset [(0, 1, 14), (8, 8, 32767)], up .die, by decide⟩,
   ⟨pk opServiceRestore [], { up .die with sys := { sysReset .die with oos := true } }, by decide⟩,
   ⟨pk (opTrayDesignate 0) [(0, 4, 262143)], up .die, by decide⟩,
   ⟨pk (opTrayDesignate 1) [(0, 4, 3), (4, 1, 1), (5, 1, 2)] (be 4 3 ++ be 4 262143), up .die, by decide⟩,
   ⟨pk (opSysInject 1) [(0, 4, 5), (4, 1, 1), (5, 1, 3), (8, 4, 10)],
     { up .die with verd := { verdictReset with drills := [(5, { id := 5, start := 0, stop := 2 * 10 ^ 15, subjects := [0] })] } },
     by decide⟩⟩

theorem witness_TimeCommandsRun :
    (∃ (c : Cmd) (s : State), Clean opTimeConfig c s ∧ NoInput c ∧ cp c 28 4 < 2 ^ 18 ∧ cp c 0 1 ≤ 127 ∧
      (BitVec.ofNat 8 (cp c 1 1) = 0x7F ∨ (-7 ≤ (BitVec.ofNat 8 (cp c 1 1)).toInt ∧ (BitVec.ofNat 8 (cp c 1 1)).toInt ≤ 0)) ∧
      1 ≤ cp c 22 1 ∧ cp c 22 1 ≤ 64 ∧ 1 ≤ cp c 23 1 ∧ cp c 23 1 ≤ 100 ∧ 1 ≤ cp c 24 2 ∧ cp c 24 2 ≤ 1000 ∧
      banksFit { s.bankNeed false with wc := cp c 23 1 * 1000000 } { s.bankNeed true with wc := cp c 23 1 * 1000000 } = true) ∧
    (∃ (c : Cmd) (s : State), Clean opTimeJob c s ∧ NoInput c) ∧
    (∃ (c : Cmd) (s : State), Clean opTimeAsym c s ∧ NoInput c ∧ cp c 0 4 < 2 ^ 18 ∧ cp c 4 4 < 2 ^ 18 ∧ cp c 8 1 < 64) ∧
    (∃ (c : Cmd) (s : State), Clean opTimeCal c s ∧ NoInput c ∧ cp c 0 1 < 64) ∧
    (∃ (c : Cmd) (s : State), Clean opTimeStatus c s ∧ NoInput c) :=
  ⟨⟨pk opTimeConfig [(0, 1, 127), (1, 1, 249), (22, 1, 64), (23, 1, 100), (24, 2, 1000)], up .die, by decide⟩,
   ⟨pk opTimeJob [], up .die, by decide⟩,
   ⟨pk opTimeAsym [(8, 1, 63)], up .tray, by decide⟩,
   ⟨pk opTimeCal [(0, 1, 63)], up .die, by decide⟩,
   ⟨pk opTimeStatus [], up .die, by decide⟩⟩

theorem witness_RejectedCommandsHaveNoEffect :
    (∃ (c : Cmd) (s : State) (k : Check), s.hangHold = false ∧ s.pathReady opDomainReset.code c = true ∧
      firstFail (baseChecks opDomainReset c s) = some k) ∧
    (∃ (c : Cmd) (s : State) (k : Check), s.hoist.stage = none ∧ s.pathReady opUpdateStage.code c = true ∧
      firstFail (baseChecks opUpdateStage c s) = some k) ∧
    (∃ (c : Cmd) (s : State) (k : Check), s.hoist.stage = none ∧ s.pathReady opUpdateChain.code c = true ∧
      firstFail (baseChecks opUpdateChain c s) = some k) :=
  ⟨⟨pk opDomainReset [(1, 1, 1)], up .die, _, by decide, by decide, rfl⟩,
   ⟨pk opUpdateStage [(3, 1, 1)], up .die, _, by decide, by decide, rfl⟩,
   ⟨pk opUpdateChain [(2, 1, 1)], up .die, _, by decide, by decide, rfl⟩⟩

theorem witness_CollectCommandsRun :
    (∃ (c : Cmd) (s : State), Clean opCollectCounter c s ∧ (ckData opCollectCounter c 0 (4 * cp c 2 2)).ok = true ∧ 256 ≤ cp c 0 2 ∧
      cp c 0 2 + cp c 2 2 ≤ 16384 ∧ (∀ i < cp c 2 2, counterWordOk (rd (cdata c 0) (4 * i) 4) = true)) ∧
    (∃ (c : Cmd) (s : State) (f : SampleSet→SampleSet),
      (f = (fun x => { x with winNext := some (cp c 4 4 * 1000), banksNext := if cp c 0 1 ≠ 0 ∧ (BitVec.ofNat 64 (cp c 8 8) ≠ x.banks ∨ x.banksNext.isSome) then some (BitVec.ofNat 64 (cp c 8 8)) else none })) ∧
      Clean (opCollectSet (cp c 0 1)) c s ∧ NoInput c ∧ cp c 0 1 < 16 ∧
      (cp c 0 1 = 0 → cp c 8 8 = 0 ∧ cp c 4 4 % 10 = 0 ∧ 10 ≤ cp c 4 4) ∧
      (cp c 0 1 ≠ 0 → bit (cp c 8 8) 0 = false ∧ cp c 8 8 &&& s.otherBanks (cp c 0 1) = 0 ∧ cp c 4 4 % 100 = 0 ∧ 100 ≤ cp c 4 4) ∧
      cp c 4 4 ≤ 10000000 ∧ (s.modSet (cp c 0 1) f).ratesOk = true) ∧
    (∃ (c : Cmd) (s : State) (i : Nat) (x : SampleSet) (u : State), Clean opCollectArm c s ∧ NoInput c ∧ i = cp c 0 1 ∧ 1 ≤ i ∧
      i < 16 ∧ x = s.set i ∧ u = s.begun opCollectArm) ∧
    (∃ (c : Cmd) (s : State), Clean opCollectMap c s ∧ (ckData opCollectMap c 0 (16 * cp c 2 2)).ok = true ∧ cp c 0 1 < 16 ∧
      cp c 2 2 ≤ 1024 ∧
      (∀ k < cp c 2 2, descOk (cp c 0 1) ((s.set (cp c 0 1)).banksNext.getD (s.set (cp c 0 1)).banks) (BitVec.ofNat 128 (rd (cdata c 0) (16 * k) 16)) = true) ∧
      s.otherMaps (cp c 0 1) + cp c 2 2 ≤ 4096) ∧
    (∃ (c : Cmd) (s : State), Clean opCollectRead c s ∧ NoInput c ∧ (ckWrite opCollectRead c 0).ok = true ∧
      cp c 0 2 + cp c 2 2 ≤ 16384) ∧
    (∃ (c : Cmd) (s : State), Clean (opCollectStatus (cp c 0 1)) c s ∧ NoInput c ∧ cp c 0 1 < 16) ∧
    (∃ (c : Cmd) (s : State), Clean opDiscConfig c s ∧ NoInput c ∧ cp c 0 1 < 32 ∧ cp c 1 1 ≤ 1 ∧ 1 ≤ cp c 2 2 ∧ cp c 2 2 ≤ 1000 ∧
      1 ≤ cp c 4 2 ∧ cp c 4 2 ≤ 4095 ∧ cp c 6 2 ≤ cp c 4 2 ∧ cp c 8 4 ≤ 3600000) :=
  ⟨⟨pk opCollectCounter [(0, 2, 16383), (2, 2, 1)] (be 4 0), up .die, by decide⟩,
   ⟨pk (opCollectSet 1) [(0, 1, 1), (4, 4, 100), (8, 8, 2)], up .die, _, rfl, by decide⟩,
   ⟨pk opCollectArm [(0, 1, 15)], up .die, _, _, _, by decide, by decide, rfl, by decide, by decide, rfl, rfl⟩,
   ⟨pk opCollectMap [(0, 1, 15), (2, 2, 1)] (be 16 (7 * 2 ^ 124)), up .die, by decide⟩,
   ⟨pk opCollectRead [(0, 2, 16383), (2, 2, 1)], up .die, by decide⟩,
   ⟨pk (opCollectStatus 15) [(0, 1, 15)], up .die, by decide⟩,
   ⟨pk opDiscConfig [(0, 1, 31), (1, 1, 1), (2, 2, 1000), (4, 2, 4095), (6, 2, 4095), (8, 4, 3600000)], up .die, by decide⟩⟩

theorem witness_StreamCommandsRun :
    (∃ (c : Cmd) (s : State), Clean opStreamConfig c s ∧ NoInput c ∧ cp c 0 1 < 8 ∧ cp c 1 1 ≤ 1 ∧ cp c 2 1 ≤ 3 ∧ 128 ≤ cp c 4 4 ∧
      cp c 4 4 ≤ 245760 ∧ cp c 4 4 % 64 = 0 ∧ 1 ≤ cp c 8 2 ∧ cp c 8 2 ≤ 1000 ∧ s.otherQuotas (cp c 0 1) + cp c 4 4 ≤ 245760) ∧
    (∃ (c : Cmd) (s : State), Clean opStreamShaper c s ∧ NoInput c ∧ cp c 0 1 ≤ 16 ∧ cp c 1 1 < 4 ∧ bits (cp c 8 8) 61 58 = 0 ∧
      1 ≤ bits (cp c 8 8) 57 40 ∧ bits (cp c 8 8) 57 40 ≤ s.rateMax (cp c 0 1) (cp c 1 1) ∧ 16384 ≤ bits (cp c 8 8) 39 16 ∧
      bits (cp c 8 8) 39 16 ≤ 8388608 ∧ bits (cp c 8 8) 15 8 ≠ 0 ∧ bits (cp c 8 8) 7 0 ≠ 0) ∧
    (∃ (c : Cmd) (s : State) (es : List (BitVec 64)),
      (es = (List.range (cp c 1 1)).map (fun j => BitVec.ofNat 64 (rd (cdata c 0) (8 * j) 8))) ∧ 10000 ≤ cp c 4 4 * 100 ∧
      cp c 4 4 * 100 ≤ 1000000000 ∧ (∀ e ∈ es, gateRsvdOk e.toNat = true) ∧
      (∀ e ∈ es, gateValid e = true → gateStart e + gateLen e ≤ cp c 4 4 * 100) ∧ Clean opStreamGate c s ∧
      (ckData opStreamGate c 0 (8 * cp c 1 1)).ok = true ∧ cp c 0 1 ≤ 16 ∧ cp c 1 1 ≤ 8 ∧
      gatesOverlap (es.filter gateValid) = false ∧
      (∀ k < 4, gatesLong (es.filter gateValid) (cp c 4 4 * 100) (flitPs (cp c 0 1)) k = true)) ∧
    (∃ (c : Cmd) (s : State), Clean opStreamLink c s ∧ NoInput c ∧ cp c 0 1 ≤ 16 ∧ 1 ≤ cp c 2 2 ∧ cp c 2 2 ≤ 1000) ∧
    (∃ (c : Cmd) (s : State), Clean opStreamStatus c s ∧ NoInput c ∧ cp c 0 1 ≤ 16 ∧ cp c 1 1 < 4) :=
  ⟨⟨pk opStreamConfig [(0, 1, 7), (2, 1, 3), (4, 4, 128), (8, 2, 1000)], up .die, by decide⟩,
   ⟨pk opStreamShaper [(0, 1, 16), (1, 1, 3), (8, 8, 2 ^ 40 + 16384 * 2 ^ 16 + 257)], up .die, by decide⟩,
   ⟨pk opStreamGate [(0, 1, 16), (4, 4, 100)], up .die, _, rfl,
     by rw [show cp (pk opStreamGate [(0, 1, 16), (4, 4, 100)]) 4 4 = 100 by decide] <;> decide,
     by rw [show cp (pk opStreamGate [(0, 1, 16), (4, 4, 100)]) 4 4 = 100 by decide] <;> decide,
     by simp [show cp (pk opStreamGate [(0, 1, 16), (4, 4, 100)]) 1 1 = 0 by decide],
     by simp [show cp (pk opStreamGate [(0, 1, 16), (4, 4, 100)]) 1 1 = 0 by decide], by decide⟩,
   ⟨pk opStreamLink [(0, 1, 16), (2, 2, 1000)], up .die, by decide⟩,
   ⟨pk opStreamStatus [(0, 1, 16), (1, 1, 3)], up .die, by decide⟩⟩

theorem witness_CutCommandsRun :
    (∃ (c : Cmd) (s : State) (lv : Nat) (d : Redn) (o : OpSpec), lv = cp c 2 1 ∧ o = opReduceDefine lv ∧ d = parseRedn c ∧
      Clean o c s ∧ (ckData o c 0 (cp c 24 4)).ok = true ∧ lv ≤ 1 ∧ 1 ≤ d.op ∧ d.op ≤ 7 ∧ d.typesOk = true ∧ d.cls < 4 ∧
      1 ≤ d.nelem ∧ (cp c 24 4 = (if d.op = 6 then 24 + 8 * (d.nb + 1) else 24)) ∧ d.fieldsOk = true ∧ rd (cdata c 0) 6 2 = 0 ∧
      rd (cdata c 0) 17 7 = 0 ∧ (d.op = 6 → edgesOk d.etype d.edges = true) ∧
      (applyDefs (applyDefs (s.level (lv == 1)).defs (s.level (lv == 1)).defsNext) [(d.rid, some d)]).length ≤ 256 ∧
      banksFit { s.bankNeed (lv == 1) with defs := applyDefs (applyDefs (s.level (lv == 1)).defs (s.level (lv == 1)).defsNext) [(d.rid, some d)] } (s.bankNeed !(lv == 1)) = true) ∧
    (∃ (c : Cmd) (s : State), Clean opReduceDelete c s ∧ NoInput c ∧ cp c 2 1 ≤ 1 ∧
      ((applyDefs (s.level (cp c 2 1 == 1)).defs (s.level (cp c 2 1 == 1)).defsNext).any (fun d => d.rid == cp c 0 2) = true)) ∧
    (∃ (c : Cmd) (s : State) (f : Bool) (p : Nat) (g : Nat) (h : Nat), f = (cp c 0 1 == 1) ∧ p = cp c 4 4 * 1000000 ∧
      g = cp c 8 4 * 100 ∧ h = cp c 12 2 * 100000 ∧ ((s.modLevel f fun x => { x with periodNext := some p }).ratesOk = true) ∧
      Clean opCutConfig c s ∧ NoInput c ∧ cp c 0 1 ≤ 1 ∧ 1 ≤ cp c 4 4 ∧ cp c 4 4 ≤ 10000 ∧
      (if f then p % s.nextP (!f) = 0 else s.nextP (!f) % p = 0) ∧ 100 ≤ g ∧ 4 * g ≤ p ∧ 1 ≤ cp c 12 2 ∧ cp c 12 2 ≤ 1000 ∧
      banksFit { s.bankNeed f with period := p, settle := h } (s.bankNeed !f) = true) ∧
    (∃ (c : Cmd) (s : State) (n : Nat) (img : List Byte), (s.level (cp c 0 1 == 1)).published = some (n, img) ∧
      Clean opCutRead c s ∧ NoInput c ∧ (ckWrite opCutRead c 0).ok = true ∧ cp c 0 1 ≤ 1 ∧ img.length ≤ cp c 4 4) ∧
    (∃ (c : Cmd) (s : State), Clean opCutRegister c s ∧ NoInput c ∧ cp c 0 1 ≤ 1 ∧ cp c 8 8 % 8 = 0 ∧ cp c 16 8 % 8 = 0) ∧
    (∃ (c : Cmd) (s : State) (r : Reader) (q : Reader) (t : State), Clean opCutRelease c s ∧ NoInput c ∧ cp c 0 1 ≤ 1 ∧
      cp c 1 1 ≤ 1 ∧ (s.level (cp c 0 1 == 1)).reader = some r ∧
      (q = { r with held0 := r.held0 && cp c 1 1 != 0, held1 := r.held1 && cp c 1 1 != 1, missed := if r.owed && r.missedAt == s.time.tb1.toNat && decide (0 < r.missed) then r.missed - 1 else r.missed }) ∧
      (t = ((s.begun opCutRelease).modLevel (cp c 0 1 == 1) fun l => { l with reader := some q }))) ∧
    (∃ (c : Cmd) (s : State), Clean opReduceStatus c s ∧ NoInput c ∧ cp c 0 1 ≤ 1) :=
  ⟨⟨pk (opReduceDefine 1) [(0, 2, 3), (2, 1, 1), (3, 1, 1), (8, 4, 4), (24, 4, 24)] (be 24 0), up .tray, _, _, _, rfl, rfl, rfl,
     by decide⟩,
   ⟨pk opReduceDelete [(0, 2, 3), (2, 1, 1)],
     { up .tray with crown := { crownReset with fleet := { levelReset with defs := [redn] } } }, by decide⟩,
   ⟨pk opCutConfig [(0, 1, 1), (4, 4, 100), (8, 4, 1000), (12, 2, 1000)], up .tray, _, _, _, _, rfl, rfl, rfl, rfl, rfl, by decide⟩,
   ⟨pk opCutRead [(0, 1, 1), (4, 4, 3)],
     { up .tray with crown := { crownReset with fleet := { levelReset with published := some (4, [1, 2, 3]) } } }, _, _, rfl,
     by decide⟩,
   ⟨pk opCutRegister [(0, 1, 1), (8, 8, 4096), (16, 8, 8192)], up .tray, by decide⟩,
   ⟨pk opCutRelease [(0, 1, 1), (1, 1, 1)],
     { up .tray with crown := { crownReset with fleet := { levelReset with reader := some reader } } }, _, _, _, by decide,
     by decide, by decide, by decide, rfl, rfl, rfl⟩,
   ⟨pk opReduceStatus [(0, 1, 1)], up .tray, by decide⟩⟩

theorem witness_BroadcastCommandsRun :
    (∃ (c : Cmd) (s : State) (p : List Child × Nat × Bool) (x : Tree) (t : State), p = parseChildren (cp c 12 1) (cdata c 0) ∧
      (x = { gen := BitVec.ofNat 32 (cp c 4 4), parent := if cp c 8 4 = 0 ∨ cp c 8 4 = s.sys.laddr.toNat then none else some (fldAddr (cp c 8 4)), ackTo := if cp c 28 4 = 0 then 20000000 else cp c 28 4 * 100000, children := p.1 }) ∧
      (t = (s.modCrown fun u => { u with treesNext := tput u.treesNext (cp c 0 1) x })) ∧ Clean opTreeInstall c s ∧
      (ckData opTreeInstall c 0 (cp c 24 4)).ok = true ∧ cp c 8 4 < 2 ^ 18 ∧
      (s.isSpine = true ∨ (cp c 8 4 ≠ 0 ∧ cp c 8 4 ≠ s.sys.laddr.toNat)) ∧ p.2.1 = cp c 24 4 ∧ p.2.2 = true ∧ cp c 0 1 < 16 ∧
      cp c 12 1 ≤ 64 ∧ cp c 28 4 ≤ 100000 ∧ t.ratesOk = true ∧ t.pairsFit t.below = true ∧
      banksFit (t.bankNeed false) (t.bankNeed true) = true) ∧
    (∃ (c : Cmd) (s : State) (x : Tree), s.tree (cp c 0 1) = some x ∧ Clean opBcastSend c s ∧
      (ckData opBcastSend c 0 (cp c 4 4)).ok = true ∧ (ckWrite opBcastSend c 1).ok = true ∧ cp c 1 1 ≤ 4 ∧ cp c 1 1 ≠ 3 ∧
      (cp c 1 1 = 4 → 64 ≤ cp c 4 4 ∧ cp c 4 4 ≤ 1988) ∧ cp c 0 1 < 16 ∧ x.parent = none ∧
      ((s.crown.bcasts.filter fun x => x.upTo.isNone).length < 4)) ∧
    (∃ (c : Cmd) (s : State) (es : List MapEnt), (es = (List.range (cp c 4 2)).map (fun i => parseMapEnt (cdata c 0) (8 * i))) ∧
      Clean opMapConfig c s ∧ (ckData opMapConfig c 0 (8 * cp c 4 2)).ok = true ∧
      (cp c 4 2 ≠ 0 → cp c 6 2 < cp c 8 2 ∧ cp c 8 2 < cp c 10 2 ∧ (s.set (cp c 2 1)).winNext.getD (s.set (cp c 2 1)).win = cp c 0 2 * 100000) ∧
      (∀ e ∈ es, e.port < 64 ∧ e.queue < 8 ∧ ∀ k ∈ [(e.maxc, 2), (e.sumc, 0), (e.dropc, 0)], bits (tgetD s.coll.cfg k.1 0).toNat 30 29 = k.2 ∧ inSet (cp c 2 1) ((s.set (cp c 2 1)).banksNext.getD (s.set (cp c 2 1)).banks) k.1 = true) ∧
      1 ≤ cp c 0 2 ∧ cp c 0 2 ≤ 1000 ∧ 1 ≤ cp c 2 1 ∧ cp c 2 1 < 16 ∧ cp c 4 2 ≤ 512) :=
  ⟨⟨pk opTreeInstall [(0, 1, 15), (8, 4, 262143), (12, 1, 1), (24, 4, 16)] (be 4 77 ++ be 4 0 ++ be 8 0), up .die, _, _, _, rfl,
     rfl, rfl, by decide⟩,
   ⟨pk opBcastSend [(0, 1, 15), (1, 1, 4), (4, 4, 64)] (be 64 0),
     { up .spine with crown := { crownReset with trees := [(15, { gen := 1, parent := none, ackTo := 20000000, children := [] })] } },
     _, rfl, by decide⟩,
   ⟨pk opMapConfig [(0, 2, 10), (2, 1, 15), (4, 2, 0)], up .spine, _, rfl, by decide⟩⟩

theorem witness_ModelCommandsRun :
    (∃ (c : Cmd) (s : State) (mill : Bool) (i : Nat) (src : Nat) (image : List Byte), mill = (cp c 0 1 == 1) ∧ i = cp c 1 1 ∧
      src = cp c 2 1 ∧ (image = (if src = 0 then lget s.flash.models (cp c 3 1) [] else if src = 1 then cdata c 0 else [])) ∧
      Clean opModelLoad c s ∧ ((ckData opModelLoad c 0 (if src = 1 then cp c 4 4 else 0)).ok = true) ∧ cp c 0 1 ≤ 1 ∧ src ≤ 2 ∧
      (src = 1 → c.path = .localQueue) ∧ i < 16 ∧ (src = 0 → cp c 3 1 ≤ 3 ∧ (s.dirEnt (2 + cp c 3 1)).st = .valid) ∧
      (s.hnd mill i).st = .empty ∧ s.loadFits mill i src image (cp c 4 4) = true) ∧
    (∃ (c : Cmd) (s : State) (i : Nat) (m : QModel) (r : Option Nat) (at1 : Nat), i = cp c 1 1 ∧
      (r = (if cp c 2 1 = 0xFF then none else some (cp c 2 1))) ∧ (s.qh i).model = some m ∧
      (∀ o, r = some o → o < 16 ∧ (s.hnd false o).st = .active ∧ ∃ n, (s.qh o).model = some n ∧ n.inmode = m.inmode ∧ n.set = m.set) ∧
      (at1 = (if cp c 8 8 = 0 then s.tb0Ns else cp c 8 8)) ∧ cp c 0 1 = 0 ∧ Clean opModelActivate c s ∧ NoInput c ∧ i < 16 ∧
      (m.inmode ≠ 0 → s.isDie = false ∨ s.sys.acting = true) ∧
      (m.inmode = 0 → m.nfeat ≤ (match (s.set m.set).mapNext with | some x => x.2.length | none => (s.set m.set).map.length)) ∧
      (s.hnd false i).st = .loaded ∧ (s.hnd false i).actAt = none ∧ s.asIfActive false i r = true) ∧
    (∃ (c : Cmd) (s : State) (i : Nat) (r : Option Nat) (at1 : Nat), i = cp c 1 1 ∧
      (r = (if cp c 2 1 = 0xFF then none else some (cp c 2 1))) ∧ (∀ o, r = some o → o < 16 ∧ (s.hnd true o).st = .active) ∧
      (at1 = (if cp c 8 8 = 0 then s.tb0Ns else cp c 8 8)) ∧ cp c 0 1 = 1 ∧ Clean opModelActivate c s ∧ NoInput c ∧ i < 16 ∧
      (s.hnd true i).st = .loaded ∧ (s.hnd true i).actAt = none ∧ s.asIfActive true i r = true) ∧
    (∃ (c : Cmd) (s : State) (i : Nat) (t : State), i = cp c 1 1 ∧
      (t = ((s.begun opModelDeactivate).modHnd (cp c 0 1 == 1) i fun h => { h with st := .loaded, til := none }).modModel (ModelUnit.forget (cp c 0 1 == 1) i)) ∧
      Clean opModelDeactivate c s ∧ NoInput c ∧ cp c 0 1 ≤ 1 ∧ i < 16 ∧ (s.hnd (cp c 0 1 == 1) i).st = .active) ∧
    (∃ (c : Cmd) (s : State) (i : Nat), i = cp c 1 1 ∧ Clean opModelUnload c s ∧ NoInput c ∧ cp c 0 1 ≤ 1 ∧ i < 16 ∧
      ((s.hnd (cp c 0 1 == 1) i).st = .loaded ∨ (s.hnd (cp c 0 1 == 1) i).st = .stopped) ∧
      (cp c 0 1 = 1 → ∀ e ∈ s.model.chans, e.2.handle ≠ i)) ∧
    (∃ (c : Cmd) (s : State) (i : Nat), i = cp c 1 1 ∧ Clean opModelStatus c s ∧ NoInput c ∧ cp c 0 1 = 0 ∧ i < 16) ∧
    (∃ (c : Cmd) (s : State) (i : Nat), i = cp c 1 1 ∧ Clean opModelStatus c s ∧ NoInput c ∧ cp c 0 1 = 1 ∧ i < 16) ∧
    (∃ (c : Cmd) (s : State), Clean opModelParam c s ∧ NoInput c ∧ 1 ≤ cp c 0 2 ∧ cp c 0 2 ≤ 1000 ∧ 1 ≤ cp c 2 2 ∧ cp c 2 2 ≤ 1000) :=
  ⟨⟨pk opModelLoad [(0, 1, 1), (1, 1, 15), (2, 1, 2), (4, 4, 64)], up .die, _, _, _, _, rfl, rfl, rfl, rfl, by decide⟩,
   ⟨pk opModelActivate [(1, 1, 15), (2, 1, 255)], { up .die with model := quernAt .loaded }, _, _, _, _, rfl, rfl, rfl,
     by intro o h; exact absurd h (by simp [show cp (pk opModelActivate [(1, 1, 15), (2, 1, 255)]) 2 1 = 255 by decide]), rfl,
     by decide⟩,
   ⟨pk opModelActivate [(0, 1, 1), (1, 1, 15), (2, 1, 255)], { up .die with model := millAt .loaded }, _, _, _, rfl, rfl,
     by intro o h; exact absurd h (by simp [show cp (pk opModelActivate [(0, 1, 1), (1, 1, 15), (2, 1, 255)]) 2 1 = 255 by decide]),
     rfl, by decide⟩,
   ⟨pk opModelDeactivate [(0, 1, 1), (1, 1, 15)], { up .die with model := millAt .active }, _, _, rfl, rfl, by decide⟩,
   ⟨pk opModelUnload [(0, 1, 1), (1, 1, 15)], { up .die with model := millAt .stopped }, _, rfl, by decide⟩,
   ⟨pk opModelStatus [(1, 1, 15)], up .die, _, rfl, by decide⟩,
   ⟨pk opModelStatus [(0, 1, 1), (1, 1, 15)], up .die, _, rfl, by decide⟩,
   ⟨pk opModelParam [(0, 2, 1000), (2, 2, 1000)], up .die, by decide⟩⟩

theorem witness_ChannelCommandsRun :
    (∃ (c : Cmd) (s : State) (b : List Byte) (k : Channel), b = cdata c 0 ∧
      k = parseBinding b (s.mh (rd b 2 1)).model (s.movesOf 16 (rd b 2 1)) ∧
      (k.kind = 0 → ∀ j ∈ k.idx, ∀ d, (match (s.set k.set).mapNext with | some x => x.2 | none => (s.set k.set).map)[j]? = some d → dOp d ≠ 9) ∧
      Clean opChannelOpen c s ∧ (ckData opChannelOpen c 0 80).ok = true ∧ (k.kind = 1 → s.isDie = false ∨ s.sys.acting = true) ∧
      (k.kind = 2 → s.isDie = true) ∧ bindingOk b k = true ∧ rd b 0 2 < 4096 ∧ rd b 2 1 < 16 ∧ k.set < 16 ∧ k.stream < 4096 ∧
      (∀ j ∈ k.idx, if k.kind = 2 then j ≤ 4 else j < 1024) ∧ (k.kind = 2 → 1 ≤ k.rate ∧ k.rate ≤ 1048576) ∧
      (k.kind = 1 → 0 < k.rate) ∧ (k.kind = 1 → ∀ j ∈ k.idx, Config.remoteResid s.time.freeCount k.src.toNat k.set j = false) ∧
      s.chan (rd b 0 2) = none ∧ ((s.mh (rd b 2 1)).h.st = .loaded ∨ (s.mh (rd b 2 1)).h.st = .active) ∧
      ((s.modModel fun u => { u with chans := tput u.chans (rd b 0 2) k }).millBytes ≤ 8388608) ∧
      ((s.mh (rd b 2 1)).h.st = .active → s.millAdmits (s.model.chans.map (·.2) ++ [k]) s.millActive = true)) ∧
    (∃ (c : Cmd) (s : State), Clean opChannelClose c s ∧ NoInput c ∧ cp c 0 2 < 4096 ∧ (s.chan (cp c 0 2)).isSome = true) ∧
    (∃ (c : Cmd) (s : State) (k : Channel), Clean opChannelReset c s ∧ NoInput c ∧ cp c 0 2 < 4096 ∧ s.chan (cp c 0 2) = some k) ∧
    (∃ (c : Cmd) (s : State) (k : Channel) (m : MModel) (f : Nat) (d : StepCodes), s.chan (cp c 0 2) = some k ∧
      (s.mh k.handle).model = some m ∧ k.ctx.f = some f ∧ k.done.getLast? = some d ∧ Clean opChannelForecast c s ∧ NoInput c ∧
      (ckWrite opChannelForecast c 0).ok = true ∧ cp c 0 2 < 4096 ∧ 1 ≤ cp c 2 2 ∧ cp c 2 2 ≤ 4096 ∧
      (s.mh k.handle).h.st ≠ .stopped ∧ k.diverged = false ∧ s.model.rollouts.length < 64) :=
  ⟨⟨pk opChannelOpen [] ([15, 255, 15] ++ List.replicate 77 0), { up .die with model := millAt .loaded }, _, _, rfl, rfl,
     by intro _ j _ d h; change ([] : List (BitVec 128))[j]? = some d at h; simp at h, by decide⟩,
   ⟨pk opChannelClose [(0, 2, 4095)], { up .die with model := { modelReset with chans := [(4095, channel)] } }, by decide⟩,
   ⟨pk opChannelReset [(0, 2, 4095)], { up .die with model := { modelReset with chans := [(4095, channel)] } }, _, by decide,
     by decide, by decide, rfl⟩,
   ⟨pk opChannelForecast [(0, 2, 4095), (2, 2, 4096)], { up .die with model := { millAt .active with chans := [(4095, channel)] } },
     _, _, _, _, rfl, rfl, rfl, rfl, by decide⟩⟩

theorem witness_VerdictCommandsRun :
    (∃ (c : Cmd) (s : State) (b : List Byte) (d : ScoreDesc) (q : QModel), b = cdata c 0 ∧ d = parseScore b ∧
      s.qModel d.handle = some q ∧ Clean opScoreSet c s ∧ (ckData opScoreSet c 0 88).ok = true ∧ scoreOk b d = true ∧ d.ssh ≤ 8 ∧
      2 ≤ d.confWin ∧ d.confWin ≤ 16 ∧ d.confWin ≤ d.wdWin ∧ d.wdWin ≤ 64 ∧ 1 ≤ rd b 7 1 ∧ rd b 7 1 ≤ 8 ∧
      (∀ t ∈ d.terms, (t.typ = 1 → t.k < q.k) ∧ (t.typ = 3 → q.inmode = 0 ∧ s.isDie = true))) ∧
    (∃ (c : Cmd) (s : State), Clean opScoreClear c s ∧ NoInput c ∧ (tget s.verd.scores (cp c 0 1)).isSome = true) ∧
    (∃ (c : Cmd) (s : State) (p : Pair) (v : OpenV), Clean opVerdictWithdraw c s ∧ NoInput c ∧ cp c 4 4 < 2 ^ 18 ∧
      s.openPair (BitVec.ofNat 32 (cp c 0 4)) (BitVec.ofNat 18 (cp c 4 4)) = some p ∧ p.v = some v) ∧
    (∃ (c : Cmd) (s : State) (v : OwnV), Clean opVerdictWithdraw c s ∧ NoInput c ∧ cp c 4 4 < 2 ^ 18 ∧
      s.openPair (BitVec.ofNat 32 (cp c 0 4)) (BitVec.ofNat 18 (cp c 4 4)) = none ∧
      (s.verd.own.find? (fun v => v.vid == BitVec.ofNat 32 (cp c 0 4) && v.subj == BitVec.ofNat 18 (cp c 4 4)) = some v)) ∧
    (∃ (c : Cmd) (s : State) (m : VRec → Bool),
      (m = (fun (v : VRec) => v.vid == BitVec.ofNat 32 (cp c 0 4) && v.subj == BitVec.ofNat 18 (cp c 4 4))) ∧
      Clean opVerdictWithdraw c s ∧ NoInput c ∧ cp c 4 4 < 2 ^ 18 ∧
      s.openPair (BitVec.ofNat 32 (cp c 0 4)) (BitVec.ofNat 18 (cp c 4 4)) = none ∧
      (s.verd.own.find? (fun v => v.vid == BitVec.ofNat 32 (cp c 0 4) && v.subj == BitVec.ofNat 18 (cp c 4 4)) = none) ∧
      (s.verd.tray.demoted.any m = true ∨ s.verd.fleet.demoted.any m = true)) ∧
    (∃ (c : Cmd) (s : State), Clean opVerdictConfig c s ∧ NoInput c ∧ cp c 0 1 < 16) ∧
    (∃ (c : Cmd) (s : State), Clean opVerdictBudget c s ∧ NoInput c ∧ cp c 0 1 ≤ 1 ∧ cp c 4 4 ≤ 1000000 ∧ 1 ≤ cp c 8 2 ∧
      cp c 8 2 ≤ 4096) ∧
    (∃ (c : Cmd) (s : State), Clean opVerdictDrill c s ∧ (ckData opVerdictDrill c 0 (4 * cp c 4 4)).ok = true ∧
      (∀ i < cp c 4 4, rd (cdata c 0) (4 * i) 4 < 2 ^ 18) ∧ (cp c 4 4 ≠ 0 → cp c 8 8 < cp c 16 8) ∧
      (cp c 4 4 ≠ 0 → (tget s.verd.drills (cp c 0 4)).isSome = true ∨ s.verd.drills.length < 16)) ∧
    (∃ (c : Cmd) (s : State), Clean opVerdictParam c s ∧ NoInput c ∧ 1 ≤ cp c 0 4 ∧ cp c 0 4 ≤ 10000 ∧ 1 ≤ cp c 4 4 ∧
      cp c 4 4 ≤ 1000000 ∧ 10 ≤ cp c 8 4 ∧ cp c 8 4 ≤ 10000 ∧ 1 ≤ cp c 12 4 ∧ cp c 12 4 ≤ 6000 ∧ 1 ≤ cp c 16 2 ∧ cp c 16 2 ≤ 65535 ∧
      3 ≤ cp c 18 1 ∧ cp c 18 1 ≤ 64 ∧ 1 ≤ cp c 19 1 ∧ cp c 19 1 ≤ 64) ∧
    (∃ (c : Cmd) (s : State) (p : Pair) (v : OpenV), Clean opVerdictStatus c s ∧ NoInput c ∧ cp c 0 4 < 2 ^ 18 ∧
      (p = (s.verd.pairs.find? fun x => x.score == cp c 4 1 && x.subj == BitVec.ofNat 18 (cp c 0 4)).getD (pairNew (cp c 4 1) (BitVec.ofNat 18 (cp c 0 4)))) ∧
      v = p.v.getD { vid := 0, v := 0, hold := 0, age := 0, raiseT := 0, drill := false }) :=
  ⟨⟨pk opScoreSet [] ([3, 1, 15, 8, 2, 2, 3, 1] ++ be 4 0x3F800000 ++ be 4 0x40000000 ++ be 4 0 ++ be 4 0x3F000000 ++ [0, 0, 0, 0] ++ be 4 0x3F800000 ++ List.replicate 56 0),
     { up .die with model := quernAt .loaded }, _, _, _, rfl, rfl, rfl, by decide⟩,
   ⟨pk opScoreClear [(0, 1, 3)], { up .die with verd := { verdictReset with scores := [(3, scoreD)] } }, by decide⟩,
   ⟨pk opVerdictWithdraw [(0, 4, 7), (4, 4, 262143)],
     { up .die with verd := { verdictReset with scores := [(3, scoreD)], pairs := [pairV] } }, _, _, by decide, by decide,
     by decide, rfl, rfl⟩,
   ⟨pk opVerdictWithdraw [(0, 4, 7), (4, 4, 262143)], { up .die with verd := { verdictReset with own := [ownV] } }, _, by decide,
     by decide, by decide, by decide, rfl⟩,
   ⟨pk opVerdictWithdraw [(0, 4, 7), (4, 4, 262143)],
     { up .tray with verd := { verdictReset with fleet := { holderReset 0 with demoted := [demotedV] } } }, _, rfl, by decide⟩,
   ⟨pk opVerdictConfig [(0, 1, 15)], up .tray, by decide⟩,
   ⟨pk opVerdictBudget [(0, 1, 1), (4, 4, 1000000), (8, 2, 4096)], up .tray, by decide⟩,
   ⟨pk opVerdictDrill [(4, 4, 1), (8, 8, 5), (16, 8, 6)] (be 4 262143), up .die, by decide⟩,
   ⟨pk opVerdictParam [(0, 4, 10000), (4, 4, 1000000), (8, 4, 10000), (12, 4, 6000), (16, 2, 65535), (18, 1, 64), (19, 1, 64)],
     up .die, by decide⟩,
   ⟨pk opVerdictStatus [(0, 4, 262143)], up .die, _, _, by decide, by decide, by decide, rfl, rfl⟩⟩

theorem witness_JobCommandsRun :
    (∃ (c : Cmd) (s : State) (n : Nat) (old : List JobMember) (ms : List JobMember) (all : List JobMember), n = cp c 8 4 ∧
      (ms = (List.range n).map (fun i => parseMember (cdata c 0) (16 * i))) ∧
      (old = (match tget s.verd.jobs (cp c 0 4) with | some v => if cp c 12 1 = 1 then v.members else [] | none => [])) ∧
      (all = (old.filter fun m => !(ms.any fun x => x.addr == m.addr)) ++ ms) ∧ Clean opJobMembers c s ∧
      (ckData opJobMembers c 0 (16 * n)).ok = true ∧ cp c 4 4 < 2 ^ 18 ∧ cp c 12 1 ≤ 1 ∧
      (∀ i < n, rd (cdata c 0) (16 * i) 4 < 2 ^ 18 ∧ rd (cdata c 0) (16 * i + 4) 1 ≤ 3 ∧ rd (cdata c 0) (16 * i + 5) 1 ≤ 1 ∧ rd (cdata c 0) (16 * i + 6) 2 = 0) ∧
      ((tget s.verd.jobs (cp c 0 4)).isSome = true ∨ s.verd.jobs.length < 64) ∧
      (((s.verd.jobs.filter fun e => e.1 != cp c 0 4).map fun e => e.2.members.length).sum + all.length ≤ 131072)) ∧
    (∃ (c : Cmd) (s : State), Clean opJobEnd c s ∧ NoInput c ∧
      ((s.job (BitVec.ofNat 32 (cp c 0 4))).isSome = true ∨ s.sentry.job = some (BitVec.ofNat 32 (cp c 0 4)))) :=
  ⟨⟨pk opJobMembers [(0, 4, 5), (4, 4, 262143), (8, 4, 1), (12, 1, 1)] (be 4 262143 ++ [3, 1, 0, 0] ++ be 8 0), up .die, _, _, _, _,
     rfl, rfl, rfl, rfl, by decide⟩,
   ⟨pk opJobEnd [(0, 4, 5)], { up .die with sentry := { sentryReset with job := some 5 } }, by decide⟩⟩

theorem witness_SentryCommandsRun :
    (∃ (c : Cmd) (s : State) (t : State),
      (t = (if s.sentry.job = some (BitVec.ofNat 32 (cp c 0 4)) then s.begun opSentryWatch else (((s.begun opSentryWatch).discardSteps fun _ => true).modSentry fun u => { u with job := some (BitVec.ofNat 32 (cp c 0 4)), first := BitVec.ofNat 64 (cp c 16 8), through := BitVec.ofNat 64 (cp c 16 8) - 1, lt := BitVec.ofNat 64 (cp c 16 8) - 1, unsettled := [], prevs := [], readmit := none, released := none }).intSet 2)) ∧
      Clean opSentryWatch c s ∧ (ckData opSentryWatch c 0 (16 * cp c 4 1)).ok = true ∧
      (∀ i < cp c 4 1, watchOk (rd (cdata c 0) (16 * i) 16) = true) ∧ BitVec.ofNat 64 (cp c 16 8) ≠ 0 ∧ cp c 4 1 ≤ 64) ∧
    (∃ (c : Cmd) (s : State), Clean opSentryPartners c s ∧ NoInput c ∧ cp c 0 4 < 2 ^ 18 ∧ cp c 4 4 < 2 ^ 18) ∧
    (∃ (c : Cmd) (s : State) (g : BitVec 64), g = BitVec.ofNat 64 (cp c 0 8) ∧ Clean opSentryGoal c s ∧ NoInput c ∧
      0 < goalModulus g ∧ (bits g.toNat 63 62 = 0 → bits g.toNat 61 49 ≤ 4096) ∧
      (bits g.toNat 63 62 ≠ 0 → 1 ≤ bits g.toNat 31 16 ∧ 1 ≤ bits g.toNat 15 0)) ∧
    (∃ (c : Cmd) (s : State) (good : BitVec 64) (low : BitVec 64), good = BitVec.ofNat 64 (cp c 8 8) ∧
      (low = (if good < s.sentry.through then s.sentry.through else good)) ∧ Clean opSentryRollback c s ∧ NoInput c ∧
      s.sentry.job = some (BitVec.ofNat 32 (cp c 0 4))) ∧
    (∃ (c : Cmd) (s : State) (step : BitVec 64), step = BitVec.ofNat 64 (cp c 0 8) ∧ Clean opSentryRelease c s ∧ NoInput c ∧
      (∀ q ∈ s.sentry.unsettled, step < q)) ∧
    (∃ (c : Cmd) (s : State), Clean opSentryStatus c s ∧ NoInput c) ∧
    (∃ (c : Cmd) (s : State), Clean opSentryParam c s ∧ NoInput c ∧ 1 ≤ cp c 0 2 ∧ cp c 0 2 ≤ 10000 ∧ 1 ≤ cp c 2 1 ∧
      cp c 2 1 ≤ 255 ∧ 1 ≤ cp c 4 4 ∧ cp c 4 4 ≤ 600000 ∧ 1 ≤ cp c 8 2 ∧ cp c 8 2 ≤ 1440) :=
  ⟨⟨pk opSentryWatch [(0, 4, 5), (4, 1, 0), (16, 8, 1)], up .die, _, rfl, by decide⟩,
   ⟨pk opSentryPartners [(0, 4, 262143), (4, 4, 262143)], up .die, by decide⟩,
   ⟨pk opSentryGoal [(0, 8, 4096 * 2 ^ 49 + 1)], up .die, _, rfl, by decide⟩,
   ⟨pk opSentryRollback [(0, 4, 5), (8, 8, 9)], { up .die with sentry := { sentryReset with job := some 5 } }, _, _, rfl, rfl,
     by decide⟩,
   ⟨pk opSentryRelease [(0, 8, 9)], up .die, _, rfl, by decide, by decide, fun q h => absurd h List.not_mem_nil⟩,
   ⟨pk opSentryStatus [], up .die, by decide⟩,
   ⟨pk opSentryParam [(0, 2, 10000), (2, 1, 255), (4, 4, 600000), (8, 2, 1440)], up .die, by decide⟩⟩

theorem witness_RecoveryCommandsRun :
    (∃ (c : Cmd) (s : State) (t : State), t = (s.begun opHeartbeatConfig).brakeCfg (parseBrake c) ∧ Clean opHeartbeatConfig c s ∧
      NoInput c ∧ cp c 0 1 ≤ 2 ∧ cp c 1 1 ≤ 2 ∧ 1 ≤ cp c 2 1 ∧ cp c 2 1 ≤ 15 ∧ cp c 2 1 + 1 ≤ cp c 3 1 ∧ cp c 3 1 ≤ 64 ∧
      1 ≤ cp c 4 2 ∧ cp c 4 2 ≤ 10000 ∧ 1 ≤ cp c 6 2 ∧ cp c 6 2 ≤ 6000 ∧ 1 ≤ cp c 8 2 ∧ cp c 8 2 ≤ 1000 ∧ 1 ≤ cp c 10 1 ∧
      cp c 10 1 ≤ 100 ∧ cp c 11 1 ≤ 1 ∧ 1 ≤ cp c 12 2 ∧ cp c 12 2 ≤ 1000 ∧ 1 ≤ cp c 14 2 ∧ cp c 14 2 ≤ 1000 ∧ 1 ≤ cp c 16 1 ∧
      cp c 16 1 ≤ 16 ∧ 1 ≤ cp c 18 2 ∧ cp c 18 2 ≤ 1440 ∧ cp c 20 1 ≤ 1 ∧ 1 ≤ cp c 21 1 ∧ cp c 21 1 ≤ 100 ∧ 1 ≤ cp c 22 1 ∧
      cp c 22 1 ≤ 100 ∧ cp c 23 1 ≤ 1 ∧ 1 ≤ cp c 24 2 ∧ cp c 24 2 ≤ 60000) ∧
    (∃ (c : Cmd) (s : State) (l : List Region), (l = (List.range (cp c 0 1)).map (fun i => parseRegion (cdata c 0) (16 * i))) ∧
      Clean opIngotConfig c s ∧ (ckData opIngotConfig c 0 (16 * cp c 0 1)).ok = true ∧ cp c 8 8 < 2 ^ 48 ∧ cp c 0 1 ≤ 64 ∧
      (∀ r ∈ l, r.level ≤ 2 ∧ r.addr < 2 ^ 48 ∧ 8 ≤ r.len ∧ r.len ≤ 1048576 ∧ r.len % 8 = 0) ∧
      (∀ i < cp c 0 1, rd (cdata c 0) (16 * i + 3) 1 = 0)) ∧
    (∃ (c : Cmd) (s : State), Clean opIngotTake c s ∧ NoInput c ∧ s.brake.capture = none ∧ s.brake.writing = none) ∧
    (∃ (c : Cmd) (s : State) (d : List Byte), d = ((s.ingotImage (cp c 0 1)).drop (cp c 4 4)).take (cp c 8 4) ∧
      Clean opIngotRead c s ∧ NoInput c ∧ (ckWrite opIngotRead c 0).ok = true ∧ (cp c 0 1 = 0 → s.isDie = true) ∧ cp c 0 1 ≤ 3) ∧
    (∃ (c : Cmd) (s : State), Clean opIngotClear c s ∧ NoInput c ∧ cp c 0 1 ≤ 2) ∧
    (∃ (c : Cmd) (s : State) (q : Search), Clean opContextResult c s ∧ NoInput c ∧ s.brake.search = some q ∧
      q.cur.toNat = cp c 0 4 ∧ cp c 4 1 ≤ 1) ∧
    (∃ (c : Cmd) (s : State), Clean opBrakeStatus c s ∧ NoInput c) :=
  ⟨⟨pk opHeartbeatConfig [(0, 1, 2), (1, 1, 2), (2, 1, 15), (3, 1, 64), (4, 2, 10000), (6, 2, 6000), (8, 2, 1000), (10, 1, 100), (11, 1, 1), (12, 2, 1000), (14, 2, 1000), (16, 1, 16), (18, 2, 1440), (20, 1, 1), (21, 1, 100), (22, 1, 100), (23, 1, 1), (24, 2, 60000)],
     up .die, _, rfl, by decide⟩,
   ⟨pk opIngotConfig [(0, 1, 1), (8, 8, 2 ^ 48 - 1)] regions, up .die, _, rfl, by decide⟩,
   ⟨pk opIngotTake [], up .die, by decide⟩,
   ⟨pk opIngotRead [(0, 1, 3), (8, 4, 4)], up .die, _, rfl, by decide⟩,
   ⟨pk opIngotClear [(0, 1, 2)], up .die, by decide⟩,
   ⟨pk opContextResult [(0, 4, 6), (4, 1, 1)], { up .die with brake := { brakeReset with search := some search6 } }, _, by decide,
     by decide, rfl, by decide⟩,
   ⟨pk opBrakeStatus [], up .die, by decide⟩⟩

theorem witness_TraceCommandsRun :
    (∃ (c : Cmd) (s : State), Clean opTraceConfig c s ∧ NoInput c ∧ cp c 32 1 < 16 ∧ cp c 33 1 ≤ 1 ∧ cp c 34 1 ≤ cp c 35 1 ∧
      cp c 35 1 ≤ cp c 36 1 ∧ cp c 36 1 ≤ 64 ∧ 1 ≤ cp c 38 2 ∧ cp c 38 2 ≤ 1000 ∧ 1 ≤ cp c 40 2 ∧ cp c 40 2 ≤ 10000) ∧
    (∃ (c : Cmd) (s : State), Clean opTraceAuth c s ∧ NoInput c ∧ 1 ≤ cp c 8 4 ∧ cp c 8 4 ≤ 86400 ∧ s.authRefused c = false) ∧
    (∃ (c : Cmd) (s : State) (l : List Nat),
      (l = (if s.trace.lockAt.isSome then [] else s.trace.refusals.filter fun t => decide (s.tb1Ns < t + hourNs)) ++ [s.tb1Ns]) ∧
      Clean opTraceAuth c s ∧ NoInput c ∧ 1 ≤ cp c 8 4 ∧ cp c 8 4 ≤ 86400 ∧ s.badToken c = true ∧ s.authLocked = false) ∧
    (∃ (c : Cmd) (s : State), Clean opTraceAuth c s ∧ NoInput c ∧ 1 ≤ cp c 8 4 ∧ cp c 8 4 ≤ 86400 ∧ s.badToken c = false ∧
      s.authLocked = true) ∧
    (∃ (c : Cmd) (s : State), Clean opTraceDeauth c s ∧ NoInput c) ∧
    (∃ (c : Cmd) (s : State), Clean opTraceStatus c s ∧ NoInput c) ∧
    (∃ (c : Cmd) (s : State) (e : WatchEnt) (w : Nat), e = parseWatch (cdata c 0) ∧ w = rd (cdata c 0) 0 1 ∧ Clean opWatchArm c s ∧
      (ckData opWatchArm c 0 64).ok = true ∧ watchEntOk (cdata c 0) e = true ∧ w < 64 ∧ 1 ≤ e.cap ∧ e.cap ≤ 268435456 ∧ 1 ≤ e.nelem) ∧
    (∃ (c : Cmd) (s : State), Clean opWatchDisarm c s ∧ NoInput c ∧ cp c 0 1 < 64 ∧ (tget s.trace.watches (cp c 0 1)).isSome = true) ∧
    (∃ (c : Cmd) (s : State), Clean opWatchRate c s ∧ NoInput c ∧ 1 ≤ cp c 0 2 ∧ cp c 0 2 ≤ 1000 ∧ 1 ≤ cp c 2 1 ∧ cp c 2 1 ≤ 64) ∧
    (∃ (c : Cmd) (s : State), Clean opWatchStatus c s ∧ NoInput c ∧ cp c 0 1 < 64) :=
  ⟨⟨pk opTraceConfig [(32, 1, 15), (33, 1, 1), (34, 1, 64), (35, 1, 64), (36, 1, 64), (38, 2, 1000), (40, 2, 10000)], up .die,
     by decide⟩,
   ⟨pk opTraceAuth [(0, 6, 7), (8, 4, 86400)], { up .die with conf := { confReset with secs := [(2, be 6 7)] } }, by decide⟩,
   ⟨pk opTraceAuth [(8, 4, 86400)], up .die, _, rfl, by decide⟩,
   ⟨pk opTraceAuth [(0, 6, 7), (8, 4, 86400)],
     { up .die with conf := { confReset with secs := [(2, be 6 7)] }, trace := { traceReset with lockAt := some (10 ^ 15) } },
     by decide⟩,
   ⟨pk opTraceDeauth [], up .die, by decide⟩,
   ⟨pk opTraceStatus [], up .die, by decide⟩,
   ⟨pk opWatchArm [] ([63, 5, 1, 3] ++ be 8 0 ++ be 4 268435456 ++ be 8 0 ++ be 8 (2 ^ 32) ++ be 8 0 ++ be 4 1 ++ List.replicate 20 0),
     up .die, _, _, rfl, rfl, by decide⟩,
   ⟨pk opWatchDisarm [(0, 1, 63)],
     { up .die with trace := { traceReset with watches := [(63, { ent := none, next := none, open' := none, dumps := 0, disc := [] })] } },
     by decide⟩,
   ⟨pk opWatchRate [(0, 2, 1000), (2, 1, 64)], up .die, by decide⟩,
   ⟨pk opWatchStatus [(0, 1, 63)], up .die, by decide⟩⟩

theorem witness_RecorderCommandsRun :
    (∃ (c : Cmd) (s : State) (r : List HRec × Nat), Clean opRecorderRead c s ∧ NoInput c ∧ (ckWrite opRecorderRead c 0).ok = true ∧
      cp c 6 1 ≤ 1 ∧ r = s.recorderRead (cp c 0 4) (cp c 4 2) (cp c 6 1 == 1)) ∧
    (∃ (c : Cmd) (s : State), Clean opRecorderStatus c s ∧ NoInput c) ∧
    (∃ (c : Cmd) (s : State), Clean opRecorderClear c s ∧ NoInput c ∧ (∀ t, s.hall.lastClear = some t → t + 60000000000 ≤ s.tb1Ns)) ∧
    (∃ (c : Cmd) (s : State) (p : State × Word), Clean opRecorderNote c s ∧ NoInput c ∧ cp c 1 1 ≤ 1 ∧ 0x80 ≤ cp c 0 1 ∧
      (p = (s.begun opRecorderNote).stageSeq (BitVec.ofNat 16 (0x1100 + cp c 0 1)) (if cp c 1 1 = 0 then .info else .notice) (cp c 2 1) (cp c 8 8) false)) ∧
    (∃ (c : Cmd) (s : State), Clean opRecorderConfig c s ∧ NoInput c ∧ 1 ≤ cp c 0 1 ∧ cp c 0 1 ≤ 64 ∧ 1 ≤ cp c 1 1 ∧ cp c 1 1 ≤ 16 ∧
      1 ≤ cp c 2 2 ∧ cp c 2 2 ≤ 3600 ∧ 16 ≤ cp c 4 2 ∧ cp c 4 2 ≤ 512 ∧ cp c 4 2 % 16 = 0) :=
  ⟨⟨pk opRecorderRead [(4, 2, 3), (6, 1, 1)], up .die, _, by decide, by decide, by decide, by decide, rfl⟩,
   ⟨pk opRecorderStatus [], up .die, by decide⟩,
   ⟨pk opRecorderClear [], up .die, by decide⟩,
   ⟨pk opRecorderNote [(0, 1, 128), (1, 1, 1)], up .die, _, by decide, by decide, by decide, by decide, rfl⟩,
   ⟨pk opRecorderConfig [(0, 1, 64), (1, 1, 16), (2, 2, 3600), (4, 2, 512)], up .die, by decide⟩⟩

theorem witness_PowerCommandsRun :
    (∃ (c : Cmd) (s : State), Clean opPowerBudget c s ∧ NoInput c ∧ cp c 0 2 ≤ 1920 ∧ s.gov.sumFloor 16 0 ≤ cp c 0 2) ∧
    (∃ (c : Cmd) (s : State) (m : MemberCfg),
      m = MemberCfg.mk (BitVec.ofNat 18 (cp c 4 4)) (cp c 8 2) (cp c 10 2) (cp c 12 1) (cp c 13 1) (cp c 14 1) ∧
      Clean opPowerMember c s ∧ NoInput c ∧ cp c 4 4 < 2 ^ 18 ∧ cp c 0 1 < 16 ∧ cp c 8 2 ≤ cp c 10 2 ∧ cp c 10 2 ≤ 1920 ∧
      1 ≤ cp c 12 1 ∧ cp c 13 1 < 128 ∧ s.gov.sumFloor (cp c 0 1) (cp c 8 2) ≤ s.gov.budgetNext.getD s.gov.budget) ∧
    (∃ (c : Cmd) (s : State), Clean opPowerStatic c s ∧ NoInput c ∧ cp c 0 2 ≤ 1920) ∧
    (∃ (c : Cmd) (s : State), Clean opPowerConfig c s ∧ NoInput c ∧ 5 ≤ cp c 0 2 ∧ cp c 0 2 ≤ 500 ∧
      (s.isTray = true → 1 ≤ cp c 2 2 ∧ cp c 2 2 ≤ 10000 ∧ 1 ≤ cp c 4 2 ∧ cp c 4 2 ≤ 10000 ∧ cp c 6 1 ≤ 2)) ∧
    (∃ (c : Cmd) (s : State), Clean opPowerStatus c s ∧ NoInput c ∧ s.isTray = false ∧ (s.isDie = false → cp c 0 1 < 16)) ∧
    (∃ (c : Cmd) (s : State) (m : GovMember), m = s.mem (cp c 0 1) ∧ Clean opPowerStatus c s ∧ NoInput c ∧ s.isTray = true ∧
      cp c 0 1 < 16) ∧
    (∃ (c : Cmd) (s : State), Clean opTemperConfig c s ∧ NoInput c ∧ 1 ≤ cp c 0 2 ∧ cp c 0 2 ≤ 1440 ∧ 4 ≤ cp c 2 1 ∧ cp c 2 1 ≤ 80 ∧
      1 ≤ cp c 3 1 ∧ cp c 3 1 ≤ 16 ∧ 1 ≤ cp c 4 1 ∧ cp c 4 1 ≤ 255 ∧ 1 ≤ cp c 5 1 ∧ cp c 5 1 ≤ 64 ∧ 1 ≤ cp c 6 1 ∧ cp c 6 1 ≤ 64 ∧
      1 ≤ cp c 8 2 ∧ cp c 8 2 ≤ 2000) ∧
    (∃ (c : Cmd) (s : State), Clean opMetroRead c s ∧ NoInput c ∧ (ckWrite opMetroRead c 0).ok = true ∧ cp c 0 1 ≤ 4) :=
  ⟨⟨pk opPowerBudget [(0, 2, 1920)], up .tray, by decide⟩,
   ⟨pk opPowerMember [(0, 1, 15), (4, 4, 262143), (8, 2, 1), (10, 2, 1920), (12, 1, 1), (13, 1, 127)],
     { up .tray with gov := { govReset with budget := 1920 } }, _, rfl, by decide⟩,
   ⟨pk opPowerStatic [(0, 2, 1920)], up .die, by decide⟩,
   ⟨pk opPowerConfig [(0, 2, 500), (2, 2, 10000), (4, 2, 10000), (6, 1, 2)], up .tray, by decide⟩,
   ⟨pk opPowerStatus [], up .die, by decide⟩,
   ⟨pk opPowerStatus [(0, 1, 15)], up .tray, _, rfl, by decide⟩,
   ⟨pk opTemperConfig [(0, 2, 1440), (2, 1, 80), (3, 1, 16), (4, 1, 255), (5, 1, 64), (6, 1, 64), (8, 2, 2000)], up .die, by decide⟩,
   ⟨pk opMetroRead [(0, 1, 4)], up .die, by decide⟩⟩

theorem witness_TestCommandsRun :
    (∃ (c : Cmd) (s : State) (d : List Byte × List Byte) (ids : List (BitVec 32)), d = testInputs c (cp c 6 1) ∧
      (ids = (List.range (cp c 6 1)).map (fun i => BitVec.ofNat 32 (rd d.2 (4 * i) 4))) ∧ (∀ i ∈ ids, (s.item i).isSome = true) ∧
      Clean opTestConfig c s ∧
      (if inlinePath c.path then (ckData opTestConfig c 0 (32 + 4 * cp c 6 1)).ok = true else (ckData opTestConfig c 0 32).ok = true ∧ (ckData opTestConfig c 1 (4 * cp c 6 1)).ok = true) ∧
      1 ≤ cp c 0 2 ∧ cp c 0 2 ≤ 2160 ∧ 1 ≤ cp c 2 2 ∧ cp c 2 2 ≤ 720 ∧ 1 ≤ cp c 4 2 ∧ cp c 4 2 ≤ 1440 ∧ cp c 6 1 ≤ 64) ∧
    (∃ (c : Cmd) (s : State) (r : TestReq), s.test.req = some r ∧ Clean opTestGrant c s ∧ NoInput c ∧ r.core = cp c 0 1 ∧
      1000 ≤ cp c 4 4 ∧ cp c 4 4 ≤ 10000000 ∧ r.est ≤ cp c 4 4 ∧ (∀ t, (s.tcore (cp c 0 1)).activeAt = some t → t + 103 < s.tb1Ns)) ∧
    (∃ (c : Cmd) (s : State) (r : TestReq), Clean opTestDefer c s ∧ NoInput c ∧ s.test.req = some r ∧ r.core = cp c 0 1) ∧
    (∃ (c : Cmd) (s : State) (w : TestWindow), Clean opTestDone c s ∧ NoInput c ∧ s.test.win = some w ∧ w.kind = 0 ∧
      w.core = cp c 0 1) ∧
    (∃ (c : Cmd) (s : State), Clean opTestClear c s ∧ NoInput c) ∧
    (∃ (c : Cmd) (s : State), Clean opTestStatus c s ∧ NoInput c) :=
  ⟨⟨pk opTestConfig [(0, 2, 2160), (2, 2, 720), (4, 2, 1440)] (List.replicate 32 0), up .die, _, _, rfl, rfl,
     by intro i h; rw [show cp (pk opTestConfig [(0, 2, 2160), (2, 2, 720), (4, 2, 1440)] (List.replicate 32 0)) 6 1 = 0 by decide] at h; exact absurd h List.not_mem_nil,
     by decide⟩,
   ⟨pk opTestGrant [(0, 1, 3), (4, 4, 10000000)],
     { up .die with test := { testReset with req := some { core := 3, item := 1, seg := 0, est := 1000, asked := 0 } } }, _, rfl,
     by decide⟩,
   ⟨pk opTestDefer [(0, 1, 3)],
     { up .die with test := { testReset with req := some { core := 3, item := 1, seg := 0, est := 1000, asked := 0 } } }, _,
     by decide, by decide, rfl, by decide⟩,
   ⟨pk opTestDone [(0, 1, 3)],
     { up .die with test := { testReset with win := some { core := 3, item := 1, seg := 0, kind := 0, step := 0, topen := 0, open1 := 0, winUs := 1000, ksig := 0, leaving := none } } },
     _, by decide, by decide, rfl, by decide⟩,
   ⟨pk opTestClear [], up .die, by decide⟩,
   ⟨pk opTestStatus [], up .die, by decide⟩⟩

theorem witness_UpdateCommandsRun :
    (∃ (c : Cmd) (s : State) (kind : Nat) (slot : Nat) (len : Nat), kind = cp c 0 1 ∧ slot = cp c 1 1 ∧ len = cp c 4 4 ∧
      Clean opUpdateStage c s ∧ kind ≤ 3 ∧ kindSlotOk kind slot = true ∧ cp c 2 1 ≤ 1 ∧
      (cp c 2 1 = 0 → inlinePath c.path = false ∧ (ckData opUpdateStage c 0 len).ok = true) ∧
      (cp c 2 1 = 1 → NoInput c ∧ (s.chain kind slot).isSome = true) ∧ len ≤ regionSize kind ∧
      (kind = 0 → slot ≠ s.hoist.running ∧ (s.dirEnt (dirIndex kind slot)).st ≠ .confirmed ∧ (s.dirEnt (dirIndex kind slot)).st ≠ .trial) ∧
      s.hoist.stage = none) ∧
    (∃ (c : Cmd) (s : State), Clean opUpdateChain c s ∧ NoInput c ∧ cp c 0 1 ≤ 3 ∧ kindSlotOk (cp c 0 1) (cp c 1 1) = true ∧
      cp c 4 4 < 2 ^ 18 ∧ cp c 8 4 < 2 ^ 18) ∧
    (∃ (c : Cmd) (s : State) (t : State),
      (t = ((s.begun opUpdateStart).modHoist fun h => { h with waitStart := some (cp c 0 1, s.tb1Ns, c.path, c.tag) }).takenOn opUpdateStart c 1 none) ∧
      Clean opUpdateStart c s ∧ NoInput c ∧ cp c 0 1 < 2 ∧ ((s.dirEnt (cp c 0 1)).st = .valid ∨ (s.dirEnt (cp c 0 1)).st = .trial) ∧
      cp c 0 1 ≠ s.hoist.running ∧ (s.isMaster = true → s.grantStands = false) ∧ s.hoist.waitStart = none ∧ s.hoist.trialAt = none) ∧
    (∃ (c : Cmd) (s : State), Clean opUpdateConfirm c s ∧ NoInput c ∧ s.hoist.trialAt.isSome = true ∧ s.fallDue = false) ∧
    (∃ (c : Cmd) (s : State), Clean opUpdateStatus c s ∧ NoInput c) :=
  ⟨⟨pk opUpdateStage [(0, 1, 3), (2, 1, 1), (4, 4, 64)],
     { up .die with hoist := { hoistReset with chains := [{ kind := 3, slot := 0, prev := 8, next := 10 }] } }, _, _, _, rfl, rfl,
     rfl, by decide⟩,
   ⟨pk opUpdateChain [(0, 1, 3), (4, 4, 262143), (8, 4, 262143)], up .die, by decide⟩,
   ⟨pk opUpdateStart [(0, 1, 1)],
     { up .die with flash := { flashDelivered with dir0 := { gen := 1, ok := true, ents := List.replicate 7 { dirErased with st := .valid } } } },
     _, rfl, by decide⟩,
   ⟨pk opUpdateConfirm [], { up .die with hoist := { hoistReset with trialAt := some (10 ^ 15) } }, by decide⟩,
   ⟨pk opUpdateStatus [], up .die, by decide⟩⟩

theorem witness_LinkRowsRun :
    (∃ (i : Iface) (s : State) (p : Second), s.engUp = true ∧ s.linkOk i.val = true ∧ s.pow.phase = .running ∧
      ((s.ifc i.val).second = some p)) ∧
    (∃ (i : Iface) (s : State) (t : State), s.engUp = true ∧ s.linkOk i.val = true ∧ s.pow.phase = .running ∧
      ((s.ifc i.val).second = none) ∧ t = s.beforeSelection i.val) ∧
    (∃ (i : Iface) (k : Fin 4) (s : State) (f : FwdFrame) (rest : List FwdFrame), s.engUp = true ∧
      (((s.ifc i.val).classQ k.val).fwd = f :: rest) ∧ f.arrived + 2000000000 < s.tb1Ns) ∧
    (∃ (x : Instr) (s : State) (n : Nat), (x = Instr.shaperRefill ∨ x = Instr.sluiceRefill) ∧ s.aoUp = true ∧ s.engUp = true ∧
      n = s.tb1Ns / 1000) ∧
    (∃ (x : Instr) (s : State), (x = Instr.shaperRefill ∨ x = Instr.sluiceRefill) ∧ s.aoUp = true ∧ s.engUp = false) ∧
    (∃ (s : State) (f : Nat × Nat × List Req) (rest : List (Nat × Nat × List Req)), s.engUp = true ∧ s.hop.flushes = f :: rest ∧
      (s.class1Empty = true ∨ f.2.1 + 2000000000 ≤ s.tb1Ns)) ∧
    (∃ (c : Fin 8) (s : State) (b : Nat) (t : State), b = gridAt ((s.scfg c.val).reconMs * 1000000) s.tb0Ns ∧ s.engUp = true ∧
      (s.scfg c.val).reconLast < b ∧
      (t = (s.modCfg c.val fun x => { x with reconLast := b, reconMs := x.reconNext.getD x.reconMs, reconNext := none }))) ∧
    (∃ (c : Fin 4) (s : State), s.aoUp = true ∧ (s.out c.val).lastEpoch + 999000000 ≤ s.tb1Ns ∧ s.pow.phase = .running) :=
  ⟨⟨1,
     { up .die with hop := { (up .die).hop with ifcs := (up .die).hop.ifcs.map fun f => { f with second := some { cls := 0, bytes := [0], dst := 9 } } } },
     _, by decide, by decide, by decide, rfl⟩,
   ⟨1, up .die, _, by decide, by decide, by decide, by decide, rfl⟩,
   ⟨1, 0,
     { up .die with hop := { (up .die).hop with ifcs := (up .die).hop.ifcs.map fun f => { f with cls := f.cls.map fun q => { q with fwd := [{ data := [], ovf := [], hops := [], arrived := 0, heldMark := false, cells := 0 }] } } } },
     _, [], by decide, rfl, by decide⟩,
   ⟨.sluiceRefill, up .die, _, .inr rfl, by decide, by decide, rfl⟩,
   ⟨.shaperRefill, { up .die with pow := { (up .die).pow with engHeld := true } }, .inl rfl, by decide⟩,
   ⟨{ up .die with hop := { (up .die).hop with flushes := [(0, 0, [])] } }, _, [], by decide, rfl, by decide⟩,
   ⟨0, up .die, _, _, rfl, by decide, by decide, rfl⟩,
   ⟨0, up .die, by decide⟩⟩

theorem witness_ModelRowsRun :
    (∃ (fleet : Bool) (s : State) (t : State), s.engUp = true ∧ s.pow.phase = .running ∧ t = s.skipWindows fleet) ∧
    (∃ (fleet : Bool) (s : State) (t : State), s.engUp = true ∧ s.combines = true ∧ t = s.switchDue.closeAll fleet) ∧
    (∃ (i : Fin 16) (s : State) (v : QVec) (key : Nat → QVec → Nat),
      (key = (fun (j : Nat) (w : QVec) => (w.stamp * 16 + j) * 2 ^ 18 + w.src.toNat)) ∧ s.engUp = true ∧
      (s.qh i.val).h.st = .active ∧ v ∈ (s.qh i.val).pend ∧
      (∀ j < 16, (s.qh j).h.st = .active → ∀ w ∈ (s.qh j).pend, (j = i.val ∧ w = v) ∨ key i.val v < key j w) ∧
      ((s.model.quern.map fun q => q.run.length).sum < 64)) ∧
    (∃ (i : Fin 16) (s : State) (v : QVec) (rest : List QVec) (m : QModel), s.engUp = true ∧ (s.qh i.val).run = v :: rest ∧
      (s.qh i.val).model = some m) ∧
    (∃ (mill : Bool) (i : Fin 16) (s : State) (a : Nat), s.engUp = true ∧ (s.hnd mill i.val).actAt = some a ∧ a ≤ s.tb0Ns ∧
      (s.hnd mill i.val).st = .loaded) ∧
    (∃ (mill : Bool) (i : Fin 16) (s : State) (h : Handle), h = s.hnd mill i.val ∧ s.engUp = true ∧ h.st = .loading ∧ h.lsrc ≠ 2) ∧
    (∃ (mill : Bool) (i : Fin 16) (s : State) (h : Handle), h = s.hnd mill i.val ∧ s.engUp = true ∧ h.st = .loading ∧ h.lsrc = 2 ∧
      h.next = 0 ∧ h.loadAt + s.hoistWait ≤ s.tb1Ns) ∧
    (∃ (ch : Fin 4096) (s : State) (c : Channel) (i : MInput) (m : MModel), s.chan ch.val = some c ∧ s.engUp = true ∧
      c.running = none ∧ i ∈ c.pend ∧
      (∀ e ∈ s.model.chans, e.2.running = none → ∀ j ∈ e.2.pend, (e.1 = ch.val ∧ j = i) ∨ i.stamp * 4096 + ch.val < j.stamp * 4096 + e.1) ∧
      s.millActive (c.stepHandle i.stamp) = some m) ∧
    (∃ (ch : Fin 4096) (s : State) (c : Channel) (i : MInput), s.engUp = true ∧ s.chan ch.val = some c ∧ c.running = some i) ∧
    (∃ (path : Path) (tag : BitVec 16) (s : State) (r : Rollout), s.engUp = true ∧
      (s.model.rollouts.find? (fun x => x.path == path && x.tag == tag) = some r)) ∧
    (∃ (i : Fin 16) (s : State) (due : HeldVec → Bool),
      (due = (fun (v : HeldVec) => v.set == i.val && s.past0 (v.stamp + s.model.residWait))) ∧ s.engUp = true ∧
      s.model.held.any due = true) ∧
    (∃ (i : Fin 16) (src : Laddr) (s : State) (due : List Asm) (t : State),
      (due = (s.model.remote.filter fun a => a.src == src && s.past0 (a.stamp + s.model.eachWait))) ∧
      (t = due.foldl (fun t a => if (t.eachTakers a).contains i.val then t.startEach i.val a else t) s.switchDue) ∧ s.engUp = true) ∧
    (∃ (i : Fin 16) (s : State) (t : State) (x : SampleSet) (b : Nat) (n : Nat), t = s.switchDue ∧ x = t.set i.val ∧
      b = gridAt x.win t.tb0Ns ∧ n = x.passed t.tb0Ns + x.merged ∧ t.aoUp = true ∧ x.lastK < b ∧
      (i.val ≠ 0 → t.engUp = true ∧ t.pow.pstate = .run ∧ t.pow.entry = none) ∧ x.running = true ∧ x.baseline = false) ∧
    (∃ (i : Fin 16) (s : State) (t : State) (x : SampleSet) (b : Nat), t = s.switchDue ∧ x = t.set i.val ∧
      b = gridAt x.win t.tb0Ns ∧ t.aoUp = true ∧ x.lastK < b ∧
      (i.val ≠ 0 → t.engUp = true ∧ t.pow.pstate = .run ∧ t.pow.entry = none) ∧ x.running = false) ∧
    (∃ (i : Fin 16) (s : State) (t : State) (x : SampleSet) (b : Nat) (n : Nat), t = s.switchDue ∧ x = t.set i.val ∧
      b = gridAt x.win t.tb0Ns ∧ n = x.passed t.tb0Ns + x.merged ∧ t.aoUp = true ∧ x.lastK < b ∧
      (i.val ≠ 0 → t.engUp = true ∧ t.pow.pstate = .run ∧ t.pow.entry = none) ∧ x.running = true ∧ x.baseline = true) :=
  ⟨⟨false, up .die, _, by decide, by decide, rfl⟩,
   ⟨false,
     { up .tray with crown := { crownReset with tray := { levelReset with closing := [{ n := 1, t0 := 0, t1 := 10 ^ 7, defs := [], trees := [], missed := true, done := [] }] } } },
     _, by decide, by decide, rfl⟩,
   ⟨15, { up .die with model := { quernAt .active with quern := (quernAt .active).quern.map fun q => { q with pend := [qvec] } } },
     qvec, _, rfl, by decide⟩,
   ⟨15, { up .die with model := { quernAt .active with quern := (quernAt .active).quern.map fun q => { q with run := [qvec] } } },
     _, [], _, by decide, rfl, rfl⟩,
   ⟨false, 15,
     { up .die with model := { modelReset with quern := modelReset.quern.map fun q => { q with h := { q.h with st := .loaded, actAt := some (10 ^ 15) } } } },
     _, by decide, rfl, by decide⟩,
   ⟨true, 15,
     { up .die with model := { modelReset with mill := modelReset.mill.map fun q => { q with h := { handleReset with st := .loading } } } },
     _, rfl, by decide⟩,
   ⟨true, 15,
     { up .die with model := { modelReset with mill := modelReset.mill.map fun q => { q with h := { handleReset with st := .loading, lsrc := 2 } } } },
     _, rfl, by decide⟩,
   ⟨4095,
     { up .die with model := { millAt .active with chans := [(4095, { channel with pend := [{ input with stamp := 2 }, input] })] } },
     _, input, mmodel, rfl, by decide⟩,
   ⟨4095, { up .die with model := { millAt .active with chans := [(4095, { channel with running := some input })] } }, _, _,
     by decide, rfl, rfl⟩,
   ⟨.fabric 9 .fm 0, 7,
     { up .die with model := { modelReset with rollouts := [{ path := .fabric 9 .fm 0, tag := 7, ch := 0, stamp := 0, cep := 0, n := 1, vals := [] }] } },
     _, by decide, rfl⟩,
   ⟨15,
     { up .die with model := { modelReset with held := [{ set := 15, stamp := 0, flags := 0, nwin := 1, codes := [], resid := [] }] } },
     _, rfl, by decide⟩,
   ⟨0, 0, up .die, _, _, rfl, rfl, by decide⟩,
   ⟨15, { up .die with coll := { collReset with sets := List.replicate 16 (setReset true) } }, _, _, _, _, rfl, rfl, rfl, rfl,
     by decide +kernel⟩,
   ⟨15, up .die, _, _, _, rfl, rfl, rfl, by decide +kernel⟩,
   ⟨0, { up .die with coll := { collReset with sets := List.replicate 16 { setReset true with baseline := true } } }, _, _, _, _,
     rfl, rfl, rfl, rfl, by decide +kernel⟩⟩

theorem witness_VerdictRowsRun :
    (∃ (fleet : Bool) (s : State) (t : State), s.aoUp = true ∧ ((s.holder fleet).k + 1) * 1000000000 ≤ s.tb1Ns ∧
      (s.holder fleet).demoted = [] ∧
      (t = (s.modHolder fleet fun h => { h with k := h.k + 1, tokens := min (h.depth * 3600000) (h.tokens + h.rate) }))) ∧
    (∃ (fleet : Bool) (s : State) (t : State) (v : VRec) (rest : List VRec), t = s.expelRefill fleet ∧ t.engUp = true ∧
      (t.holder fleet).demoted = v :: rest ∧ 3600000 ≤ (t.holder fleet).tokens ∧ t.past1 ((t.holder fleet).k * 1000000000) = true) ∧
    (∃ (job : Word) (coll : BitVec 16) (step : Dword) (s : State) (i : Inst), s.engUp = true ∧ s.judges job = true ∧
      s.verd.insts.find? (sameInst job coll step) = some i ∧ s.past0 (i.opened + s.verd.arrWait) = true) ∧
    (∃ (job : Word) (coll : BitVec 16) (step : Dword) (s : State) (i : Inst), s.verd.insts.find? (sameInst job coll step) = some i ∧
      s.engUp = true ∧ s.judges job = false ∧ i.opened + s.verd.arrWait / 4 ≤ s.tb0Ns ∧ s.arrivalsReady i = true ∧
      (∃ a ∈ i.arrivals, a.addr ∉ i.sent)) ∧
    (∃ (s : State), s.engUp = true) ∧
    (∃ (die : Laddr) (s : State) (t : State) (d : DieView) (due : List Dis), s.engUp = true ∧ s.isMaster = true ∧
      t = s.reviewDie die ∧ tget t.verd.dies die.toNat = some d ∧
      (due = (d.dis.filter fun x => !x.onset && s.past1 (x.since1 + s.verd.disHold)))) ∧
    (∃ (step : Dword) (s : State) (x : TStep) (e : Nat), s.engUp = true ∧ s.tstep step = some x ∧ x.closed = false ∧
      x.ended = some e ∧ s.past1 (e + s.sentry.settle) = true) ∧
    (∃ (step : Dword) (s : State) (x : TStep), s.engUp = true ∧ s.tstep step = some x ∧ (x.rep = .partner ∨ x.rep = .alternate) ∧
      s.past1 (x.asked + s.sentry.replayTo) = true) :=
  ⟨⟨true, up .die, _, by decide, by decide, by decide, rfl⟩,
   ⟨true, { up .die with verd := { verdictReset with fleet := { holderReset 1000 with demoted := [demotedV] } } }, _, _, [], rfl,
     by decide, rfl, by decide⟩,
   ⟨5, 0, 1,
     { up .die with verd := { verdictReset with insts := [inst5], jobs := [(5, { job := 5, judge := 0, members := [] })] } }, _,
     by decide, by decide, rfl, by decide⟩,
   ⟨5, 0, 1,
     { up .die with verd := { verdictReset with insts := [inst5], jobs := [(5, { job := 5, judge := 8, members := [] })] } }, _,
     rfl, by decide⟩,
   ⟨up .die, by decide⟩,
   ⟨9,
     { up .tray with verd := { verdictReset with dies := [(9, { hangConf := false, gasp := false, lastRec := 0, lastFab := 0, dis := [] })] } },
     _, _, _, by decide, by decide, rfl, rfl, rfl⟩,
   ⟨1, { up .die with sentry := { sentryReset with steps := [step1] } }, _, _, by decide, rfl, by decide, rfl, by decide⟩,
   ⟨1, { up .die with sentry := { sentryReset with steps := [step1] } }, _, by decide, rfl, .inl (by decide), by decide⟩⟩

theorem witness_TracePortRowsRun :
    (∃ (f : Snoop) (s : State) (x : TStep), s.isDie = true ∧ s.engUp = true ∧ s.portUp .stamp = true ∧ f.replay = false ∧
      ((s.sentry.steps.find? fun y => !y.closed && y.step.toNat % 256 == f.stepLo.toNat && y.stats.any fun w => w.wid == f.wid.toNat) = some x)) ∧
    (∃ (p : TrcPacket) (s : State), s.trcReady = true ∧ tpGood p = true ∧ tpKind p < 3) ∧
    (∃ (p : TrcPacket) (s : State), s.trcReady = true ∧ tpGood p = false) ∧
    (∃ (p : TrcPacket) (s : State) (t : State) (job : BitVec 32) (step : BitVec 64), job = BitVec.ofNat 32 (tpWord p 0 / 2 ^ 32) ∧
      step = BitVec.ofNat 64 (tpWord p 1) ∧
      (t = (s.modTrace fun u => { u with lastStep := step }).sentryMark job step false false (BitVec.ofNat 18 (tpWord p 0))) ∧
      s.trcReady = true ∧ tpGood p = true ∧ tpKind p = 0x10 ∧ bit (tpArg p) 38 = false ∧ bit (tpArg p) 39 = false) ∧
    (∃ (p : TrcPacket) (s : State) (t : State) (job : BitVec 32) (step : BitVec 64), job = BitVec.ofNat 32 (tpWord p 0 / 2 ^ 32) ∧
      step = BitVec.ofNat 64 (tpWord p 1) ∧ t = s.sentryMark job step true false (BitVec.ofNat 18 (tpWord p 0)) ∧
      s.trcReady = true ∧ tpGood p = true ∧ tpKind p = 0x10 ∧ bit (tpArg p) 38 = false ∧ bit (tpArg p) 39 = true) ∧
    (∃ (p : TrcPacket) (s : State) (t : State) (job : BitVec 32) (step : BitVec 64) (subj : BitVec 18), s.trcReady = true ∧
      tpGood p = true ∧ tpKind p = 0x10 ∧ bit (tpArg p) 38 = true ∧ job = BitVec.ofNat 32 (tpWord p 0 / 2 ^ 32) ∧
      step = BitVec.ofNat 64 (tpWord p 1) ∧ subj = BitVec.ofNat 18 (tpWord p 0) ∧
      (t = (s.modTrace fun u => { u with replays := if bit (tpArg p) 39 then u.replays.filter fun x => !(x == (job, step, subj)) else if u.replays.contains (job, step, subj) then u.replays else u.replays ++ [(job, step, subj)] }).sentryMark job step (bit (tpArg p) 39) true subj)) ∧
    (∃ (p : TrcPacket) (s : State) (job : BitVec 32), s.trcReady = true ∧ tpGood p = true ∧ tpKind p = 0x11 ∧ s.isMaster = false ∧
      job = BitVec.ofNat 32 (tpWord p 0 / 2 ^ 32)) ∧
    (∃ (p : TrcPacket) (s : State) (t : State), s.trcReady = true ∧ tpGood p = true ∧ tpKind p = 0x12 ∧ t = s.switchDue ∧
      (∀ e ∈ t.model.chans, e.2.kind = 2 → e.2.stream ≠ bits (tpArg p) 35 24)) ∧
    (∃ (p : TrcPacket) (s : State) (t : State) (e : Nat × Channel) (v : Nat → Nat), t = s.switchDue ∧
      (v = (fun (i : Nat) => if i = 1 then tpWord p 1 / 2 ^ 32 else if i = 2 then tpWord p 1 % 2 ^ 32 else if i = 3 then tpWord p 2 / 2 ^ 32 else tpWord p 2 % 2 ^ 32)) ∧
      t.model.chans = [e] ∧ s.trcReady = true ∧ tpGood p = true ∧ tpKind p = 0x12 ∧ e.2.kind = 2 ∧
      e.2.stream = bits (tpArg p) 35 24) ∧
    (∃ (p : TrcPacket) (s : State) (t : State) (w : Nat) (d : Dump) (e : WatchEnt), t = s.tensorRefill ∧ t.trcReady = true ∧
      tpGood p = true ∧ tpKind p = 0x20 ∧ w = bits (tpArg p) 39 34 ∧ (t.twatch w).ent = some e ∧ (t.twatch w).open' = some d ∧
      t.trace.replays ≠ []) ∧
    (∃ (p : TrcPacket) (s : State) (t : State) (w : Nat) (data : List Byte) (e : WatchEnt) (d : Dump) (k : Nat),
      t = s.tensorRefill ∧ w = bits (tpArg p) 39 34 ∧ (t.twatch w).ent = some e ∧ (t.twatch w).open' = some d ∧
      k = snoopSize e.etype ∧ (data = ((p.words.drop 1).map fun v => be 8 v.toNat).flatten) ∧ t.trcReady = true ∧ tpGood p = true ∧
      tpKind p = 0x20 ∧ t.trace.replays = [] ∧ t.traceOcc + 8 + 8 * tpNw p ≤ t.trace.limit (tpClass p) ∧
      e.posLo ≤ tpArg p % 2 ^ 24 ∧ tpArg p % 2 ^ 24 ≤ e.posHi ∧ e.offLo ≤ tpWord p 0 ∧
      tpWord p 0 + data.length / k ≤ e.offLo + e.nelem ∧ data.length ≤ d.left ∧ data.length ≤ t.trace.tokens ∧ d.data = []) :=
  ⟨⟨{ wid := 3, stepLo := 1, replay := false, boff := 0, data := [] },
     { up .die with sentry := { sentryReset with steps := [{ step1 with stats := [{ wid := 3, entry := 0, n := 0, nzero := 0, nnan := 0, ninf := 0, nrange := 0, sumexp := 0, maxabs := 0, digest := 0, checks := 0 }] }] } },
     _, by decide, by decide, by decide, by decide, rfl⟩,
   ⟨{ header := BitVec.ofNat 64 (2 * 2 ^ 58 + 0 * 2 ^ 48 + 1 * 2 ^ 42 + 0), words := [1] }, up .die, by decide⟩,
   ⟨{ header := BitVec.ofNat 64 (3 * 2 ^ 58 + 0 * 2 ^ 48 + 0 * 2 ^ 42 + 0), words := [] }, up .die, by decide⟩,
   ⟨{ header := BitVec.ofNat 64 (16 * 2 ^ 58 + 2 * 2 ^ 48 + 2 * 2 ^ 42 + 0), words := [2 ^ 32, 7] }, up .die, _, _, _, rfl, rfl,
     rfl, by decide⟩,
   ⟨{ header := BitVec.ofNat 64 (16 * 2 ^ 58 + 2 * 2 ^ 48 + 2 * 2 ^ 42 + 2 ^ 39), words := [2 ^ 32, 7] }, up .die, _, _, _, rfl,
     rfl, rfl, by decide⟩,
   ⟨{ header := BitVec.ofNat 64 (16 * 2 ^ 58 + 2 * 2 ^ 48 + 2 * 2 ^ 42 + 2 ^ 38), words := [2 ^ 32, 7] }, up .die, _, _, _, _,
     by decide, by decide, by decide, by decide, rfl, rfl, rfl, rfl⟩,
   ⟨{ header := BitVec.ofNat 64 (17 * 2 ^ 58 + 2 * 2 ^ 48 + 2 * 2 ^ 42 + 0), words := [2 ^ 32, 7] }, up .die, _, by decide,
     by decide, by decide, by decide, rfl⟩,
   ⟨{ header := BitVec.ofNat 64 (18 * 2 ^ 58 + 2 * 2 ^ 48 + 3 * 2 ^ 42 + 0), words := [2 ^ 32, 7, 8] }, up .die, _, by decide,
     by decide, by decide, rfl, by decide +kernel⟩,
   ⟨{ header := BitVec.ofNat 64 (18 * 2 ^ 58 + 2 * 2 ^ 48 + 3 * 2 ^ 42 + 0), words := [2 ^ 32, 7, 8] },
     { up .die with model := { modelReset with chans := [(4095, { channel with kind := 2 })] } }, _,
     (4095, { channel with kind := 2 }), _, rfl, rfl, by decide +kernel, by decide⟩,
   ⟨{ header := BitVec.ofNat 64 (32 * 2 ^ 58 + 2 * 2 ^ 48 + 2 * 2 ^ 42 + 63 * 2 ^ 34 + 5), words := [0, 7] },
     { up .die with trace := { traceReset with replays := [(5, 1, 0)], watches := [(63, { ent := some watchE, next := none, open' := some dump0, dumps := 1, disc := [] })] } },
     _, _, _, _, rfl, by decide, by decide, by decide, rfl, rfl, rfl, by decide⟩,
   ⟨{ header := BitVec.ofNat 64 (32 * 2 ^ 58 + 2 * 2 ^ 48 + 2 * 2 ^ 42 + 63 * 2 ^ 34 + 5), words := [0, 7] },
     { up .die with trace := { traceReset with watches := [(63, { ent := some watchE, next := none, open' := some dump0, dumps := 1, disc := [] })] } },
     _, _, _, _, _, _, rfl, rfl, rfl, rfl, rfl, rfl, by decide⟩⟩

theorem witness_TraceRowsRun :
    (∃ (s : State) (k : Nat) (t : State), k = gridAt s.trace.syncP s.tb0Past ∧ s.engUp = true ∧ s.trcReady = true ∧
      s.trace.syncK < k ∧
      (t = (s.modTrace fun u => { u with syncK := k, syncP := u.syncNext.getD u.syncP, syncNext := none }).fullIfDue)) ∧
    (∃ (cls : Bool) (s : State) (r : TrRec), s.engUp = true ∧ ((if cls then s.trace.open3 else s.trace.open2) = some r) ∧
      s.past1 (r.opened + s.trace.flush) = true) ∧
    (∃ (s : State) (a : TrAuth), s.aoUp = true ∧ s.trace.auth = some a ∧ a.til ≤ s.tb0Ns) ∧
    (∃ (s : State) (t : Nat), s.aoUp = true ∧ s.trace.lockAt = some t ∧ t + hourNs ≤ s.tb1Ns) :=
  ⟨⟨up .die, _, _, rfl, by decide, by decide, by decide, rfl⟩,
   ⟨true, { up .die with trace := { traceReset with open3 := some { ents := [], opened := 0 } } }, _, by decide, rfl, by decide⟩,
   ⟨{ up .die with trace := { traceReset with auth := some { mask := 0, since := 0, before := 0, til := 10 ^ 15 } } }, _, by decide,
     rfl, by decide⟩,
   ⟨{ up .die with trace := { traceReset with lockAt := some 0 } }, _, by decide, rfl, by decide⟩⟩

theorem witness_RecorderRowsRun :
    (∃ (s : State) (e : HEnt) (t : State), s.aoUp = true ∧ (s.hall.ents.find? (fun x => x.begun && !x.written) = some e) ∧
      s.hall.nextSlot + 1 < 128 ∧
      (t = ((s.programRec (s.hall.head * 128 + s.hall.nextSlot) e.r).modHall fun h => { h with log := tput h.log (h.head * 128 + h.nextSlot) (.holds e.r), nextSlot := h.nextSlot + 1, ents := markEnt h.ents e.r.seq fun x => { x with written := true } }))) ∧
    (∃ (s : State) (e : HEnt) (t : State) (u : State), s.aoUp = true ∧
      (s.hall.ents.find? (fun x => x.begun && !x.written) = some e) ∧ s.hall.nextSlot = 127 ∧
      (t = ((s.programRec (s.hall.head * 128 + s.hall.nextSlot) e.r).modHall fun h => { h with log := tput h.log (h.head * 128 + h.nextSlot) (.holds e.r), nextSlot := h.nextSlot + 1, ents := markEnt h.ents e.r.seq fun x => { x with written := true } })) ∧
      (u = (List.range (carryList t.hall.log (clearSeq t.hall.all) ((t.hall.head + 2) % 32)).length).foldl (fun v i => match (carryList t.hall.log (clearSeq t.hall.all) ((t.hall.head + 2) % 32))[i]? with | some x => v.programRec ((t.hall.head + 1) % 32 * 128 + i) { x with carried := true } | none => v) t)) ∧
    (∃ (code : BitVec 16) (s : State) (b : HBucket) (n : Nat), s.aoUp = true ∧
      (s.hall.buckets.find? (fun x => x.code == code) = some b) ∧ b.nextAt ≤ s.tb1Ns ∧
      (∀ x ∈ s.hall.buckets, x.code = code → x = b) ∧ n = (s.tb1Ns - b.nextAt) / (s.hall.rlInt * 1000000000) + 1) ∧
    (∃ (code : BitVec 16) (s : State) (b : HBucket) (n : Nat), s.aoUp = true ∧
      (s.hall.buckets.find? (fun x => x.code == code) = none) ∧ b = s.hall.common ∧ b.nextAt ≤ s.tb1Ns ∧
      n = (s.tb1Ns - b.nextAt) / 1000000000 + 1) ∧
    (∃ (s : State), s.aoUp = true ∧ s.hall.flashAt + 1000000000 ≤ s.tb1Ns) ∧
    (∃ (s : State) (o : Nat) (t : State), s.aoUp = true ∧ s.hall.optAt + 360000000000 ≤ s.tb1Ns ∧ o = satAdd 24 s.hall.opt.toNat 1 ∧
      (t = (s.modHall fun h => { h with opt := BitVec.ofNat 24 o, optAt := h.optAt + 360000000000 }))) :=
  ⟨⟨{ up .die with hall := { hallReset [] with ents := [{ r := hrec, written := false, copied := false, begun := true }], nextSlot := 126 } },
     _, _, by decide, rfl, by decide, rfl⟩,
   ⟨{ up .die with hall := { hallReset [] with ents := [{ r := hrec, written := false, copied := false, begun := true }], nextSlot := 127 } },
     _, _, _, by decide, rfl, by decide, rfl, rfl⟩,
   ⟨0x0101, { up .die with hall := { hallReset [] with buckets := [{ (hallReset []).common with code := 0x0101 }] } }, _, _,
     by decide, rfl, by decide, by decide, rfl⟩,
   ⟨0x0101, up .die, _, _, by decide, by decide, rfl, by decide, rfl⟩,
   ⟨up .die, by decide⟩,
   ⟨up .die, _, _, by decide, by decide, rfl, rfl⟩⟩

theorem witness_TemperRowsRun :
    (∃ (temp : Int) (s : State) (b : Nat), b = gridAt (s.temper.period * 60000000000) s.tb0Ns ∧ s.aoUp = true ∧ s.ctlUp = true ∧
      s.engUp = true ∧ s.temper.lastK < b ∧ (∀ w, s.test.win = some w → w.kind = 0) ∧
      temp - Config.temperT0 ≤ (s.temper.band : Int) ∧ Config.temperT0 - temp ≤ (s.temper.band : Int)) ∧
    (∃ (s : State) (temp : Int), s.temper.busy = some temp ∧ s.ctlUp = true ∧ s.engUp = true) :=
  ⟨⟨Config.temperT0, up .die, _, rfl, by decide, by decide, by decide, by decide, (fun w h => nomatch h),
     by rw [Int.sub_self]; decide, by rw [Int.sub_self]; decide⟩,
   ⟨{ up .die with temper := { temperReset with busy := some 100 } }, 100, by decide⟩⟩

theorem witness_AssayRowsRun :
    (∃ (s : State), s.metro.up = false) ∧
    (∃ (data : List Byte) (s : State), s.metro.up = true ∧ s.metro.calOpen = true ∧ s.metro.banks.length < 4 ∧ data.length = 52) ∧
    (∃ (s : State), s.metro.up = true ∧ s.metro.convK < s.metro.ns / 125000 ∧ s.metro.conv = none) ∧
    (∃ (s : State) (t : Nat), s.metro.up = true ∧ s.metro.convK < s.metro.ns / 125000 ∧ s.metro.conv = some t) ∧
    (∃ (v : BitVec 24) (i : BitVec 24) (s : State) (t : Nat) (cv : Int) (ci : Int) (k : CalBank) (p : Int), s.metro.up = true ∧
      s.metro.conv = some t ∧ s.metro.ns ≤ t + 100000 ∧ cv = signed 24 v.toNat ∧ ci = signed 24 i.toNat ∧ k = s.metro.cal ∧
      p = (cv - k.offV) * (ci - k.offI)) ∧
    (∃ (s : State) (t : Nat), s.metro.up = true ∧ s.metro.conv = some t ∧ t + 100000 < s.metro.ns) ∧
    (∃ (s : State) (b : List Byte), s.metro.up = true ∧ (s.metro.pulseDue = true ∨ s.metro.lastFrame + 1250000000 ≤ s.metro.ns) ∧
      b = s.metro.frame (s.metro.rseq + 1)) :=
  ⟨⟨up .die, by decide⟩,
   ⟨List.replicate 52 0, { up .die with metro := { metroReset [] with up := true, calOpen := true } }, by decide⟩,
   ⟨{ up .die with metro := { metroReset [] with up := true, tb3 := 10 ^ 12 * 2 ^ 16 } }, by decide⟩,
   ⟨{ up .die with metro := { metroReset [] with up := true, conv := some 0, tb3 := 10 ^ 12 * 2 ^ 16 } }, _, by decide, by decide,
     rfl⟩,
   ⟨0, 0, { up .die with metro := { metroReset [] with up := true, conv := some 0 } }, _, _, _, _, _, by decide, rfl, by decide,
     rfl, rfl, rfl, rfl⟩,
   ⟨{ up .die with metro := { metroReset [] with up := true, conv := some 0, tb3 := 10 ^ 12 * 2 ^ 16 } }, _, by decide, rfl,
     by decide⟩,
   ⟨{ up .die with metro := { metroReset [] with up := true, pulseDue := true } }, _, by decide, by decide, rfl⟩⟩

theorem witness_BrakeRowsRun :
    (∃ (s : State), s.portUp .hb = true ∧ s.brake.cfg.src ≠ 0 ∧ s.hbStopped = false) ∧
    (∃ (s : State) (k : Nat) (t : State), k = gridAt s.brake.cfg.period s.tb0Past ∧ s.aoUp = true ∧ s.brake.hbK < k ∧
      (t = (s.modBrake fun b => { b with hbK := k, hbSteps := s.time.steps, beaten := false, cfg := { b.cfg with period := b.hbNext.getD b.cfg.period }, hbNext := none }))) ∧
    (∃ (s : State) (t : Nat), s.aoUp = true ∧ s.brake.watch = .waiting (some t) ∧ s.past1 (t + s.brake.cfg.bootTo) = true) ∧
    (∃ (s : State) (e : EngHang), s.aoUp = true ∧ s.brake.eng = some e ∧ s.past1 (e.since + s.brake.cfg.engConfTo) = true) ∧
    (∃ (m : Laddr) (s : State) (b : BlockBeat) (k : Nat), k = gridAt (s.brake.blkP b.k) s.tb0Past ∧
      (s.brake.blocks.find? (fun x => x.addr == m) = some b) ∧ s.aoUp = true ∧ s.isMaster = true ∧
      (s.sys.members.any (fun x => x.addr == m) = true) ∧ b.k < k) ∧
    (∃ (s : State) (k : Nat), k = s.tb1Ns / 1000000 ∧ s.aoUp = true ∧ k ≠ s.brake.intK ∧ s.ctlUp = true ∧ s.brake.ctlMiss = 3) ∧
    (∃ (s : State) (k : Nat), k = s.tb1Ns / 1000000 ∧ s.aoUp = true ∧ k ≠ s.brake.intK) ∧
    (∃ (s : State) (l : Ladder) (t : Nat), s.aoUp = true ∧ s.brake.ladder = some l ∧ l.rung = .recover t ∧
      s.past1 (t + s.brake.cfg.recovTo) = true) ∧
    (∃ (s : State), s.aoUp = true) ∧
    (∃ (s : State) (t : State), s.aoUp = true ∧ s.ignored s.brake.reqWarm = true ∧ s.ignored s.brake.reqCold = false ∧
      s.brake.ladder = none ∧ (t = (s.modBrake fun b => { b with reqWarm := none }).stage 0x0A02 .fault 0 0)) ∧
    (∃ (s : State) (t : State), (t = (s.modBrake fun b => { b with reqCold := none }).stage 0x0A02 .fault 1 0) ∧ s.aoUp = true ∧
      s.ignored s.brake.reqWarm = false ∧ s.ignored s.brake.reqCold = true ∧ s.sys.oos = false ∧ s.brake.ladder = none) ∧
    (∃ (s : State), s.aoUp = true ∧ s.sys.oos = false ∧ s.mayRelease s.brake.reqCold = true) ∧
    (∃ (s : State), s.aoUp = true ∧ s.mayRelease s.brake.reqWarm = true) :=
  ⟨⟨{ up .die with brake := { brakeReset with cfg := { brakeCfgReset with src := 2 } } }, by decide⟩,
   ⟨up .die, _, _, rfl, by decide, by decide, rfl⟩,
   ⟨{ up .die with brake := { brakeReset with watch := .waiting (some 0) } }, 0, by decide⟩,
   ⟨{ up .die with brake := { brakeReset with eng := some { core := 0, engine := 1, since := 0, extra := 0 } } }, _, by decide, rfl,
     by decide⟩,
   ⟨9,
     { up .tray with brake := { brakeReset with blocks := [{ addr := 9, miss := 0, beaten := false, closed := false, k := 0, steps := 0 }] }, sys := { sysReset .tray with members := [{ ifc := 1, addr := 9, phys := 1 }] } },
     _, _, rfl, rfl, by decide⟩,
   ⟨{ up .die with brake := { brakeReset with ctlMiss := 3 } }, _, rfl, by decide⟩,
   ⟨up .die, _, rfl, by decide⟩,
   ⟨{ up .die with brake := { brakeReset with ladder := some { source := 1, vid := 7, core := 0xFF, engine := 0xFF, extra := 0, drill := false, oos := false, rung := .recover 0 } } },
     _, 0, by decide, rfl, by decide⟩,
   ⟨up .die, by decide⟩,
   ⟨{ up .die with brake := { brakeReset with reqWarm := some { since := 0, seen := false } } }, _, by decide, by decide, by decide,
     by decide, rfl⟩,
   ⟨{ up .die with brake := { brakeReset with reqCold := some { since := 0, seen := false } } }, _, rfl, by decide⟩,
   ⟨{ up .die with brake := { brakeReset with reqCold := some { since := 0, seen := true } } }, by decide⟩,
   ⟨{ up .die with brake := { brakeReset with reqWarm := some { since := 0, seen := true } } }, by decide⟩⟩

theorem witness_RecoveryRowsRun :
    (∃ (i : Iface) (s : State) (t : Nat) (m : Member), s.engUp = true ∧ s.isMaster = true ∧ ((s.ifc i.val).downAt = some t) ∧
      (s.sys.members.find? (fun m => m.ifc == i.val && i.val != 0) = some m) ∧ s.past1 (t + 10000) = true ∧
      (match tget s.verd.dies m.addr.toNat with | some d => t ≤ d.lastFab | none => False)) ∧
    (∃ (i : Iface) (s : State) (t : Nat) (m : Member), s.engUp = true ∧ s.isMaster = true ∧ ((s.ifc i.val).downAt = some t) ∧
      (s.sys.members.find? (fun m => m.ifc == i.val && i.val != 0) = some m) ∧ s.past1 (t + 10000) = true ∧
      (∀ d, tget s.verd.dies m.addr.toNat = some d → d.lastFab < t) ∧ (s.peer m.addr).gone = false) ∧
    (∃ (s : State) (x : SideRead) (data : List Byte), s.aoUp = true ∧ s.brake.side = some x ∧ data.length = x.len) ∧
    (∃ (s : State) (x : SideRead), s.aoUp = true ∧ s.brake.side = some x) ∧
    (∃ (s : State) (x : SideRead), s.aoUp = true ∧ s.brake.side = some x ∧ x.since + sideTimeout ≤ s.time.tb1p1.toNat) ∧
    (∃ (s : State) (c : Capture), s.aoUp = true ∧ s.brake.capture = some c ∧ s.past1 (c.start1 + s.brake.cfg.budget) = true) ∧
    (∃ (s : State) (w : IngotWrite) (t : State), s.ctlUp = true ∧ s.brake.writing = some w ∧
      t = (s.programFlash (ingotBase 0) (w.image.take 124)).programFlash (ingotBase 0 + 124) (slice (withValid w.image) 124 4)) ∧
    (∃ (s : State) (q : Search), s.ctlUp = true ∧ s.brake.search = some q ∧ s.past1 (q.since + s.brake.cfg.gpTo) = true) :=
  ⟨⟨1,
     { up .tray with sys := { sysReset .tray with members := [{ ifc := 1, addr := 9, phys := 1 }] }, hop := { (up .tray).hop with ifcs := (up .tray).hop.ifcs.map fun f => { f with downAt := some 5 } }, verd := { verdictReset with dies := [(9, { hangConf := false, gasp := false, lastRec := 0, lastFab := 5, dis := [] })] } },
     _, _, by decide, by decide, rfl, rfl, by decide, by change 5 ≤ 5; decide⟩,
   ⟨1,
     { up .tray with sys := { sysReset .tray with members := [{ ifc := 1, addr := 9, phys := 1 }] }, hop := { (up .tray).hop with ifcs := (up .tray).hop.ifcs.map fun f => { f with downAt := some 5 } }, verd := { verdictReset with dies := [(9, { hangConf := false, gasp := false, lastRec := 0, lastFab := 4, dis := [] })] } },
     _, _, by decide, by decide, rfl, rfl, by decide, by intro d h; change some _ = some d at h; cases h; decide, by decide⟩,
   ⟨{ up .die with brake := { brakeReset with side := some { since := 0, len := 1, use := 0 } } }, _, [1], by decide, rfl,
     by decide⟩,
   ⟨{ up .die with brake := { brakeReset with side := some { since := 0, len := 1, use := 0 } } }, _, by decide, rfl⟩,
   ⟨{ up .die with brake := { brakeReset with side := some { since := 0, len := 1, use := 0 } } }, _, by decide, rfl, by decide⟩,
   ⟨{ up .die with brake := { brakeReset with capture := some { cause := 1, vid := 0, core := 0xFF, engine := 0xFF, drill := false, trig := 0, start := 0, start1 := 0, regions := [], index := 0, cur := { data := [], poisoned := 0, cut := false }, done := [], fails := 0, unread := [], nunr := 0 } } },
     _, by decide, rfl, by decide⟩,
   ⟨{ up .die with brake := { brakeReset with writing := some { image := [], vid := 0, source := 1, drill := false, since := 0 } } },
     _, _, by decide, rfl, rfl⟩,
   ⟨{ up .die with brake := { brakeReset with search := some search6 } }, _, by decide, rfl, by decide⟩⟩

theorem witness_AgentRowsRun :
    (∃ (s : State), s.aoUp = true) ∧
    (∃ (m : GovMsg) (s : State) (w : Nat), w = m.word.toNat ∧ s.isDie = true ∧ s.portUp .pwr = true ∧ govOk w = true ∧
      bits w 63 60 = 1) ∧
    (∃ (m : GovMsg) (s : State), s.isDie = true ∧ s.portUp .pwr = true ∧ govOk m.word.toNat = false) ∧
    (∃ (s : State), s.isDie = true ∧ s.aoUp = true ∧ s.gov.fallback = false ∧ s.past1 (s.gov.lastGrant.getD 0 + s.gov.glTo) = true) ∧
    (∃ (s : State) (b : Nat) (t : State), b = gridAt 20000 s.tb1Ns ∧ s.isDie = true ∧ s.portUp .pwr = true ∧ s.gov.lastRep < b ∧
      (t = (s.modGov fun g => { g with lastRep := b })) ∧ (∀ u, s.gov.lastGrant = some u → u + 20000 ≤ b)) ∧
    (∃ (s : State) (b : Nat) (t : State) (u : Nat), b = gridAt 20000 s.tb1Ns ∧ s.isDie = true ∧ s.portUp .pwr = true ∧
      s.gov.lastRep < b ∧ (t = (s.modGov fun g => { g with lastRep := b })) ∧ s.gov.lastGrant = some u ∧ b < u + 20000) ∧
    (∃ (m : GovMsg) (s : State) (w : Nat), w = m.word.toNat ∧ s.isDie = true ∧ s.portUp .pwr = true ∧ govOk w = true ∧
      bits w 63 60 = 4 ∧ bits w 39 32 = 0 ∧ s.gov.startPlan = false) :=
  ⟨⟨up .die, by decide⟩,
   ⟨{ word := BitVec.ofNat 64 (govWord (1 * 2 ^ 44)) }, up .die, _, rfl, by decide, by decide, by decide +kernel⟩,
   ⟨{ word := 0 }, up .die, by decide, by decide, by decide +kernel⟩,
   ⟨up .die, by decide⟩,
   ⟨up .die, _, _, rfl, by decide, by decide, by decide, rfl, by decide⟩,
   ⟨{ up .die with gov := { govReset with lastGrant := some (10 ^ 15) } }, _, _, _, rfl, by decide, by decide, by decide, rfl, rfl,
     by decide⟩,
   ⟨{ word := BitVec.ofNat 64 (govWord (4 * 2 ^ 44)) }, up .die, _, rfl, by decide, by decide, by decide +kernel⟩⟩

theorem witness_ArbiterRowsRun :
    (∃ (s : State) (k : Nat) (t : State), k = s.tb1Ns / 20000 ∧ s.isTray = true ∧ s.aoUp = true ∧ s.gov.period < k ∧
      (t = ((if s.gov.changed then s.sendGrantRec s.gov.recBody else s).modGov fun g => { g.budgetStart with members := g.members.map fun m => m.periodStart s.tb1Ns g.glTo, period := k, phase := 1, endBody := s.gov.recBody }).boundSettle)) ∧
    (∃ (s : State), s.isTray = true ∧ s.aoUp = true ∧ s.gov.phase = 1 ∧
      ((∀ m ∈ s.gov.members, m.waitAck.isSome = true → s.inPhase1 m = true → m.silent = true) ∨ s.past1 (s.gov.period * 20000 + 12000) = true)) ∧
    (∃ (i : Fin 16) (m : GovMsg) (s : State) (r : GovReport) (t : State), s.isTray = true ∧ s.portUp .pwr = true ∧
      govOk m.word.toNat = true ∧ bits m.word.toNat 63 60 = 2 ∧ r = parseReport m.word.toNat ∧
      (t = (s.modMem i.val fun x => { x with last := some r, lastAt := s.tb1Ns, back := x.silent, acct := match x.waitAck with | some (q, t) => if q.toNat = r.ackSeq then t else x.acct | none => x.acct, waitAck := match x.waitAck with | some (q, t) => if q.toNat = r.ackSeq then none else some (q, t) | none => none }).boundSettle)) ∧
    (∃ (m : GovMsg) (s : State), s.isTray = true ∧ s.portUp .pwr = true ∧ govOk m.word.toNat = false) ∧
    (∃ (i : Fin 16) (s : State) (c : MemberCfg), s.isTray = true ∧ s.aoUp = true ∧ (s.mem i.val).cfg = some c ∧
      (s.mem i.val).silent = false ∧ s.past1 ((s.mem i.val).lastAt + s.gov.glTo) = true) ∧
    (∃ (i : Fin 16) (s : State), s.isTray = true ∧ s.aoUp = true ∧ (s.mem i.val).cfg.isSome = true ∧ (s.mem i.val).silent = true ∧
      (s.mem i.val).released = false ∧ (s.mem i.val).sentAt + s.gov.glTo + 3000 ≤ s.tb1Ns) ∧
    (∃ (s : State) (b : Nat), b = gridAt (s.gov.grantRec * 1000000) s.tb1Ns ∧ s.isTray = true ∧ s.aoUp = true ∧ s.gov.lastRec < b) ∧
    (∃ (i : Fin 16) (m : GovMsg) (s : State) (p : State × Int) (c : MemberCfg) (x : Nat), x = m.word.toNat ∧ s.isTray = true ∧
      s.portUp .pwr = true ∧ govOk x = true ∧ bits x 63 60 = 3 ∧ p = s.windowClamp (signed 8 (bits x 59 52)) ∧
      (s.mem i.val).cfg = some c) ∧
    (∃ (i : Fin 17) (s : State) (o : Int), i.val = 16 ∧ s.aoUp = true ∧ s.gov.heldPlan = some o ∧ s.gov.offAt + sixHours ≤ s.tb1Ns) ∧
    (∃ (i : Fin 17) (s : State) (o : Int) (v : Nat) (c : MemberCfg), i.val < 16 ∧ s.isTray = true ∧ s.aoUp = true ∧
      (s.mem i.val).held = some (o, v) ∧ (s.mem i.val).cfg = some c ∧ (s.mem i.val).offsetAt + sixHours ≤ s.tb1Ns) ∧
    (∃ (s : State), s.isTray = true ∧ s.portUp .pwr = true ∧ s.gov.lastPoll + s.gov.poll * 1000000 ≤ s.tb1Ns) ∧
    (∃ (s : State), s.isTray = true ∧ s.portUp .pwr = true) :=
  ⟨⟨up .tray, _, _, rfl, by decide, by decide, by decide, rfl⟩,
   ⟨{ up .tray with gov := { govReset with phase := 1 } }, by decide⟩,
   ⟨15, { word := BitVec.ofNat 64 (govWord (2 * 2 ^ 44)) }, up .tray, _, _, by decide, by decide, by decide +kernel,
     by decide +kernel, rfl, rfl⟩,
   ⟨{ word := 0 }, up .tray, by decide, by decide, by decide +kernel⟩,
   ⟨15,
     { up .tray with gov := { govReset with members := govReset.members.map fun m => { m with cfg := some { addr := 9, floor := 1, ceil := 2, weight := 1, pmaddr := 5, page := 0 }, silent := false } } },
     _, by decide, by decide, rfl, by decide⟩,
   ⟨15,
     { up .tray with gov := { govReset with members := govReset.members.map fun m => { m with cfg := some { addr := 9, floor := 1, ceil := 2, weight := 1, pmaddr := 5, page := 0 }, silent := true, released := false } } },
     by decide⟩,
   ⟨up .tray, _, rfl, by decide⟩,
   ⟨15, { word := BitVec.ofNat 64 (govWord (3 * 2 ^ 44)) },
     { up .tray with gov := { govReset with members := govReset.members.map fun m => { m with cfg := some { addr := 9, floor := 1, ceil := 2, weight := 1, pmaddr := 5, page := 0 } } } },
     _, _, _, rfl, by decide, by decide, by decide +kernel, by decide +kernel, rfl, rfl⟩,
   ⟨16, { up .die with gov := { govReset with heldPlan := some (-3) } }, _, by decide, by decide, rfl, by decide⟩,
   ⟨15,
     { up .tray with gov := { govReset with members := govReset.members.map fun m => { m with cfg := some { addr := 9, floor := 1, ceil := 2, weight := 1, pmaddr := 5, page := 0 }, held := some (-3, 5) } } },
     _, _, _, by decide, by decide, by decide, rfl, rfl, by decide⟩,
   ⟨up .tray, by decide⟩,
   ⟨up .tray, by decide⟩⟩

theorem witness_TestRowsRun :
    (∃ (core : BitVec 8) (s : State), s.planApply.pickCore = some core.toNat) ∧
    (∃ (s : State) (q : TestReq), s.ctlUp = true ∧ s.libReady = true ∧ s.test.req = some q ∧
      q.asked + s.test.reask * 60000000000 ≤ s.tb1Ns) ∧
    (∃ (core : BitVec 8) (s : State) (d : Nat) (t : State), s.dueAt core.toNat = some d ∧
      (t = (((s.bump cTestOverdue).stage 0x1201 .notice core.toNat d).modTcore core.toNat fun y => { y with overdue := true })) ∧
      s.isDie = true ∧ s.aoUp = true ∧ s.testCore core.toNat = true ∧ (s.tcore core.toNat).failed = false ∧
      (s.tcore core.toNat).overdue = false ∧ s.test.plan ≠ [] ∧ s.past0 (d + s.test.maxdef * 3600000000000) = true) ∧
    (∃ (s : State) (w : TestWindow), s.aoUp = true ∧ s.test.win = some w ∧ w.leaving = none ∧
      s.past1 (w.open1 + w.winUs * 1000) = true) ∧
    (∃ (s : State) (w : TestWindow), s.aoUp = true ∧ s.test.win = some w ∧ w.kind = 1 ∧ w.leaving = none) ∧
    (∃ (s : State) (w : TestWindow) (r : Nat) (f : Nat) (n : Nat), s.aoUp = true ∧ s.test.win = some w ∧ w.leaving = some (r, f, n)) :=
  ⟨⟨0,
     { up .die with test := { testReset with plan := [1], planAt := some 0, mask := List.replicate 31 0 ++ [1] }, flash := { flashDelivered with lib := library } },
     by decide +kernel⟩,
   ⟨{ up .die with test := { testReset with req := some { core := 3, item := 1, seg := 0, est := 1000, asked := 0 } } }, _,
     by decide, by decide, rfl, by decide⟩,
   ⟨0, { up .die with test := { testReset with plan := [1], planAt := some 0, mask := List.replicate 31 0 ++ [1] } }, _, _, rfl,
     rfl, by decide⟩,
   ⟨{ up .die with test := { testReset with win := some { core := 3, item := 1, seg := 0, kind := 0, step := 0, topen := 0, open1 := 0, winUs := 1000, ksig := 0, leaving := none } } },
     _, by decide, rfl, by decide⟩,
   ⟨{ up .die with test := { testReset with win := some { core := 3, item := 1, seg := 0, kind := 1, step := 0, topen := 0, open1 := 0, winUs := 1000, ksig := 0, leaving := none } } },
     _, by decide, rfl, by decide⟩,
   ⟨{ up .die with test := { testReset with win := some { core := 3, item := 1, seg := 0, kind := 1, step := 0, topen := 0, open1 := 0, winUs := 1000, ksig := 0, leaving := some (0, 0, 0) } } },
     _, _, _, _, by decide, rfl, rfl⟩⟩

theorem witness_HoistRowsRun :
    (∃ (i : Word) (s : State) (g : Stage) (t : State), s.hoist.stage = some g ∧
      (t = (if g.kind = 2 ∧ g.erased = false then s.eraseSlot 2 0 else s)) ∧ s.ctlUp = true ∧ g.ended = false ∧ g.dup = false ∧
      i.toNat = g.written ∧ g.written < g.expect ∧ s.eraseReady g = true) ∧
    (∃ (s : State) (g : Stage), s.hoist.stage = some g ∧ s.ctlUp = true ∧ g.broken = false ∧ g.acked < g.sent ∧
      s.past1 (g.lastAck + s.hoistRto) = true ∧ g.rounds < 5) ∧
    (∃ (s : State) (g : Stage), s.hoist.stage = some g ∧ s.ctlUp = true ∧ g.broken = false ∧ g.acked < g.sent ∧
      s.past1 (g.lastAck + s.hoistRto) = true ∧ 5 ≤ g.rounds) ∧
    (∃ (s : State) (g : Stage), s.hoist.stage = some g ∧ s.ctlUp = true ∧ g.src = 1 ∧ g.ended = false ∧
      (g.xfer = none ∨ g.expect < chunkCount g.len) ∧ s.past1 (g.lastChunk + s.hoistWait) = true) ∧
    (∃ (ok : Bool) (s : State) (g : Stage) (st : BitVec 16), s.hoist.stage = some g ∧
      (st = (if ok then s.imageStatus g.kind g.bytes else stCheck)) ∧ s.ctlUp = true ∧ g.ended = false ∧ g.dup = false ∧
      g.expect = chunkCount g.len ∧ g.bytes.length = g.len ∧ (g.src ≠ 0 → g.written = chunkCount g.len ∧ g.xfer.isSome = true) ∧
      s.eraseReady g = true ∧ st ≠ stOk) ∧
    (∃ (s : State) (g : Stage) (t : State), s.hoist.stage = some g ∧
      (t = (((s.stageWritten g).putImage g.kind g.slot g.bytes).modDir (dirIndex g.kind g.slot) fun _ => { st := .valid, ver := imageVer g.kind g.bytes, len := g.len, digest := rd g.bytes 32 8, tstage := s.tb0Ns })) ∧
      s.imageStatus g.kind g.bytes = stOk ∧ s.ctlUp = true ∧ g.ended = false ∧ g.dup = false ∧ g.expect = chunkCount g.len ∧
      g.bytes.length = g.len ∧ (g.src ≠ 0 → g.written = chunkCount g.len ∧ g.xfer.isSome = true) ∧ s.eraseReady g = true ∧
      g.kind < 2) ∧
    (∃ (s : State), s.aoUp = true ∧ s.healthy433 = true) ∧
    (∃ (s : State) (t : Nat), s.aoUp = true ∧ s.hoist.trialAt = some t ∧ t + healthDeadline ≤ s.tb1Ns) ∧
    (∃ (s : State) (w : Nat × Nat × Path × BitVec 16), s.ctlUp = true ∧ s.hoist.waitStart = some w ∧
      s.past1 (w.2.1 + 100000000) = true) ∧
    (∃ (s : State) (g : Laddr × Nat), s.ctlUp = true ∧ s.hoist.grant = some g ∧ s.past1 (g.2 + 660000000000) = true) :=
  ⟨⟨0, { up .die with hoist := { hoistReset with stage := some { stage0 with len := 2048, expect := 1, lastAck := 0 } } }, _, _,
     rfl, rfl, by decide⟩,
   ⟨{ up .die with hoist := { hoistReset with stage := some { stage0 with sent := 4, acked := 3, rounds := 4 } } }, _, rfl,
     by decide⟩,
   ⟨{ up .die with hoist := { hoistReset with stage := some { stage0 with sent := 4, acked := 3, rounds := 5 } } }, _, rfl,
     by decide⟩,
   ⟨{ up .die with hoist := { hoistReset with stage := some { stage0 with xfer := none } } }, _, rfl, by decide⟩,
   ⟨false, { up .die with hoist := { hoistReset with stage := some { stage0 with kind := 0, slot := 1 } } }, _, _, rfl, rfl,
     by decide⟩,
   ⟨{ up .die with hoist := { hoistReset with stage := some { stage0 with kind := 0, slot := 1, len := 64, expect := 1, written := 1, bytes := image1 } } },
     _, _, rfl, rfl, by decide +kernel, by decide⟩,
   ⟨{ up .die with hoist := { hoistReset with trialAt := some 0, selfOk := true, confOk := true, restoreOk := true }, sys := { sysReset .die with joined := true }, time := { (up .die).time with lock := .locked } },
     by decide⟩,
   ⟨{ up .die with hoist := { hoistReset with trialAt := some 0 } }, _, by decide, rfl, by decide⟩,
   ⟨{ up .die with hoist := { hoistReset with waitStart := some (1, 0, .fabric 9 .fm 0, 7) } }, _, by decide, rfl, by decide⟩,
   ⟨{ up .die with hoist := { hoistReset with grant := some (9, 0) } }, _, by decide, rfl, by decide⟩⟩

theorem witness_RecordRowsRun :
    (∃ (s : State) (r : Rec) (t : State), Accepted s r t ∧ r.typ = tEpoch) ∧
    (∃ (s : State) (r : Rec) (t : State), Accepted s r t ∧ r.typ = tReconcile) ∧
    (∃ (s : State) (r : Rec) (t : State), Accepted s r t ∧ r.typ = tLastGasp) ∧
    (∃ (s : State) (r : Rec) (t : State), Accepted s r t ∧ r.typ = tJoin ∧ s.isDie = true) ∧
    (∃ (s : State) (r : Rec) (t : State), Accepted s r t ∧ r.typ = tStampPairs) ∧
    (∃ (s : State) (r : Rec) (t : State), Accepted s r t ∧ r.typ = tCorrection) ∧
    (∃ (s : State) (r : Rec) (t : State), Accepted s r t ∧ r.typ = tFeatures) ∧
    (∃ (s : State) (r : Rec) (t : State), Accepted s r t ∧ r.typ = tLateness ∧ rd r.body 6 1 = 0) ∧
    (∃ (s : State) (r : Rec) (t : State), Accepted s r t ∧ r.typ = tLateness ∧ rd r.body 6 1 = 1) ∧
    (∃ (s : State) (r : Rec) (t : State), Accepted s r t ∧ r.typ = tVerdict) ∧
    (∃ (s : State) (r : Rec) (t : State), Accepted s r t ∧ r.typ = tVerdict ∧ rd r.body 8 1 = 3) ∧
    (∃ (s : State) (r : Rec) (t : State), Accepted s r t ∧ r.typ = tSentryDigest ∧ rd r.body 4 1 = 3) ∧
    (∃ (s : State) (r : Rec) (t : State), Accepted s r t ∧ r.typ = tSentryDigest ∧ rd r.body 4 1 = 1) ∧
    (∃ (s : State) (r : Rec) (t : State), Accepted s r t ∧ r.typ = tSentryDigest ∧ rd r.body 4 1 = 4) ∧
    (∃ (s : State) (r : Rec) (t : State), Accepted s r t ∧ r.typ = tSentryDigest ∧ rd r.body 4 1 = 2) ∧
    (∃ (s : State) (r : Rec), s.engUp = true ∧ r.typ = tJoin ∧ (s.acceptRec r.src r).2 = true) ∧
    (∃ (s : State) (r : Rec), s.engUp = true ∧ (s.acceptRec r.src r).2 = false ∧ r.typ = tEpoch) :=
  ⟨⟨up .die, rec9 tEpoch [], _, ⟨by decide, by decide, rfl⟩, by decide⟩,
   ⟨up .die, rec9 tReconcile [], _, ⟨by decide, by decide, rfl⟩, by decide⟩,
   ⟨up .die, rec9 tLastGasp [], _, ⟨by decide, by decide, rfl⟩, by decide⟩,
   ⟨up .die, rec9 tJoin [], _, ⟨by decide, by decide, rfl⟩, by decide⟩,
   ⟨up .die, rec9 tStampPairs [], _, ⟨by decide, by decide, rfl⟩, by decide⟩,
   ⟨up .die, rec9 tCorrection [], _, ⟨by decide, by decide, rfl⟩, by decide⟩,
   ⟨up .die, rec9 tFeatures [], _, ⟨by decide, by decide, rfl⟩, by decide⟩,
   ⟨up .die, rec9 tLateness [], _, ⟨by decide, by decide, rfl⟩, by decide⟩,
   ⟨up .die, rec9 tLateness (List.replicate 6 0 ++ [1]), _, ⟨by decide, by decide, rfl⟩, by decide⟩,
   ⟨up .die, rec9 tVerdict [], _, ⟨by decide, by decide, rfl⟩, by decide⟩,
   ⟨up .die, rec9 tVerdict (List.replicate 8 0 ++ [3]), _, ⟨by decide, by decide, rfl⟩, by decide⟩,
   ⟨up .die, rec9 tSentryDigest (List.replicate 4 0 ++ [3]), _, ⟨by decide, by decide, rfl⟩, by decide⟩,
   ⟨up .die, rec9 tSentryDigest (List.replicate 4 0 ++ [1]), _, ⟨by decide, by decide, rfl⟩, by decide⟩,
   ⟨up .die, rec9 tSentryDigest (List.replicate 4 0 ++ [4]), _, ⟨by decide, by decide, rfl⟩, by decide⟩,
   ⟨up .die, rec9 tSentryDigest (List.replicate 4 0 ++ [2]), _, ⟨by decide, by decide, rfl⟩, by decide⟩,
   ⟨up .die, rec9 tJoin [], by decide⟩,
   ⟨{ up .die with hop := { (up .die).hop with consumers := [(srcKey 9 1, { last := 0, base := none, deliv := 1, gap := 0, dup := 0, lostLink := 0, lostFwd := 0, restarts := 0, fwdEvent := false, dirty := false, reconAt := 0, via := 9 })] } },
     rec9 tEpoch [], by decide⟩⟩

theorem witness_TransferRecordsRun :
    (∃ (s : State) (r : Rec) (t : State), Accepted s r t ∧ r.typ = tCutContrib) ∧
    (∃ (s : State) (r : Rec) (t : State), Accepted s r t ∧ r.typ = tBroadcastAck) ∧
    (∃ (s : State) (r : Rec) (t : State), Accepted s r t ∧ r.typ = tCommand) ∧
    (∃ (s : State) (r : Rec) (t : State), Accepted s r t ∧ r.typ = tReply ∧ t.ctlUp = true) ∧
    (∃ (s : State) (r : Rec) (t : State), Accepted s r t ∧ r.typ = tImageChunk ∧ t.ctlUp = true ∧ icMode r.body = 0) ∧
    (∃ (s : State) (r : Rec) (t : State), Accepted s r t ∧ r.typ = tImageChunk ∧ t.ctlUp = true ∧ icMode r.body = 1) ∧
    (∃ (s : State) (r : Rec) (t : State), Accepted s r t ∧ r.typ = tImageChunk ∧ t.ctlUp = true ∧ icMode r.body = 2) ∧
    (∃ (s : State) (r : Rec) (t : State), Accepted s r t ∧ r.typ = tImageChunk ∧ t.ctlUp = true ∧ icMode r.body = 3) ∧
    (∃ (s : State) (r : Rec) (t : State), Accepted s r t ∧ r.typ = tImageChunk ∧ t.ctlUp = true ∧ icMode r.body = 4) ∧
    (∃ (s : State) (r : Rec) (t : State), Accepted s r t ∧ r.typ = tImageChunk ∧ t.ctlUp = true ∧ icMode r.body = 5) ∧
    (∃ (s : State) (r : Rec) (x : Tree) (hop : Laddr), s.engUp = true ∧ r.typ = tBroadcast ∧ s.tree (bcTree r.body) = some x ∧
      hop = x.parent.getD r.src ∧ (s.acceptRec hop r).2 = true) :=
  ⟨⟨up .die, rec9 tCutContrib [], _, ⟨by decide, by decide, rfl⟩, by decide⟩,
   ⟨up .die, rec9 tBroadcastAck [], _, ⟨by decide, by decide, rfl⟩, by decide⟩,
   ⟨up .die, rec9 tCommand [], _, ⟨by decide, by decide, rfl⟩, by decide⟩,
   ⟨up .die, rec9 tReply [], _, ⟨by decide, by decide, rfl⟩, by decide⟩,
   ⟨up .die, rec9 tImageChunk [0], _, ⟨by decide, by decide, rfl⟩, by decide⟩,
   ⟨up .die, rec9 tImageChunk [1], _, ⟨by decide, by decide, rfl⟩, by decide⟩,
   ⟨up .die, rec9 tImageChunk [2], _, ⟨by decide, by decide, rfl⟩, by decide⟩,
   ⟨up .die, rec9 tImageChunk [3], _, ⟨by decide, by decide, rfl⟩, by decide⟩,
   ⟨up .die, rec9 tImageChunk [4], _, ⟨by decide, by decide, rfl⟩, by decide⟩,
   ⟨up .die, rec9 tImageChunk [5], _, ⟨by decide, by decide, rfl⟩, by decide⟩,
   ⟨{ up .die with crown := { crownReset with trees := [(0, { gen := 1, parent := none, ackTo := 20000000, children := [] })] } },
     rec9 tBroadcast [], _, _, by decide, by decide, rfl, rfl, by decide⟩⟩

theorem witness_PortRowsRun :
    (∃ (i : Iface) (b : List Byte) (s : State) (t : State), s.linkOk i.val = true ∧ s.pow.engHeld = false ∧ s.engUp = true ∧
      t = s.emit (.credits i.val (flitsOf b.length)) ∧ frameGood b = false) ∧
    (∃ (i : Iface) (b : List Byte) (s : State) (t : State), s.linkOk i.val = true ∧ s.pow.engHeld = false ∧ s.engUp = true ∧
      t = s.emit (.credits i.val (flitsOf b.length)) ∧ frameGood b = true ∧ fhOvff b = false ∧ needsOverflow b = false) ∧
    (∃ (i : Iface) (b : List Byte) (s : State) (t : State), s.linkOk i.val = true ∧ s.pow.engHeld = false ∧ s.engUp = true ∧
      t = s.emit (.credits i.val (flitsOf b.length)) ∧ frameGood b = true ∧ fhOvff b = false ∧ needsOverflow b = true) ∧
    (∃ (i : Iface) (b : List Byte) (s : State) (t : State), s.linkOk i.val = true ∧ s.pow.engHeld = false ∧ s.engUp = true ∧
      t = s.emit (.credits i.val (flitsOf b.length)) ∧ frameGood b = true ∧ fhOvff b = true) ∧
    (∃ (i : Iface) (b : List Byte) (s : State) (t : State), s.linkOk i.val = true ∧ s.pow.engHeld = false ∧ s.engUp = true ∧
      t = s.emit (.credits i.val (flitsOf b.length))) ∧
    (∃ (i : Iface) (cr : BitVec 12) (peer : Laddr) (s : State) (t : State), ((s.ifc i.val).linkUp = false) ∧
      (t = (s.modIfc i.val fun f => { f with linkUp := true, peer := peer, initCred := cr.toNat }))) ∧
    (∃ (i : Iface) (s : State), ((s.ifc i.val).linkUp = true)) ∧
    (∃ (p : PortName) (s : State), s.aoUp = true ∧ s.pow.hostReset = false ∧
      (s.pow.warmReset = true → portNo p ∉ [0, 1, 5, 11, 13]) ∧ s.pow.phase = .running ∧ p ≠ .fab ∧ (∀ l, p ≠ .side l)) ∧
    (∃ (s : State), s.aoUp = true ∧ s.pow.hostReset = false ∧ s.pow.phase = .running) ∧
    (∃ (l : Fin 16) (cr : BitVec 12) (s : State) (t : State), s.aoUp = true ∧ s.pow.hostReset = false ∧ s.pow.phase = .running ∧
      (t = (s.modIfc (l.val + 1) fun f => { f with initCred := cr.toNat }).ifcRelease (l.val + 1))) ∧
    (∃ (s : State), (s.portUp .tap = true ∨ s.aoUp = true ∧ s.pow.phase = .roleLess)) ∧
    (∃ (i : Fin 32) (s : State), s.aoUp = true ∧ (s.portUp .disc = true ∨ s.pow.phase ≠ .running) ∧ i.val ≠ 0) ∧
    (∃ (level : Bool) (s : State) (active : Bool), active = (level != (s.disc 0).cfg.pol) ∧ s.aoUp = true ∧
      (s.portUp .disc = true ∨ s.pow.phase ≠ .running)) ∧
    (∃ (i : Fin 32) (s : State) (d : Disc) (b : Nat), d = s.disc i.val ∧ b = gridAt (d.cfg.winMs * 1000000) s.tb0Past ∧
      s.aoUp = true ∧ d.lastWin < b ∧ d.mode ≠ .chatter) ∧
    (∃ (i : Fin 32) (s : State) (d : Disc) (b : Nat), d = s.disc i.val ∧ b = gridAt (d.cfg.winMs * 1000000) s.tb0Past ∧
      s.aoUp = true ∧ d.lastWin < b ∧ d.mode = .chatter) ∧
    (∃ (i : Fin 32) (s : State) (d : Disc) (t : Nat), d = s.disc i.val ∧ s.aoUp = true ∧ 0 < d.cfg.stuckMs ∧ d.mode ≠ .stuck ∧
      d.activeSince = some t ∧ s.past1 (t + d.cfg.stuckMs * 1000000) = true) ∧
    (∃ (s : State), s.portUp .time = true ∧ (s.time.lock = .locked → s.pulseOff.natAbs ≤ 100 * 2 ^ 16)) ∧
    (∃ (s : State), s.portUp .time = true ∧ s.time.lock = .locked ∧ 100 * 2 ^ 16 < s.pulseOff.natAbs) ∧
    (∃ (hit : EccHit) (s : State), s.aoUp = true ∧ 1 ≤ hit.errs ∧ hit.errs ≤ 2) ∧
    (∃ (hit : EccHit) (s : State), s.aoUp = true ∧ 1 ≤ hit.errs ∧ hit.errs = 3) :=
  ⟨⟨1, [], up .die, _, by decide, by decide, by decide, rfl, by decide⟩,
   ⟨1, frame 0 [], up .die, _, by decide, by decide, by decide, rfl, by decide +kernel⟩,
   ⟨1, frame (2 ^ 112) (128 :: List.replicate 127 0), up .die, _, by decide, by decide, by decide, rfl, by decide +kernel⟩,
   ⟨1, frame (2 ^ 120) [], up .die, _, by decide, by decide, by decide, rfl, by decide +kernel⟩,
   ⟨1, [], up .die, _, by decide, by decide, by decide, rfl⟩,
   ⟨1, 0, 0, { up .die with hop := hopReset .die }, _, by decide, rfl⟩,
   ⟨1, up .die, by decide⟩,
   ⟨.tap, up .die, by decide⟩,
   ⟨up .die, by decide⟩,
   ⟨0, 0, up .die, _, by decide, by decide, by decide, rfl⟩,
   ⟨up .die, by decide⟩,
   ⟨31, up .die, by decide⟩,
   ⟨false, up .die, _, rfl, by decide⟩,
   ⟨0, up .die, _, _, rfl, rfl, by decide⟩,
   ⟨31, { up .die with coll := { collReset with disc := collReset.disc.map fun d => { d with mode := .chatter } } }, _, _, rfl, rfl,
     by decide⟩,
   ⟨31, { up .die with coll := { collReset with disc := collReset.disc.map fun d => { d with activeSince := some 0 } } }, _, _, rfl,
     by decide, by decide, by decide, rfl, by decide⟩,
   ⟨up .die, by decide⟩,
   ⟨{ up .die with time := { timeUp with lock := .locked, tb0 := BitVec.ofNat 96 (101 * 2 ^ 32) } }, by decide⟩,
   ⟨{ array := .tray, at1 := 0, at2 := 0, errs := 2, raced := false }, up .die, by decide⟩,
   ⟨{ array := .tray, at1 := 0, at2 := 0, errs := 3, raced := false }, up .die, by decide⟩⟩

theorem witness_TimeRowsRun :
    (∃ (m : Ptp) (s : State), s.portUp .time = true ∧ s.ptpOk m = true ∧ -7 ≤ m.interval ∧ m.interval ≤ 0 ∧ m.twoStep = true) ∧
    (∃ (m : Ptp) (s : State), s.portUp .time = true ∧ s.ptpOk m = true ∧ -7 ≤ m.interval ∧ m.interval ≤ 0 ∧ m.twoStep = false) ∧
    (∃ (m : Ptp) (s : State), s.portUp .time = true ∧ s.ptpOk m = true ∧ s.time.syncTwoStep = some m.seq) ∧
    (∃ (m : Ptp) (s : State) (t3 : Int) (d : Int), s.portUp .time = true ∧ s.ptpOk m = true ∧ s.time.delayReqAt = some t3 ∧
      (s.time.msDiff = some d)) ∧
    (∃ (m : Ptp) (s : State), s.portUp .time = true ∧ s.ptpOk m = true) ∧
    (∃ (m : Ptp) (s : State), s.portUp .time = true ∧ s.ptpOk m = false) ∧
    (∃ (s : State), s.portUp .time = true) ∧
    (∃ (s : State), s.mayDelayReq = true) ∧
    (∃ (s : State) (t : Nat), s.aoUp = true ∧ s.time.lastSync = some t ∧ t + 3000000000 ≤ s.tb1Ns ∧ s.time.lock = .acquire) ∧
    (∃ (s : State) (t : Nat), s.aoUp = true ∧ s.time.lastSync = some t ∧ t + 3000000000 ≤ s.tb1Ns ∧ s.time.lock = .locked) ∧
    (∃ (s : State) (t : State), s.aoUp = true ∧ s.time.refclk = true ∧
      (t = (s.modTime fun u => { u with refclk := false, refReturn := none, adjNext := none, lastSync := none, delayNs := none, delayReqAt := none, msDiff := none, syncTwoStep := none, reqDue := false }))) ∧
    (∃ (s : State), s.aoUp = true ∧ s.time.refclk = false) :=
  ⟨⟨ptp true (-7), { up .die with time := timeUp }, by decide⟩,
   ⟨ptp false 0, { up .die with time := timeUp }, by decide⟩,
   ⟨ptp true 0, { up .die with time := { timeUp with syncTwoStep := some 7 } }, by decide⟩,
   ⟨ptp true 0, { up .die with time := { timeUp with delayReqAt := some 5, msDiff := some 3 } }, _, _, by decide, by decide, rfl,
     rfl⟩,
   ⟨ptp true (-7), { up .die with time := timeUp }, by decide⟩,
   ⟨ptp true 0, up .die, by decide⟩,
   ⟨up .die, by decide⟩,
   ⟨{ up .die with time := { (up .die).time with cfg := { timeCfgReset with clkId := 5 }, lastSync := some (10 ^ 15 - 1), syncSrc := 5, reqDue := true } },
     by decide⟩,
   ⟨{ up .die with time := { timeUp with lastSync := some 0, lock := .acquire } }, _, by decide, rfl, by decide⟩,
   ⟨{ up .die with time := { timeUp with lastSync := some 0, lock := .locked } }, _, by decide, rfl, by decide⟩,
   ⟨up .die, _, by decide, by decide, rfl⟩,
   ⟨{ up .die with time := { timeUp with refclk := false } }, by decide⟩⟩

theorem witness_StampRowsRun :
    (∃ (p : Fin 64) (s : State) (t : State), s.portUp .stamp = true ∧ (s.stampPort p.val).holdTx = 0 ∧
      t = (s.bump cSlotLate).emit (.slotFill p.val 0xFFFFFFFFFFFFFFFF)) ∧
    (∃ (p : Fin 64) (slot : Dword) (s : State) (x : StampPort) (k : Nat), x = s.stampPort p.val ∧
      k = gridAt (s.time.cfg.pairIv * 16000) s.tb0Ns ∧ (∀ j, x.keptAt = some j → j < k) ∧ s.portUp .stamp = true ∧ x.holdRx = 0 ∧
      x.holdTx = 0 ∧ bits slot.toNat 63 62 = 1 ∧ s.pow.pstate = .run) ∧
    (∃ (p : Fin 64) (slot : Dword) (s : State) (x : StampPort) (k : Nat) (j : Nat), x = s.stampPort p.val ∧
      k = gridAt (s.time.cfg.pairIv * 16000) s.tb0Ns ∧ s.portUp .stamp = true ∧ x.holdRx = 0 ∧ x.holdTx = 0 ∧
      bits slot.toNat 63 62 = 1 ∧ s.pow.pstate = .run ∧ x.keptAt = some j ∧ k ≤ j) ∧
    (∃ (s : State), s.portUp .stamp = true) ∧
    (∃ (l : List (Nat × Nat)) (s : State) (cs : List (Nat × Nat)), s.aoUp = true ∧ 1024 ≤ s.time.monCycles ∧
      (cs = l.filter (fun r => decide (r.1 < 272)))) ∧
    (∃ (s : State) (w : Nat × Nat) (r : CorrTable × Nat), w = s.windowDue ∧ r = s.solve (w.1 - w.2) w.2 ∧ s.engUp = true ∧
      s.solver = true ∧ (s.isMaster = true ∨ s.time.cfg.troot.isSome = true) ∧ s.time.windowsDone < w.1) ∧
    (∃ (s : State) (t : CorrTable) (rest : List CorrTable), s.engUp = true ∧ s.time.solved = t :: rest ∧
      s.tb0Ns ≤ s.solveDeadline t) ∧
    (∃ (s : State) (t : CorrTable) (rest : List CorrTable), s.engUp = true ∧ s.time.solved = t :: rest ∧
      s.solveDeadline t < s.tb0Ns) :=
  ⟨⟨63, up .die, _, by decide, by decide, rfl⟩,
   ⟨63, BitVec.ofNat 64 (2 ^ 62), up .die, _, _, rfl, rfl, (fun j h => nomatch h), by decide⟩,
   ⟨63, BitVec.ofNat 64 (2 ^ 62),
     { up .die with time := { timeUp with ports := [(63, { egress := 0, ingress := 0, fseq := 0, keptAt := some (10 ^ 15), holdTx := 0, holdRx := 0 })] } },
     _, _, 10 ^ 15, rfl, rfl, by decide⟩,
   ⟨up .die, by decide⟩,
   ⟨[], up .die, _, by decide, by decide, rfl⟩,
   ⟨up .tray, _, _, rfl, rfl, by decide⟩,
   ⟨{ up .tray with time := { timeUp with solved := [{ cepoch := 1, wstart := 10 ^ 15, wc := 10 ^ 7, entries := [] }] } }, _, [],
     by decide, rfl, by decide⟩,
   ⟨{ up .tray with time := { timeUp with solved := [{ cepoch := 1, wstart := 0, wc := 10 ^ 7, entries := [] }] } }, _, [],
     by decide, rfl, by decide⟩⟩

theorem witness_RegisterRowsRun :
    (∃ (fab : Bool) (r : BitVec 4) (c : BitVec 4) (s : State) (p : QPair), p = s.pair fab ∧ s.windowUp = true ∧
      s.hasPair fab = true ∧ p.en = false ∧ baseOk p.cqBase = true ∧ baseOk p.rqBase = true ∧ log2Ok r = true ∧ log2Ok c = true) ∧
    (∃ (fab : Bool) (r : BitVec 4) (c : BitVec 4) (s : State) (p : QPair), s.windowUp = true ∧ s.hasPair fab = true ∧
      p = s.pair fab ∧ p.en = false ∧ (baseOk p.cqBase && baseOk p.rqBase && log2Ok r && log2Ok c) = false) ∧
    (∃ (fab : Bool) (s : State), s.windowUp = true ∧ s.hasPair fab = true ∧ (s.pair fab).en = true) ∧
    (∃ (fab : Bool) (s : State), s.portUp .cmd = true ∧ s.hasPair fab = true ∧ (s.pair fab).en = true) ∧
    (∃ (off : BitVec 16) (s : State) (v : Nat), s.windowUp = true ∧ off.toNat % 4 = 0 ∧ off.toNat ≠ 0x0140 ∧
      (v = (match tget s.cmd.latch winPath with | some l => if l.1 = off.toNat then l.2.toNat else s.reg off.toNat | none => s.reg off.toNat))) ∧
    (∃ (s : State), s.windowUp = true) ∧
    (∃ (fab : Bool) (s : State), s.windowUp = true ∧ (fab = true → s.isTray = true)) ∧
    (∃ (off : BitVec 16) (n : Nat) (s : State), s.windowUp = true ∧ ((n = 4 ∨ n = 8) → off.toNat % n ≠ 0)) ∧
    (∃ (s : State), s.windowUp = true ∧ s.portUp .hb = true ∧ s.brake.cfg.src ≠ 1 ∧ s.hbStopped = false) ∧
    (∃ (off : BitVec 16) (s : State), s.windowUp = true ∧ 0x1000 ≤ off.toNat ∧ off.toNat < 0x1038) ∧
    (∃ (off : BitVec 16) (s : State), s.windowUp = true ∧ 0x1100 ≤ off.toNat ∧ off.toNat < 0x1138 ∧ s.isTray = true) ∧
    (∃ (off : BitVec 16) (s : State), s.windowUp = true ∧ off.toNat < 0x1000) :=
  ⟨⟨false, 12, 4, { up .die with cmd := { cmdReset with loc := { qpairReset with cqBase := 4096, rqBase := 8192 } } }, _, rfl,
     by decide⟩,
   ⟨false, 13, 3, up .die, _, by decide, by decide, rfl, by decide⟩,
   ⟨false, { up .die with cmd := { cmdReset with loc := { qpairReset with en := true } } }, by decide⟩,
   ⟨false, { up .die with cmd := { cmdReset with loc := { qpairReset with en := true } } }, by decide⟩,
   ⟨0x0144, up .die, _, by decide, by decide, by decide, rfl⟩,
   ⟨up .die, by decide⟩,
   ⟨true, up .tray, by decide⟩,
   ⟨4, 8, up .die, by decide⟩,
   ⟨up .die, by decide⟩,
   ⟨0x1037, up .die, by decide⟩,
   ⟨0x1137, up .tray, by decide⟩,
   ⟨0x0FFF, up .die, by decide⟩⟩

theorem witness_TransportRowsRun :
    (∃ (s : State) (b : List Byte), s.fetchReady false = true ∧ s.ctlUp = true ∧ s.fenceHolds false b = false) ∧
    (∃ (s : State) (b : List Byte), s.fetchReady true = true ∧ s.ctlUp = true ∧ s.fenceHolds true b = false) ∧
    (∃ (s : State) (fab : Bool), s.fetchReady fab = true ∧ s.ctlUp = true) ∧
    (∃ (dest : Laddr) (seq : BitVec 16) (s : State) (f : Flight), s.ctlUp = true ∧ s.cmd.flight.find? (flightIs dest seq) = some f ∧
      f.answered = false ∧ f.lastSent + s.cmdRetry cmdRetryDflt ≤ s.tb1Ns ∧ f.sent < 3) ∧
    (∃ (dest : Laddr) (seq : BitVec 16) (s : State) (f : Flight), s.ctlUp = true ∧ s.cmd.flight.find? (flightIs dest seq) = some f ∧
      f.answered = false ∧ f.lastSent + s.cmdRetry cmdRetryDflt ≤ s.tb1Ns ∧ 3 ≤ f.sent) ∧
    (∃ (src : Laddr) (iss : Issuer) (s : State) (o : SeqOrder) (t : Nat) (h : Held) (l : List Held), s.ctlUp = true ∧
      s.pow.phase = .running ∧ s.cmd.orderOf src iss = some o ∧ o.gapAt = some t ∧ s.cmd.heldOf src iss = h :: l ∧
      t + 3 * s.cmdRetry cmdRetryDflt ≤ s.tb1Ns) ∧
    (∃ (path : Path) (tag : BitVec 16) (s : State) (a : Machine.Acc) (f : Final), s.ctlUp = true ∧
      (s.cmd.acc.find? (fun a => a.path == path && a.tag == tag && a.ready.isSome) = some a) ∧ a.ready = some f) :=
  ⟨⟨{ up .die with cmd := { cmdReset with loc := { qpairReset with en := true, cqTail := 1 } } }, [], by decide⟩,
   ⟨{ up .tray with cmd := { cmdReset with fab := { qpairReset with en := true, cqTail := 1 } } }, [], by decide⟩,
   ⟨{ up .tray with cmd := { cmdReset with fab := { qpairReset with en := true, cqTail := 1 } } }, true, by decide⟩,
   ⟨9, 3, { up .tray with cmd := { cmdReset with flight := [flight5 2] } }, _, by decide, rfl, by decide⟩,
   ⟨9, 3, { up .tray with cmd := { cmdReset with flight := [flight5 3] } }, _, by decide, rfl, by decide⟩,
   ⟨9, .fm,
     { up .die with cmd := { cmdReset with order := [{ src := 9, issuer := .fm, expect := 3, gapAt := some 0 }], ahead := [{ src := 9, issuer := .fm, seq := 5, packet := [], inl := [], bad := false }] } },
     _, _, _, [], by decide, by decide, rfl, rfl, rfl, by decide⟩,
   ⟨.localQueue, 7,
     { up .die with cmd := { cmdReset with acc := [{ path := .localQueue, tag := 7, opcode := 0, ptr := 0, obj := 0, ready := some { status := 0, detail := 0, result := [], out := [] } }] } },
     _, _, by decide, rfl, rfl⟩⟩

theorem witness_ResetRowsRun :
    (∃ (role : Role) (clk : Bool) (self : Bool) (s : State) (t : State), s.pow.aoHeld = true ∧ role ≠ .invalid ∧
      (t = ((s.aoStart role clk).modHoist fun h => { h with running := (s.aoStart role clk).confirmedSlot, restoreOk := true, selfOk := self }))) ∧
    (∃ (s : State), s.pow.aoHeld = true) ∧
    (∃ (s : State) (t : State), t = (s.modHall HallUnit.tear).aoReset .invalid ∧ s.sys.oos = false) ∧
    (∃ (s : State) (t : State), t = (s.modHall HallUnit.tear).aoReset .invalid ∧ s.sys.oos = true) ∧
    (∃ (s : State) (t : State), t = s.restoreAll ∧ s.restoring = true ∧ s.ctlUp = true ∧ s.engUp = true ∧ t.restoring = true ∧
      t.ctlUp = true ∧ t.engUp = true ∧ (∀ a ∈ t.cmd.acc, restorePath a.path = false)) ∧
    (∃ (s : State), s.aoUp = true ∧ s.pow.hostReset = false) ∧
    (∃ (s : State), s.aoUp = true ∧ s.pow.warmReset = false) ∧
    (∃ (s : State) (t : State), s.aoUp = true ∧ s.pow.warmReset = true ∧
      (t = (s.modPow fun u => { u with warmReset := false }).warmReleased)) ∧
    (∃ (s : State), s.aoUp = true ∧ s.pow.intHold = false ∧ (s.pow.ctlHeld = true ∨ s.pow.engHeld = true) ∧
      (s.pow.phase = .running ∨ s.restoring = true) ∧ s.pow.pstate ≠ .off) ∧
    (∃ (s : State) (p : BitVec 8 × Dword × Nat) (eng : Bool) (ctl : Bool), s.pow.pend = some p ∧ ctl = bit p.1.toNat 3 ∧
      eng = (ctl || bit p.1.toNat 2)) :=
  ⟨⟨.spine, false, false, { up .die with pow := { (up .die).pow with aoHeld := true } }, _, by decide, by decide, rfl⟩,
   ⟨{ up .die with pow := { (up .die).pow with aoHeld := true } }, by decide⟩,
   ⟨up .die, _, rfl, by decide⟩,
   ⟨{ up .die with sys := { sysReset .die with oos := true } }, _, rfl, by decide⟩,
   ⟨{ up .die with pow := { (up .die).pow with phase := .restoring 0 } }, _, rfl, by decide⟩,
   ⟨up .die, by decide⟩,
   ⟨up .die, by decide⟩,
   ⟨{ up .die with pow := { (up .die).pow with warmReset := true } }, _, by decide, by decide, rfl⟩,
   ⟨{ up .die with pow := { (up .die).pow with engHeld := true } }, by decide⟩,
   ⟨{ up .die with pow := { (up .die).pow with pend := some (8, 0, 0) } }, _, _, _, rfl, rfl, rfl⟩⟩

theorem witness_PowerStateRowsRun :
    (∃ (s : State), s.aoUp = true) ∧
    (∃ (s : State), s.aoUp = true ∧ s.pow.offFlush = true ∧ (∀ e ∈ s.hall.ents, e.written = true)) ∧
    (∃ (k : Demand) (s : State), s.aoUp = true ∧ s.demandStands k = true) ∧
    (∃ (s : State), s.aoUp = true ∧ s.holdOver = true ∧ (∀ k ∈ standing, s.demandStands k = false)) ∧
    (∃ (s : State) (t : Nat), s.pow.ctlAwake = some t ∧ s.aoUp = true ∧ s.pow.pstate = .sleep ∧ s.past1 (t + 1000000) = true ∧
      s.cmd.loc.busy = false ∧ s.cmd.fab.busy = false ∧ (∀ a ∈ s.cmd.acc, pairPath a.path = false)) :=
  ⟨⟨up .die, by decide⟩,
   ⟨{ up .die with pow := { (up .die).pow with offFlush := true } }, by decide⟩,
   ⟨.trc, up .die, by decide⟩,
   ⟨{ up .die with pow := { (up .die).pow with waking := true } }, by decide⟩,
   ⟨{ up .die with pow := { (up .die).pow with ctlAwake := some 0, pstate := .sleep } }, _, rfl, by decide⟩⟩

theorem witness_TrayRowsRun :
    (∃ (s : State) (l : List Laddr), s.ctlUp = true ∧ s.engUp = true ∧ s.sys.crownWait = some l) ∧
    (∃ (s : State) (t : Nat), s.aoUp = true ∧ s.sys.joinAt = some t ∧ s.past1 (t + 100000000) = true) ∧
    (∃ (s : State) (t : Nat) (v : State), s.sys.fabJoinAt = some t ∧ (v = (s.modSys fun u => { u with joinDst := s.gateways })) ∧
      s.engUp = true ∧ s.isDie = true ∧ s.sys.joined = false ∧ s.sys.designated = false ∧ t ≤ s.tb1Ns) ∧
    (∃ (f : Nat) (s : State), s.aoUp = true ∧ f ≠ 2) ∧
    (∃ (s : State) (out : Inject → Bool), s.aoUp = true ∧ (out = (fun (j : Inject) => j.fault == 2 && decide (j.until1 ≤ s.tb1Ns)))) ∧
    (∃ (bid : Word) (ch : Fin 64) (s : State) (x : Bcast) (t : Tree) (w : Wait) (c : Child), s.engUp = true ∧
      (s.crown.bcasts.find? (fun x => x.bid == bid && x.waits.any fun w => w.index == ch.val && !w.done && !w.resent) = some x) ∧
      x.held = some t ∧ (x.waits.find? (fun w => w.index == ch.val) = some w) ∧ t.children[ch.val]? = some c ∧ x.ended = true ∧
      s.past1 (w.since + t.ackTo * (w.height + 1)) = true) ∧
    (∃ (bid : Word) (a : Laddr) (s : State) (x : Bcast) (t : Tree) (w : Wait), s.engUp = true ∧
      (s.crown.bcasts.find? (fun x => x.bid == bid && x.waits.any fun w => w.addr == a && w.resent && !w.done) = some x) ∧
      x.held = some t ∧ (x.waits.find? (fun w => w.addr == a && w.resent && !w.done) = some w) ∧
      s.past1 (w.since + t.ackTo * (w.height + 2)) = true) :=
  ⟨⟨{ up .die with sys := { sysReset .die with crownWait := some [9] } }, _, by decide, by decide, rfl⟩,
   ⟨{ up .die with sys := { sysReset .die with joinAt := some 0 } }, _, by decide, rfl, by decide⟩,
   ⟨{ up .die with sys := { sysReset .die with fabJoinAt := some 0 } }, _, _, rfl, rfl, by decide⟩,
   ⟨3, up .die, by decide⟩,
   ⟨up .die, _, by decide, rfl⟩,
   ⟨4, 0, { up .die with crown := { crownReset with bcasts := [bcast0 false] } }, _, _, _, _, by decide, rfl, rfl, rfl, rfl,
     by decide⟩,
   ⟨4, 9, { up .die with crown := { crownReset with bcasts := [bcast0 true] } }, _, _, _, by decide, rfl, rfl, rfl, by decide⟩⟩

end Sys2Proof.Tests
end

section
/-! SUPPORT. When the checks of a command packet pass, and what the start of a command (`begun`) leaves as it was. -/

namespace Sys2Proof.Machine

/-! ### When a check passes -/

@[simp] theorem ckParam_ok (b : Bool) (off : Nat) : (ckParam b off).ok = b := rfl

@[simp] theorem ckRange_ok (b : Bool) (off : Nat) : (ckRange b off).ok = b := rfl

@[simp] theorem ckState_ok (b : Bool) : (ckState b).ok = b := rfl

@[simp] theorem ckCap_ok (b : Bool) (free : Nat) : (ckCap b free).ok = b := rfl

@[simp] theorem ckAddr_ok (c : Cmd) (off : Nat) : (ckAddr c off).ok = decide (cp c off 4 < 2 ^ 18) := rfl

/-- A packet without inline input passes the check for it (R405). -/
theorem ckNoInline_ok {c : Cmd} (h : NoInput c) : (ckNoInline c).ok = true := by
  cases hp : inlinePath c.path with
  | false => simp [ckNoInline, hp]
  | true => simp [ckNoInline, h hp]

theorem bit_eq_false_of_lt {v i : Nat} (h : v < 2 ^ i) : bit v i = false := by
  simp [bit, Nat.div_eq_of_lt h]

/-! ### The start of a command -/

@[simp] theorem State.begun_sys (o : OpSpec) (s : State) : (s.begun o).sys = s.sys := State.begun_moves.1 .sys rfl

@[simp] theorem State.begun_pow (o : OpSpec) (s : State) : (s.begun o).pow = s.pow := State.begun_moves.1 .pow rfl

@[simp] theorem State.begun_time (o : OpSpec) (s : State) : (s.begun o).time = s.time := State.begun_moves.1 .time rfl

@[simp] theorem State.begun_cmd (o : OpSpec) (s : State) : (s.begun o).cmd = s.cmd := State.begun_moves.1 .cmd rfl

@[simp] theorem State.begun_conf (o : OpSpec) (s : State) : (s.begun o).conf = s.conf := State.begun_moves.1 .conf rfl

@[simp] theorem State.tb1Ns_begun (o : OpSpec) (s : State) : (s.begun o).tb1Ns = s.tb1Ns := by simp [State.tb1Ns]

end Sys2Proof.Machine
end

section
/-! SUPPORT. The commands of the SYS group: what each answers where every check passes. -/

namespace Sys2Proof.Machine

/-! ### Identity (R9, R291) -/

theorem exec_sysIdentify_clean {c : Cmd} {s : State} (h : Clean opSysIdentify c s) (hn : NoInput c) :
    exec (.sysIdentify c) s = .next ((s.begun opSysIdentify).answered opSysIdentify c 0
      (be 4 Config.physId.toNat ++ be 4 s.sys.laddr.toNat ++ be 1 s.rolePh ++ be 1 0xB1 ++ zeros 2 ++ be 4 s.sys.fwver.toNat)
      []) :=
  congrArg Host.Outcome.next <| runCmd_ok h (by simp [ckNoInline_ok hn]) (by simp) (by simp [State.rolePh])

theorem exec_sysStatus_clean {c : Cmd} {s : State} (h : Clean opSysStatus c s) (hn : NoInput c) :
    exec (.sysStatus c) s = .next ((s.begun opSysStatus).answered opSysStatus c 0
      (be 1 (pstateCode s.pow.pstate) ++ be 1 (lockCode s.time.lock) ++ be 2 (s.begun opSysStatus).sflags ++ be 4 s.cfgVer
        ++ be 4 s.cmd.evlost ++ be 2 s.acceptedNow) []) :=
  congrArg Host.Outcome.next <| runCmd_ok h (by simp [ckNoInline_ok hn]) (by simp)
    (by simp [State.cfgVer, State.acceptedNow])

theorem exec_sysAddress_clean {c : Cmd} {s : State} (h : Clean opSysAddress c s) (hn : NoInput c) (ha : cp c 0 4 < 2 ^ 18)
    (hfree : s.named = false) :
    exec (.sysAddress c) s = .next ((((s.begun opSysAddress).modSys fun u =>
      { u with laddr := BitVec.ofNat 18 (cp c 0 4), laddrValid := true }).epochEverywhere).answered opSysAddress c 0 [] []) :=
  congrArg Host.Outcome.next <| runCmd_ok h (by simpa [ckNoInline_ok hn] using ha) (by simp [hfree]) rfl

theorem exec_sysPhase_clean {c : Cmd} {s : State} (h : Clean opSysPhase c s) (hn : NoInput c) (hp : cp c 0 1 ≤ 3) :
    exec (.sysPhase c) s = .next (((s.begun opSysPhase).modSys fun u =>
      { u with phaseRole := BitVec.ofNat 2 (cp c 0 1) }).answered opSysPhase c 0 [] []) :=
  congrArg Host.Outcome.next <| runCmd_ok h (by simp [ckNoInline_ok hn, hp]) (by simp) rfl

/-! ### SYS.PSTATE (R451) -/

theorem pstateCode_pstateOf {n : Nat} (h : n ≤ 3) : pstateCode (pstateOf n) = n :=
  match n, h with
  | 0, _ => rfl
  | 1, _ => rfl
  | 2, _ => rfl
  | 3, _ => rfl

/-- A target that stands already is answered at once; any other is ACCEPTED, and moves the target after that. -/
theorem exec_sysPstate_clean {c : Cmd} {s : State} (h : Clean opSysPstate c s) (hn : NoInput c) (hp : cp c 0 1 ≤ 3)
    (hok : s.pstateForbidden (pstateOf (cp c 0 1)) = false) :
    exec (.sysPstate c) s = .next (
      if pstateOf (cp c 0 1) = s.pow.pstate ∧ s.pow.entry.isNone then
        ((s.begun opSysPstate).targetTo (pstateOf (cp c 0 1))).answered opSysPstate c 0 (be 1 (cp c 0 1)) []
      else ((s.begun opSysPstate).takenOn opSysPstate c (cp c 0 1) none).targetTo (pstateOf (cp c 0 1))) := by
  have hpr : ∀ k ∈ [ckNoInline c, ckParam (decide (cp c 0 1 ≤ 3)) 0], k.ok = true := by simp [ckNoInline_ok hn, hp]
  have hrest : ∀ k ∈ [ckState (!s.pstateForbidden (pstateOf (cp c 0 1)))], k.ok = true := by simp [hok]
  have hcode := pstateCode_pstateOf hp
  have ⟨hready, _, _, _, hroom, _⟩ := h
  refine congrArg Host.Outcome.next ?_
  simp only [cmdSysPstate, hcode, hready, checks_pass h hpr hrest, hroom]
  by_cases there : pstateOf (cp c 0 1) = s.pow.pstate ∧ s.pow.entry.isNone = true
  · have hthere : (pstateOf (cp c 0 1) == s.pow.pstate && s.pow.entry.isNone) = true := by simpa using there
    rw [if_pos there, hthere, runCmd_ok h hpr hrest (if_pos rfl)]
    simp
  · have hthere : (pstateOf (cp c 0 1) == s.pow.pstate && s.pow.entry.isNone) = false :=
      Bool.eq_false_iff.mpr (by simpa using there)
    rw [if_neg there, hthere, runCmd_acc h hpr hrest (if_neg Bool.false_ne_true)]
    simp

/-! ### DOMAIN.RESET and SERVICE.RESTORE (R26, R291) -/

theorem exec_domainReset_clean {c : Cmd} {s : State} (h : Clean opDomainReset c s) (hn : NoInput c) (hh : s.hangHold = false)
    (hd : cp c 0 1 < 16) (hports : cp c 8 8 < 2 ^ 15) (hao : bit (cp c 0 1) 0 = false) :
    exec (.domainReset c) s = .next (((s.begun opDomainReset).modPow fun u =>
      { u with pend := some (BitVec.ofNat 8 (cp c 0 1), BitVec.ofNat 64 (cp c 8 8), s.tb1Ns) }).answered opDomainReset c 0 []
        []) := by
  have hmetro : bit (cp c 0 1) 4 = false := bit_eq_false_of_lt hd
  have hrsvd : cp c 0 1 / 32 = 0 := Nat.div_eq_of_lt (by omega)
  change execDomainReset c s = _
  simp only [execDomainReset, hh, Bool.false_eq_true, if_false]
  exact congrArg Host.Outcome.next <| runCmd_ok h
    (by simp [ckNoInline_ok hn, hmetro, hao, hrsvd, show cp c 8 8 < 2 ^ portCount from hports]) (by simp) (by simp)

theorem exec_serviceRestore_clean {c : Cmd} {s : State} (h : Clean opServiceRestore c s) (hn : NoInput c)
    (hoos : s.sys.oos = true) :
    exec (.serviceRestore c) s = .next (((((s.begun opServiceRestore).modSys fun u => { u with oos := false }).modBrake fun b =>
      { b with reqCold := none, esc := [] }).ownNotice 5 0xFF 0 0xFF 0xFF 0 0 0).answered opServiceRestore c 0 [] []) :=
  congrArg Host.Outcome.next <| runCmd_ok h (by simp [ckNoInline_ok hn]) (by simp [hoos]) rfl

/-! ### TRAY.DESIGNATE (R21, R459) -/

/-- ACT 0 names a master. -/
theorem exec_trayDesignate_master {c : Cmd} {s : State} (hact : cp c 4 1 = 0) (h : Clean (opTrayDesignate 0) c s)
    (hdata : (ckData (opTrayDesignate 0) c 0 0).ok = true) (ha : cp c 0 4 < 2 ^ 18) :
    exec (.trayDesignate c) s = .next (((s.begun (opTrayDesignate 0)).designated (BitVec.ofNat 18 (cp c 0 4))).answered
      (opTrayDesignate 0) c 0 [] []) := by
  change execTrayDesignate c s = _
  simp only [execTrayDesignate, hact]
  exact congrArg Host.Outcome.next <| runCmd_ok h (by simpa [hdata] using ha) (by simp) rfl

/-- ACT 1 names an acting master: one that acts already is answered at once, any other when Crown's memory is powered. -/
theorem exec_trayDesignate_acting {c : Cmd} {s : State} (hact : cp c 4 1 = 1) (h : Clean (opTrayDesignate 1) c s)
    (hdata : (ckData (opTrayDesignate 1) c 0 (4 * cp c 5 1)).ok = true) (ha : cp c 0 4 < 2 ^ 18) (hn1 : 1 ≤ cp c 5 1)
    (hn16 : cp c 5 1 ≤ 16) (hl : ∀ i < cp c 5 1, rd (cdata c 0) (4 * i) 4 < 2 ^ 18)
    (hrates : (s.modSys fun u =>
      { u with acting := true, actMembers := parseAddrs (cp c 5 1) (cdata c 0) }).ratesOk = true) :
    exec (.trayDesignate c) s = .next (
      if s.sys.acting then
        (((s.begun (opTrayDesignate 1)).floorReset.modSys fun u =>
          { u with actMembers := parseAddrs (cp c 5 1) (cdata c 0) }).modCrown fun u => { u with lastCut := none }).answered
            (opTrayDesignate 1) c 0 [] []
      else
        (((s.begun (opTrayDesignate 1)).floorReset.modSys fun u =>
          { u with crownWait := some (parseAddrs (cp c 5 1) (cdata c 0)) }).keepAcc (opTrayDesignate 1) c 0 none).restoreNext
            c.path) := by
  change execTrayDesignate c s = _
  simp only [execTrayDesignate, hact]
  refine congrArg Host.Outcome.next ?_
  cases hacting : s.sys.acting with
  | true =>
    exact runCmd_ok h (by simpa [hdata, hn1, hn16] using ⟨ha, hl⟩) (by simp [hrates]) (by simp [hacting])
  | false =>
    exact runCmd_hold h (by simpa [hdata, hn1, hn16] using ⟨ha, hl⟩) (by simp [hrates]) (by simp [hacting])

/-! ### SYS.INJECT -/

theorem State.linkLost_sys (i : Nat) (s : State) : (s.linkLost i).sys = s.sys := State.linkLost_moves.1 .sys rfl

theorem State.modIfc_sys (i : Nat) (f : IfcSt → IfcSt) (s : State) : (s.modIfc i f).sys = s.sys := rfl

/-- The fault is noted for its DUR; an injected LINK_DOWN takes the link down besides, which leaves the list of faults alone. -/
theorem exec_sysInject_clean {c : Cmd} {s : State} (h : Clean (opSysInject (cp c 4 1)) c s) (hn : NoInput c)
    (hf : cp c 4 1 ≤ 3) (h1 : cp c 4 1 = 1 → cp c 5 1 ≤ 3) (h2 : cp c 4 1 = 2 → cp c 5 1 ≤ 16)
    (hdrill : s.drillCovers (cp c 0 4) s.tb0Ns (s.tb0Ns + cp c 8 4 * 1000) = true) :
    ∃ t : State, exec (.sysInject c) s = .next (t.answered (opSysInject (cp c 4 1)) c 0 [] []) ∧
      t.sys.injects = s.sys.injects ++
        [{ drill := BitVec.ofNat 32 (cp c 0 4), fault := cp c 4 1, arg := cp c 5 1, until1 := s.tb1Ns + cp c 8 4 * 1000,
           left := cp c 5 1 }] := by
  refine ⟨_, congrArg Host.Outcome.next <| runCmd_ok h ?_ (by simp [hdrill]) rfl, ?_⟩
  · simpa [ckNoInline_ok hn, hf] using ⟨Decidable.not_or_of_imp h1, Decidable.not_or_of_imp h2⟩
  · split
    · split <;> simp [State.linkLost_sys, State.modIfc_sys]
    · simp

end Sys2Proof.Machine
end

section
/-! The statement of the SYS group. -/

namespace Sys2Proof.Machine

/-- Settles O15: each clause is the run lemma of its command. -/
theorem systemCommandsRun : Obligations.SystemCommandsRun := by
  unfold Obligations.SystemCommandsRun
  exact ⟨fun _ _ => exec_sysIdentify_clean, fun _ _ => exec_sysStatus_clean, fun _ _ => exec_sysAddress_clean,
    fun _ _ => exec_sysPhase_clean, fun _ _ => exec_sysPstate_clean, fun _ _ => exec_domainReset_clean,
    fun _ _ => exec_serviceRestore_clean, fun _ _ => exec_trayDesignate_master, fun _ _ => exec_trayDesignate_acting,
    fun _ _ => exec_sysInject_clean⟩

end Sys2Proof.Machine
end

section
/-! SUPPORT. What a row touches, from the moves of its meaning. -/

namespace Sys2Proof.Machine

/-- What a row's meaning moves in every state is what the row touches. -/
theorem Touches.of_moves {ps : List Area} {i : Instr} (h : ∀ {s}, OutMoves ps s (exec i s)) : Touches ps i :=
  fun _ t e => (h t e).1

end Sys2Proof.Machine
end

section
/-! The frames of the rows from power-up to the received records. -/

namespace Sys2Proof.Machine

/-- Settles O59: each clause is the frame half of the `Moves` law of the row's meaning. -/
theorem framesOfFirstRows : Obligations.FramesOfFirstRows := by
  unfold Obligations.FramesOfFirstRows
  -- Power and the reset inputs.
  refine ⟨fun _ _ _ _ => .of_moves execPgAoAssert_moves, .of_moves execRestoreDone_moves, .of_moves execPgAoDeassert_moves,
    fun _ => .of_moves execPgMetroAssert_moves, .of_moves execPgMetroDeassert_moves, .of_moves execRstHostNAssert_moves,
    .of_moves execRstWarmNAssert_moves, .of_moves execRstWarmNRelease_moves, fun _ => .of_moves execResetRelease_moves, ?_⟩
  -- The time source and the epoch pulse.
  refine ⟨.of_moves execRefclkLoss_moves, .of_moves execRefclkReturn_moves, .of_moves execEpochPulse_moves,
    fun _ => .of_moves execSyncReceived_moves, fun _ => .of_moves execFollowUpReceived_moves,
    fun _ => .of_moves execDelayRespReceived_moves, fun _ => .of_moves execAnnounceReceived_moves,
    .of_moves execDelayReq_moves, .of_moves execSyncTimeout_moves, ?_⟩
  -- TAP, discrete inputs, heartbeat and power requests.
  refine ⟨fun _ => .of_moves execTapBeat_moves, fun _ _ => .of_moves execDiscConditionedChange_moves,
    fun _ => .of_moves execChatterWindowEnd_moves, fun _ => .of_moves execStuckTimeout_moves,
    .of_moves execHbPinBeat_moves, fun _ => .of_moves execPwrReqChange_moves, ?_⟩
  -- Links, insertion slots and stamp pairs.
  refine ⟨fun _ _ _ => .of_moves execLinkUpRise_moves, fun _ => .of_moves execLinkUpFall_moves,
    fun _ _ => .of_moves execCreditReturn_moves, fun _ => .of_moves execLinkErrorPulse_moves,
    fun _ _ _ => .of_moves execInsertionSlot_moves, fun _ _ _ _ => .of_moves execStampPair_moves, ?_⟩
  -- Snooped and traced traffic.
  refine ⟨fun p _ => .of_moves (execSnoopFrame_moves (_port := p)), fun _ => .of_moves execTracePacket_moves,
    fun _ => .of_moves execStepMark_moves, fun _ => .of_moves execCollMark_moves, fun _ => .of_moves execStreamMark_moves,
    fun _ => .of_moves execTensorPacket_moves, ?_⟩
  -- Regulators, side reads and Assay.
  refine ⟨fun _ => .of_moves execSmbalert_moves, fun _ => .of_moves execPmbPoll_moves,
    fun _ _ => .of_moves execSideReadResponse_moves, .of_moves execSideReadTimeout_moves,
    .of_moves execAssayConversion_moves, fun _ _ => .of_moves execAssaySamplePair_moves,
    .of_moves execAssayPairMissing_moves, .of_moves execAssayReadoutFrame_moves, ?_⟩
  -- The register window and the queue pairs.
  refine ⟨fun v => .of_moves (execHeartbeatWrite_moves (_value := v)), fun _ _ => .of_moves execCqTailWrite_moves,
    fun _ _ => .of_moves execRqHeadWrite_moves, fun _ _ _ => .of_moves execQueuePairEnable_moves,
    fun _ => .of_moves execQueuePairDisable_moves, fun _ => .of_moves execTsTb0LoRead_moves,
    fun _ => .of_moves execLoHalfRead_moves, fun _ _ => .of_moves execW1cStatusWrite_moves,
    fun _ => .of_moves execIntEnableWrite_moves, fun _ _ _ => .of_moves execBadAccess_moves,
    fun _ _ => .of_moves execRegisterWrite_moves, ?_⟩
  -- Commands in flight.
  refine ⟨fun _ _ _ _ => .of_moves execCommandFetch_moves, fun _ => .of_moves execReplyWriteFail_moves,
    fun _ _ => .of_moves execAsyncCommandDone_moves, fun _ _ _ => .of_moves execFabricQueueEntry_moves,
    fun _ => .of_moves execCommandRecordReceived_moves, fun _ _ => .of_moves execReplyRecordReceived_moves,
    fun _ _ => .of_moves execCmdRetryExpiry_moves, fun _ _ => .of_moves execSeqGapSkip_moves, ?_⟩
  -- The noted reset and frames.
  refine ⟨.of_moves execDomainResetStart_moves, fun _ _ _ _ => .of_moves execDataFrameReceived_moves,
    fun _ _ _ _ => .of_moves execOverflowFrameReceived_moves, ?_⟩
  -- Received records, and the waits of joining.
  refine ⟨fun _ => .of_moves execEpochReceived_moves, fun _ => .of_moves execReconcileReceived_moves,
    fun _ => .of_moves execLastGaspReceived_moves, fun _ _ => .of_moves execJoinReceived_moves,
    fun _ => .of_moves execJoinAnswerReceived_moves, .of_moves execJoinTimeout_moves, .of_moves execFabJoinRepeat_moves,
    fun _ => .of_moves execStampPairsReceived_moves, fun _ => .of_moves execCorrectionReceived_moves,
    fun _ => .of_moves execFeaturesReceived_moves, fun _ => .of_moves execArrivalReceived_moves,
    fun _ => .of_moves execBatchReceived_moves, fun _ => .of_moves execExpelVerdictReceived_moves,
    fun _ => .of_moves execHealthyStepReceived_moves, fun _ => .of_moves execReplayReqReceived_moves,
    fun _ => .of_moves execReplayDigestReceived_moves, fun _ => .of_moves execRefusedReceived_moves,
    fun _ => .of_moves execJobReleaseReceived_moves, fun _ => .of_moves execCutContribReceived_moves,
    fun _ => .of_moves execBroadcastReceived_moves, fun _ => .of_moves execBroadcastAckReceived_moves, ?_⟩
  -- The waits of a broadcast, and Hoist.
  exact ⟨fun _ _ => .of_moves execAckTimerExpiry_moves, fun _ _ => .of_moves execResendAckTimerExpiry_moves,
    fun _ => .of_moves execImageChunkData_moves, fun _ => .of_moves execChunkWritten_moves,
    fun _ => .of_moves execImageChunkAck_moves, .of_moves execHoistRtoExpiry_moves, .of_moves execHoistWaitExpiry_moves,
    fun _ => .of_moves execStartReq_moves⟩

end Sys2Proof.Machine
end

section
/-! SUPPORT. The rows of Assay: what each leaves once it is due. -/

namespace Sys2Proof.Machine

/-! ### METRO's power and its calibration banks (R26, R364) -/

theorem exec_pgMetroAssert_down {calEn : Bool} {s : State} (h : s.metro.up = false) :
    exec (.pgMetroAssert calEn) s =
      .next ((s.modMetro fun _ => { metroReset s.metro.banks with up := true, calOpen := calEn }).modPow fun u =>
        { u with pgMetro := true, metroHeld := false }) :=
  if_neg (by simp [h])

theorem exec_assayCalibrationWrite_open {data : List Byte} {s : State} (hup : s.metro.up = true)
    (hopen : s.metro.calOpen = true) (hroom : s.metro.banks.length < 4) (hlen : data.length = 52) :
    exec (.assayCalibrationWrite data) s = .next (s.modMetro fun m => { m with banks := m.banks ++
      [{ offV := signed 32 (rd data 0 4), offI := signed 32 (rd data 4 4), ke := rd data 8 8, kv := rd data 16 10,
         ki := rd data 26 10, key := slice data 36 16 }] }) :=
  if_pos (by simp [hup, hopen, hroom, hlen])

/-! ### Conversions and their pairs (R365, R366, R475) -/

/-- Two updates of METRO that agree on the partition as it stands are one. -/
theorem State.modMetro_congr {f g : MetroUnit → MetroUnit} {s : State} (h : f s.metro = g s.metro) :
    s.modMetro f = s.modMetro g :=
  congrArg (fun m => { s with metro := m }) h

theorem MetroUnit.missPair_ns (m : MetroUnit) : m.missPair.ns = m.ns := by
  unfold MetroUnit.missPair
  split <;> rfl

/-- A conversion starts as it is due, after what became of the one before it. -/
theorem exec_assayConversion_due {s : State} (hup : s.metro.up = true) (hdue : s.metro.convK < s.metro.ns / 125000) :
    exec .assayConversion s = .next (s.modMetro fun m =>
      { (if m.conv.isSome then m.missPair else m) with convK := m.ns / 125000, conv := some m.ns }) := by
  have h : exec .assayConversion s = .next (s.modMetro fun m =>
      { (if m.conv.isSome then m.missPair else m) with
        convK := s.metro.ns / 125000, conv := some (if m.conv.isSome then m.missPair else m).ns }) :=
    if_pos (by simp [hup, hdue])
  rw [h]
  refine congrArg Host.Outcome.next (State.modMetro_congr ?_)
  split <;> simp [MetroUnit.missPair_ns]

theorem exec_assayConversion_idle {s : State} (hup : s.metro.up = true) (hdue : s.metro.convK < s.metro.ns / 125000)
    (hconv : s.metro.conv = none) :
    exec .assayConversion s = .next (s.modMetro fun m => { m with convK := m.ns / 125000, conv := some m.ns }) :=
  (exec_assayConversion_due hup hdue).trans <|
    congrArg Host.Outcome.next (State.modMetro_congr (by simp [hconv]))

theorem exec_assayConversion_waiting {s : State} {t : Nat} (hup : s.metro.up = true)
    (hdue : s.metro.convK < s.metro.ns / 125000) (hconv : s.metro.conv = some t) :
    exec .assayConversion s =
      .next (s.modMetro fun m => { m.missPair with convK := m.ns / 125000, conv := some m.ns }) :=
  (exec_assayConversion_due hup hdue).trans <|
    congrArg Host.Outcome.next (State.modMetro_congr (by simp [hconv]))

theorem exec_assaySamplePair_inTime {v i : BitVec 24} {s : State} {t : Nat} {cv ci p : Int} {k : CalBank}
    (hup : s.metro.up = true) (hconv : s.metro.conv = some t) (htime : s.metro.ns ≤ t + 100000)
    (hcv : cv = signed 24 v.toNat) (hci : ci = signed 24 i.toNat) (hk : k = s.metro.cal)
    (hp : p = (cv - k.offV) * (ci - k.offI)) :
    exec (.assaySamplePair v i) s = .next (s.modMetro fun m =>
      { m.accumulate p with conv := none, lastP := p, missRun := 0, sense := false, nsamp := m.nsamp + 1,
                            clipV := m.clipV || clipped cv, clipI := m.clipI || clipped ci,
                            sumV := m.sumV + (cv - k.offV), sumI := m.sumI + (ci - k.offI), n := m.n + 1 }) := by
  subst hp hk hci hcv
  change execAssaySamplePair v i s = _
  unfold execAssaySamplePair
  rw [hconv]
  exact if_pos (by simp [hup, htime])

theorem exec_assayPairMissing_late {s : State} {t : Nat} (hup : s.metro.up = true) (hconv : s.metro.conv = some t)
    (hlate : t + 100000 < s.metro.ns) : exec .assayPairMissing s = .next (s.modMetro MetroUnit.missPair) := by
  change execAssayPairMissing s = _
  unfold execAssayPairMissing
  rw [hconv]
  exact if_pos (by simp [hup, hlate])

/-! ### The readout (R368) -/

theorem exec_assayReadoutFrame_due {s : State} {b : List Byte} (hup : s.metro.up = true)
    (hdue : s.metro.pulseDue = true ∨ s.metro.lastFrame + 1250000000 ≤ s.metro.ns)
    (hb : b = s.metro.frame (s.metro.rseq + 1)) :
    exec .assayReadoutFrame s = .next (((s.modMetro fun m =>
      { m with rseq := m.rseq + 1, lastFrame := m.ns, pulseDue := false, clipV := false, clipI := false, sumV := 0, sumI := 0,
               n := 0, pmax := none }).emit (.readout b)).assayTake b) := by
  subst hb
  exact if_pos (by simpa [hup] using hdue)

end Sys2Proof.Machine
end

section
/-! The statement of the Assay rows. -/

namespace Sys2Proof.Machine

/-- Settles O40: each clause is the run lemma of its row. -/
theorem assayRowsRun : Obligations.AssayRowsRun := by
  unfold Obligations.AssayRowsRun
  exact ⟨fun _ _ => exec_pgMetroAssert_down, fun _ => rfl, fun _ _ => exec_assayCalibrationWrite_open,
    fun _ => exec_assayConversion_idle, fun _ _ => exec_assayConversion_waiting,
    fun _ _ _ _ _ _ _ _ => exec_assaySamplePair_inTime, fun _ _ => exec_assayPairMissing_late,
    fun _ _ => exec_assayReadoutFrame_due⟩

end Sys2Proof.Machine
end

section
/-! SUPPORT. The rows of the ports: what each leaves once it is due. -/

namespace Sys2Proof.Machine

/-! ### Frames (R113 to R118, R466) -/

/-- While ENG runs, a frame on an interface that receives goes to the check unit; one that ends with ABORT only gives its
credits back and ends the pair that waited. -/
theorem State.frameIn_running {i : Nat} {b : List Byte} {abort : Bool} {route : Routing} {s : State}
    (hlink : s.linkOk i = true) (hheld : s.pow.engHeld = false) (heng : s.engUp = true) :
    s.frameIn i b abort route =
      if abort then (s.returnCredits i b.length).endPair i none else s.takeFrame i { bytes := b, route := route } := by
  simp [State.frameIn, hlink, hheld, heng]

theorem State.takeFrame_bad {i : Nat} {f : RxFrame} {s : State} (hgood : frameGood f.bytes = false) :
    s.takeFrame i f = ((s.returnCredits i f.bytes.length).endPair i none).checkFail i := by
  simp [State.takeFrame, hgood]

theorem State.takeFrame_overflow {i : Nat} {f : RxFrame} {s : State} (hgood : frameGood f.bytes = true)
    (hov : fhOvff f.bytes = true) :
    s.takeFrame i f = (s.returnCredits i f.bytes.length).endPair i (some f.bytes) := by
  simp [State.takeFrame, hgood, hov]

theorem State.takeFrame_data {i : Nat} {f : RxFrame} {s : State} (hgood : frameGood f.bytes = true)
    (hov : fhOvff f.bytes = false) :
    s.takeFrame i f =
      if needsOverflow f.bytes then
        ((s.returnCredits i f.bytes.length).endPair i none).modIfc i fun x => { x with rxPair := some f }
      else ((s.returnCredits i f.bytes.length).endPair i none).deliverFrame i f none := by
  simp [State.takeFrame, hgood, hov]

/-- What the two frame rows leave while ENG runs, by what the check unit finds. -/
theorem exec_frameReceived_running {i : Iface} {b : List Byte} {route : Routing} {s t : State}
    (hlink : s.linkOk i.val = true) (hheld : s.pow.engHeld = false) (heng : s.engUp = true)
    (ht : t = s.emit (.credits i.val (flitsOf b.length))) :
    (frameGood b = false →
      exec (.dataFrameReceived i b false route) s = .next ((t.endPair i.val none).checkFail i.val)) ∧
    (frameGood b = true → fhOvff b = false → needsOverflow b = false →
      exec (.dataFrameReceived i b false route) s =
        .next ((t.endPair i.val none).deliverFrame i.val { bytes := b, route := route } none)) ∧
    (frameGood b = true → fhOvff b = false → needsOverflow b = true →
      exec (.dataFrameReceived i b false route) s = .next ((t.endPair i.val none).modIfc i.val fun x =>
        { x with rxPair := some { bytes := b, route := route } })) ∧
    (frameGood b = true → fhOvff b = true →
      exec (.overflowFrameReceived i b false route) s = .next (t.endPair i.val (some b))) ∧
    exec (.dataFrameReceived i b true route) s = .next (t.endPair i.val none) := by
  subst ht
  have taken : s.frameIn i.val b false route = s.takeFrame i.val { bytes := b, route := route } :=
    State.frameIn_running hlink hheld heng
  have cut : s.frameIn i.val b true route = (s.returnCredits i.val b.length).endPair i.val none :=
    State.frameIn_running hlink hheld heng
  refine ⟨fun hgood => ?bad, fun hgood hov hneeds => ?whole, fun hgood hov hneeds => ?waits, fun hgood hov => ?overflow,
    congrArg Host.Outcome.next cut⟩
  case bad => exact congrArg Host.Outcome.next (taken.trans (State.takeFrame_bad hgood))
  case whole =>
    have hdone : ¬needsOverflow b = true := by simp [hneeds]
    exact congrArg Host.Outcome.next ((taken.trans (State.takeFrame_data hgood hov)).trans (if_neg hdone))
  case waits => exact congrArg Host.Outcome.next ((taken.trans (State.takeFrame_data hgood hov)).trans (if_pos hneeds))
  case overflow => exact congrArg Host.Outcome.next (taken.trans (State.takeFrame_overflow hgood hov))

/-! ### Links and PORT domains (R54, R141) -/

theorem exec_linkUpRise_low {i : Iface} {cr : BitVec 12} {peer : Laddr} {s t : State} (hlow : (s.ifc i.val).linkUp = false)
    (ht : t = s.modIfc i.val fun f => { f with linkUp := true, peer := peer, initCred := cr.toNat }) :
    exec (.linkUpRise i cr peer) s =
      .next (if (s.ifc i.val).portReset then t else t.linkReady i.val cr.toNat) := by
  subst ht
  exact if_neg (by simp [hlow])

theorem exec_linkUpFall_high {i : Iface} {s : State} (hhigh : (s.ifc i.val).linkUp = true) :
    exec (.linkUpFall i) s =
      .next (((s.endPair i.val none).modIfc i.val fun f => { f with linkUp := false }).linkLost i.val) :=
  if_pos hhigh

/-- The guard of PORT_DOMAIN_RELEASE: the block runs, and no reset of the host holds the port's domain. -/
def State.mayReleasePort (s : State) (p : PortName) : Bool :=
  s.aoUp && !(s.pow.hostReset || (s.pow.warmReset && [0, 1, 5, 11, 13].contains (portNo p))) && s.pow.phase == .running

theorem State.mayReleasePort_of {s : State} {p : PortName} (hao : s.aoUp = true) (hhost : s.pow.hostReset = false)
    (hwarm : s.pow.warmReset = true → portNo p ∉ [0, 1, 5, 11, 13]) (hrun : s.pow.phase = .running) :
    s.mayReleasePort p = true := by
  have hfree : (s.pow.warmReset && [0, 1, 5, 11, 13].contains (portNo p)) = false := by
    cases hw : s.pow.warmReset with
    | false => rfl
    | true => simpa using hwarm hw
  unfold State.mayReleasePort
  rw [hfree]
  simp [hao, hhost, hrun]

theorem exec_portDomainRelease_plain {p : PortName} {cr : BitVec 12} {s : State} (hao : s.aoUp = true)
    (hhost : s.pow.hostReset = false) (hwarm : s.pow.warmReset = true → portNo p ∉ [0, 1, 5, 11, 13])
    (hrun : s.pow.phase = .running) (hfab : p ≠ .fab) (hside : ∀ l, p ≠ .side l) :
    exec (.portDomainRelease p cr) s = .next (s.portRelease (portNo p)) := by
  have hmay := State.mayReleasePort_of hao hhost hwarm hrun
  cases p with
  | fab => exact absurd rfl hfab
  | side l => exact absurd rfl (hside l)
  | _ => exact if_pos hmay

theorem exec_portDomainRelease_fab {cr : BitVec 12} {s : State} (hao : s.aoUp = true) (hhost : s.pow.hostReset = false)
    (hrun : s.pow.phase = .running) :
    exec (.portDomainRelease .fab cr) s =
      .next ((s.modIfc 0 fun f => { f with initCred := cr.toNat }).portRelease (portNo .fab)) :=
  if_pos (State.mayReleasePort_of (p := .fab) hao hhost (fun _ => by decide) hrun)

theorem exec_portDomainRelease_side {l : Fin 16} {cr : BitVec 12} {s t : State} (hao : s.aoUp = true)
    (hhost : s.pow.hostReset = false) (hrun : s.pow.phase = .running)
    (ht : t = (s.modIfc (l.val + 1) fun f => { f with initCred := cr.toNat }).ifcRelease (l.val + 1)) :
    exec (.portDomainRelease (.side l) cr) s = .next (if (portIfcs 3).any (fun i => (t.ifc i).portReset) then t
      else t.modPow fun u => { u with heldPorts := u.heldPorts.filter (· != 3) }) := by
  subst ht
  exact if_pos (State.mayReleasePort_of (p := .side l) hao hhost (fun _ => by simp [portNo]) hrun)

/-! ### TAP and the discrete inputs (R76, R94 to R97) -/

theorem exec_tapBeat_heard {slots : List TapSlot} {s : State}
    (h : s.portUp .tap = true ∨ s.aoUp = true ∧ s.pow.phase = .roleLess) :
    exec (.tapBeat slots) s = .next (if s.isDie then ((slots.take 16).filter slotGood).foldl State.tapEvent (s.tapCount slots)
      else s.tapCount slots) :=
  if_pos (by simpa using h)

/-- Inputs are conditioned while the DISC port is up, and during start-up (log entry 77). -/
theorem exec_discConditionedChange_heard {i : Fin 32} {level active : Bool} {s : State}
    (hactive : active = (level != (s.disc i.val).cfg.pol)) (hao : s.aoUp = true)
    (hport : s.portUp .disc = true ∨ s.pow.phase ≠ .running) :
    exec (.discConditionedChange i level) s =
      if i.val = 0 then
        .next (if active && !s.trip && s.isDie then (s.discChange i.val active).stage 0x0D03 .fault 0xFF 0
          else s.discChange i.val active).clampSettle
      else .next (s.discChange i.val active) := by
  subst hactive
  exact if_pos (by simpa [hao] using hport)

theorem exec_discConditionedChange_input {i : Fin 32} {level : Bool} {s : State} (hao : s.aoUp = true)
    (hport : s.portUp .disc = true ∨ s.pow.phase ≠ .running) (hi : i.val ≠ 0) :
    exec (.discConditionedChange i level) s = .next (s.discChange i.val (level != (s.disc i.val).cfg.pol)) :=
  (exec_discConditionedChange_heard rfl hao hport).trans (if_neg hi)

/-- Input 0 is THERMAL_TRIP: a trip that is new is reported in die role, and the clamp follows the input (R349). -/
theorem exec_discConditionedChange_trip {level active : Bool} {s : State} (hactive : active = (level != (s.disc 0).cfg.pol))
    (hao : s.aoUp = true) (hport : s.portUp .disc = true ∨ s.pow.phase ≠ .running) :
    exec (.discConditionedChange 0 level) s = .next (if active = true ∧ s.trip = false ∧ s.isDie = true then
      (s.discChange 0 active).stage 0x0D03 .fault 0xFF 0 else s.discChange 0 active).clampSettle := by
  refine (exec_discConditionedChange_heard hactive hao hport).trans ((if_pos rfl).trans ?_)
  simp [and_assoc]

/-- Two updates of an entry that agree on it as it stands are one. -/
theorem lmod_congr {α : Type} {l : List α} {i : Nat} {d : α} {f g : α → α} (h : f (lget l i d) = g (lget l i d)) :
    lmod l i f = lmod l i g := by
  induction l generalizing i with
  | nil => rfl
  | cons x l ih =>
    cases i with
    | zero => exact congrArg (· :: l) h
    | succ n => exact congrArg (x :: ·) (ih h)

theorem State.modDisc_congr {i : Nat} {f g : Disc → Disc} {s : State} (h : f (s.disc i) = g (s.disc i)) :
    s.modDisc i f = s.modDisc i g :=
  congrArg (fun l => s.modColl fun c => { c with disc := l }) (lmod_congr h)

theorem exec_chatterWindowEnd_due {i : Fin 32} {s : State} {d : Disc} {b : Nat} (hd : d = s.disc i.val)
    (hb : b = gridAt (d.cfg.winMs * 1000000) s.tb0Past) (hao : s.aoUp = true) (hdue : d.lastWin < b) :
    exec (.chatterWindowEnd i) s = .next ((if d.mode = .chatter then
        (s.bump cDiscChatter).sendDisc (discReq i.val 1 (d.state.getD false) (min d.count 0xFFFF) 0 s.tb0Ns)
      else s).modDisc i.val fun x =>
      { x with lastWin := b, count := 0, cfg := x.cfgNext.getD x.cfg, cfgNext := none,
               mode := if x.mode = .chatter ∧ d.count ≤ d.cfg.chatExit then .normal else x.mode }) := by
  subst hb hd
  exact if_pos ⟨hao, hdue⟩

theorem exec_chatterWindowEnd_chatter {i : Fin 32} {s : State} {d : Disc} {b : Nat} (hd : d = s.disc i.val)
    (hb : b = gridAt (d.cfg.winMs * 1000000) s.tb0Past) (hao : s.aoUp = true) (hdue : d.lastWin < b)
    (hmode : d.mode = .chatter) :
    exec (.chatterWindowEnd i) s = .next (((s.bump cDiscChatter).sendDisc
        (discReq i.val 1 (d.state.getD false) (min d.count 0xFFFF) 0 s.tb0Ns)).modDisc i.val fun x =>
      { x with lastWin := b, count := 0, cfg := x.cfgNext.getD x.cfg, cfgNext := none,
               mode := if x.mode = .chatter ∧ d.count ≤ d.cfg.chatExit then .normal else x.mode }) := by
  rw [exec_chatterWindowEnd_due hd hb hao hdue, if_pos hmode]

/-- Outside CHATTER the mode stays. -/
theorem exec_chatterWindowEnd_calm {i : Fin 32} {s : State} {d : Disc} {b : Nat} (hd : d = s.disc i.val)
    (hb : b = gridAt (d.cfg.winMs * 1000000) s.tb0Past) (hao : s.aoUp = true) (hdue : d.lastWin < b)
    (hmode : d.mode ≠ .chatter) :
    exec (.chatterWindowEnd i) s = .next (s.modDisc i.val fun x =>
      { x with lastWin := b, count := 0, cfg := x.cfgNext.getD x.cfg, cfgNext := none, mode := x.mode }) := by
  rw [exec_chatterWindowEnd_due hd hb hao hdue, if_neg hmode]
  refine congrArg Host.Outcome.next (State.modDisc_congr ?_)
  simp [hd ▸ hmode]

theorem exec_stuckTimeout_due {i : Fin 32} {s : State} {d : Disc} {t : Nat} (hd : d = s.disc i.val) (hao : s.aoUp = true)
    (hms : 0 < d.cfg.stuckMs) (hmode : d.mode ≠ .stuck) (hsince : d.activeSince = some t)
    (hpast : s.past1 (t + d.cfg.stuckMs * 1000000) = true) :
    exec (.stuckTimeout i) s =
      .next ((s.modDisc i.val fun x => { x with mode := .stuck }).sendDisc (discReq i.val 2 true 0 0 s.tb0Ns)) := by
  subst hd
  change execStuckTimeout i s = _
  simp only [execStuckTimeout, hsince]
  exact if_pos ⟨hao, hms, hmode, hpast⟩

/-! ### The epoch pulse and the scrubber (R48, R31 to R33) -/

theorem exec_epochPulse_heard {s : State} (hport : s.portUp .time = true) :
    exec .epochPulse s = .next (if s.time.lock = .locked ∧ 100 * 2 ^ 16 < s.pulseOff.natAbs then
        (s.bump cPulseMismatch).stage 0x0101 .notice 0 (unsigned 64 (s.pulseOff / 2 ^ 16))
      else s).epochEverywhere.metroPulse := by
  refine (if_pos hport).trans ?_
  simp

theorem exec_epochPulse_near {s : State} (hport : s.portUp .time = true)
    (hnear : s.time.lock = .locked → s.pulseOff.natAbs ≤ 100 * 2 ^ 16) :
    exec .epochPulse s = .next s.epochEverywhere.metroPulse := by
  rw [exec_epochPulse_heard hport, if_neg fun h => absurd (hnear h.1) (Nat.not_le.mpr h.2)]

theorem exec_epochPulse_far {s : State} (hport : s.portUp .time = true) (hlock : s.time.lock = .locked)
    (hfar : 100 * 2 ^ 16 < s.pulseOff.natAbs) :
    exec .epochPulse s = .next (((s.bump cPulseMismatch).stage 0x0101 .notice 0
      (unsigned 64 (s.pulseOff / 2 ^ 16))).epochEverywhere.metroPulse) := by
  rw [exec_epochPulse_heard hport, if_pos ⟨hlock, hfar⟩]

/-- One or two wrong bits are corrected and counted, three take the action of Table 1.9. -/
theorem exec_scrubWord_found {hit : EccHit} {s : State} (hao : s.aoUp = true) (hsome : 1 ≤ hit.errs) (hfew : hit.errs ≤ 3) :
    exec (.scrubWord hit) s = if hit.errs ≤ 2 then .next (s.bump (0x40 + 2 * eccIndex hit.array))
      else .next ((s.bump (0x41 + 2 * eccIndex hit.array)).eccAction hit.array hit.at1 hit.at2) :=
  if_neg (by simp [hao]; omega)

end Sys2Proof.Machine
end

section
/-! The statement of the port rows. -/

namespace Sys2Proof.Machine

/-- Settles O49: each clause is the run lemma of its row. -/
theorem portRowsRun : Obligations.PortRowsRun := by
  unfold Obligations.PortRowsRun
  refine ⟨fun _ _ _ _ _ => exec_frameReceived_running, fun _ _ _ _ _ => exec_linkUpRise_low, fun _ _ => exec_linkUpFall_high,
    fun _ _ _ => exec_portDomainRelease_plain, fun _ _ => exec_portDomainRelease_fab,
    fun _ _ _ _ => exec_portDomainRelease_side, fun _ _ => exec_tapBeat_heard, fun _ _ _ => exec_discConditionedChange_input,
    fun _ _ _ => exec_discConditionedChange_trip, fun _ _ _ _ => exec_chatterWindowEnd_calm,
    fun _ _ _ _ => exec_chatterWindowEnd_chatter, fun _ _ _ _ => exec_stuckTimeout_due, fun _ => exec_epochPulse_near,
    fun _ => exec_epochPulse_far, fun _ _ hao hsome => ⟨fun h2 => ?few, fun h3 => ?three⟩⟩
  case few => rw [exec_scrubWord_found hao hsome (by omega), if_pos h2]
  case three => rw [exec_scrubWord_found hao hsome (by omega), if_neg (by omega)]

end Sys2Proof.Machine
end

section
/-! SUPPORT. Power-up, power lost and the resets: what each row leaves once it is due. -/

namespace Sys2Proof.Machine

/-! ### AO's power and the start-up sequence (R26, R443 to R448) -/

theorem exec_pgAoAssert_started {role : Role} {clk ok self : Bool} {s t : State} (hheld : s.pow.aoHeld = true)
    (hrole : role ≠ .invalid)
    (ht : t = (s.aoStart role clk).modHoist fun h =>
      { h with running := (s.aoStart role clk).confirmedSlot, restoreOk := true, selfOk := self }) :
    exec (.pgAoAssert role clk ok self) s =
      if ok then .next t.clocksUp.loadImage.readConf.migrate.loadTestDone.startOffset.toRestore
      else .next ((t.readFlash (regionBase 0 (s.aoStart role clk).confirmedSlot)
        ((s.aoStart role clk).slotHdr (s.aoStart role clk).confirmedSlot).len).modPow fun u =>
        { u with phase := .badFirmware, intHold := true, heldPorts := u.heldPorts.filter (· != 2) }) := by
  subst ht
  exact (if_pos hheld).trans (if_neg hrole)

theorem exec_pgAoAssert_roleLess {clk ok self : Bool} {s : State} (hheld : s.pow.aoHeld = true) :
    exec (.pgAoAssert .invalid clk ok self) s = .next ((s.aoStart .invalid clk).modPow fun u =>
      { u with phase := .roleLess, heldPorts := u.heldPorts.filter (· != 2) }) :=
  (if_pos hheld).trans (if_pos rfl)

/-- Power lost resets all; a block that was out of service owes SERVICE_RESTORED (R293). -/
theorem exec_pgAoDeassert (s : State) :
    exec .pgAoDeassert s = .next (if s.sys.oos then
      ((s.modHall HallUnit.tear).aoReset .invalid).ownNotice 5 0xFF 0 0xFF 0xFF 0 0 0
      else (s.modHall HallUnit.tear).aoReset .invalid) := rfl

theorem exec_restoreDone_last {s t : State} (hrest : s.restoring = true) (hctl : s.ctlUp = true) (heng : s.engUp = true)
    (ht : t = s.restoreAll) (hrest' : t.restoring = true) (hctl' : t.ctlUp = true) (heng' : t.engUp = true)
    (hnone : ∀ a ∈ t.cmd.acc, restorePath a.path = false) : exec .restoreDone s = .next t.begin' := by
  subst ht
  have hstart : (s.restoring && s.ctlUp && s.engUp) = true := by simp [hrest, hctl, heng]
  have hover : (s.restoreAll.restoring && s.restoreAll.ctlUp && s.restoreAll.engUp &&
      !(s.restoreAll.cmd.acc.any fun a => restorePath a.path)) = true := by
    simpa [hrest', hctl', heng'] using hnone
  exact (if_pos hstart).trans (if_pos hover)

/-! ### The reset inputs (Table 1.7, R275, R282, R283, R286) -/

theorem exec_rstHostNAssert_free {s : State} (hao : s.aoUp = true) (hhost : s.pow.hostReset = false) :
    exec .rstHostNAssert s =
      .next (((s.modPow fun u => { u with hostReset := true }).hostResetSeen).resetEntry 2 true true allPorts) :=
  if_pos (by simp [hao, hhost])

theorem exec_rstWarmNAssert_free {s : State} (hao : s.aoUp = true) (hwarm : s.pow.warmReset = false) :
    exec .rstWarmNAssert s = .next (warmPorts.foldl (fun t p => t.portReset p)
      ((s.modPow fun u => { u with warmReset := true }).warmResetSeen).testReset) :=
  if_pos (by simp [hao, hwarm])

theorem exec_rstWarmNRelease_held {s t : State} (hao : s.aoUp = true) (hwarm : s.pow.warmReset = true)
    (ht : t = (s.modPow fun u => { u with warmReset := false }).warmReleased) :
    exec .rstWarmNRelease s = .next (if s.pow.hostReset || s.pow.phase != .running then t
      else warmPorts.foldl (fun t p => t.portRelease p) t) := by
  subst ht
  exact if_pos (by simp [hao, hwarm])

/-! ### Domains let go, and the noted reset (R449, R26, R286) -/

theorem exec_resetRelease_held {self : Bool} {s : State} (hao : s.aoUp = true) (hhold : s.pow.intHold = false)
    (hheld : s.pow.ctlHeld = true ∨ s.pow.engHeld = true) (hphase : s.pow.phase = .running ∨ s.restoring = true)
    (hoff : s.pow.pstate ≠ .off) :
    exec (.resetRelease self) s = .next ((if s.pow.hostReset then
      (s.modPow fun u => { u with hostReset := false }).watchRelease else s).clocksUp.engRestart.ctlRestart self) :=
  if_pos (by simpa [hao, hhold, hoff] using ⟨hheld, hphase⟩)

theorem exec_domainResetStart_noted {s : State} {p : BitVec 8 × Dword × Nat} {eng ctl : Bool} (hpend : s.pow.pend = some p)
    (hctl : ctl = bit p.1.toNat 3) (heng : eng = (ctl || bit p.1.toNat 2)) :
    exec .domainResetStart s = .next ((s.modPow fun u =>
      { u with pend := none, intHold := u.intHold && !(eng && s.hangHold) }).resetEntry 4 ctl eng
        ((List.range portCount).filter fun i => bit p.2.1.toNat i)) := by
  subst heng hctl
  change execDomainResetStart s = _
  unfold execDomainResetStart
  rw [hpend]

end Sys2Proof.Machine
end

section
/-! The statement of the reset rows. -/

namespace Sys2Proof.Machine

/-- Settles O54: each clause is the run lemma of its row. -/
theorem resetRowsRun : Obligations.ResetRowsRun := by
  unfold Obligations.ResetRowsRun
  refine ⟨fun _ _ _ _ _ hheld hrole ht =>
      ⟨exec_pgAoAssert_started hheld hrole ht, exec_pgAoAssert_started hheld hrole ht⟩,
    fun _ _ _ _ => exec_pgAoAssert_roleLess, fun _ _ ht => ⟨fun hin => ?inService, fun hout => ?outOfService⟩,
    fun _ _ => exec_restoreDone_last, fun _ => exec_rstHostNAssert_free, fun _ => exec_rstWarmNAssert_free,
    fun _ _ => exec_rstWarmNRelease_held, fun _ _ => exec_resetRelease_held, fun _ _ _ _ => exec_domainResetStart_noted⟩
  case inService => simp [exec_pgAoDeassert, hin, ht]
  case outOfService => simp [exec_pgAoDeassert, hout, ht]

end Sys2Proof.Machine
end

section
/-! SUPPORT. An AO cycle on an empty queue, and a group of five of them (R39). -/

namespace Sys2Proof.Machine

theorem step_of_pending_nil {s : State} (h : s.pending = []) : step s = .next s.aoTick := by
  simp only [step, h]

theorem State.aoTick_pending (s : State) : s.aoTick.pending = s.pending := State.aoTick_moves.1 .pending rfl

theorem State.aoTick_aoUp (s : State) : s.aoTick.aoUp = s.aoUp :=
  congrArg (fun u : PowUnit => !u.aoHeld) (State.aoTick_moves.1 .pow rfl)

/-- Of the time unit, TB3's cycle moves nothing but the count of free values. -/
theorem State.tb3Tick_time (s : State) : ∃ n, s.tb3Tick.time = { s.time with freeCount := n } := by
  unfold State.tb3Tick
  split
  · exact ⟨_, rfl⟩
  · exact ⟨_, rfl⟩

theorem State.aoTick_time {s : State} (hao : s.aoUp = true) :
    ∃ n, s.aoTick.time = { s.time.cycle with freeCount := n } := by
  unfold State.aoTick
  rw [if_pos hao]
  exact State.tb3Tick_time _

/-! ### The time bases over one cycle -/

theorem TimeUnit.cycle_inGroup {u : TimeUnit} (h : u.phase ≠ 4) :
    u.cycle.phase = u.phase + 1 ∧ u.cycle.tb1 = u.tb1 + 419430 ∧ u.cycle.tb0 = u.tb0 + BitVec.ofNat 96 (419430 * 2 ^ 16)
      ∧ u.cycle.adj = u.adj := by
  simp [TimeUnit.cycle, h]

theorem TimeUnit.cycle_groupEnd {u : TimeUnit} (h : u.phase = 4) :
    u.cycle.phase = 0 ∧ u.cycle.tb1 = u.tb1 + 419432
      ∧ u.cycle.tb0 = u.tb0 + BitVec.ofNat 96 (419432 * 2 ^ 16) + BitVec.signExtend 96 u.adj
      ∧ u.cycle.adj = u.adjNext.getD u.adj := by
  simp [TimeUnit.cycle, h]

theorem State.aoTick_inGroup {s : State} (hao : s.aoUp = true) (h : s.time.phase ≠ 4) :
    s.aoTick.time.phase = s.time.phase + 1 ∧ s.aoTick.time.tb1 = s.time.tb1 + 419430
      ∧ s.aoTick.time.tb0 = s.time.tb0 + BitVec.ofNat 96 (419430 * 2 ^ 16) ∧ s.aoTick.time.adj = s.time.adj := by
  obtain ⟨n, hn⟩ := State.aoTick_time hao
  rw [hn]
  exact TimeUnit.cycle_inGroup h

theorem State.aoTick_groupEnd {s : State} (hao : s.aoUp = true) (h : s.time.phase = 4) :
    s.aoTick.time.phase = 0 ∧ s.aoTick.time.tb1 = s.time.tb1 + 419432
      ∧ s.aoTick.time.tb0 = s.time.tb0 + BitVec.ofNat 96 (419432 * 2 ^ 16) + BitVec.signExtend 96 s.time.adj
      ∧ s.aoTick.time.adj = s.time.adjNext.getD s.time.adj := by
  obtain ⟨n, hn⟩ := State.aoTick_time hao
  rw [hn]
  exact TimeUnit.cycle_groupEnd h

/-! ### A group of five cycles -/

/-- In `t`, `k` cycles of the group that began in `s` have passed, and no command waits. -/
structure InGroup (s : State) (k : Nat) (t : State) : Prop where
  idle : t.pending = []
  up : t.aoUp = true
  phase : t.time.phase.val = k
  tb1 : t.time.tb1 = s.time.tb1 + BitVec.ofNat 80 (k * 419430)
  tb0 : t.time.tb0 = s.time.tb0 + BitVec.ofNat 96 (k * (419430 * 2 ^ 16))
  adj : t.time.adj = s.time.adj

theorem InGroup.start {s : State} (hidle : s.pending = []) (hao : s.aoUp = true) (hphase : s.time.phase = 0) :
    InGroup s 0 s where
  idle := hidle
  up := hao
  phase := congrArg Fin.val hphase
  tb1 := by simp
  tb0 := by simp
  adj := rfl

/-- One more cycle of `d` units on top of `k` of them. -/
theorem add_cycles_succ {w : Nat} (x : BitVec w) (k d : Nat) :
    x + BitVec.ofNat w (k * d) + BitVec.ofNat w d = x + BitVec.ofNat w ((k + 1) * d) := by
  rw [Nat.succ_mul, BitVec.ofNat_add, BitVec.add_assoc]

/-- The cycles of a group before its last. -/
theorem InGroup.cycle {s t u : State} {k : Nat} (h : InGroup s k t) (hk : k < 4) (hu : step t = .next u) :
    InGroup s (k + 1) u := by
  obtain rfl : t.aoTick = u := Host.Outcome.next.inj ((step_of_pending_nil h.idle).symm.trans hu)
  have hlt : t.time.phase.val < 4 := h.phase ▸ hk
  have hne : t.time.phase ≠ 4 := fun e => absurd (congrArg Fin.val e) (Nat.ne_of_lt hlt)
  obtain ⟨hphase, htb1, htb0, hadj⟩ := State.aoTick_inGroup h.up hne
  constructor
  case idle => rw [State.aoTick_pending, h.idle]
  case up => rw [State.aoTick_aoUp, h.up]
  case phase => rw [hphase, Fin.val_add_one_of_lt hlt, h.phase]
  case tb1 =>
    rw [htb1, h.tb1]
    exact add_cycles_succ _ k _
  case tb0 =>
    rw [htb0, h.tb0]
    exact add_cycles_succ _ k _
  case adj => rw [hadj, h.adj]

/-- The fifth cycle ends the group: 32 ns in all, and ADJ on TB0. -/
theorem InGroup.finish {s t u : State} (h : InGroup s 4 t) (hu : step t = .next u) :
    u.time.phase = 0 ∧ u.time.tb1 = s.time.tb1 + 32 * 2 ^ 16
      ∧ u.time.tb0 = s.time.tb0 + BitVec.ofNat 96 (32 * 2 ^ 32) + BitVec.signExtend 96 s.time.adj := by
  obtain rfl : t.aoTick = u := Host.Outcome.next.inj ((step_of_pending_nil h.idle).symm.trans hu)
  obtain ⟨hphase, htb1, htb0, _⟩ := State.aoTick_groupEnd h.up (Fin.ext h.phase)
  refine ⟨hphase, ?_, ?_⟩
  · rw [htb1, h.tb1, BitVec.add_assoc]
    rfl
  · rw [htb0, h.tb0, h.adj, BitVec.add_assoc (s.time.tb0), ← BitVec.ofNat_add,
      show 4 * (419430 * 2 ^ 16) + 419432 * 2 ^ 16 = 32 * 2 ^ 32 from rfl]

end Sys2Proof.Machine
end

section
/-! The statements of the AO cycle, and of the state after power-on. -/

namespace Sys2Proof.Machine

/-- Settles O2: the empty queue's step is an AO cycle, whose place in its group says what it adds. -/
theorem emptyQueueTicks : Obligations.EmptyQueueTicks := by
  unfold Obligations.EmptyQueueTicks
  intro s hidle hao
  exact ⟨s.aoTick, step_of_pending_nil hidle, (State.aoTick_pending s).trans hidle, State.aoTick_inGroup hao,
    State.aoTick_groupEnd hao⟩

/-- Settles O3: four cycles within the group, then the one that ends it. -/
theorem groupOfFiveCycles : Obligations.GroupOfFiveCycles := by
  unfold Obligations.GroupOfFiveCycles
  intro s a b c d e hidle hao hphase ha hb hc hd he
  have ha : InGroup s 1 a := (InGroup.start hidle hao hphase).cycle (by decide) ha
  have hb : InGroup s 2 b := ha.cycle (by decide) hb
  have hc : InGroup s 3 c := hb.cycle (by decide) hc
  have hd : InGroup s 4 d := hc.cycle (by decide) hd
  exact hd.finish he

/-- Settles O4: each value is read off the state after power-on. -/
theorem resetValues : Obligations.ResetValues := by
  unfold Obligations.ResetValues
  decide

end Sys2Proof.Machine
end

section
/-! SUPPORT. The commands of the TIME group: what each answers where every check passes. -/

namespace Sys2Proof.Machine

/-! ### What a time command reads after the start of its command -/

@[simp] theorem State.tb0Ns_begun (o : OpSpec) (s : State) : (s.begun o).tb0Ns = s.tb0Ns := by simp [State.tb0Ns]

@[simp] theorem State.wcNs_begun (o : OpSpec) (s : State) : (s.begun o).wcNs = s.wcNs := by simp [State.wcNs]

/-! ### The commands (Table 16.8) -/

theorem exec_timeConfig_clean {c : Cmd} {s : State} (h : Clean opTimeConfig c s) (hn : NoInput c) (hroot : cp c 28 4 < 2 ^ 18)
    (hdom : cp c 0 1 ≤ 127)
    (hdrq : BitVec.ofNat 8 (cp c 1 1) = 0x7F ∨
      (-7 ≤ (BitVec.ofNat 8 (cp c 1 1)).toInt ∧ (BitVec.ofNat 8 (cp c 1 1)).toInt ≤ 0))
    (htol : 1 ≤ cp c 22 1) (htol' : cp c 22 1 ≤ 64) (hwc : 1 ≤ cp c 23 1) (hwc' : cp c 23 1 ≤ 100) (hiv : 1 ≤ cp c 24 2)
    (hiv' : cp c 24 2 ≤ 1000)
    (hbanks : banksFit { s.bankNeed false with wc := cp c 23 1 * 1000000 }
      { s.bankNeed true with wc := cp c 23 1 * 1000000 } = true) :
    exec (.timeConfig c) s = .next (((s.begun opTimeConfig).modTime fun u =>
      { u with wcNext := some (cp c 23 1, gridAt s.wcNs s.tb0Ns + s.wcNs), cfg :=
      { domain := BitVec.ofNat 8 (cp c 0 1), drq := BitVec.ofNat 8 (cp c 1 1), clkId := BitVec.ofNat 64 (cp c 4 8),
        origin := BitVec.ofNat 80 (cp c 12 10), tol := cp c 22 1, wcMs := s.wcNs / 1000000, pairIv := cp c 24 2,
        troot := some (BitVec.ofNat 18 (cp c 28 4)) } }).answered opTimeConfig c 0 [] []) :=
  congrArg Host.Outcome.next <| runCmd_ok h
    (by simpa [ckNoInline_ok hn, hdom, htol, htol', hwc, hwc', hiv, hiv'] using ⟨hroot, hdrq⟩) (by simp [hbanks]) (by simp)

theorem exec_timeJob_clean {c : Cmd} {s : State} (h : Clean opTimeJob c s) (hn : NoInput c) :
    exec (.timeJob c) s = .next (((s.begun opTimeJob).modTime fun u =>
      { u with jobOrigin := BitVec.ofNat 64 (cp c 0 8) }).answered opTimeJob c 0 [] []) :=
  congrArg Host.Outcome.next <| runCmd_ok h (by simp [ckNoInline_ok hn]) (by simp) rfl

theorem exec_timeAsym_clean {c : Cmd} {s : State} (h : Clean opTimeAsym c s) (hn : NoInput c) (ha : cp c 0 4 < 2 ^ 18)
    (hb : cp c 4 4 < 2 ^ 18) (hport : cp c 8 1 < 64) :
    exec (.timeAsym c) s = .next (((s.begun opTimeAsym).modTime fun u =>
      { u with asym := tput u.asym ((cp c 0 4 * 64 + cp c 8 1) * 2 ^ 18 + cp c 4 4) (signed 16 (cp c 10 2)) }).answered
        opTimeAsym c 0 [] []) :=
  congrArg Host.Outcome.next <| runCmd_ok h (by simpa [ckNoInline_ok hn, hport] using ⟨ha, hb⟩) (by simp) rfl

theorem exec_timeCal_clean {c : Cmd} {s : State} (h : Clean opTimeCal c s) (hn : NoInput c) (hport : cp c 0 1 < 64) :
    exec (.timeCal c) s = .next (((s.begun opTimeCal).modPort (cp c 0 1) fun p =>
      { p with egress := BitVec.ofNat 16 (cp c 2 2), ingress := BitVec.ofNat 16 (cp c 4 2) }).answered opTimeCal c 0 [] []) :=
  congrArg Host.Outcome.next <| runCmd_ok h (by simp [ckNoInline_ok hn, hport]) (by simp) rfl

theorem exec_timeStatus_clean {c : Cmd} {s : State} (h : Clean opTimeStatus c s) (hn : NoInput c) :
    exec (.timeStatus c) s = .next ((s.begun opTimeStatus).answered opTimeStatus c 0
      (be 1 (lockCode s.time.lock) ++ zeros 1 ++ be 2 s.time.steps.toNat ++ be 4 s.time.adj.toNat
        ++ be 8 (s.begun opTimeStatus).lastCorr) []) :=
  congrArg Host.Outcome.next <| runCmd_ok h (by simp [ckNoInline_ok hn]) (by simp) (by simp)

end Sys2Proof.Machine
end

section
/-! The statement of the TIME group. -/

namespace Sys2Proof.Machine

/-- Settles O16: each clause is the run lemma of its command. -/
theorem timeCommandsRun : Obligations.TimeCommandsRun := by
  unfold Obligations.TimeCommandsRun
  exact ⟨fun _ _ => exec_timeConfig_clean, fun _ _ => exec_timeJob_clean, fun _ _ => exec_timeAsym_clean,
    fun _ _ => exec_timeCal_clean, fun _ _ => exec_timeStatus_clean⟩

end Sys2Proof.Machine
end

section
/-! SUPPORT. What the block does with an accepted record, by its type (Table 4.3), and the rows that stand for one. -/

namespace Sys2Proof.Machine

/-! ### The unit that uses a record -/

section Use

variable {i : Nat} {via : Laddr} {wOk : Bool} {r : Rec} {s : State}

theorem State.use_epoch (h : r.typ = tEpoch) : s.use i via wOk r = s.useEpoch r := by
  simp only [State.use, h]
  rfl

theorem State.use_stampPairs (h : r.typ = tStampPairs) : s.use i via wOk r = s.rxStampPairs r := by
  simp only [State.use, h]
  rfl

theorem State.use_correction (h : r.typ = tCorrection) : s.use i via wOk r = s.useCorrection r := by
  simp only [State.use, h]
  rfl

theorem State.use_features (h : r.typ = tFeatures) : s.use i via wOk r = s.rxFeatures r := by
  simp only [State.use, h]
  rfl

theorem State.use_lastGasp (h : r.typ = tLastGasp) : s.use i via wOk r = s.rxGasp r := by
  simp only [State.use, h]
  rfl

theorem State.use_join (h : r.typ = tJoin) : s.use i via wOk r = s.rxJoin i r := by
  simp only [State.use, h]
  rfl

theorem State.use_verdict (h : r.typ = tVerdict) : s.use i via wOk r = (s.rxVerdict r).rxHealthy r := by
  simp only [State.use, h]
  rfl

theorem State.use_lateness (h : r.typ = tLateness) : s.use i via wOk r =
    if rd r.body 6 1 = 0 then s.rxArrival r else if rd r.body 6 1 = 1 then s.rxBatch r else s := by
  simp only [State.use, h]
  rfl

theorem State.use_arrival (h : r.typ = tLateness) (hk : rd r.body 6 1 = 0) : s.use i via wOk r = s.rxArrival r := by
  rw [State.use_lateness h, if_pos hk]

theorem State.use_batch (h : r.typ = tLateness) (hk : rd r.body 6 1 = 1) : s.use i via wOk r = s.rxBatch r := by
  rw [State.use_lateness h, if_neg (by omega), if_pos hk]

theorem State.use_sentryDigest (h : r.typ = tSentryDigest) : s.use i via wOk r = s.rxSentry r := by
  simp only [State.use, h]
  rfl

/-- A RECONCILE record is for no unit, and is no copy for the fabric manager (R122, R493). -/
theorem State.use_reconcile (h : r.typ = tReconcile) : s.use i via wOk r = s := by
  have hcopy : copyType r.typ = false := by
    rw [h]
    rfl
  have huse : s.use i via wOk r = s.forwardCopy r := by
    simp only [State.use, h]
    rfl
  rw [huse, State.forwardCopy, hcopy]
  simp

end Use

/-! ### The row of an arriving record -/

theorem State.rxRow_accepted {i : Nat} {via : Laddr} {r : Rec} {s : State} (heng : s.engUp = true)
    (hacc : (s.acceptRec via r).2 = true) :
    s.rxRow true i via true r = ((s.acceptRec via r).1.heard i r).use i via true r :=
  (if_pos (by simp [heng])).trans (if_pos hacc)

/-- A row whose kind the record is: its unit uses the record in the state of the books. -/
theorem State.next_rxFrom_accepted {ok : Bool} {r : Rec} {s t u : State} (h : Accepted s r t) (hok : ok = true)
    (huse : t.use (s.ifcTo r.src) r.src true r = u) :
    (.next (s.rxFrom ok r) : Host.Outcome State Fault Refusal) = .next u := by
  obtain ⟨heng, hacc, rfl⟩ := h
  subst hok huse
  exact congrArg Host.Outcome.next (State.rxRow_accepted heng hacc)

/-- A record that is not accepted changes the books alone; a BROADCAST record may be a re-send (R173). -/
theorem State.rxFrom_refused {r : Rec} {s : State} (heng : s.engUp = true) (hacc : (s.acceptRec r.src r).2 = false)
    (hbc : r.typ ≠ tBroadcast) : s.rxFrom true r = (s.acceptRec r.src r).1 := by
  refine (if_pos (by simp [heng])).trans ?_
  simp [State.takeRec, hacc, hbc]

/-! ### The rows that are not `rxFrom` of an accepted record -/

/-- The answer to a member's JOIN, over whatever interface it comes (R22, R459). -/
theorem exec_joinReceived_accepted {i : Iface} {r : Rec} {s : State} (heng : s.engUp = true) (htyp : r.typ = tJoin)
    (hacc : (s.acceptRec r.src r).2 = true) :
    exec (.joinReceived i r) s = .next (((s.acceptRec r.src r).1.heard i.val r).rxJoin i.val r) := by
  have hkind : (r.typ == tJoin) = true := by simp [htyp]
  change Host.Outcome.next (s.rxRow (r.typ == tJoin) i.val r.src true r) = _
  rw [hkind, State.rxRow_accepted heng hacc, State.use_join htyp]

theorem exec_epochReceived_refused {r : Rec} {s : State} (heng : s.engUp = true) (hacc : (s.acceptRec r.src r).2 = false)
    (htyp : r.typ = tEpoch) : exec (.epochReceived r) s = .next (s.acceptRec r.src r).1 := by
  have hkind : (r.typ == tEpoch) = true := by simp [htyp]
  change Host.Outcome.next (s.rxFrom (r.typ == tEpoch) r) = _
  rw [hkind, State.rxFrom_refused heng hacc (by simp [htyp, tEpoch, tBroadcast])]

end Sys2Proof.Machine
end

section
/-! The statement of the record rows. -/

namespace Sys2Proof.Machine

/-- Settles O47: the row of an accepted record of its kind is what the unit of its type does with it. -/
theorem recordRowsRun : Obligations.RecordRowsRun := by
  unfold Obligations.RecordRowsRun
  refine ⟨fun _ _ _ h => ?_, fun _ _ _ => exec_joinReceived_accepted, fun _ _ => exec_epochReceived_refused⟩
  -- Fantail, the books and the blocks around.
  refine ⟨fun typ => State.next_rxFrom_accepted h (by simp [typ]) (State.use_epoch typ),
    fun typ => State.next_rxFrom_accepted h (by simp [typ]) (State.use_reconcile typ),
    fun typ => State.next_rxFrom_accepted h (by simp [typ]) (State.use_lastGasp typ),
    fun typ die => State.next_rxFrom_accepted h (by simp [typ, die]) (State.use_join typ),
    fun typ => State.next_rxFrom_accepted h (by simp [typ]) (State.use_stampPairs typ),
    fun typ => State.next_rxFrom_accepted h (by simp [typ]) (State.use_correction typ), ?_⟩
  -- Features, arrivals and verdicts.
  refine ⟨fun typ => State.next_rxFrom_accepted h (by simp [typ]) (State.use_features typ),
    fun typ kind => State.next_rxFrom_accepted h (by simp [typ, kind]) (State.use_arrival typ kind),
    fun typ kind => State.next_rxFrom_accepted h (by simp [typ, kind]) (State.use_batch typ kind),
    fun typ => State.next_rxFrom_accepted h (by simp [typ]) (State.use_verdict typ),
    fun typ kind => State.next_rxFrom_accepted h (by simp [typ, kind]) (State.use_verdict typ), ?_⟩
  -- The four kinds of sentry digest.
  exact ⟨fun typ kind => State.next_rxFrom_accepted h (by simp [typ, kind]) (State.use_sentryDigest typ),
    fun typ kind => State.next_rxFrom_accepted h (by simp [typ, kind]) (State.use_sentryDigest typ),
    fun typ kind => State.next_rxFrom_accepted h (by simp [typ, kind]) (State.use_sentryDigest typ),
    fun typ kind => State.next_rxFrom_accepted h (by simp [typ, kind]) (State.use_sentryDigest typ)⟩

end Sys2Proof.Machine
end

section
/-! SUPPORT. The rows of the time source: what each leaves once it is due. -/

namespace Sys2Proof.Machine

/-! ### The messages of the source (R43, R44) -/

section Messages

variable {m : Ptp} {s : State}

theorem exec_syncReceived_good (hport : s.portUp .time = true) (hok : s.ptpOk m = true) (hlo : -7 ≤ m.interval)
    (hhi : m.interval ≤ 0) :
    exec (.syncReceived m) s = if m.twoStep then
        .next (s.syncAccepted.modTime fun u => { u with syncTwoStep := some m.seq, syncT2 := (s.tb0Frac : Int) - m.corr })
      else .next ((s.syncAccepted.modTime fun u => { u with syncTwoStep := none }).syncMeasured
        ((s.tb0Frac : Int) - m.corr - s.ptp m.ts)) :=
  (if_neg (by simp [hport])).trans (if_pos (by simp [hok, hlo, hhi]))

/-- A two-step Sync waits for its Follow_Up. -/
theorem exec_syncReceived_twoStep (hport : s.portUp .time = true) (hok : s.ptpOk m = true) (hlo : -7 ≤ m.interval)
    (hhi : m.interval ≤ 0) (htwo : m.twoStep = true) :
    exec (.syncReceived m) s = .next (s.syncAccepted.modTime fun u =>
      { u with syncTwoStep := some m.seq, syncT2 := (s.tb0Frac : Int) - m.corr }) :=
  (exec_syncReceived_good hport hok hlo hhi).trans (if_pos htwo)

/-- A one-step Sync carries its send time. -/
theorem exec_syncReceived_oneStep (hport : s.portUp .time = true) (hok : s.ptpOk m = true) (hlo : -7 ≤ m.interval)
    (hhi : m.interval ≤ 0) (hone : m.twoStep = false) :
    exec (.syncReceived m) s = .next ((s.syncAccepted.modTime fun u => { u with syncTwoStep := none }).syncMeasured
      ((s.tb0Frac : Int) - m.corr - s.ptp m.ts)) :=
  (exec_syncReceived_good hport hok hlo hhi).trans (if_neg (by simp [hone]))

theorem exec_followUpReceived_awaited (hport : s.portUp .time = true) (hok : s.ptpOk m = true)
    (hseq : s.time.syncTwoStep = some m.seq) :
    exec (.followUpReceived m) s = .next ((s.modTime fun u => { u with syncTwoStep := none }).syncMeasured
      (s.time.syncT2 - (s.ptp m.ts + m.corr))) :=
  (if_neg (by simp [hport])).trans (if_pos (by simp [hok, hseq]))

/-- The delay is the mean of both directions; in FREE it gives the first offset (log entry 81). -/
theorem exec_delayRespReceived_outstanding {t3 d delay : Int} (hport : s.portUp .time = true) (hok : s.ptpOk m = true)
    (hreq : s.time.delayReqAt = some t3) (hms : s.time.msDiff = some d)
    (hdelay : delay = (d + (s.ptp m.ts - m.corr - t3)) / 2) :
    exec (.delayRespReceived m) s = .next (if s.time.lock = .free then
        (s.modTime fun u => { u with delayNs := some delay, delayReqAt := none }).applyOffset (d - delay)
      else s.modTime fun u => { u with delayNs := some delay, delayReqAt := none }) := by
  subst hdelay
  change execDelayRespReceived m s = _
  simp only [execDelayRespReceived, hport, hok, hreq, hms]
  rfl

theorem exec_announceReceived_good (hport : s.portUp .time = true) (hok : s.ptpOk m = true) :
    exec (.announceReceived m) s = .next s :=
  (if_neg (by simp [hport])).trans (if_pos hok)

/-- A message that does not belong is discarded and counted, whatever its kind. -/
theorem exec_ptpMessage_discarded (hport : s.portUp .time = true) (hbad : s.ptpOk m = false) :
    exec (.syncReceived m) s = .next s.ptpDiscard ∧ exec (.followUpReceived m) s = .next s.ptpDiscard
      ∧ exec (.delayRespReceived m) s = .next s.ptpDiscard ∧ exec (.announceReceived m) s = .next s.ptpDiscard := by
  have hup : ¬(!s.portUp .time) = true := by simp [hport]
  exact ⟨(if_neg hup).trans (if_neg (by simp [hbad])), (if_neg hup).trans (if_neg (by simp [hbad])),
    (if_neg hup).trans (if_neg (by simp [hbad])), (if_neg hup).trans (if_neg (by simp [hbad]))⟩

theorem exec_other1588Message_discarded (hport : s.portUp .time = true) :
    exec .other1588Message s = .next s.ptpDiscard :=
  if_pos hport

theorem exec_delayReq_sent (hmay : s.mayDelayReq = true) :
    exec .delayReq s = .next ((s.modTime fun u =>
      { u with delayReqAt := some (s.tb0Frac : Int), reqDue := false, drqLast := s.tb1Ns }).emit .delayReq) :=
  if_pos hmay

end Messages

/-! ### The source or the reference lost (R45, R72) -/

section Loss

variable {s : State}

theorem exec_syncTimeout_acquire {t : Nat} (hao : s.aoUp = true) (hlast : s.time.lastSync = some t)
    (hpast : t + 3000000000 ≤ s.tb1Ns) (hlock : s.time.lock = .acquire) : exec .syncTimeout s = .next (s.setLock .free) := by
  change execSyncTimeout s = _
  simp only [execSyncTimeout, hlast, hlock]
  exact if_pos ⟨hao, hpast⟩

theorem exec_syncTimeout_locked {t : Nat} (hao : s.aoUp = true) (hlast : s.time.lastSync = some t)
    (hpast : t + 3000000000 ≤ s.tb1Ns) (hlock : s.time.lock = .locked) : exec .syncTimeout s = .next (s.setLock .holdover) := by
  change execSyncTimeout s = _
  simp only [execSyncTimeout, hlast, hlock]
  exact if_pos ⟨hao, hpast⟩

theorem exec_refclkLoss_running {t : State} (hao : s.aoUp = true) (href : s.time.refclk = true)
    (ht : t = s.modTime fun u =>
      { u with refclk := false, refReturn := none, adjNext := none, lastSync := none, delayNs := none, delayReqAt := none,
               msDiff := none, syncTwoStep := none, reqDue := false }) :
    exec .refclkLoss s = .next ((if s.time.lock = .free then t.epochEverywhere else t.setLock .free).bump cRefclkLoss) := by
  subst ht
  exact if_pos (by simp [hao, href])

/-- At a group boundary AO switches back at once, within a group it waits for the next. -/
theorem exec_refclkReturn_lost (hao : s.aoUp = true) (href : s.time.refclk = false) :
    exec .refclkReturn s = .next (s.modTime fun u =>
      if s.time.phase = 0 then { u with refclk := true, refReturn := none } else { u with refReturn := some s.tb1Ns }) := by
  refine (if_pos (by simp [hao, href])).trans ?_
  split
  · rfl
  · rfl

end Loss

end Sys2Proof.Machine
end

section
/-! The statement of the time rows. -/

namespace Sys2Proof.Machine

/-- Settles O50: each clause is the run lemma of its row. -/
theorem timeRowsRun : Obligations.TimeRowsRun := by
  unfold Obligations.TimeRowsRun
  exact ⟨fun _ _ hport hok hlo hhi =>
      ⟨exec_syncReceived_twoStep hport hok hlo hhi, exec_syncReceived_oneStep hport hok hlo hhi⟩,
    fun _ _ => exec_followUpReceived_awaited,
    fun _ _ _ _ hport hok hreq hms => ⟨_, rfl, exec_delayRespReceived_outstanding hport hok hreq hms rfl⟩,
    fun _ _ => exec_announceReceived_good, fun _ _ => exec_ptpMessage_discarded, fun _ => exec_other1588Message_discarded,
    fun _ => exec_delayReq_sent,
    fun _ _ hao hlast hpast => ⟨exec_syncTimeout_acquire hao hlast hpast, exec_syncTimeout_locked hao hlast hpast⟩,
    fun _ _ => exec_refclkLoss_running, fun _ => exec_refclkReturn_lost⟩

end Sys2Proof.Machine
end

section
/-! SUPPORT. The rows of stamps and corrections: what each leaves once it is due. -/

namespace Sys2Proof.Machine

/-! ### Insertion slots (R51) -/

section Slots

variable {p : Fin 64} {phase : Nat} {s : State}

theorem exec_insertionSlot_early (hport : s.portUp .stamp = true) (hhold : (s.stampPort p.val).holdTx = 0) :
    exec (.insertionSlot p phase true) s =
      .next ((s.bump cSlotLate).emit (.slotFill p.val 0xFFFFFFFFFFFFFFFF)) := by
  change execInsertionSlot p phase true s = _
  simp [execInsertionSlot, hport, hhold]

theorem exec_insertionSlot_inTime (hport : s.portUp .stamp = true) (hhold : (s.stampPort p.val).holdTx = 0) :
    exec (.insertionSlot p phase false) s =
      .next ((s.modPort p.val fun x => { x with fseq := x.fseq + 1 }).emit (.slotFill p.val
        (BitVec.ofNat 64 (2 ^ 62 + p.val * 2 ^ 56 + (s.stampPort p.val).fseq.toNat * 2 ^ 40 + lockCode s.time.lock * 2 ^ 34
          + s.stampQ phase (s.stampPort p.val).egress % 2 ^ 34)))) := by
  change execInsertionSlot p phase false s = _
  simp [execInsertionSlot, hport, hhold]

end Slots

/-! ### Stamp pairs (R53, R73, R470) -/

section Pairs

variable {p : Fin 64} {slot : Dword} {peer : Laddr} {phase k : Nat} {s : State} {x : StampPort}

/-- A pair of a port without a hold, in RUN, is kept where none has been since the interval's boundary. -/
theorem exec_stampPair_free (hx : x = s.stampPort p.val) (hk : k = gridAt (s.time.cfg.pairIv * 16000) s.tb0Ns)
    (hport : s.portUp .stamp = true) (hrx : x.holdRx = 0) (htx : x.holdTx = 0) (hslot : bits slot.toNat 63 62 = 1)
    (hrun : s.pow.pstate = .run) :
    exec (.stampPair p slot peer phase) s = if ∀ j, x.keptAt = some j → j < k then
        .next ((s.modPort p.val fun y => { y with keptAt := some k }).keepPair
          (s.ownPair p.val slot peer (s.stampQ phase x.ingress)))
      else .next s := by
  subst hx hk
  change execStampPair p slot peer phase s = _
  simp only [execStampPair, hport, hrx, htx, hslot, hrun]
  cases hkept : (s.stampPort p.val).keptAt with
  | none => simp
  | some j => simp

theorem exec_stampPair_first (hx : x = s.stampPort p.val) (hk : k = gridAt (s.time.cfg.pairIv * 16000) s.tb0Ns)
    (hport : s.portUp .stamp = true) (hrx : x.holdRx = 0) (htx : x.holdTx = 0) (hslot : bits slot.toNat 63 62 = 1)
    (hrun : s.pow.pstate = .run) (hfirst : ∀ j, x.keptAt = some j → j < k) :
    exec (.stampPair p slot peer phase) s = .next ((s.modPort p.val fun y => { y with keptAt := some k }).keepPair
      (s.ownPair p.val slot peer (s.stampQ phase x.ingress))) :=
  (exec_stampPair_free hx hk hport hrx htx hslot hrun).trans (if_pos hfirst)

theorem exec_stampPair_later {j : Nat} (hx : x = s.stampPort p.val) (hk : k = gridAt (s.time.cfg.pairIv * 16000) s.tb0Ns)
    (hport : s.portUp .stamp = true) (hrx : x.holdRx = 0) (htx : x.holdTx = 0) (hslot : bits slot.toNat 63 62 = 1)
    (hrun : s.pow.pstate = .run) (hkept : x.keptAt = some j) (hlater : k ≤ j) :
    exec (.stampPair p slot peer phase) s = .next s :=
  (exec_stampPair_free hx hk hport hrx htx hslot hrun).trans
    (if_neg fun h => absurd (h j hkept) (Nat.not_lt.mpr hlater))

theorem exec_portClockStop_up (hport : s.portUp .stamp = true) :
    exec (.portClockStop p) s = .next (s.modPort p.val fun x => { x with holdTx := 16, holdRx := 16 }) :=
  if_pos hport

theorem exec_linkErrorPulse_up (hport : s.portUp .stamp = true) :
    exec (.linkErrorPulse p) s = .next (s.bump (0x80 + p.val)) :=
  if_pos hport

end Pairs

/-! ### Monitor windows (R70) and correction windows (R58 to R65) -/

section Windows

variable {s : State}

theorem exec_monitorWindowEnd_due {l cs : List (Nat × Nat)} (hao : s.aoUp = true) (hdue : 1024 ≤ s.time.monCycles)
    (hcs : cs = l.filter fun r => decide (r.1 < 272)) :
    exec (.monitorWindowEnd l) s = .next (cs.foldl State.regionWindow ((s.keepMon cs).modTime fun u =>
      { u with monCycles := u.monCycles - 1024 })) := by
  subst hcs
  exact if_pos (by simp [hao, hdue])

/-- The fleet solve needs a root of the time tree (R483). -/
theorem exec_correctionWindowEnd_due {w : Nat × Nat} {r : CorrTable × Nat} (hw : w = s.windowDue)
    (hr : r = s.solve (w.1 - w.2) w.2) (heng : s.engUp = true) (hsolver : s.solver = true)
    (hroot : s.isMaster = true ∨ s.time.cfg.troot.isSome = true) (hdue : s.time.windowsDone < w.1) :
    exec .correctionWindowEnd s = .next ((s.bumpN cLinkExcl r.2).modTime fun u =>
      { u with solved := u.solved ++ [r.1], windowsDone := w.1, pairs := u.pairs.filter fun p => decide (w.1 * 4 ≤ p.rx) }) := by
  subst hr hw
  exact if_pos (by simp [heng, hsolver, hroot, hdue])

variable {t : CorrTable} {rest : List CorrTable}

theorem exec_correctionPublish_inTime (heng : s.engUp = true) (hsolved : s.time.solved = t :: rest)
    (hin : s.tb0Ns ≤ s.solveDeadline t) :
    exec .correctionPublish s = .next ((((s.modTime fun u =>
      { u with solved := rest, nodes := joinNodes u.nodes t.entries }).holdTable (!s.isMaster) t).publishCorr t
        s.sys.fwver.toNat).forwardAway.settleInsts) := by
  change execCorrectionPublish s = _
  simp only [execCorrectionPublish, hsolved]
  exact if_pos (by simp [heng, hin])

theorem exec_solveDeadline_passed (heng : s.engUp = true) (hsolved : s.time.solved = t :: rest)
    (hpast : s.solveDeadline t < s.tb0Ns) : exec .solveDeadline s = .next (s.solveLate t).settleInsts := by
  change execSolveDeadline s = _
  simp only [execSolveDeadline, hsolved]
  exact if_pos (by simp [heng, hpast])

end Windows

end Sys2Proof.Machine
end

section
/-! The statement of the stamp rows. -/

namespace Sys2Proof.Machine

/-- Settles O51: each clause is the run lemma of its row. -/
theorem stampRowsRun : Obligations.StampRowsRun := by
  unfold Obligations.StampRowsRun
  exact ⟨fun _ _ _ _ hport hhold ht =>
      ⟨ht ▸ exec_insertionSlot_early hport hhold, exec_insertionSlot_inTime hport hhold⟩,
    fun _ _ _ _ _ _ _ hx hk hport hrx htx hslot hrun =>
      ⟨exec_stampPair_first hx hk hport hrx htx hslot hrun, fun _ => exec_stampPair_later hx hk hport hrx htx hslot hrun⟩,
    fun _ _ hport => ⟨exec_portClockStop_up hport, exec_linkErrorPulse_up hport⟩,
    fun _ _ _ => exec_monitorWindowEnd_due, fun _ _ _ => exec_correctionWindowEnd_due,
    fun _ _ _ => exec_correctionPublish_inTime, fun _ _ _ => exec_solveDeadline_passed⟩

end Sys2Proof.Machine
end

section
/-! SUPPORT. Bounds of the numbers in byte strings, tables written at consecutive keys, and what the collector's commands read after the
start of a command. -/

namespace Sys2Proof.Machine

/-! ### Numbers in byte strings (R7) -/

theorem beNat_foldl_lt (l : List Byte) (a : Nat) : l.foldl (fun a b => a * 256 + b.toNat) a < (a + 1) * 256 ^ l.length := by
  induction l generalizing a with
  | nil => simp
  | cons b l ih =>
    have hb : b.toNat < 256 := b.isLt
    calc (b :: l).foldl (fun a b => a * 256 + b.toNat) a < (a * 256 + b.toNat + 1) * 256 ^ l.length := ih _
      _ ≤ ((a + 1) * 256) * 256 ^ l.length := Nat.mul_le_mul_right _ (by omega)
      _ = (a + 1) * 256 ^ (b :: l).length := by rw [List.length_cons, Nat.pow_succ', Nat.mul_assoc]

theorem beNat_lt (l : List Byte) : beNat l < 256 ^ l.length := by
  simpa [beNat] using beNat_foldl_lt l 0

@[simp] theorem slice_length (l : List Byte) (off n : Nat) : (slice l off n).length = n := by
  have htake : ((l.drop off).take n).length ≤ n := List.length_take_le ..
  simp only [slice, List.length_append, List.length_replicate]
  exact Nat.add_sub_of_le htake

theorem rd_lt (l : List Byte) (off n : Nat) : rd l off n < 256 ^ n := by
  simpa [rd] using beNat_lt (slice l off n)

/-- A parameter of 8 bytes is a double word. -/
theorem toNat_dwordParam (c : Cmd) (off : Nat) : (BitVec.ofNat 64 (cp c off 8)).toNat = cp c off 8 :=
  (BitVec.toNat_ofNat ..).trans (Nat.mod_eq_of_lt (rd_lt c.params off 8))

/-! ### Tables written at consecutive keys -/

theorem tget_putRange {α : Type} (t : Table α) (first n k : Nat) (f : Nat → α) :
    tget ((List.range n).foldl (fun m i => tput m (first + i) (f i)) t) k =
      if first ≤ k ∧ k < first + n then some (f (k - first)) else tget t k := by
  induction n with
  | zero => exact (if_neg (by omega)).symm
  | succ n ih =>
    rw [List.range_succ, List.foldl_append, List.foldl_cons, List.foldl_nil]
    by_cases hk : k = first + n
    · subst hk
      rw [tget_tput_self, if_pos (by omega), Nat.add_sub_cancel_left]
    · have hin : (first ≤ k ∧ k < first + n) ↔ (first ≤ k ∧ k < first + (n + 1)) := by omega
      simp only [tget_tput_ne _ _ hk, ih, hin]

theorem tget_putRange_inside {α : Type} (t : Table α) (first : Nat) {n i : Nat} (f : Nat → α) (hi : i < n) :
    tget ((List.range n).foldl (fun m i => tput m (first + i) (f i)) t) (first + i) = some (f i) := by
  rw [tget_putRange, if_pos (by omega), Nat.add_sub_cancel_left]

theorem tget_putRange_outside {α : Type} (t : Table α) {first n k : Nat} (f : Nat → α) (hk : k < first ∨ first + n ≤ k) :
    tget ((List.range n).foldl (fun m i => tput m (first + i) (f i)) t) k = tget t k := by
  rw [tget_putRange, if_neg (by omega)]

/-! ### Sample sets after the start of a command -/

theorem State.begun_sets (o : OpSpec) (s : State) : (s.begun o).coll.sets = s.coll.sets := by
  unfold State.begun
  dsimp only
  split
  · rfl
  · rfl

@[simp] theorem State.set_begun (o : OpSpec) (s : State) (i : Nat) : (s.begun o).set i = s.set i := by
  simp [State.set, State.begun_sets]

@[simp] theorem State.armWindows_begun (o : OpSpec) (s : State) (i : Nat) : (s.begun o).armWindows i = s.armWindows i := by
  simp [State.armWindows]

@[simp] theorem State.unsampled_begun (o : OpSpec) (s : State) (i : Nat) : (s.begun o).unsampled i = s.unsampled i := by
  simp [State.unsampled]

end Sys2Proof.Machine
end

section
/-! SUPPORT. The commands of the COLLECT and DISC groups: what each answers where every check passes. -/

namespace Sys2Proof.Machine

/-! ### Counters (R76, Table 3.3) -/

theorem exec_collectCounter_clean {c : Cmd} {s : State} (h : Clean opCollectCounter c s)
    (hdata : (ckData opCollectCounter c 0 (4 * cp c 2 2)).ok = true) (hheavy : 256 ≤ cp c 0 2)
    (hend : cp c 0 2 + cp c 2 2 ≤ 16384) (hwords : ∀ i < cp c 2 2, counterWordOk (rd (cdata c 0) (4 * i) 4) = true) :
    ∃ cfg : List (Nat × Word), exec (.collectCounter c) s =
        .next (((s.begun opCollectCounter).modColl fun u => { u with cfg := cfg }).answered opCollectCounter c 0 [] []) ∧
      (∀ i < cp c 2 2, tget cfg (cp c 0 2 + i) = some (BitVec.ofNat 32 (rd (cdata c 0) (4 * i) 4)))
      ∧ ∀ k, (k < cp c 0 2 ∨ cp c 0 2 + cp c 2 2 ≤ k) → tget cfg k = tget (s.begun opCollectCounter).coll.cfg k := by
  refine ⟨_, congrArg Host.Outcome.next <| runCmd_ok h (by simpa [hdata, hheavy, hend] using hwords) (by simp) rfl,
    fun i hi => ?_, fun k hk => ?_⟩
  · rw [tget_putRange_inside _ _ _ hi]
    simp [hi]
  · exact tget_putRange_outside _ _ hk

/-- The final reply of a read waits ready, with the values as they stand in the cycle. -/
theorem exec_collectRead_clean {c : Cmd} {s : State} (h : Clean opCollectRead c s) (hn : NoInput c)
    (hwrite : (ckWrite opCollectRead c 0).ok = true) (hend : cp c 0 2 + cp c 2 2 ≤ 16384) :
    exec (.collectRead c) s = .next ((s.begun opCollectRead).takenOn opCollectRead c (cp c 0 2) (some
      { status := stOk, detail := 0, result := be 8 s.tb0Ns,
        out := ((List.range (cp c 2 2)).map fun i =>
          be 8 (getCounter (s.begun opCollectRead).coll.counters (cp c 0 2 + i)).val.toNat).flatten })) :=
  congrArg Host.Outcome.next <| runCmd_acc h (by simp [ckNoInline_ok hn, hwrite, hend]) (by simp) (by simp [finOk])

/-! ### Sample sets (R83, R88, R490, R491) -/

/-- Set 0 keeps its bank; any other set names banks of the heavy set that no other set has. -/
theorem exec_collectSet_clean {c : Cmd} {s : State} (h : Clean (opCollectSet (cp c 0 1)) c s) (hn : NoInput c) (hset : cp c 0 1 < 16)
    (hlight : cp c 0 1 = 0 → cp c 8 8 = 0 ∧ cp c 4 4 % 10 = 0 ∧ 10 ≤ cp c 4 4)
    (hheavy : cp c 0 1 ≠ 0 →
      bit (cp c 8 8) 0 = false ∧ cp c 8 8 &&& s.otherBanks (cp c 0 1) = 0 ∧ cp c 4 4 % 100 = 0 ∧ 100 ≤ cp c 4 4)
    (hwin : cp c 4 4 ≤ 10000000) (f : SampleSet → SampleSet)
    (hf : f = fun x =>
      { x with winNext := some (cp c 4 4 * 1000),
               banksNext := if cp c 0 1 ≠ 0 ∧ (BitVec.ofNat 64 (cp c 8 8) ≠ x.banks ∨ x.banksNext.isSome)
                 then some (BitVec.ofNat 64 (cp c 8 8)) else none })
    (hrates : (s.modSet (cp c 0 1) f).ratesOk = true) :
    exec (.collectSet c) s = .next (((s.begun (opCollectSet (cp c 0 1))).modSet (cp c 0 1) f).answered
      (opCollectSet (cp c 0 1)) c 0 [] []) := by
  subst hf
  refine congrArg Host.Outcome.next <| runCmd_ok h ?_ (by simpa using hrates) rfl
  by_cases hi : cp c 0 1 = 0
  · obtain ⟨hbanks, hstep, hmin⟩ := hlight hi
    simp [ckNoInline_ok hn, hi, hbanks, hstep, hmin, hwin]
  · obtain ⟨hbank0, hfree, hstep, hmin⟩ := hheavy hi
    simp only [toNat_dwordParam]
    simp [ckNoInline_ok hn, hi, hset, hbank0, hfree, hstep, hmin, hwin]

/-- The window in progress ends with a sample, or the asleep windows are reported, before the reset cycle. -/
theorem exec_collectArm_clean {c : Cmd} {s : State} {i : Nat} {x : SampleSet} {u : State} (h : Clean opCollectArm c s)
    (hn : NoInput c) (hi : i = cp c 0 1) (hlow : 1 ≤ i) (hhigh : i < 16) (hx : x = s.set i) (hu : u = s.begun opCollectArm) :
    exec (.collectArm c) s = .next (((
      if x.running && !x.baseline && x.banksNext.isNone then
        (u.emitSample i s.tb0Ns (s.armWindows i) true).afterSample i (s.armWindows i) x.winStart x true
      else if x.baseline && decide (0 < s.unsampled i) then
        u.sendSample s.tb0Ns 0 (asleepBody i x.tag (s.unsampled i) x.winStart)
      else u).armReset i c.tag).answered opCollectArm c 0 [] []) := by
  subst hi hx hu
  refine congrArg Host.Outcome.next <| runCmd_ok h (by simp [ckNoInline_ok hn, hlow, hhigh]) (by simp) ?_
  simp only [State.armSample, State.set_begun, State.armWindows_begun, State.unsampled_begun, State.tb0Ns_begun]
  split
  · rfl
  · split
    · rfl
    · rfl

/-- Each descriptor lies in the banks that the set has or waits for (log entry 84). -/
theorem exec_collectMap_clean {c : Cmd} {s : State} (h : Clean opCollectMap c s)
    (hdata : (ckData opCollectMap c 0 (16 * cp c 2 2)).ok = true) (hset : cp c 0 1 < 16) (hcount : cp c 2 2 ≤ 1024)
    (hdescs : ∀ k < cp c 2 2, descOk (cp c 0 1) ((s.set (cp c 0 1)).banksNext.getD (s.set (cp c 0 1)).banks)
      (BitVec.ofNat 128 (rd (cdata c 0) (16 * k) 16)) = true)
    (hroom : s.otherMaps (cp c 0 1) + cp c 2 2 ≤ 4096) :
    exec (.collectMap c) s = .next (((s.begun opCollectMap).modSet (cp c 0 1) fun x =>
      { x with mapNext := some (s.tb0Ns, (List.range (cp c 2 2)).map fun k => BitVec.ofNat 128 (rd (cdata c 0) (16 * k) 16)) }).answered
        opCollectMap c 0 [] []) :=
  congrArg Host.Outcome.next <| runCmd_ok h (by simpa [hdata, hset, hcount] using Or.inr hdescs) (by simp [hroom]) (by simp)

theorem exec_collectStatus_clean {c : Cmd} {s : State} (h : Clean (opCollectStatus (cp c 0 1)) c s) (hn : NoInput c)
    (hset : cp c 0 1 < 16) :
    exec (.collectStatus c) s = .next ((s.begun (opCollectStatus (cp c 0 1))).answered (opCollectStatus (cp c 0 1)) c 0
      (be 4 ((s.set (cp c 0 1)).win / 1000) ++ be 4 (s.set (cp c 0 1)).nlate ++ be 8 (s.set (cp c 0 1)).lastStamp) []) :=
  congrArg Host.Outcome.next <| runCmd_ok h (by simp [ckNoInline_ok hn, hset]) (by simp) (by simp)

/-! ### Discrete inputs (R94, R97) -/

theorem exec_discConfig_clean {c : Cmd} {s : State} (h : Clean opDiscConfig c s) (hn : NoInput c) (hinput : cp c 0 1 < 32)
    (hpol : cp c 1 1 ≤ 1) (hwin : 1 ≤ cp c 2 2) (hwin' : cp c 2 2 ≤ 1000) (hmax : 1 ≤ cp c 4 2) (hmax' : cp c 4 2 ≤ 4095)
    (hexit : cp c 6 2 ≤ cp c 4 2) (hstuck : cp c 8 4 ≤ 3600000) :
    exec (.discConfig c) s = .next (((s.begun opDiscConfig).modDisc (cp c 0 1) fun x =>
      { x with cfgNext := some { pol := cp c 1 1 == 1, winMs := cp c 2 2, chatMax := cp c 4 2, chatExit := cp c 6 2,
                                 stuckMs := cp c 8 4 },
               cfg := { x.cfg with stuckMs := cp c 8 4 } }).answered opDiscConfig c 0 [] []) :=
  congrArg Host.Outcome.next <| runCmd_ok h
    (by simp [ckNoInline_ok hn, hinput, hpol, hwin, hwin', hmax, hmax', hexit, hstuck]) (by simp) rfl

end Sys2Proof.Machine
end

section
/-! The statement of the COLLECT and DISC groups. -/

namespace Sys2Proof.Machine

/-- Settles O18: each clause is the run lemma of its command. -/
theorem collectCommandsRun : Obligations.CollectCommandsRun := by
  unfold Obligations.CollectCommandsRun
  exact ⟨fun _ _ => exec_collectCounter_clean, fun _ _ => exec_collectSet_clean, fun _ _ _ _ _ => exec_collectArm_clean,
    fun _ _ => exec_collectMap_clean, fun _ _ => exec_collectRead_clean, fun _ _ => exec_collectStatus_clean,
    fun _ _ => exec_discConfig_clean⟩

end Sys2Proof.Machine
end

section
/-! The frames of the rows that are no packets, and of the records that arrange a start. -/

namespace Sys2Proof.Machine

/-- The dispatch of this row, named: unification would otherwise unfold the row's meaning. -/
theorem exec_sampleBoundary {set : Fin 16} {drained : Bool} {s : State} :
    exec (.sampleBoundary set drained) s = execSampleBoundary set drained s := rfl

/-- Settles O60: each clause is the frame half of the `Moves` law of the row's meaning. -/
theorem framesOfOtherRows : Obligations.FramesOfOtherRows := by
  unfold Obligations.FramesOfOtherRows
  -- The start of an update.
  refine ⟨fun _ => .of_moves execStartGrant_moves, fun _ => .of_moves execStartDeny_moves,
    fun _ => .of_moves execStartDone_moves, .of_moves execStartReqTimeout_moves, .of_moves execStartGrantExpiry_moves, ?_⟩
  -- Governor and Temper.
  refine ⟨fun _ => .of_moves execGrantMessage_moves, fun _ _ => .of_moves execReportMessage_moves,
    fun _ _ _ => .of_moves execPlan_moves, fun _ => .of_moves execPlanAck_moves, .of_moves execGrantPeriodStart_moves,
    .of_moves execPhase2Start_moves, .of_moves execGlToExpiry_moves, fun _ => .of_moves execMemberSilent_moves,
    fun _ => .of_moves execSilentAccountRelease_moves, .of_moves execReportInterval_moves,
    .of_moves execGrantRecBoundary_moves, fun _ _ => .of_moves execPlanHoldRelease_moves,
    fun _ => .of_moves execTmPeriodBoundary_moves, fun _ _ _ => .of_moves execTemperMeasurementDone_moves, ?_⟩
  -- Samples, streams and links.
  refine ⟨fun _ _ => .of_moves (exec_sampleBoundary ▸ execSampleBoundary_moves), fun _ => .of_moves execResidWaitExpiry_moves,
    fun _ => .of_moves execReconcilePeriod_moves, fun _ => .of_moves execEpochRecordInterval_moves,
    fun _ _ => .of_moves execFrameSelection_moves, fun _ _ => .of_moves execFwdFrameStale_moves,
    fun _ => .of_moves execCreditTimerExpiry_moves, .of_moves execShaperRefill_moves, .of_moves execSluiceRefill_moves,
    .of_moves execAdmissionRefill_moves, .of_moves execTeardownFlush_moves, ?_⟩
  -- Corrections of the time, and cuts.
  refine ⟨.of_moves execCorrectionWindowEnd_moves, .of_moves execCorrectionPublish_moves,
    .of_moves execSolveDeadline_moves, fun _ => .of_moves execCutWindowEnd_moves, fun _ => .of_moves execCutClose_moves, ?_⟩
  -- Quern and Millrace.
  refine ⟨fun _ => .of_moves execQuernEvalStart_moves, fun _ => .of_moves execQuernEvalComplete_moves,
    fun _ _ => .of_moves execEachWaitExpiry_moves, fun _ _ => .of_moves execActAtReached_moves,
    fun _ _ => .of_moves execModelLoadComplete_moves, fun _ _ => .of_moves execModelBroadcastWaitExpiry_moves,
    fun _ => .of_moves execMillraceStepStart_moves, fun _ => .of_moves execMillraceStepComplete_moves,
    fun _ _ => .of_moves execRolloutComplete_moves, ?_⟩
  -- Verdicts and Touchstone.
  refine ⟨fun _ => .of_moves execExpelBucketRefill_moves, fun _ _ _ => .of_moves execBatchWaitExpiry_moves,
    fun _ _ _ => .of_moves execArrWaitExpiry_moves, fun _ => .of_moves execSilentToExpiry_moves,
    fun _ => .of_moves execDisHoldExpiry_moves, fun _ => .of_moves execSnoopSettleExpiry_moves,
    fun _ => .of_moves execReplayToExpiry_moves, ?_⟩
  -- Hangs and recovery.
  refine ⟨.of_moves execHeartbeatPeriodEnd_moves, .of_moves execBootToExpiry_moves, .of_moves execEngConfToExpiry_moves,
    fun _ => .of_moves execBlockBeatPeriodEnd_moves, fun _ _ => .of_moves execInternalWatchPeriod_moves,
    .of_moves execRecovToExpiry_moves, .of_moves execColdRung_moves, .of_moves execReqToExpiry_moves,
    fun _ => .of_moves execPeerLinkDownTimeout_moves, .of_moves execIngotCaptureEnd_moves,
    .of_moves execIngotWriteDone_moves, .of_moves execGpToExpiry_moves, ?_⟩
  -- The trace and the event recorder.
  refine ⟨fun _ => .of_moves execTrFlushExpiry_moves, .of_moves execSyncPeriodBoundary_moves,
    .of_moves execAuthExpiry_moves, .of_moves execAuthLockoutEnd_moves, .of_moves execTensorBucketRefill_moves,
    .of_moves execHallmarkFlashWriteDone_moves, fun _ => .of_moves execRlBucketRefill_moves,
    .of_moves execFlashBucketRefill_moves, .of_moves execOptTick_moves, ?_⟩
  -- The in-field test.
  refine ⟨fun _ => .of_moves execTestDue_moves, .of_moves execReaskExpiry_moves, fun _ => .of_moves execTestOverdue_moves,
    .of_moves execWinUsExpiry_moves, .of_moves execSelAckTimeout_moves, fun _ => .of_moves execScanSegmentEnd_moves,
    .of_moves execExitSequenceDone_moves, ?_⟩
  -- Staged images and the firmware on trial.
  refine ⟨fun _ => .of_moves execStageComplete_moves, .of_moves execFwSelfConfirm_moves,
    .of_moves execFwHealthDeadline_moves, ?_⟩
  -- Power states and memories.
  refine ⟨.of_moves execDrainEnd_moves, .of_moves execOffFlashFlushDone_moves, fun _ => .of_moves execWakeDemand_moves,
    .of_moves execWakeHoldExpiry_moves, .of_moves execCtlIdleStop_moves, .of_moves execCrownPowered_moves,
    fun _ => .of_moves execScrubWord_moves, ?_⟩
  -- The monitor, the calibration of METRO, and what ends or is released.
  exact ⟨fun _ => .of_moves execMonitorWindowEnd_moves, .of_moves execOther1588Message_moves,
    fun _ => .of_moves execPortClockStop_moves, fun _ => .of_moves execAssayCalibrationWrite_moves,
    fun _ => .of_moves execFaultInjectionEnd_moves, fun _ => .of_moves execResetRequestRelease_moves,
    fun _ _ => .of_moves execPortDomainRelease_moves⟩

end Sys2Proof.Machine
end

section
/-! SUPPORT. Each unit as power-on leaves it, against its part of the invariant. -/

namespace Sys2Proof.Machine

theorem hallReset_ok : (hallReset []).Ok := ⟨Nat.zero_le _, Nat.zero_le _, rfl⟩

theorem cmdReset_ok : cmdReset.Ok := ⟨Nat.zero_le _, Nat.zero_le _⟩

theorem collReset_ok : collReset.Ok := ⟨rfl, Nat.zero_le _, Nat.zero_le _⟩

/-- Every stream starts at position 0 with nothing emitted, whatever the role. -/
theorem hopReset_ok (r : Role) : (hopReset r).Ok := by
  intro o ho
  rw [List.eq_of_mem_replicate ho]
  rfl

theorem assayReset_ok : assayReset.Ok := Nat.zero_le _

end Sys2Proof.Machine
end

section
/-! The statement of the state after power-on against the invariant. -/

namespace Sys2Proof.Machine

/-- Settles O5: each unit's part holds of the unit as power-on leaves it. -/
theorem resetMeetsInvariant : Obligations.ResetMeetsInvariant := by
  unfold Obligations.ResetMeetsInvariant
  exact ⟨hallReset_ok, cmdReset_ok, collReset_ok, hopReset_ok .invalid, assayReset_ok⟩

end Sys2Proof.Machine
end

section
/-! SUPPORT. The commands of the STREAM group: what each answers where every check passes. -/

namespace Sys2Proof.Machine

/-! ### What a stream command reads after the start of its command -/

@[simp] theorem State.ifc_begun (o : OpSpec) (s : State) (i : Nat) : (s.begun o).ifc i = s.ifc i := by
  unfold State.begun
  dsimp only
  split
  · rfl
  · rfl

@[simp] theorem State.framesQueued_begun (o : OpSpec) (s : State) (i k : Nat) :
    (s.begun o).framesQueued i k = s.framesQueued i k := by
  unfold State.begun
  dsimp only
  split
  · rfl
  · rfl

/-! ### The commands (Table 16.10) -/

theorem exec_streamConfig_clean {c : Cmd} {s : State} (h : Clean opStreamConfig c s) (hn : NoInput c) (hstream : cp c 0 1 < 8)
    (hratio : cp c 1 1 ≤ 1) (hpoly : cp c 2 1 ≤ 3) (hquota : 128 ≤ cp c 4 4) (hquota' : cp c 4 4 ≤ 245760)
    (hcells : cp c 4 4 % 64 = 0) (hrecon : 1 ≤ cp c 8 2) (hrecon' : cp c 8 2 ≤ 1000)
    (hfit : s.otherQuotas (cp c 0 1) + cp c 4 4 ≤ 245760) :
    exec (.streamConfig c) s = .next (((s.begun opStreamConfig).modCfg (cp c 0 1) fun g =>
      { g with quota := cp c 4 4, ratio := cp c 1 1 == 1, poly := BitVec.ofNat 2 (cp c 2 1), reconNext := some (cp c 8 2) }).answered
        opStreamConfig c 0 [] []) :=
  congrArg Host.Outcome.next <| runCmd_ok h
    (by simp [ckNoInline_ok hn, hstream, hratio, hpoly, hquota, hquota', hcells, hrecon, hrecon']) (by simp [hfit]) rfl

/-- The word waits for the next selection of its interface. -/
theorem exec_streamShaper_clean {c : Cmd} {s : State} (h : Clean opStreamShaper c s) (hn : NoInput c) (hifc : cp c 0 1 ≤ 16)
    (hcls : cp c 1 1 < 4) (hrsvd : bits (cp c 8 8) 61 58 = 0) (hrate : 1 ≤ bits (cp c 8 8) 57 40)
    (hrate' : bits (cp c 8 8) 57 40 ≤ s.rateMax (cp c 0 1) (cp c 1 1)) (hburst : 16384 ≤ bits (cp c 8 8) 39 16)
    (hburst' : bits (cp c 8 8) 39 16 ≤ 8388608) (hown : bits (cp c 8 8) 15 8 ≠ 0) (hfwd : bits (cp c 8 8) 7 0 ≠ 0) :
    exec (.streamShaper c) s = .next (((s.begun opStreamShaper).modClass (cp c 0 1) (cp c 1 1) fun x =>
      { x with next := some (BitVec.ofNat 64 (cp c 8 8)) }).answered opStreamShaper c 0 [] []) :=
  congrArg Host.Outcome.next <| runCmd_ok h
    (by simp [ckNoInline_ok hn, hifc, hcls, hrsvd, Nat.ne_of_gt hrate, hrate', hburst, hburst', hown, hfwd]) (by simp) rfl

/-- The schedule waits for the next gate cycle of its interface. -/
theorem exec_streamGate_clean {c : Cmd} {s : State} {es : List Dword} (h : Clean opStreamGate c s)
    (hdata : (ckData opStreamGate c 0 (8 * cp c 1 1)).ok = true)
    (hes : es = (List.range (cp c 1 1)).map fun j => BitVec.ofNat 64 (rd (cdata c 0) (8 * j) 8)) (hifc : cp c 0 1 ≤ 16)
    (hcount : cp c 1 1 ≤ 8) (hcyc : 10000 ≤ cp c 4 4 * 100) (hcyc' : cp c 4 4 * 100 ≤ 1000000000)
    (hrsvd : ∀ e ∈ es, gateRsvdOk e.toNat = true) (hoverlap : gatesOverlap (es.filter gateValid) = false)
    (hinside : ∀ e ∈ es, gateValid e = true → gateStart e + gateLen e ≤ cp c 4 4 * 100)
    (hlong : ∀ k < 4, gatesLong (es.filter gateValid) (cp c 4 4 * 100) (flitPs (cp c 0 1)) k = true) :
    exec (.streamGate c) s = .next ((((s.begun opStreamGate).gateRoll (cp c 0 1)).modIfc (cp c 0 1) fun f =>
      { f with gateNext := some (cp c 4 4 * 100, es), gateLast := s.tb0Ns / f.gateCyc }).answered opStreamGate c 0 [] []) := by
  subst hes
  refine congrArg Host.Outcome.next <| runCmd_ok h ?_ (by simp) (by simp)
  simp only [List.forall_mem_cons, ckParam_ok, ckRange_ok, List.all_eq_true, List.mem_filter, and_imp, decide_eq_true_eq,
    Bool.and_eq_true, Bool.not_eq_true']
  exact ⟨hdata, hrsvd, hcount, hoverlap, hinside, by simp [hlong], hifc, ⟨hcyc, hcyc'⟩, by simp⟩

theorem exec_streamLink_clean {c : Cmd} {s : State} (h : Clean opStreamLink c s) (hn : NoInput c) (hifc : cp c 0 1 ≤ 16)
    (hms : 1 ≤ cp c 2 2) (hms' : cp c 2 2 ≤ 1000) :
    exec (.streamLink c) s = .next (((s.begun opStreamLink).modIfc (cp c 0 1) fun f => { f with credTo := cp c 2 2 }).answered
      opStreamLink c 0 [] []) :=
  congrArg Host.Outcome.next <| runCmd_ok h (by simp [ckNoInline_ok hn, hifc, hms, hms']) (by simp) rfl

theorem exec_streamStatus_clean {c : Cmd} {s : State} (h : Clean opStreamStatus c s) (hn : NoInput c) (hifc : cp c 0 1 ≤ 16)
    (hcls : cp c 1 1 < 4) :
    exec (.streamStatus c) s = .next ((s.begun opStreamStatus).answered opStreamStatus c 0
      (be 4 ((s.ifc (cp c 0 1)).classQ (cp c 1 1)).tokens ++ be 4 (s.framesQueued (cp c 0 1) (cp c 1 1))
        ++ be 4 (s.ifc (cp c 0 1)).overrun ++ be 4 (s.ifc (cp c 0 1)).reclaimed) []) :=
  congrArg Host.Outcome.next <| runCmd_ok h (by simp [ckNoInline_ok hn, hifc, hcls]) (by simp) (by simp)

end Sys2Proof.Machine
end

section
/-! The statement of the STREAM group. -/

namespace Sys2Proof.Machine

/-- Settles O19: each clause is the run lemma of its command. -/
theorem streamCommandsRun : Obligations.StreamCommandsRun := by
  unfold Obligations.StreamCommandsRun
  exact ⟨fun _ _ => exec_streamConfig_clean, fun _ _ => exec_streamShaper_clean, fun _ _ _ => exec_streamGate_clean,
    fun _ _ => exec_streamLink_clean, fun _ _ => exec_streamStatus_clean⟩

end Sys2Proof.Machine
end

section
/-! SUPPORT. What stays of an interface when its classes or its gate change, and so in all that is done before a selection. -/

namespace Sys2Proof.Machine

/-! ### Updates that keep what is read of an entry -/

theorem lget_map_keeps {α β : Type} {f : α → α} {g : α → β} (h : ∀ x, g (f x) = g x) (l : List α) (n : Nat) (d : α) :
    g (lget (l.map f) n d) = g (lget l n d) := by
  simp only [lget, List.getD_eq_getElem?_getD, List.getElem?_map]
  cases l[n]? with
  | none => rfl
  | some x => exact h x

theorem lget_lmod_keeps {α β : Type} {f : α → α} {g : α → β} (h : ∀ x, g (f x) = g x) (l : List α) (i n : Nat) (d : α) :
    g (lget (lmod l i f) n d) = g (lget l n d) := by
  induction l generalizing i n with
  | nil => rfl
  | cons x l ih =>
    cases i with
    | zero =>
      cases n with
      | zero => exact h x
      | succ n => rfl
    | succ i =>
      cases n with
      | zero => rfl
      | succ n => exact ih i n

theorem State.modIfc_keeps {β : Type} {f : IfcSt → IfcSt} {g : IfcSt → β} (h : ∀ x, g (f x) = g x) (i j : Nat) (s : State) :
    g ((s.modIfc i f).ifc j) = g (s.ifc j) :=
  lget_lmod_keeps h ..

/-! ### The second half of a pair in all that is done before a selection (R129) -/

@[simp] theorem State.refill_second (s : State) (j : Nat) : (s.refill.ifc j).second = (s.ifc j).second := by
  unfold State.refill
  dsimp only
  split
  · refine lget_map_keeps (g := IfcSt.second) (fun _ => ?_) ..
    rfl
  · rfl

@[simp] theorem State.modClass_second (i c : Nat) (f : ClassQ → ClassQ) (s : State) (j : Nat) :
    ((s.modClass i c f).ifc j).second = (s.ifc j).second := by
  refine State.modIfc_keeps (g := IfcSt.second) (fun _ => ?_) i j s
  rfl

@[simp] theorem State.gateRoll_second (i : Nat) (s : State) (j : Nat) : ((s.gateRoll i).ifc j).second = (s.ifc j).second := by
  refine State.modIfc_keeps (g := IfcSt.second) (fun f => ?_) i j s
  split
  · split
    · rfl
    · rfl
  · rfl

@[simp] theorem State.syncOwn_second (i : Nat) (s : State) (j : Nat) : ((s.syncOwn i).ifc j).second = (s.ifc j).second := by
  simp [State.syncOwn]

theorem State.beforeSelection_second (i : Nat) (s : State) (j : Nat) :
    ((s.beforeSelection i).ifc j).second = (s.ifc j).second := by
  simp only [State.beforeSelection, State.syncOwn_second, State.gateRoll_second]
  refine (State.modIfc_keeps (g := IfcSt.second) (fun _ => ?_) ..).trans (State.refill_second s j)
  rfl

end Sys2Proof.Machine
end

section
/-! SUPPORT. The rows of the links and streams: what each leaves once it is due. -/

namespace Sys2Proof.Machine

/-! ### A selection (R129 to R138) -/

section Selection

variable {i : Iface} {late : Bool} {s : State}

/-- The second half of a pair leaves directly after the first. -/
theorem exec_frameSelection_second {p : Second} (heng : s.engUp = true) (hlink : s.linkOk i.val = true)
    (hrun : s.pow.phase = .running) (hsecond : (s.ifc i.val).second = some p) :
    exec (.frameSelection i late) s = .next ((s.beforeSelection i.val).sendSecond i.val p late) := by
  change execFrameSelection i late s = _
  simp [execFrameSelection, heng, hlink, hrun, State.beforeSelection_second, hsecond]

theorem exec_frameSelection_select {t : State} (heng : s.engUp = true) (hlink : s.linkOk i.val = true)
    (hrun : s.pow.phase = .running) (hsecond : (s.ifc i.val).second = none) (ht : t = s.beforeSelection i.val) :
    exec (.frameSelection i late) s = .next (t.selectFrom i.val late (5 * (1 + ((t.hop.cfg.map fun g => g.queue.length).sum)
      + (((t.ifc i.val).cls.map fun k => k.fwd.length).sum))) [0, 1, 2, 3]) := by
  subst ht
  change execFrameSelection i late s = _
  simp [execFrameSelection, heng, hlink, hrun, State.beforeSelection_second, hsecond]

end Selection

/-- A FWD head older than 2 s is dropped whole and counted (R119). -/
theorem exec_fwdFrameStale_due {i : Iface} {k : Fin 4} {s : State} {f : FwdFrame} {rest : List FwdFrame}
    (heng : s.engUp = true) (hhead : ((s.ifc i.val).classQ k.val).fwd = f :: rest)
    (hstale : f.arrived + 2000000000 < s.tb1Ns) :
    exec (.fwdFrameStale i k) s = .next (((s.modClass i.val k.val ClassQ.fwdDrop).freeFwd f.cells).bump (0xF4 + k.val))
      ∧ (ClassQ.fwdDrop ((s.ifc i.val).classQ k.val)).fwd = rest := by
  constructor
  · change execFwdFrameStale i k s = _
    simp [execFwdFrameStale, State.dropFwd, State.fwdStale, hhead, heng, hstale]
  · simp [ClassQ.fwdDrop, hhead]

/-! ### Refills (R132, R145) -/

/-- Both refill rows do every refill that is due. -/
theorem exec_refillRow {x : Instr} {s : State} (hx : x = .shaperRefill ∨ x = .sluiceRefill) (hao : s.aoUp = true) :
    exec x s = .next s.refill := by
  rcases hx with rfl | rfl
  · exact congrArg Host.Outcome.next (if_pos hao)
  · exact congrArg Host.Outcome.next (if_pos hao)

theorem exec_refill_engUp {x : Instr} {s : State} {n : Nat} (hx : x = .shaperRefill ∨ x = .sluiceRefill) (hao : s.aoUp = true)
    (heng : s.engUp = true) (hn : n = s.tb1Ns / 1000) :
    exec x s = .next (s.modHop fun u =>
      { u with shaperK := n, sluiceK := n,
               ifcs := s.hop.ifcs.map fun f =>
                 { f with cls := f.cls.map fun k => { k with tokens := min k.burst (k.tokens + (n - s.hop.shaperK) * k.rate) } },
               sluice := (s.hop.sluice.zip (sluiceAll s.sys.strap :: sluiceRate s.sys.strap)).map fun b =>
                 min (sluiceDepth s.sys.strap) (b.1 + (n - s.hop.sluiceK) * b.2) }) := by
  subst hn
  exact (exec_refillRow hx hao).trans (congrArg Host.Outcome.next (if_pos heng))

/-- While ENG does not run the time passes and nothing is added. -/
theorem exec_refill_engDown {x : Instr} {s : State} (hx : x = .shaperRefill ∨ x = .sluiceRefill) (hao : s.aoUp = true)
    (heng : s.engUp = false) :
    exec x s = .next (s.modHop fun u => { u with shaperK := s.tb1Ns / 1000, sluiceK := s.tb1Ns / 1000 }) :=
  (exec_refillRow hx hao).trans (congrArg Host.Outcome.next (if_neg (by simp [heng])))

/-! ### Deferred flushes (R148) -/

theorem exec_teardownFlush_due {s : State} {f : Nat × Nat × List Req} {rest : List (Nat × Nat × List Req)}
    (heng : s.engUp = true) (hhead : s.hop.flushes = f :: rest)
    (hdue : s.class1Empty = true ∨ f.2.1 + 2000000000 ≤ s.tb1Ns) :
    exec .teardownFlush s = .next (f.2.2.foldl (fun t q => t.send q) (s.modHop fun u => { u with flushes := rest })) := by
  change execTeardownFlush s = _
  simp only [execTeardownFlush, hhead]
  exact if_pos ⟨heng, hdue⟩

/-! ### Reconciliation and epoch records (R121, R54) -/

/-- A stream of the node itself reports its books at the boundary; at that of stream 1 the consumers' books follow (log entry 83). -/
theorem exec_reconcilePeriod_due {c : Fin 8} {s t : State} {b : Nat} (hb : b = gridAt ((s.scfg c.val).reconMs * 1000000) s.tb0Ns)
    (heng : s.engUp = true) (hdue : (s.scfg c.val).reconLast < b)
    (ht : t = s.modCfg c.val fun x => { x with reconLast := b, reconMs := x.reconNext.getD x.reconMs, reconNext := none }) :
    exec (.reconcilePeriod c) s = .next (if h : c.val < 4 then
        (if c.val = 1 then State.consumerRecons else id)
          (if (s.out c.val).carried then
            (if ((t.settleEpoch ⟨c.val, h⟩ .every false).out c.val).carried then
              (t.settleEpoch ⟨c.val, h⟩ .every false).putRecon ⟨c.val, h⟩ else t.settleEpoch ⟨c.val, h⟩ .every false)
          else t)
      else t) := by
  subst hb ht
  refine (if_pos ⟨heng, hdue⟩).trans ?_
  split
  · exact congrArg Host.Outcome.next (apply_ite (fun f : State → State => f _) (c.val = 1) State.consumerRecons id).symm
  · rfl

/-- An epoch record is due a second after the one before; while ENG does not run it is owed. -/
theorem exec_epochRecordInterval_due {c : Fin 4} {s : State} (hao : s.aoUp = true)
    (hdue : (s.out c.val).lastEpoch + 999000000 ≤ s.tb1Ns) (hrun : s.pow.phase = .running) :
    exec (.epochRecordInterval c) s = .next (if s.engUp then s.putEpoch c
      else s.modOut c.val fun x => { x with epochOwed := true }) :=
  (if_pos ⟨hao, hdue, hrun⟩).trans (apply_ite Host.Outcome.next ..).symm

end Sys2Proof.Machine
end

section
/-! The statement of the link rows. -/

namespace Sys2Proof.Machine

/-- Settles O33: each clause is the run lemma of its row. -/
theorem linkRowsRun : Obligations.LinkRowsRun := by
  unfold Obligations.LinkRowsRun
  exact ⟨fun _ _ _ _ => exec_frameSelection_second, fun _ _ _ _ => exec_frameSelection_select,
    fun _ _ _ _ _ => exec_fwdFrameStale_due, fun _ _ _ => exec_refill_engUp, fun _ _ => exec_refill_engDown,
    fun _ _ _ => exec_teardownFlush_due, fun _ _ _ _ => exec_reconcilePeriod_due,
    fun _ _ => exec_epochRecordInterval_due⟩

end Sys2Proof.Machine
end

section
/-! SUPPORT. Where the checks of a command packet first fail: among those of its parameters, or for want of an admission token. -/

namespace Sys2Proof.Machine

theorem firstFail_append (l m : List Check) : firstFail (l ++ m) = (firstFail l).or (firstFail m) := by
  induction l with
  | nil => rfl
  | cons k l ih => cases hk : k.ok <;> simp [firstFail, hk, ih]

section Packet

variable {o : OpSpec} {c : Cmd} {pr rest : List Check} {eff : State → Ans} {s : State}

/-- After the checks that every command shares, those of the parameters come first (R397). -/
theorem runCmd_badParam {k : Check} (hpath : s.pathReady o.code c = true) (hbase : firstFail (baseChecks o c s) = none)
    (hbad : firstFail pr = some k) :
    runCmd o c pr rest eff s = (s.bump cCmdReceived).turnedAway o c k.status k.detail :=
  runCmd_away hpath (by simp [State.checks, firstFail_append, hbase, hbad])

/-- The bucket is the last to be asked but for the room of R401: a command that passes every check before it finds it empty (R399). -/
theorem runCmd_throttled (hadm : o.admission = true) (hempty : s.admitDue.hop.admission = 0)
    (hpath : s.pathReady o.code c = true) (hbase : firstFail (baseChecks o c s) = none) (heng : s.engUp = true)
    (hpr : ∀ k ∈ pr, k.ok = true) (hrest : ∀ k ∈ rest, k.ok = true) :
    runCmd o c pr rest eff s = (s.bump cCmdReceived).turnedAway o c stThrottled (errDetail 0 0 0xFF) := by
  have hempty' : firstFail (s.checks o c pr rest) = some (ckStatus false stThrottled) := by
    simp [State.checks, firstFail_append, hbase, firstFail_none.2 hpr, firstFail_none.2 hrest, hadm, hempty, heng, firstFail,
      ckStatus]
  exact runCmd_away (k := ckStatus false stThrottled) hpath hempty'

/-- A command of the registration or teardown kind starts with its token taken, those that fell due before it added. -/
theorem State.begun_admission (hadm : o.admission = true) : (s.begun o).hop.admission = s.admitDue.hop.admission - 1 := by
  simp only [State.begun, hadm, if_true]
  rfl

end Packet

end Sys2Proof.Machine
end

section
/-! SUPPORT. The credit timer of an interface (R142): its two rows, and STREAM.LINK with a CRED_TO out of range. -/

namespace Sys2Proof.Machine

theorem exec_creditReturn_up {i : Iface} {n : BitVec 4} {s : State} (hlink : s.linkOk i.val = true) :
    exec (.creditReturn i n) s = .next (s.modIfc i.val fun f =>
      { f with held := f.held + min n.toNat f.outstanding, outstanding := f.outstanding - min n.toNat f.outstanding,
               credStart := s.tb1Ns }) :=
  if_pos hlink

theorem exec_creditTimerExpiry_due {i : Iface} {s : State} (hlink : s.linkOk i.val = true) (hout : 0 < (s.ifc i.val).outstanding)
    (hpast : s.past1 ((s.ifc i.val).credStart + (s.ifc i.val).credTo * 1000000) = true) :
    exec (.creditTimerExpiry i) s = .next ((s.modIfc i.val fun f =>
      { f with held := f.held + f.outstanding, outstanding := 0, reclaimed := satAdd 32 f.reclaimed f.outstanding }).stage 0x0402
        .notice (ifcArg i.val) (s.ifc i.val).outstanding) :=
  if_pos ⟨hlink, hout, hpast⟩

/-- An expiry acts from the cycle after its instant (log entry 82); a row before its time changes nothing (log entry 6). -/
theorem exec_creditTimerExpiry_idle {i : Iface} {s : State} (hidle : (s.ifc i.val).outstanding = 0 ∨
      s.past1 ((s.ifc i.val).credStart + (s.ifc i.val).credTo * 1000000) = false) :
    exec (.creditTimerExpiry i) s = .next s := by
  refine if_neg ?_
  rintro ⟨-, hout, hpast⟩
  rcases hidle with hnone | hearly
  · exact Nat.ne_of_gt hout hnone
  · simp [hearly] at hpast

/-- CRED_TO is from 1 to 1,000 ms. -/
theorem exec_streamLink_badCredTo {c : Cmd} {s : State} {k : Dword} (hpath : s.pathReady opStreamLink.code c = true)
    (hbase : firstFail (baseChecks opStreamLink c s) = none) (hn : NoInput c) (hifc : cp c 0 1 ≤ 16)
    (hms : cp c 2 2 = 0 ∨ 1000 < cp c 2 2) (hk : k = errDetail 0 0 2) :
    exec (.streamLink c) s = .next ((s.bump cCmdReceived).turnedAway opStreamLink c stRange k) := by
  subst hk
  have hout : ¬ (1 ≤ cp c 2 2 ∧ cp c 2 2 ≤ 1000) := by omega
  refine congrArg Host.Outcome.next (runCmd_badParam (k := ckRange false 2) hpath hbase ?_)
  simp [firstFail, ckNoInline_ok hn, hifc, ← Bool.decide_and, hout]

theorem hopReset_credTo (r : Role) : ∀ f ∈ (hopReset r).ifcs, f.credTo = 100 := by
  intro f hf
  rcases List.mem_cons.1 hf with rfl | hside
  · rfl
  · rw [List.eq_of_mem_replicate hside]
    rfl

end Sys2Proof.Machine
end

section
/-! SUPPORT. The admission bucket (R147): its refill, its fill after AO reset, and the five commands that find it empty (R399). -/

namespace Sys2Proof.Machine

/-! ### The bucket over time and over AO reset -/

theorem exec_admissionRefill_aoUp {s : State} (hao : s.aoUp = true) : exec .admissionRefill s = .next s.admitDue :=
  congrArg Host.Outcome.next (if_pos hao)

/-- Within one millisecond of TB1 nothing falls due. -/
theorem State.admitDue_sameMs {s : State} (hms : s.tb1Ns / 1000000 = s.hop.admK) (hmax : s.hop.admission ≤ 16) : s.admitDue = s := by
  simp [State.admitDue, State.modHop, hms, hmax]

theorem exec_admissionRefill_sameMs {s : State} (hms : s.tb1Ns / 1000000 = s.hop.admK) (hmax : s.hop.admission ≤ 16) :
    exec .admissionRefill s = .next s := by
  change Host.Outcome.next (if s.aoUp then s.admitDue else s) = _
  rw [State.admitDue_sameMs hms hmax, ite_self]

/-- While ENG does not run a notice of the block itself is owed in AO, and Hopper has no part in it. -/
theorem State.ownNotice_hop_engDown {kind hsrc : Nat} {vid : Word} {core engine detail ctx extra : Nat} {s : State}
    (heng : s.engUp = false) : (s.ownNotice kind hsrc vid core engine detail ctx extra).hop = s.hop := by
  simp [State.ownNotice, State.notice, State.sendOwed, heng]

theorem exec_pgAoDeassert_admission {s t : State} (h : exec .pgAoDeassert s = .next t) : t.hop.admission = 16 := by
  rw [exec_pgAoDeassert] at h
  cases h
  split
  · rw [State.ownNotice_hop_engDown rfl]
    rfl
  · rfl

/-! ### The commands of the registration and teardown kind -/

theorem admission_of_mem {o : OpSpec} (ho : o ∈ [opTimeJob, opJobMembers, opJobEnd, opSentryWatch, opSentryPartners]) :
    o.admission = true := by
  revert o
  decide

section Throttled

variable {c : Cmd} {s : State} (hempty : s.admitDue.hop.admission = 0)
include hempty

theorem exec_timeJob_throttled (hpath : s.pathReady opTimeJob.code c = true) (hbase : firstFail (baseChecks opTimeJob c s) = none)
    (heng : s.engUp = true) (hn : NoInput c) :
    exec (.timeJob c) s = .next ((s.bump cCmdReceived).turnedAway opTimeJob c stThrottled (errDetail 0 0 0xFF)) :=
  congrArg Host.Outcome.next <| runCmd_throttled rfl hempty hpath hbase heng (by simp [ckNoInline_ok hn]) (by simp)

theorem exec_jobEnd_throttled (hpath : s.pathReady opJobEnd.code c = true) (hbase : firstFail (baseChecks opJobEnd c s) = none)
    (heng : s.engUp = true) (hn : NoInput c)
    (hjob : (s.job (BitVec.ofNat 32 (cp c 0 4))).isSome = true ∨ s.sentry.job = some (BitVec.ofNat 32 (cp c 0 4))) :
    exec (.jobEnd c) s = .next ((s.bump cCmdReceived).turnedAway opJobEnd c stThrottled (errDetail 0 0 0xFF)) :=
  congrArg Host.Outcome.next <| runCmd_throttled rfl hempty hpath hbase heng (by simp [ckNoInline_ok hn]) (by simpa using hjob)

theorem exec_sentryPartners_throttled (hpath : s.pathReady opSentryPartners.code c = true)
    (hbase : firstFail (baseChecks opSentryPartners c s) = none) (heng : s.engUp = true) (hn : NoInput c)
    (hfirst : cp c 0 4 < 2 ^ 18) (hsecond : cp c 4 4 < 2 ^ 18) :
    exec (.sentryPartners c) s = .next ((s.bump cCmdReceived).turnedAway opSentryPartners c stThrottled (errDetail 0 0 0xFF)) :=
  congrArg Host.Outcome.next <| runCmd_throttled rfl hempty hpath hbase heng
    (by simpa [ckNoInline_ok hn] using ⟨hfirst, hsecond⟩) (by simp)

theorem exec_sentryWatch_throttled (hpath : s.pathReady opSentryWatch.code c = true)
    (hbase : firstFail (baseChecks opSentryWatch c s) = none) (heng : s.engUp = true)
    (hdata : (ckData opSentryWatch c 0 (16 * cp c 4 1)).ok = true)
    (hwatch : ∀ i < cp c 4 1, watchOk (rd (cdata c 0) (16 * i) 16) = true) (hfirst : BitVec.ofNat 64 (cp c 16 8) ≠ 0)
    (hcount : cp c 4 1 ≤ 64) :
    exec (.sentryWatch c) s = .next ((s.bump cCmdReceived).turnedAway opSentryWatch c stThrottled (errDetail 0 0 0xFF)) :=
  congrArg Host.Outcome.next <| runCmd_throttled rfl hempty hpath hbase heng
    (by simpa [hdata, hcount] using ⟨hwatch, hfirst⟩) (by simp)

end Throttled

/-- The job view stays as it was: `all` is the list of members that the command would have left in it. -/
theorem exec_jobMembers_throttled {c : Cmd} {s : State} {n : Nat} {old ms all : List JobMember} (hcount : n = cp c 8 4)
    (hms : ms = (List.range n).map fun i => parseMember (cdata c 0) (16 * i))
    (hold : old = (tget s.verd.jobs (cp c 0 4)).elim [] fun v => if cp c 12 1 = 1 then v.members else [])
    (hall : all = (old.filter fun m => !(ms.any fun x => x.addr == m.addr)) ++ ms) (hempty : s.admitDue.hop.admission = 0)
    (hpath : s.pathReady opJobMembers.code c = true) (hbase : firstFail (baseChecks opJobMembers c s) = none)
    (heng : s.engUp = true) (hdata : (ckData opJobMembers c 0 (16 * n)).ok = true) (howner : cp c 4 4 < 2 ^ 18)
    (hmode : cp c 12 1 ≤ 1)
    (hentry : ∀ i < n, rd (cdata c 0) (16 * i) 4 < 2 ^ 18 ∧ rd (cdata c 0) (16 * i + 4) 1 ≤ 3 ∧
      rd (cdata c 0) (16 * i + 5) 1 ≤ 1 ∧ rd (cdata c 0) (16 * i + 6) 2 = 0)
    (hroom : (tget s.verd.jobs (cp c 0 4)).isSome = true ∨ s.verd.jobs.length < 64)
    (hfit : ((s.verd.jobs.filter fun e => e.1 != cp c 0 4).map fun e => e.2.members.length).sum + all.length ≤ 131072) :
    exec (.jobMembers c) s = .next ((s.bump cCmdReceived).turnedAway opJobMembers c stThrottled (errDetail 0 0 0xFF)) := by
  subst hcount hms hold hall
  refine congrArg Host.Outcome.next <| runCmd_throttled rfl hempty hpath hbase heng ?_ ?_
  · simp only [List.forall_mem_cons, ckParam_ok, ckAddr_ok, List.all_eq_true, List.mem_range, Bool.and_eq_true, decide_eq_true_eq,
      beq_iff_eq]
    exact ⟨hdata, howner, hmode, fun i hi => by simpa [and_assoc] using hentry i hi, by simp⟩
  · simp only [List.forall_mem_cons, ckCap_ok, Bool.or_eq_true, decide_eq_true_eq]
    refine ⟨hroom, ?_, by simp⟩
    cases hview : tget s.verd.jobs (cp c 0 4) <;> simpa [hview] using hfit

end Sys2Proof.Machine
end

section
/-! The statements of the credit timer and of the admission bucket. -/

namespace Sys2Proof.Machine

/-- Settles O10: the timer's rows by what holds when they come, CRED_TO by its range check and by its reset value. -/
theorem creditTimer : Obligations.CreditTimer := by
  unfold Obligations.CreditTimer
  exact ⟨fun _ _ _ => exec_creditReturn_up, fun _ _ => exec_creditTimerExpiry_due, fun _ _ => exec_creditTimerExpiry_idle,
    fun _ _ _ => exec_streamLink_badCredTo, hopReset_credTo⟩

/-- Settles O11: a command takes its token at its start or is turned away for want of one, and the refill is what time brings. -/
theorem admissionBucket : Obligations.AdmissionBucket := by
  unfold Obligations.AdmissionBucket
  refine ⟨fun _ ho => ⟨admission_of_mem ho, fun _ => State.begun_admission (admission_of_mem ho)⟩,
    fun _ _ => exec_timeJob_throttled, fun _ _ => exec_jobEnd_throttled, fun _ _ => exec_sentryPartners_throttled,
    fun _ _ => exec_sentryWatch_throttled, fun _ _ _ _ _ _ hcount hms hold =>
      exec_jobMembers_throttled hcount hms (hold.trans ?_), fun _ => rfl,
    fun _ => exec_admissionRefill_aoUp, fun _ => exec_admissionRefill_sameMs, rfl, fun _ _ => exec_pgAoDeassert_admission⟩
  split
  · next hview => simp [hview]
  · next hview => simp [hview]

end Sys2Proof.Machine
end

section
/-! SUPPORT. The cut commands of the REDUCE and CUT groups: what each answers where every check passes. -/

namespace Sys2Proof.Machine

/-! ### What a command of Crown reads after the start of its command -/

@[simp] theorem State.begun_crown (o : OpSpec) (s : State) : (s.begun o).crown = s.crown := State.begun_moves.1 .crown rfl

@[simp] theorem State.level_begun (o : OpSpec) (s : State) (f : Bool) : (s.begun o).level f = s.level f := by simp [State.level]

@[simp] theorem State.cutP_begun (o : OpSpec) (s : State) (f : Bool) : (s.begun o).cutP f = s.cutP f := by simp [State.cutP]

@[simp] theorem State.tree_begun (o : OpSpec) (s : State) (i : Nat) : (s.begun o).tree i = s.tree i := by simp [State.tree]

/-! ### A level that is changed -/

@[simp] theorem State.level_modLevel (f : Bool) (g : CutLevel → CutLevel) (s : State) : (s.modLevel f g).level f = g (s.level f) := by
  cases f with
  | false => rfl
  | true => rfl

/-- Two changes that agree on the level as it stands leave the same state. -/
theorem State.modLevel_congr {f : Bool} {g h : CutLevel → CutLevel} {s : State} (hgh : g (s.level f) = h (s.level f)) :
    s.modLevel f g = s.modLevel f h := by
  cases f with
  | false => exact congrArg (fun l => { s with crown := { s.crown with tray := l } }) hgh
  | true => exact congrArg (fun l => { s with crown := { s.crown with fleet := l } }) hgh

/-! ### Reductions (R151, R153 to R160) -/

theorem exec_reduceDefine_clean {c : Cmd} {s : State} {lv : Nat} {d : Redn} {o : OpSpec} (hlv : lv = cp c 2 1)
    (ho : o = opReduceDefine lv) (hd : d = parseRedn c) (h : Clean o c s) (hdata : (ckData o c 0 (cp c 24 4)).ok = true)
    (hlevel : lv ≤ 1) (hop : 1 ≤ d.op) (hop' : d.op ≤ 7) (htypes : d.typesOk = true) (hcls : d.cls < 4) (hnelem : 1 ≤ d.nelem)
    (hlen : cp c 24 4 = (if d.op = 6 then 24 + 8 * (d.nb + 1) else 24)) (hfields : d.fieldsOk = true)
    (hrsvd : rd (cdata c 0) 6 2 = 0) (hrsvd' : rd (cdata c 0) 17 7 = 0) (hedges : d.op = 6 → edgesOk d.etype d.edges = true)
    (hroom : (applyDefs (applyDefs (s.level (lv == 1)).defs (s.level (lv == 1)).defsNext) [(d.rid, some d)]).length ≤ 256)
    (hbanks : banksFit { s.bankNeed (lv == 1) with
      defs := applyDefs (applyDefs (s.level (lv == 1)).defs (s.level (lv == 1)).defsNext) [(d.rid, some d)] }
      (s.bankNeed !(lv == 1)) = true) :
    exec (.reduceDefine c) s = .next (((s.begun o).modLevel (lv == 1) fun x =>
      { x with defsNext := x.defsNext ++ [(d.rid, some d)] }).answered o c 0 [] []) := by
  subst hlv ho hd
  refine congrArg Host.Outcome.next <| runCmd_ok h ?_ (by simp [hroom, hbanks]) rfl
  simp [hdata, hlevel, hop, hop', htypes, hcls, hnelem, ← hlen, hfields, hrsvd, hrsvd', Decidable.not_or_of_imp hedges]

theorem exec_reduceDelete_clean {c : Cmd} {s : State} (h : Clean opReduceDelete c s) (hn : NoInput c) (hlevel : cp c 2 1 ≤ 1)
    (hdef : (applyDefs (s.level (cp c 2 1 == 1)).defs (s.level (cp c 2 1 == 1)).defsNext).any (fun d => d.rid == cp c 0 2) = true) :
    exec (.reduceDelete c) s = .next (((s.begun opReduceDelete).modLevel (cp c 2 1 == 1) fun x =>
      { x with defsNext := x.defsNext ++ [(cp c 0 2, none)] }).answered opReduceDelete c 0 [] []) :=
  congrArg Host.Outcome.next <| runCmd_ok h (by simp [ckNoInline_ok hn, hlevel])
    (List.forall_mem_singleton.mpr hdef) rfl

theorem exec_reduceStatus_clean {c : Cmd} {s : State} (h : Clean opReduceStatus c s) (hn : NoInput c) (hlevel : cp c 0 1 ≤ 1) :
    exec (.reduceStatus c) s = .next ((s.begun opReduceStatus).answered opReduceStatus c 0
      (be 8 (s.level (cp c 0 1 == 1)).pubEpoch ++ be 4 (s.level (cp c 0 1 == 1)).late) []) :=
  congrArg Host.Outcome.next <| runCmd_ok h (by simp [ckNoInline_ok hn, hlevel]) (by simp) (by simp)

/-! ### Cuts and their reader (R160 to R163, R167, R168) -/

theorem exec_cutConfig_clean {c : Cmd} {s : State} {f : Bool} {p g h : Nat} (hf : f = (cp c 0 1 == 1))
    (hp : p = cp c 4 4 * 1000000) (hg : g = cp c 8 4 * 100) (hh : h = cp c 12 2 * 100000) (hclean : Clean opCutConfig c s)
    (hn : NoInput c) (hlevel : cp c 0 1 ≤ 1) (hper : 1 ≤ cp c 4 4) (hper' : cp c 4 4 ≤ 10000)
    (hgrid : if f then p % s.nextP (!f) = 0 else s.nextP (!f) % p = 0) (hguard : 100 ≤ g) (hguard' : 4 * g ≤ p)
    (hsettle : 1 ≤ cp c 12 2) (hsettle' : cp c 12 2 ≤ 1000)
    (hbanks : banksFit { s.bankNeed f with period := p, settle := h } (s.bankNeed !f) = true)
    (hrates : (s.modLevel f fun x => { x with periodNext := some p }).ratesOk = true) :
    exec (.cutConfig c) s = .next (((s.begun opCutConfig).modLevel f fun x =>
      { x with periodNext := if p = s.cutP f then none else some p, guard := g, settle := h }).answered opCutConfig c 0 [] []) := by
  have hmax : max p 1 = p := by omega
  have hmult : (if f then p % s.nextP (!f) == 0 else s.nextP (!f) % max p 1 == 0) = true := by
    rw [hmax]
    split at hgrid
    · next hfleet => simp [hfleet] at hgrid ⊢; exact hgrid
    · next htray => simp [htray] at hgrid ⊢; exact hgrid
  subst hf hp hg hh
  exact congrArg Host.Outcome.next <| runCmd_ok hclean
    (by simp only [List.forall_mem_cons, ckParam_ok, ckRange_ok, ckNoInline_ok hn, hmult]
        simp [hlevel, hper, hper', hguard, hguard', hsettle, hsettle']) (by simp [hbanks, hrates]) (by simp)

theorem exec_cutRead_clean {c : Cmd} {s : State} {n : Nat} {img : List Byte} (h : Clean opCutRead c s) (hn : NoInput c)
    (hwrite : (ckWrite opCutRead c 0).ok = true) (hlevel : cp c 0 1 ≤ 1)
    (hpub : (s.level (cp c 0 1 == 1)).published = some (n, img)) (hmost : img.length ≤ cp c 4 4) :
    exec (.cutRead c) s = .next ((s.begun opCutRead).takenOn opCutRead c (s.time.tb1.toNat * 2 ^ 33 + cp c 4 4 * 2 + cp c 0 1)
      (some { status := stOk, detail := 0, result := be 8 n ++ be 4 img.length, out := img })) :=
  congrArg Host.Outcome.next <| runCmd_acc h (by simp [ckNoInline_ok hn, hwrite, hlevel]) (by simp [hpub, hmost])
    (by simp [hpub, cutReadFinal, hmost, finOk])

theorem exec_cutRegister_clean {c : Cmd} {s : State} (h : Clean opCutRegister c s) (hn : NoInput c) (hlevel : cp c 0 1 ≤ 1)
    (hhalf0 : cp c 8 8 % 8 = 0) (hhalf1 : cp c 16 8 % 8 = 0) :
    exec (.cutRegister c) s = .next (((s.begun opCutRegister).modLevel (cp c 0 1 == 1) fun l =>
      { l with reader := some { path := c.path, tag := c.tag, hlen := cp c 4 4, h0 := BitVec.ofNat 64 (cp c 8 8),
                                h1 := BitVec.ofNat 64 (cp c 16 8), held0 := false, held1 := false, missed := 0,
                                missedAt := 0, owed := false } }).answered opCutRegister c 0 [] []) :=
  congrArg Host.Outcome.next <| runCmd_ok h (by simp [ckNoInline_ok hn, hlevel, hhalf0, hhalf1]) (by simp) rfl

/-- The half is released, and a reader that is owed the newest published cut receives it there where it fits. -/
theorem exec_cutRelease_clean {c : Cmd} {s : State} {r q : Reader} {t : State} (h : Clean opCutRelease c s) (hn : NoInput c)
    (hlevel : cp c 0 1 ≤ 1) (hhalf : cp c 1 1 ≤ 1) (hreader : (s.level (cp c 0 1 == 1)).reader = some r)
    (hq : q = { r with held0 := r.held0 && cp c 1 1 != 0, held1 := r.held1 && cp c 1 1 != 1,
                       missed := if r.owed && r.missedAt == s.time.tb1.toNat && decide (0 < r.missed) then r.missed - 1
                         else r.missed })
    (ht : t = ((s.begun opCutRelease).modLevel (cp c 0 1 == 1) fun l => { l with reader := some q })) :
    exec (.cutRelease c) s = .next ((match (s.level (cp c 0 1 == 1)).published with
      | some (n, img) => if r.owed ∧ img.length ≤ r.hlen then t.writeHalf (cp c 0 1 == 1) n img (cp c 1 1 == 1) else t
      | none => t).answered opCutRelease c 0 [] []) := by
  have howed : q.owed = r.owed := by rw [hq]
  have hlen : q.hlen = r.hlen := by rw [hq]
  subst ht
  refine congrArg Host.Outcome.next <| runCmd_ok h (by simp [ckNoInline_ok hn, hlevel, hhalf]) (by simp [hreader]) ?_
  dsimp only
  rw [State.modLevel_congr (h := fun l => { l with reader := some q }) (by simp [hreader, hq])]
  simp only [State.level_modLevel, State.level_begun]
  cases (s.level (cp c 0 1 == 1)).published with
  | none => rfl
  | some cut =>
    simp only [howed, hlen]
    split
    · rfl
    · rfl

end Sys2Proof.Machine
end

section
/-! The statement of the cut commands. -/

namespace Sys2Proof.Machine

/-- Settles O20: each clause is the run lemma of its command. -/
theorem cutCommandsRun : Obligations.CutCommandsRun := by
  unfold Obligations.CutCommandsRun
  exact ⟨fun _ _ _ _ _ => exec_reduceDefine_clean, fun _ _ => exec_reduceDelete_clean,
    fun _ _ _ _ _ _ => exec_cutConfig_clean, fun _ _ _ _ => exec_cutRead_clean, fun _ _ => exec_cutRegister_clean,
    fun _ _ _ _ _ => exec_cutRelease_clean, fun _ _ => exec_reduceStatus_clean⟩

end Sys2Proof.Machine
end

section
/-! SUPPORT. The tree, broadcast and map commands: what each answers where every check passes. -/

namespace Sys2Proof.Machine

@[simp] theorem ckStatus_ok (b : Bool) (st : BitVec 16) : (ckStatus b st).ok = b := rfl

/-- The root of a tree is its node of PARENT 0 or of its own address, and has the spine role (R173; log entry 21). -/
theorem exec_treeInstall_clean {c : Cmd} {s : State} {p : List Child × Nat × Bool} {x : Tree} {t : State}
    (h : Clean opTreeInstall c s) (hdata : (ckData opTreeInstall c 0 (cp c 24 4)).ok = true)
    (hp : p = parseChildren (cp c 12 1) (cdata c 0)) (hpar : cp c 8 4 < 2 ^ 18)
    (hroot : s.isSpine = true ∨ (cp c 8 4 ≠ 0 ∧ cp c 8 4 ≠ s.sys.laddr.toNat)) (hbytes : p.2.1 = cp c 24 4) (hform : p.2.2 = true)
    (htree : cp c 0 1 < 16) (hcount : cp c 12 1 ≤ 64) (hack : cp c 28 4 ≤ 100000)
    (hx : x = { gen := BitVec.ofNat 32 (cp c 4 4),
                parent := if cp c 8 4 = 0 ∨ cp c 8 4 = s.sys.laddr.toNat then none else some (fldAddr (cp c 8 4)),
                ackTo := if cp c 28 4 = 0 then 20000000 else cp c 28 4 * 100000, children := p.1 })
    (ht : t = (s.modCrown fun u => { u with treesNext := tput u.treesNext (cp c 0 1) x })) (hrates : t.ratesOk = true)
    (hpairs : t.pairsFit t.below = true) (hbanks : banksFit (t.bankNeed false) (t.bankNeed true) = true) :
    exec (.treeInstall c) s = .next (((s.begun opTreeInstall).modCrown fun u =>
      { u with treesNext := tput u.treesNext (cp c 0 1) x }).answered opTreeInstall c 0 [] []) := by
  subst hp hx ht
  refine congrArg Host.Outcome.next <| runCmd_ok h ?_
    (List.forall_mem_cons.mpr ⟨hpairs, List.forall_mem_cons.mpr ⟨hbanks, List.forall_mem_singleton.mpr hrates⟩⟩) rfl
  simp only [List.forall_mem_cons, ckParam_ok, ckRange_ok, ckAddr_ok, hdata, hform]
  simpa [hbytes, htree, hcount, hack] using ⟨hpar, hroot⟩

/-- A root that may take one more broadcast starts it, and ends it at once where nothing is to wait for (R171). -/
theorem exec_bcastSend_clean {c : Cmd} {s : State} {x : Tree} (h : Clean opBcastSend c s)
    (hdata : (ckData opBcastSend c 0 (cp c 4 4)).ok = true) (hwrite : (ckWrite opBcastSend c 1).ok = true)
    (hkind : cp c 1 1 ≤ 4) (hkind' : cp c 1 1 ≠ 3) (hcmd : cp c 1 1 = 4 → 64 ≤ cp c 4 4 ∧ cp c 4 4 ≤ 1988) (htree : cp c 0 1 < 16)
    (hx : s.tree (cp c 0 1) = some x) (hroot : x.parent = none)
    (hroom : (s.crown.bcasts.filter fun x => x.upTo.isNone).length < 4) :
    ∃ t u : State, t = ((s.begun opBcastSend).bcastStart (cp c 0 1) x (cp c 1 1) (cdata c 0)).takenOn opBcastSend c
        (cp c 24 4 * 2 ^ 32 + s.crown.bidNext.toNat) none
      ∧ u = (if t.crown.bidNext = s.crown.bidNext then t else t.bcastSettle s.sys.laddr s.crown.bidNext)
      ∧ exec (.bcastSend c) s = .next u := by
  refine ⟨_, _, rfl, rfl, ?_⟩
  change execBcastSend c s = _
  have hpr : ∀ k ∈ (bcastChecks c s).1, k.ok = true := by
    simpa [bcastChecks, hdata, hwrite, hkind, hkind', htree] using Decidable.not_or_of_imp hcmd
  have hrest : ∀ k ∈ (bcastChecks c s).2, k.ok = true := by simp [bcastChecks, hx, hroot, hroom]
  simp only [execBcastSend]
  rw [runCmd_acc (f := none) h hpr hrest (by simp only [State.tree_begun, hx, State.begun_crown]; rfl)]

/-- Each entry's counters are of their modes, in the banks that the set has or waits for (R169). -/
theorem exec_mapConfig_clean {c : Cmd} {s : State} {es : List MapEnt} (h : Clean opMapConfig c s)
    (hdata : (ckData opMapConfig c 0 (8 * cp c 4 2)).ok = true)
    (hes : es = (List.range (cp c 4 2)).map (fun i => parseMapEnt (cdata c 0) (8 * i)))
    (hused : cp c 4 2 ≠ 0 → cp c 6 2 < cp c 8 2 ∧ cp c 8 2 < cp c 10 2 ∧
      (s.set (cp c 2 1)).winNext.getD (s.set (cp c 2 1)).win = cp c 0 2 * 100000)
    (hents : ∀ e ∈ es, e.port < 64 ∧ e.queue < 8 ∧
      ∀ k ∈ [(e.maxc, 2), (e.sumc, 0), (e.dropc, 0)], bits (tgetD s.coll.cfg k.1 0).toNat 30 29 = k.2 ∧
        inSet (cp c 2 1) ((s.set (cp c 2 1)).banksNext.getD (s.set (cp c 2 1)).banks) k.1 = true)
    (hmp : 1 ≤ cp c 0 2) (hmp' : cp c 0 2 ≤ 1000) (hset : 1 ≤ cp c 2 1) (hset' : cp c 2 1 < 16) (hcount : cp c 4 2 ≤ 512) :
    exec (.mapConfig c) s = .next (((s.begun opMapConfig).modCrown fun u =>
      { u with mp := cp c 0 2 * 100000, map := if cp c 4 2 = 0 then none
        else some { set := cp c 2 1, ents := es, th1 := cp c 6 2, th2 := cp c 8 2, th3 := cp c 10 2 } }).answered opMapConfig
          c 0 [] []) := by
  subst hes
  refine congrArg Host.Outcome.next <| runCmd_ok h ?_ (by simp) rfl
  simp only [List.forall_mem_cons, ckParam_ok, ckRange_ok, List.all_eq_true]
  refine ⟨hdata, ?_, fun e he => ?_, fun e he => ?_, ?_, by simp [hmp, hmp'], by simp [hset, hset'], by simp [hcount], by simp⟩
  · by_cases hn : cp c 4 2 = 0
    · simp [hn]
    · obtain ⟨h12, h23, _⟩ := hused hn
      simp [h12, h23]
  · obtain ⟨hport, hqueue, _⟩ := hents e he
    simp [hport, hqueue]
  · obtain ⟨_, _, hown⟩ := hents e he
    obtain ⟨hmax, hmaxSet⟩ := hown (e.maxc, 2) (by simp)
    obtain ⟨hsum, hsumSet⟩ := hown (e.sumc, 0) (by simp)
    obtain ⟨hdrop, hdropSet⟩ := hown (e.dropc, 0) (by simp)
    simp only [hmax, hmaxSet, hsum, hsumSet, hdrop, hdropSet, BEq.rfl, Bool.and_self]
  · by_cases hn : cp c 4 2 = 0
    · simp [hn]
    · obtain ⟨_, _, hwin⟩ := hused hn
      simp [hwin]

end Sys2Proof.Machine
end

section
/-! The statement of the tree, broadcast and map commands. -/

namespace Sys2Proof.Machine

/-- Settles O21: each clause is the run lemma of its command. -/
theorem broadcastCommandsRun : Obligations.BroadcastCommandsRun := by
  unfold Obligations.BroadcastCommandsRun
  exact ⟨fun _ _ _ _ _ => exec_treeInstall_clean, fun _ _ _ => exec_bcastSend_clean, fun _ _ _ => exec_mapConfig_clean⟩

end Sys2Proof.Machine
end

section
/-! SUPPORT. What the block does with an accepted record of a transfer, by its type (Table 4.3). -/

namespace Sys2Proof.Machine

/-! ### The unit that uses a record of a transfer -/

section Use

variable {i : Nat} {via : Laddr} {wOk : Bool} {r : Rec} {s : State}

theorem State.use_cutContrib (h : r.typ = tCutContrib) : s.use i via wOk r = s.rxContrib r := by
  simp only [State.use, h]
  rfl

theorem State.use_broadcast (h : r.typ = tBroadcast) : s.use i via wOk r = s.rxBcast via r := by
  simp only [State.use, h]
  rfl

theorem State.use_broadcastAck (h : r.typ = tBroadcastAck) : s.use i via wOk r = s.rxAck r := by
  simp only [State.use, h]
  rfl

theorem State.use_command (h : r.typ = tCommand) : s.use i via wOk r = s.rxCommand r := by
  simp only [State.use, h]
  rfl

/-- A reply is used while CTL runs (R405). -/
theorem State.use_reply (h : r.typ = tReply) (hctl : s.ctlUp = true) : s.use i via wOk r = s.rxReply r wOk := by
  have huse : s.use i via wOk r = if s.ctlUp then s.rxReply r wOk else s := by
    simp only [State.use, h]
    rfl
  rw [huse, if_pos hctl]

/-- An image chunk or a start message is used while CTL runs (R428, R435). -/
theorem State.use_imageChunk (h : r.typ = tImageChunk) (hctl : s.ctlUp = true) : s.use i via wOk r = s.rxImage r := by
  have huse : s.use i via wOk r = if s.ctlUp then s.rxImage r else s := by
    simp only [State.use, h]
    rfl
  rw [huse, if_pos hctl]

end Use

/-! ### The rows that are not `rxFrom` of an accepted record -/

/-- The row of an accepted record, whatever the write through an output pointer gave. -/
theorem State.rxRow_accepted_write {i : Nat} {via : Laddr} {wOk : Bool} {r : Rec} {s : State} (heng : s.engUp = true)
    (hacc : (s.acceptRec via r).2 = true) :
    s.rxRow true i via wOk r = ((s.acceptRec via r).1.heard i r).use i via wOk r :=
  (if_pos (by simp [heng])).trans (if_pos hacc)

/-- The reply takes with it whether the write of its output failed (R405). -/
theorem exec_replyRecordReceived_accepted {ok : Bool} {r : Rec} {s t : State} (h : Accepted s r t) (htyp : r.typ = tReply)
    (hctl : t.ctlUp = true) : exec (.replyRecordReceived r ok) s = .next (t.rxReply r ok) := by
  obtain ⟨heng, hacc, rfl⟩ := h
  have hkind : (r.typ == tReply) = true := by simp [htyp]
  change Host.Outcome.next (s.rxRow (r.typ == tReply) (s.ifcTo r.src) r.src ok r) = _
  rw [hkind, State.rxRow_accepted_write heng hacc, State.use_reply htyp hctl]

/-- The image chunk rows differ in the mode alone: Hoist takes the record and reads the mode itself (R428, R435). -/
theorem State.next_rxFrom_imageChunk {r : Rec} {s t : State} {mode : Nat} (h : Accepted s r t) (htyp : r.typ = tImageChunk)
    (hctl : t.ctlUp = true) (hmode : icMode r.body = mode) :
    (.next (s.rxFrom (r.typ == tImageChunk && icMode r.body == mode) r) : Host.Outcome State Fault Refusal) =
      .next (t.rxImage r) :=
  State.next_rxFrom_accepted h (by simp [htyp, hmode]) (State.use_imageChunk htyp hctl)

/-- A broadcast comes from the node's parent in its tree, at the root from its source (R171). -/
theorem exec_broadcastReceived_accepted {r : Rec} {s : State} {x : Tree} {hop : Laddr} (heng : s.engUp = true)
    (htyp : r.typ = tBroadcast) (htree : s.tree (bcTree r.body) = some x) (hhop : hop = x.parent.getD r.src)
    (hacc : (s.acceptRec hop r).2 = true) :
    exec (.broadcastReceived r) s = .next (((s.acceptRec hop r).1.heard (s.ifcTo hop) r).rxBcast hop r) := by
  have hkind : (r.typ == tBroadcast) = true := by simp [htyp]
  change execBroadcastReceived r s = _
  simp only [execBroadcastReceived, htree, ← hhop, hkind, State.rxRow_accepted heng hacc, State.use_broadcast htyp]

end Sys2Proof.Machine
end

section
/-! The statement of the transfer records. -/

namespace Sys2Proof.Machine

/-- Settles O48: the row of an accepted record, come over the interface that leads to its source (log entry 41), is what the unit of its
type does with it. -/
theorem transferRecordsRun : Obligations.TransferRecordsRun := by
  unfold Obligations.TransferRecordsRun
  refine ⟨fun _ _ _ h => ?_, fun _ _ _ _ => exec_broadcastReceived_accepted⟩
  -- Crown and the command transport.
  refine ⟨fun typ => State.next_rxFrom_accepted h (by simp [typ]) (State.use_cutContrib typ),
    fun typ => State.next_rxFrom_accepted h (by simp [typ]) (State.use_broadcastAck typ),
    fun typ => State.next_rxFrom_accepted h (by simp [typ]) (State.use_command typ),
    fun _ => exec_replyRecordReceived_accepted h, fun typ ctl => ?_⟩
  have chunk := fun mode => State.next_rxFrom_imageChunk (mode := mode) h typ ctl
  exact ⟨chunk 0, chunk 1, chunk 2, chunk 3, chunk 4, chunk 5⟩

end Sys2Proof.Machine
end

section
/-! SUPPORT. The least entry of a list by a key, lists by index, and tables with one entry changed. -/

namespace Sys2Proof.Machine

section Least

variable {α : Type} {f : Option α → α → Option α} {key : α → Nat} {a : α}

/-- A fold that keeps the entry of the lesser key ends with `a`, the entry of the least, if it is kept already or still to come. -/
theorem foldl_least_from (hnone : ∀ e, f none e = some e)
    (hsome : ∀ x e, f (some x) e = if key e < key x then some e else some x) (l : List α) (m : Option α)
    (ha : m = some a ∨ a ∈ l) (hm : ∀ x ∈ m, x = a ∨ key a < key x) (hl : ∀ e ∈ l, e = a ∨ key a < key e) :
    l.foldl f m = some a := by
  induction l generalizing m with
  | nil => exact ha.resolve_right List.not_mem_nil
  | cons e l ih =>
    obtain ⟨he, hl⟩ := List.forall_mem_cons.mp hl
    cases m with
    | none => exact ih (f none e) (by grind) (by grind) hl
    | some x => exact ih (f (some x) e) (by grind) (by grind) hl

theorem foldl_least {l : List α} (ha : a ∈ l) (hleast : ∀ e ∈ l, e = a ∨ key a < key e) (hnone : ∀ e, f none e = some e)
    (hsome : ∀ x e, f (some x) e = if key e < key x then some e else some x) : l.foldl f none = some a :=
  foldl_least_from hnone hsome l none (Or.inr ha) (by simp) hleast

end Least

theorem mem_range_zip {α : Type} {n j : Nat} {l : List α} {a : α} : (j, a) ∈ (List.range n).zip l ↔ j < n ∧ l[j]? = some a := by
  simp only [List.mem_iff_getElem?, List.getElem?_zip_eq_some, List.getElem?_eq_some_iff (l := List.range n)]
  constructor
  · rintro ⟨k, ⟨hk, hkj⟩, hka⟩
    obtain rfl : k = j := by simpa using hkj
    exact ⟨by simpa using hk, hka⟩
  · rintro ⟨hj, ha⟩
    exact ⟨j, ⟨by simpa using hj, by simp⟩, ha⟩

theorem mem_flatten_map {α β : Type} {f : α → List β} {l : List α} {y : β} : y ∈ (l.map f).flatten ↔ ∃ x ∈ l, y ∈ f x := by
  rw [← List.flatMap_def, List.mem_flatMap]

theorem mem_of_tget {α : Type} {t : Table α} {k : Nat} {x : α} (h : tget t k = some x) : (k, x) ∈ t := by
  induction t with
  | nil => simp [tget] at h
  | cons e t ih =>
    unfold tget at h
    split at h
    · next hk =>
      obtain rfl := hk
      obtain rfl := Option.some.inj h
      exact List.mem_cons_self ..
    · exact List.mem_cons_of_mem _ (ih h)

theorem tget_tmod_self {α : Type} (t : Table α) (k : Nat) (f : α → α) : tget (tmod t k f) k = (tget t k).map f := by
  unfold tmod
  cases h : tget t k with
  | none => exact h
  | some x => exact tget_tput_self t k (f x)

end Sys2Proof.Machine
end

section
/-! SUPPORT. The rows of cuts and models: what each leaves once it is due. -/

namespace Sys2Proof.Machine

/-! ### Cuts (R151, R162, R164) -/

theorem exec_cutWindowEnd_running {fleet : Bool} {s t : State} (heng : s.engUp = true) (hrun : s.pow.phase = .running)
    (ht : t = s.skipWindows fleet) :
    exec (.cutWindowEnd fleet) s = .next
      (t.windowsTo fleet ((s.tb0Ns - (t.level fleet).lastT) / 1000000 + 1)).handOver := by
  subst ht
  exact if_pos (by simp [heng, hrun])

theorem exec_cutClose_combines {fleet : Bool} {s t : State} (heng : s.engUp = true) (hcomb : s.combines = true)
    (ht : t = s.switchDue.closeAll fleet) :
    exec (.cutClose fleet) s = .next (t.finishCuts fleet (t.level fleet).closing.length).quernSettleAll := by
  subst ht
  exact if_pos (by simp [heng, hcomb])

/-! ### Evaluations of Quern (R184, R190, R197) -/

/-- The vectors that wait on ACTIVE handles, each with its handle. -/
def State.pendingEvals (s : State) : List (Nat × QVec) :=
  (((List.range 16).zip s.model.quern).map fun e => if e.2.h.st = .active then e.2.pend.map fun v => (e.1, v) else []).flatten

theorem State.mem_pendingEvals {s : State} {j : Nat} {w : QVec} :
    (j, w) ∈ s.pendingEvals ↔ j < 16 ∧ (s.qh j).h.st = .active ∧ w ∈ (s.qh j).pend := by
  have hqh : s.qh j = s.model.quern[j]?.getD emptyQ := List.getD_eq_getElem?_getD
  rw [State.pendingEvals, mem_flatten_map]
  constructor
  · rintro ⟨⟨k, q⟩, hq, hw⟩
    obtain ⟨hk, hget⟩ := mem_range_zip.mp hq
    split at hw
    · next hact =>
      obtain ⟨v, hv, hpair⟩ := List.mem_map.mp hw
      obtain ⟨rfl, rfl⟩ := Prod.mk.inj hpair
      rw [hqh, hget]
      exact ⟨hk, hact, hv⟩
    · exact absurd hw List.not_mem_nil
  · rintro ⟨hj, hact, hw⟩
    rw [hqh] at hact hw
    cases hget : s.model.quern[j]? with
    | none =>
      rw [hget] at hw
      exact absurd hw List.not_mem_nil
    | some q =>
      rw [hget, Option.getD_some] at hact hw
      refine ⟨(j, q), mem_range_zip.mpr ⟨hj, hget⟩, ?_⟩
      dsimp only
      rw [if_pos hact]
      exact List.mem_map.mpr ⟨w, hw, rfl⟩

/-- The waiting vector of least stamp, handle and source starts while an accumulator unit is free (R197). -/
theorem exec_quernEvalStart_least {i : Fin 16} {s : State} {v : QVec} {key : Nat → QVec → Nat}
    (hkey : key = fun (j : Nat) (w : QVec) => (w.stamp * 16 + j) * 2 ^ 18 + w.src.toNat) (heng : s.engUp = true)
    (hact : (s.qh i.val).h.st = .active) (hv : v ∈ (s.qh i.val).pend)
    (hleast : ∀ j < 16, (s.qh j).h.st = .active → ∀ w ∈ (s.qh j).pend, (j = i.val ∧ w = v) ∨ key i.val v < key j w)
    (hfree : (s.model.quern.map fun q => q.run.length).sum < 64) :
    exec (.quernEvalStart i) s = .next (s.modQ i.val fun x =>
      { x with pend := dropFirst (fun y => y == v) x.pend, run := x.run ++ [v] }) := by
  have hmem : (i.val, v) ∈ s.pendingEvals := State.mem_pendingEvals.mpr ⟨i.isLt, hact, hv⟩
  have hmin : ∀ e ∈ s.pendingEvals, e = (i.val, v) ∨ key i.val v < key e.1 e.2 := by
    rintro ⟨j, w⟩ he
    obtain ⟨hj, hjact, hw⟩ := State.mem_pendingEvals.mp he
    exact (hleast j hj hjact w hw).imp_left fun ⟨hji, hwv⟩ => Prod.ext hji hwv
  unfold State.pendingEvals at hmem hmin
  change execQuernEvalStart i s = _
  unfold execQuernEvalStart
  dsimp only
  rw [foldl_least (key := fun e => key e.1 e.2) hmem hmin (fun _ => rfl) (fun _ _ => by subst hkey; rfl)]
  exact if_pos (by simp [heng, hfree])

theorem exec_quernEvalComplete_running {i : Fin 16} {s : State} {v : QVec} {rest : List QVec} {m : QModel}
    (heng : s.engUp = true) (hrun : (s.qh i.val).run = v :: rest) (hmodel : (s.qh i.val).model = some m) :
    exec (.quernEvalComplete i) s = .next (((if (s.qh i.val).h.st = .stopped then
        (s.modQ i.val fun x => { x with run := rest }).deliver i.val v true [] 0
      else (s.modQ i.val fun x => { x with run := rest }).deliver i.val v false (m.eval v.codes)
        ((v.codes.filter (· == 0xFFFF)).length)).quernSettleAll).unloadSettle i.val) := by
  have hdone : s.evalDone i.val = if (s.qh i.val).h.st = .stopped then
        (s.modQ i.val fun x => { x with run := rest }).deliver i.val v true [] 0
      else (s.modQ i.val fun x => { x with run := rest }).deliver i.val v false (m.eval v.codes)
        ((v.codes.filter (· == 0xFFFF)).length) := by
    simp only [State.evalDone, hrun, hmodel]
  rw [← hdone]
  exact if_pos heng

/-! ### Loads and activations (R179, R192, R220, R224, R431) -/

theorem exec_actAtReached_due {mill : Bool} {i : Fin 16} {s : State} {a : Nat} (heng : s.engUp = true)
    (hat : (s.hnd mill i.val).actAt = some a) (hdue : a ≤ s.tb0Ns) (hloaded : (s.hnd mill i.val).st = .loaded) :
    exec (.actAtReached mill i) s = .next (s.switchOn mill i.val a).quernSettleAll.millSettleAll := by
  have hswitch : s.switchIfDue mill i.val = s.switchOn mill i.val a := by
    simp only [State.switchIfDue, hat]
    exact if_pos ⟨hloaded, hdue⟩
  rw [← hswitch]
  exact if_pos heng

theorem exec_modelLoadComplete_loading {mill : Bool} {i : Fin 16} {s : State} {h : Handle} (hh : h = s.hnd mill i.val)
    (heng : s.engUp = true) (hst : h.st = .loading) (hsrc : h.lsrc ≠ 2) :
    exec (.modelLoadComplete mill i) s =
      .next (s.loadCheck mill i.val (if h.lsrc = 0 then lget s.flash.models h.slot [] else h.image)) := by
  subst hh
  exact if_pos (by simp [heng, hst, hsrc])

theorem exec_modelBroadcastWaitExpiry_due {mill : Bool} {i : Fin 16} {s : State} {h : Handle} (hh : h = s.hnd mill i.val)
    (heng : s.engUp = true) (hst : h.st = .loading) (hsrc : h.lsrc = 2) (hnext : h.next = 0)
    (hdue : h.loadAt + s.hoistWait ≤ s.tb1Ns) :
    exec (.modelBroadcastWaitExpiry mill i) s = .next (s.loadFail mill i.val stTimeout) := by
  subst hh
  exact if_pos (by simp [heng, hst, hsrc, hnext, hdue])

/-! ### Steps and rollouts of Millrace (R206, R214, R217, R220) -/

/-- The inputs that wait on channels without a step in progress, each with its rank in the order of steps and its channel. -/
def State.readySteps (s : State) : List (Nat × Nat × MInput) :=
  (s.model.chans.map fun e => if e.2.running.isNone then e.2.pend.map fun i => (i.stamp * 4096 + e.1, e.1, i) else []).flatten

theorem State.mem_readySteps {s : State} {x : Nat × Nat × MInput} : x ∈ s.readySteps ↔
    ∃ e ∈ s.model.chans, e.2.running = none ∧ ∃ i ∈ e.2.pend, x = (i.stamp * 4096 + e.1, e.1, i) := by
  have hone : ∀ e : Nat × Channel,
      (x ∈ if e.2.running.isNone then e.2.pend.map fun i => (i.stamp * 4096 + e.1, e.1, i) else []) ↔
        e.2.running = none ∧ ∃ i ∈ e.2.pend, x = (i.stamp * 4096 + e.1, e.1, i) := by
    intro e
    cases e.2.running with
    | none => simp [eq_comm]
    | some i => simp
  simp only [State.readySteps, mem_flatten_map, hone]

@[simp] theorem State.chan_modChan (c : Nat) (f : Channel → Channel) (s : State) : (s.modChan c f).chan c = (s.chan c).map f :=
  tget_tmod_self ..

theorem State.chan_restartChan (c : Nat) (m : MModel) (s : State) : (s.restartChan c m).chan c = (s.chan c).map fun x =>
    { x with ctx := ctxStart m, diverged := false, done := x.done.map StepCodes.lost, resetDue := false } :=
  State.chan_modChan ..

/-- The channel after the start of a step: the input runs, under the handle that its stamp belongs to. -/
theorem State.chan_stepStart {c : Nat} {i : MInput} {s : State} {ch : Channel} {m : MModel} (hch : s.chan c = some ch)
    (hact : s.millActive (ch.stepHandle i.stamp) = some m) :
    ∃ x, (s.stepStart c i).chan c = some x ∧ x.running = some i ∧ x.pend = dropFirst (fun y => y == i) ch.pend
      ∧ x.handle = ch.stepHandle i.stamp := by
  simp only [State.stepStart, hch, hact]
  repeat' split
  all_goals simp [hch, State.chan_restartChan]

/-- The waiting input of least stamp and channel starts its step (R217, R220). -/
theorem exec_millraceStepStart_least {ch : Fin 4096} {s : State} {c : Channel} {i : MInput} {m : MModel} (heng : s.engUp = true)
    (hch : s.chan ch.val = some c) (hidle : c.running = none) (hi : i ∈ c.pend)
    (hleast : ∀ e ∈ s.model.chans, e.2.running = none → ∀ j ∈ e.2.pend,
      (e.1 = ch.val ∧ j = i) ∨ i.stamp * 4096 + ch.val < j.stamp * 4096 + e.1)
    (hact : s.millActive (c.stepHandle i.stamp) = some m) :
    exec (.millraceStepStart ch) s = .next (s.stepStart ch.val i).millSettleAll ∧
      ∃ x, (s.stepStart ch.val i).chan ch.val = some x ∧ x.running = some i ∧ x.pend = dropFirst (fun y => y == i) c.pend
        ∧ x.handle = c.stepHandle i.stamp := by
  refine ⟨?_, State.chan_stepStart hch hact⟩
  have hmem : (i.stamp * 4096 + ch.val, ch.val, i) ∈ s.readySteps :=
    State.mem_readySteps.mpr ⟨_, mem_of_tget hch, hidle, i, hi, rfl⟩
  have hmin : ∀ x ∈ s.readySteps, x = (i.stamp * 4096 + ch.val, ch.val, i) ∨ i.stamp * 4096 + ch.val < x.1 := by
    intro x hx
    obtain ⟨e, he, hrun, j, hj, rfl⟩ := State.mem_readySteps.mp hx
    exact (hleast e he hrun j hj).imp_left fun ⟨hec, hji⟩ => by rw [hec, hji]
  unfold State.readySteps at hmem hmin
  change execMillraceStepStart ch s = _
  unfold execMillraceStepStart
  dsimp only
  rw [foldl_least (key := fun e => e.1) hmem hmin (fun _ => rfl) (fun _ _ => rfl)]
  exact if_pos (by simp [heng])

theorem exec_millraceStepComplete_running {ch : Fin 4096} {s : State} {c : Channel} {i : MInput} (heng : s.engUp = true)
    (hch : s.chan ch.val = some c) (hrun : c.running = some i) :
    exec (.millraceStepComplete ch) s = .next (s.stepDone ch.val).heldSettle.millSettleAll := by
  change execMillraceStepComplete ch s = _
  simp only [execMillraceStepComplete, hch]
  exact if_pos (by simp [heng, hrun])

theorem exec_rolloutComplete_open {path : Path} {tag : BitVec 16} {s : State} {r : Rollout} (heng : s.engUp = true)
    (hr : s.model.rollouts.find? (fun x => x.path == path && x.tag == tag) = some r) :
    exec (.rolloutComplete path tag) s = .next (
      (s.modModel fun u => { u with rollouts := u.rollouts.filter fun x => !(x.path == path && x.tag == tag) }).modCmd fun c =>
        { c with acc := c.acc.map fun a => if a.path == path && a.tag == tag && a.opcode == 0x0608 then
            { a with ready := some (finOk 0 (be 8 r.stamp ++ be 4 r.cep ++ be 4 r.n) (r.vals.map (be 4)).flatten) } else a }) := by
  change execRolloutComplete path tag s = _
  simp only [execRolloutComplete, hr]
  exact if_pos heng

/-! ### Waits that are over (R188, R210) -/

theorem exec_residWaitExpiry_due {i : Fin 16} {s : State} {due : HeldVec → Bool}
    (hdue : due = fun (v : HeldVec) => v.set == i.val && s.past0 (v.stamp + s.model.residWait)) (heng : s.engUp = true)
    (hany : s.model.held.any due = true) :
    exec (.residWaitExpiry i) s = .next ((s.model.held.filter due).foldl (fun t v => t.releaseVec v)
        (s.modModel fun u => { u with held := u.held.filter fun v => !due v })).quernSettleAll := by
  subst hdue
  exact if_pos (by rw [heng, hany]; rfl)

theorem exec_eachWaitExpiry_engUp {i : Fin 16} {src : Laddr} {s : State} {due : List Asm} {t : State}
    (hdue : due = (s.model.remote.filter fun a => a.src == src && s.past0 (a.stamp + s.model.eachWait)))
    (ht : t = due.foldl (fun t a => if (t.eachTakers a).contains i.val then t.startEach i.val a else t) s.switchDue)
    (heng : s.engUp = true) :
    exec (.eachWaitExpiry i src) s = .next (due.foldl (fun t a =>
      (t.remoteTakers a).foldl (fun u e => u.millRemote e.1 a) t) t).quernSettleAll.millSettleAll := by
  subst hdue ht
  exact if_pos heng

/-! ### The boundary of a sample set (R83 to R87, R491, R493) -/

section Boundary

variable {i : Nat} {drained : Bool} {s : State} {x : SampleSet} {b : Nat}

/-- What lets a set take a boundary of its grid: heavy sets only in RUN. -/
theorem State.boundary_due (hx : x = s.set i) (hb : b = gridAt x.win s.tb0Ns) (hao : s.aoUp = true) (hdue : x.lastK < b)
    (hheavy : i ≠ 0 → s.engUp = true ∧ s.pow.pstate = .run ∧ s.pow.entry = none) :
    s.boundary i drained =
      if !x.running then
        some ((if x.banks = 0 then s.modSet i fun y => { y with lastK := b }
          else (s.modSet i fun y => { y with lastK := b }).baselineCopy i).setApply i, false)
      else if x.baseline then
        some ((((s.modSet i fun y => { y with lastK := b }).sendSample s.tb0Ns 0
          (asleepBody i x.tag (x.passed s.tb0Ns + x.merged) x.winStart)).baselineCopy i).setApply i, false)
      else if !drained then
        some (((s.modSet i fun y => { y with lastK := b }).modSet i fun y =>
          { y with merged := x.passed s.tb0Ns + x.merged, nlate := satAdd 32 y.nlate 1 }).bump cSampleLate, false)
      else some ((s.modSet i fun y => { y with lastK := b }).emitSample i s.tb0Ns (x.passed s.tb0Ns + x.merged) false, true) := by
  subst hb hx
  refine if_pos ⟨hdue, hao, ?_⟩
  by_cases hi : i = 0
  · exact Or.inl hi
  · obtain ⟨heng, hrun, hentry⟩ := hheavy hi
    exact Or.inr ⟨heng, hrun, by simp [hentry]⟩

end Boundary

section SampleRow

variable {i : Fin 16} {drained : Bool} {s t : State} {x : SampleSet} {b : Nat}

/-- A sample was taken: what hangs on it follows, then the changes of the boundary. -/
theorem exec_sampleBoundary_sampled {u : State} (ht : t = s.switchDue) (hx : x = t.set i.val)
    (h : t.boundary i.val drained = some (u, true)) :
    exec (.sampleBoundary i drained) s = .next ((u.afterSample i.val (x.passed t.tb0Ns + x.merged) x.winStart x false).setApply
      i.val) := by
  rw [exec_sampleBoundary]
  unfold execSampleBoundary
  rw [← ht]
  dsimp only
  rw [h, ← hx]

theorem exec_sampleBoundary_unsampled {u : State} (ht : t = s.switchDue) (h : t.boundary i.val drained = some (u, false)) :
    exec (.sampleBoundary i drained) s = .next u := by
  rw [exec_sampleBoundary]
  unfold execSampleBoundary
  rw [← ht]
  dsimp only
  rw [h]

/-- A set that samples: with the shadow registers drained a sample, without a later one over a longer window (R86). -/
theorem exec_sampleBoundary_running {n : Nat} (ht : t = s.switchDue) (hx : x = t.set i.val) (hb : b = gridAt x.win t.tb0Ns)
    (hn : n = x.passed t.tb0Ns + x.merged) (hao : t.aoUp = true) (hdue : x.lastK < b)
    (hheavy : i.val ≠ 0 → t.engUp = true ∧ t.pow.pstate = .run ∧ t.pow.entry = none) (hrun : x.running = true)
    (hbase : x.baseline = false) :
    exec (.sampleBoundary i true) s = .next ((((t.modSet i.val fun y => { y with lastK := b }).emitSample i.val t.tb0Ns n false).afterSample
      i.val n x.winStart x false).setApply i.val) ∧
    exec (.sampleBoundary i false) s = .next (((t.modSet i.val fun y => { y with lastK := b }).modSet i.val fun y =>
      { y with merged := n, nlate := satAdd 32 y.nlate 1 }).bump cSampleLate) := by
  subst hn
  exact ⟨exec_sampleBoundary_sampled ht hx ((State.boundary_due hx hb hao hdue hheavy).trans (by simp [hrun, hbase])),
    exec_sampleBoundary_unsampled ht ((State.boundary_due hx hb hao hdue hheavy).trans (by simp [hrun, hbase]))⟩

/-- A set that has not sampled yet takes its baseline where it has banks (R87). -/
theorem exec_sampleBoundary_first (ht : t = s.switchDue) (hx : x = t.set i.val) (hb : b = gridAt x.win t.tb0Ns)
    (hao : t.aoUp = true) (hdue : x.lastK < b)
    (hheavy : i.val ≠ 0 → t.engUp = true ∧ t.pow.pstate = .run ∧ t.pow.entry = none) (hidle : x.running = false) :
    exec (.sampleBoundary i drained) s = .next (
      (if x.banks = 0 then t.modSet i.val fun y => { y with lastK := b }
       else (t.modSet i.val fun y => { y with lastK := b }).baselineCopy i.val).setApply i.val) :=
  exec_sampleBoundary_unsampled ht ((State.boundary_due hx hb hao hdue hheavy).trans (by simp [hidle]))

/-- The first boundary after the return to RUN reports the windows slept through, and takes a baseline (R87). -/
theorem exec_sampleBoundary_asleep {n : Nat} (ht : t = s.switchDue) (hx : x = t.set i.val) (hb : b = gridAt x.win t.tb0Ns)
    (hn : n = x.passed t.tb0Ns + x.merged) (hao : t.aoUp = true) (hdue : x.lastK < b)
    (hheavy : i.val ≠ 0 → t.engUp = true ∧ t.pow.pstate = .run ∧ t.pow.entry = none) (hrun : x.running = true)
    (hbase : x.baseline = true) :
    exec (.sampleBoundary i drained) s = .next (
      (((t.modSet i.val fun y => { y with lastK := b }).sendSample t.tb0Ns 0 (asleepBody i.val x.tag n x.winStart)).baselineCopy
        i.val).setApply i.val) := by
  subst hn
  exact exec_sampleBoundary_unsampled ht ((State.boundary_due hx hb hao hdue hheavy).trans (by simp [hrun, hbase]))

end SampleRow

end Sys2Proof.Machine
end

section
/-! The statement of the model rows. -/

namespace Sys2Proof.Machine

/-- Settles O34: each clause is the run lemma of its row. -/
theorem modelRowsRun : Obligations.ModelRowsRun := by
  unfold Obligations.ModelRowsRun
  refine ⟨fun _ _ _ => exec_cutWindowEnd_running, fun _ _ _ => exec_cutClose_combines,
    fun _ _ _ _ => exec_quernEvalStart_least, fun _ _ _ _ _ => exec_quernEvalComplete_running,
    fun _ _ _ _ => exec_actAtReached_due, fun _ _ _ _ => exec_modelLoadComplete_loading,
    fun _ _ _ _ => exec_modelBroadcastWaitExpiry_due, ?_⟩
  exact ⟨fun _ _ _ _ _ => exec_millraceStepStart_least, fun _ _ _ _ => exec_millraceStepComplete_running,
    fun _ _ _ _ => exec_rolloutComplete_open, fun _ _ _ => exec_residWaitExpiry_due, fun _ _ _ _ _ => exec_eachWaitExpiry_engUp,
    fun _ _ _ _ _ _ => exec_sampleBoundary_running, fun _ _ _ _ _ _ => exec_sampleBoundary_first,
    fun _ _ _ _ _ _ _ => exec_sampleBoundary_asleep⟩

end Sys2Proof.Machine
end

section
/-! SUPPORT. The commands of the MODEL group: what each answers where every check passes. -/

namespace Sys2Proof.Machine

/-! ### Reserved bytes (R9) -/

theorem be_zero (n : Nat) : be n 0 = zeros n := by
  induction n with
  | zero => rfl
  | succ n ih => simp [be, ih, zeros, List.replicate_succ]

theorem zeros_append (m n : Nat) : zeros m ++ zeros n = zeros (m + n) := List.replicate_append_replicate

/-! ### What a command of the model engines reads after the start of its command -/

@[simp] theorem State.begun_model (o : OpSpec) (s : State) : (s.begun o).model = s.model := State.begun_moves.1 .model rfl

@[simp] theorem State.qh_begun (o : OpSpec) (s : State) (i : Nat) : (s.begun o).qh i = s.qh i := by simp [State.qh]

@[simp] theorem State.mh_begun (o : OpSpec) (s : State) (i : Nat) : (s.begun o).mh i = s.mh i := by simp [State.mh]

/-! ### Loading (R191, R194, R219, R221) -/

/-- The image comes from a slot of the flash, with the packet on the local queue, or by a broadcast. -/
theorem exec_modelLoad_clean {c : Cmd} {s : State} {mill : Bool} {i src : Nat} {image : List Byte} (hmill : mill = (cp c 0 1 == 1))
    (hi : i = cp c 1 1) (hsrc : src = cp c 2 1)
    (himage : image = (if src = 0 then lget s.flash.models (cp c 3 1) [] else if src = 1 then cdata c 0 else []))
    (h : Clean opModelLoad c s) (hdata : (ckData opModelLoad c 0 (if src = 1 then cp c 4 4 else 0)).ok = true)
    (hengine : cp c 0 1 ≤ 1) (hkind : src ≤ 2) (hlocal : src = 1 → c.path = .localQueue) (hhandle : i < 16)
    (hslot : src = 0 → cp c 3 1 ≤ 3 ∧ (s.dirEnt (2 + cp c 3 1)).st = .valid) (hempty : (s.hnd mill i).st = .empty)
    (hfits : s.loadFits mill i src image (cp c 4 4) = true) :
    exec (.modelLoad c) s = .next ((((if src = 0 then (s.begun opModelLoad).readFlash (regionBase 1 (cp c 3 1)) image.length
        else s.begun opModelLoad)).modHnd mill i fun _ =>
      { handleReset with st := .loading, lsrc := src, slot := cp c 3 1,
                         len := if src = 2 then cp c 4 4 else (millLen image).getD 0,
                         bid := BitVec.ofNat 32 (cp c 16 4), image := if src = 1 then image else [],
                         loadAt := s.tb1Ns }).takenOn opModelLoad c (hndObj mill i) none) := by
  subst hmill hi hsrc himage
  have hpath : (cp c 2 1 != 1 || c.path == .localQueue) = true := by simpa using Decidable.not_or_of_imp hlocal
  have hnum : (cp c 2 1 != 0 || decide (cp c 3 1 ≤ 3)) = true := by
    simpa using Decidable.not_or_of_imp fun hflash => (hslot hflash).1
  have hvalid : (cp c 2 1 != 0 || (s.dirEnt (2 + cp c 3 1)).st == .valid) = true := by
    simpa using Decidable.not_or_of_imp fun hflash => (hslot hflash).2
  exact congrArg Host.Outcome.next <| runCmd_acc h (by simp [hdata, hengine, hkind, hpath, hhandle, hnum])
    (by simp [hempty, hvalid, hfits]) (by rw [State.tb1Ns_begun])

/-! ### Activation (R192, R196, R215, R220) -/

/-- REPLACE names a handle, or is 0xFF for none. -/
theorem replaceParam_ok {n : Nat} {r : Option Nat} (hr : r = if n = 0xFF then none else some n) (h : ∀ o, r = some o → o < 16) :
    (n == 0xFF || decide (n < 16)) = true := by
  by_cases hnone : n = 0xFF
  · simp [hnone]
  · simp [h n (hr.trans (if_neg hnone))]

/-- The handle that is replaced is ACTIVE with the same input mode and set. -/
theorem exec_modelActivate_quern {c : Cmd} {s : State} {i : Nat} {m : QModel} {r : Option Nat} {at1 : Nat} (hi : i = cp c 1 1)
    (hengine : cp c 0 1 = 0) (hr : r = (if cp c 2 1 = 0xFF then none else some (cp c 2 1))) (h : Clean opModelActivate c s)
    (hn : NoInput c) (hhandle : i < 16) (hm : (s.qh i).model = some m) (hfar : m.inmode ≠ 0 → s.isDie = false ∨ s.sys.acting = true)
    (hfeat : m.inmode = 0 →
      m.nfeat ≤ (match (s.set m.set).mapNext with | some x => x.2.length | none => (s.set m.set).map.length))
    (hrepl : ∀ o, r = some o → o < 16 ∧ (s.hnd false o).st = .active ∧
      ∃ n, (s.qh o).model = some n ∧ n.inmode = m.inmode ∧ n.set = m.set)
    (hloaded : (s.hnd false i).st = .loaded) (hidle : (s.hnd false i).actAt = none) (hrates : s.asIfActive false i r = true)
    (hat : at1 = (if cp c 8 8 = 0 then s.tb0Ns else cp c 8 8)) :
    exec (.modelActivate c) s = .next (((((s.begun opModelActivate).modHnd false i fun h =>
      { h with repl := r, actAt := some at1 }).moveIf false i at1 r).switchIfDue false i).answered opModelActivate c 0 [] []) := by
  subst hi hat
  have hmill : (cp c 0 1 == 1) = false := by simp [hengine]
  have hparam := replaceParam_ok hr fun o ho => (hrepl o ho).1
  refine congrArg Host.Outcome.next <| runCmd_ok h ?_ ?_ (by rw [State.tb0Ns_begun, hmill, ← hr])
  · simp only [List.forall_mem_cons, ckNoInline_ok hn, ckStatus_ok, ckParam_ok, ckRange_ok, hm, hmill, hparam]
    have hrole : m.inmode = 0 ∨ s.isDie = false ∨ s.sys.acting = true := Decidable.or_iff_not_imp_left.mpr hfar
    have hlen := Decidable.not_or_of_imp hfeat
    simpa [hengine, hhandle, or_assoc] using ⟨hrole, hlen⟩
  · simp only [List.forall_mem_cons, ckState_ok, ckCap_ok, hm, hmill, ← hr]
    cases r with
    | none => simp [hloaded, hidle, hrates]
    | some o =>
      obtain ⟨-, hactive, n, hmodel, hmode, hset⟩ := hrepl o rfl
      simp [hloaded, hidle, hrates, hactive, hmodel, hmode, hset]

/-- The channels of the handle that is replaced move on to this one. -/
theorem exec_modelActivate_millrace {c : Cmd} {s : State} {i : Nat} {r : Option Nat} {at1 : Nat} (hi : i = cp c 1 1)
    (hengine : cp c 0 1 = 1) (hr : r = (if cp c 2 1 = 0xFF then none else some (cp c 2 1))) (h : Clean opModelActivate c s)
    (hn : NoInput c) (hhandle : i < 16) (hrepl : ∀ o, r = some o → o < 16 ∧ (s.hnd true o).st = .active)
    (hloaded : (s.hnd true i).st = .loaded) (hidle : (s.hnd true i).actAt = none) (hrates : s.asIfActive true i r = true)
    (hat : at1 = (if cp c 8 8 = 0 then s.tb0Ns else cp c 8 8)) :
    exec (.modelActivate c) s = .next (((((s.begun opModelActivate).modHnd true i fun h =>
      { h with repl := r, actAt := some at1 }).moveIf true i at1 r).switchIfDue true i).answered opModelActivate c 0 [] []) := by
  subst hi hat
  have hmill : (cp c 0 1 == 1) = true := by simp [hengine]
  have hparam := replaceParam_ok hr fun o ho => (hrepl o ho).1
  refine congrArg Host.Outcome.next <| runCmd_ok h ?_ ?_ (by rw [State.tb0Ns_begun, hmill, ← hr])
  · simp only [List.forall_mem_cons, ckNoInline_ok hn, ckRange_ok, hmill, hparam]
    simp [hengine, hhandle]
  · simp only [List.forall_mem_cons, ckState_ok, ckCap_ok, hmill, ← hr]
    cases r with
    | none => simp [hloaded, hidle, hrates]
    | some o => simp [hloaded, hidle, hrates, hrepl o rfl]

/-! ### Deactivation and unloading (R192, R193, R219) -/

/-- Inputs that had not started are gone: in Millrace each channel of the handle has a gap next, in Quern they deliver MISSING (R192). -/
theorem exec_modelDeactivate_clean {c : Cmd} {s : State} {i : Nat} {t : State} (hi : i = cp c 1 1) (h : Clean opModelDeactivate c s)
    (hn : NoInput c) (hengine : cp c 0 1 ≤ 1) (hhandle : i < 16) (hactive : (s.hnd (cp c 0 1 == 1) i).st = .active)
    (ht : t = ((s.begun opModelDeactivate).modHnd (cp c 0 1 == 1) i fun h =>
      { h with st := .loaded, til := none }).modModel (ModelUnit.forget (cp c 0 1 == 1) i)) :
    exec (.modelDeactivate c) s = .next ((if cp c 0 1 = 1 then
        t.modModel fun u => { u with chans := tmap u.chans fun _ x => if x.handle = i then { x with pend := [], gapNext := true } else x }
      else (t.modQ i fun q => { q with pend := [] }).deliverMissing i (s.qh i).pend).answered opModelDeactivate c 0 [] []) := by
  subst hi ht
  exact congrArg Host.Outcome.next <| runCmd_ok h (by simp [ckNoInline_ok hn, hengine, hhandle]) (by simp [hactive]) (by simp)

/-- A Quern handle whose evaluation runs is emptied, and the command completed, at the end of that evaluation (R193). -/
theorem exec_modelUnload_clean {c : Cmd} {s : State} {i : Nat} (hi : i = cp c 1 1) (h : Clean opModelUnload c s) (hn : NoInput c)
    (hengine : cp c 0 1 ≤ 1) (hhandle : i < 16)
    (hst : (s.hnd (cp c 0 1 == 1) i).st = .loaded ∨ (s.hnd (cp c 0 1 == 1) i).st = .stopped)
    (hfree : cp c 0 1 = 1 → ∀ e ∈ s.model.chans, e.2.handle ≠ i) :
    exec (.modelUnload c) s = .next (
      if cp c 0 1 = 1 then
        (((s.begun opModelUnload).modM i fun _ => { h := handleReset, model := none }).modModel fun u =>
          { u with chans := tmap u.chans fun _ x => { x with moves := x.moves.filter fun e => e.1 != i } }).takenOn opModelUnload c
          (hndObj true i) (some (finOk 0 [] []))
      else if (s.qh i).run = [] then
        ((s.begun opModelUnload).modQ i fun _ => emptyQ).takenOn opModelUnload c (hndObj false i) (some (finOk 0 [] []))
      else ((s.begun opModelUnload).modQ i fun q => { q with h := { q.h with unloading := true } }).takenOn opModelUnload c
        (hndObj false i) none) := by
  subst hi
  have hpr : ∀ k ∈ [ckNoInline c, ckParam (decide (cp c 0 1 ≤ 1)) 0, ckRange (decide (cp c 1 1 < 16)) 1], k.ok = true := by
    simp [ckNoInline_ok hn, hengine, hhandle]
  have hrest : ∀ k ∈ [ckState ((s.hnd (cp c 0 1 == 1) (cp c 1 1)).st == .loaded || (s.hnd (cp c 0 1 == 1) (cp c 1 1)).st == .stopped),
      ckState (!(cp c 0 1 == 1) || !(s.model.chans.any fun e => e.2.handle == cp c 1 1))], k.ok = true := by
    simpa [hst] using Decidable.not_or_of_imp hfree
  refine congrArg Host.Outcome.next ?_
  by_cases hmill : cp c 0 1 = 1
  · exact (runCmd_acc h hpr hrest (by simp [hmill])).trans (if_pos hmill).symm
  · have hquern : (cp c 0 1 == 1) = false := by simp [hmill]
    rw [if_neg hmill]
    by_cases hrun : (s.qh (cp c 1 1)).run = []
    · exact (runCmd_acc h hpr hrest (by simp [hquern, hrun])).trans (if_pos hrun).symm
    · exact (runCmd_acc h hpr hrest (by simp [hquern, hrun])).trans (if_neg hrun).symm

/-! ### Status and parameters (Table 7.8, R188, R210) -/

theorem exec_modelStatus_quern {c : Cmd} {s : State} {i : Nat} (hi : i = cp c 1 1) (h : Clean opModelStatus c s) (hn : NoInput c)
    (hengine : cp c 0 1 = 0) (hhandle : i < 16) :
    exec (.modelStatus c) s = .next ((s.begun opModelStatus).answered opModelStatus c 0
      (be 1 (handleCode (s.qh i).h.st) ++ zeros 3 ++ (match (s.qh i).model with
        | some m => be 4 m.modelId.toNat ++ be 4 m.modelVer.toNat
        | none => zeros 8) ++ be 4 (s.qh i).skip) []) := by
  subst hi
  refine congrArg Host.Outcome.next <| runCmd_ok h (by simp [ckNoInline_ok hn, hengine, hhandle]) (by simp) ?_
  simp only [hengine, State.hnd, State.qh_begun]
  cases (s.qh (cp c 1 1)).model with
  | none => simp [be_zero, zeros_append]
  | some m => simp

/-- A Millrace handle has no skip count of its own (log entry 53). -/
theorem exec_modelStatus_millrace {c : Cmd} {s : State} {i : Nat} (hi : i = cp c 1 1) (h : Clean opModelStatus c s) (hn : NoInput c)
    (hengine : cp c 0 1 = 1) (hhandle : i < 16) :
    exec (.modelStatus c) s = .next ((s.begun opModelStatus).answered opModelStatus c 0
      (be 1 (handleCode (s.mh i).h.st) ++ zeros 3 ++ (match (s.mh i).model with
        | some m => be 4 m.modelId.toNat ++ be 4 m.modelVer.toNat
        | none => zeros 8) ++ zeros 4) []) := by
  subst hi
  refine congrArg Host.Outcome.next <| runCmd_ok h (by simp [ckNoInline_ok hn, hengine, hhandle]) (by simp) ?_
  simp only [hengine, State.hnd, State.mh_begun]
  cases (s.mh (cp c 1 1)).model with
  | none => simp [be_zero, zeros_append]
  | some m => simp [be_zero]

theorem exec_modelParam_clean {c : Cmd} {s : State} (h : Clean opModelParam c s) (hn : NoInput c) (hwait : 1 ≤ cp c 0 2)
    (hwait' : cp c 0 2 ≤ 1000) (hresid : 1 ≤ cp c 2 2) (hresid' : cp c 2 2 ≤ 1000) :
    exec (.modelParam c) s = .next (((s.begun opModelParam).modModel fun u =>
      { u with eachWait := cp c 0 2 * 10000, residWait := cp c 2 2 * 1000 }).answered opModelParam c 0 [] []) :=
  congrArg Host.Outcome.next <| runCmd_ok h (by simp [ckNoInline_ok hn, hwait, hwait', hresid, hresid']) (by simp) rfl

end Sys2Proof.Machine
end

section
/-! The statement of the MODEL commands. -/

namespace Sys2Proof.Machine

/-- Settles O22: each clause is the run lemma of its command; STATUS of a Millrace handle and what DEACTIVATE delivers are as in log
entry 53, the map that ACTIVATE is judged against as in log entry 84. -/
theorem modelCommandsRun : Obligations.ModelCommandsRun := by
  unfold Obligations.ModelCommandsRun
  exact ⟨fun _ _ _ _ _ _ => exec_modelLoad_clean, fun _ _ _ _ _ _ => exec_modelActivate_quern,
    fun _ _ _ _ _ => exec_modelActivate_millrace, fun _ _ _ _ => exec_modelDeactivate_clean, fun _ _ _ => exec_modelUnload_clean,
    fun _ _ _ => exec_modelStatus_quern, fun _ _ _ => exec_modelStatus_millrace, fun _ _ => exec_modelParam_clean⟩

end Sys2Proof.Machine
end

section
/-! SUPPORT. The commands of the CHANNEL group: what each answers where every check passes. -/

namespace Sys2Proof.Machine

/-- No IDX entry names a RESID descriptor, where a pending map of an own set stands for the set's map (log entry 84) and a free value
says what another block's map holds (log entry 26). -/
theorem exec_channelOpen_clean {c : Cmd} {s : State} {b : List Byte} {k : Channel} (hb : b = cdata c 0)
    (hk : k = parseBinding b (s.mh (rd b 2 1)).model (s.movesOf 16 (rd b 2 1))) (h : Clean opChannelOpen c s)
    (hdata : (ckData opChannelOpen c 0 80).ok = true) (hremote : k.kind = 1 → s.isDie = false ∨ s.sys.acting = true)
    (hmetro : k.kind = 2 → s.isDie = true) (hfields : bindingOk b k = true) (hnum : rd b 0 2 < 4096) (hhandle : rd b 2 1 < 16)
    (hset : k.set < 16) (hstream : k.stream < 4096) (hidx : ∀ j ∈ k.idx, if k.kind = 2 then j ≤ 4 else j < 1024)
    (hrate : k.kind = 2 → 1 ≤ k.rate ∧ k.rate ≤ 1048576) (hrate' : k.kind = 1 → 0 < k.rate)
    (hown : k.kind = 0 → ∀ j ∈ k.idx, ∀ d,
      (match (s.set k.set).mapNext with | some x => x.2 | none => (s.set k.set).map)[j]? = some d → dOp d ≠ 9)
    (hfar : k.kind = 1 → ∀ j ∈ k.idx, Config.remoteResid s.time.freeCount k.src.toNat k.set j = false)
    (hfree : s.chan (rd b 0 2) = none) (hst : (s.mh (rd b 2 1)).h.st = .loaded ∨ (s.mh (rd b 2 1)).h.st = .active)
    (hmemory : (s.modModel fun u => { u with chans := tput u.chans (rd b 0 2) k }).millBytes ≤ 8388608)
    (hadmits : (s.mh (rd b 2 1)).h.st = .active → s.millAdmits (s.model.chans.map (·.2) ++ [k]) s.millActive = true) :
    exec (.channelOpen c) s = .next (((s.begun opChannelOpen).tickFree.modModel fun u =>
      { u with chans := tput u.chans (rd b 0 2) k }).answered opChannelOpen c 0 [] []) := by
  subst hb hk
  refine congrArg Host.Outcome.next <| runCmd_ok h ?_ ?_ rfl
  · simp only [List.forall_mem_cons, ckStatus_ok, ckParam_ok, ckRange_ok]
    refine ⟨?_, ?_, hdata, hfields, ?resid, by simp [hnum], by simp [hhandle], by simp [hset], by simp [hstream],
      by simpa using hidx, by simpa using Decidable.not_or_of_imp hrate, by simpa using Decidable.not_or_of_imp hrate', by simp⟩
    case resid =>
      split
      · next hkind =>
        refine List.all_eq_true.mpr fun j hj => ?_
        split
        · next d hd => exact bne_iff_ne.mpr (hown hkind j hj d hd)
        · rfl
      · next hkind => simpa using hfar hkind
      · rfl
    · simpa [or_assoc] using Decidable.not_or_of_imp hremote
    · simpa using Decidable.not_or_of_imp hmetro
  · simpa [hfree, hst, hmemory] using Decidable.not_or_of_imp hadmits

theorem exec_channelClose_clean {c : Cmd} {s : State} (h : Clean opChannelClose c s) (hn : NoInput c) (hnum : cp c 0 2 < 4096)
    (hopen : (s.chan (cp c 0 2)).isSome = true) :
    exec (.channelClose c) s = .next ((((s.begun opChannelClose).voidRollouts (cp c 0 2)).modModel fun u =>
      { u with chans := tdel u.chans (cp c 0 2) }).millSettleAll.answered opChannelClose c 0 [] []) :=
  congrArg Host.Outcome.next <| runCmd_ok h (by simp [ckNoInline_ok hn, hnum]) (by simp [hopen]) rfl

/-- The context starts anew at once, or after the step in progress (R225). -/
theorem exec_channelReset_clean {c : Cmd} {s : State} {k : Channel} (h : Clean opChannelReset c s) (hn : NoInput c)
    (hnum : cp c 0 2 < 4096) (hopen : s.chan (cp c 0 2) = some k) :
    exec (.channelReset c) s = .next ((if k.running.isSome then
        (s.begun opChannelReset).modChan (cp c 0 2) fun x => { x with resetDue := true }
      else (s.begun opChannelReset).resetChan (cp c 0 2)).answered opChannelReset c 0 [] []) :=
  congrArg Host.Outcome.next <| runCmd_ok h (by simp [ckNoInline_ok hn, hnum]) (by simp [hopen]) (by simp [hopen])

/-- The copy is the context after the latest complete step `d`, and the rollout of the horizon is taken on (R214). -/
theorem exec_channelForecast_clean {c : Cmd} {s : State} {k : Channel} {m : MModel} {f : Nat} {d : StepCodes}
    (h : Clean opChannelForecast c s) (hn : NoInput c) (hwrite : (ckWrite opChannelForecast c 0).ok = true)
    (hnum : cp c 0 2 < 4096) (hhor : 1 ≤ cp c 2 2) (hhor' : cp c 2 2 ≤ 4096) (hopen : s.chan (cp c 0 2) = some k)
    (hm : (s.mh k.handle).model = some m) (hst : (s.mh k.handle).h.st ≠ .stopped) (hf : k.ctx.f = some f)
    (hdiv : k.diverged = false) (hd : k.done.getLast? = some d) (hroom : s.model.rollouts.length < 64) :
    exec (.channelForecast c) s = .next (((s.begun opChannelForecast).modModel fun u =>
      { u with rollouts := u.rollouts ++ [{ path := c.path, tag := c.tag, ch := cp c 0 2, stamp := d.stamp, cep := k.ctx.cep,
                                            n := k.ctx.n, vals := rolloutVals m (cp c 2 2) k.ctx.x f k.ctx.last }] }).takenOn
        opChannelForecast c (cp c 0 2) none) := by
  have hdone : k.done ≠ [] := by rintro hnil; simp [hnil] at hd
  exact congrArg Host.Outcome.next <| runCmd_acc h (by simp [ckNoInline_ok hn, hwrite, hnum, hhor, hhor'])
    (by simp [hopen, hm, hst, hf, hdiv, hdone, hroom]) (by simp [hopen, hm, hf, hd])

end Sys2Proof.Machine
end

section
/-! The statement of the CHANNEL commands. -/

namespace Sys2Proof.Machine

/-- Settles O23: each clause is the run lemma of its command. That a REMOTE binding names no RESID descriptor is a free value (log
entry 26), and the map that a LOCAL one is judged against is as in log entry 84. -/
theorem channelCommandsRun : Obligations.ChannelCommandsRun := by
  unfold Obligations.ChannelCommandsRun
  exact ⟨fun _ _ _ _ => exec_channelOpen_clean, fun _ _ => exec_channelClose_clean, fun _ _ _ => exec_channelReset_clean,
    fun _ _ _ _ _ _ => exec_channelForecast_clean⟩

end Sys2Proof.Machine
end

section
/-! SUPPORT. The SCORE and VERDICT commands: what each answers where every check passes. -/

namespace Sys2Proof.Machine

/-! ### What a verdict command reads after the start of its command -/

@[simp] theorem State.begun_verd (o : OpSpec) (s : State) : (s.begun o).verd = s.verd := State.begun_moves.1 .verd rfl

@[simp] theorem State.openPair_begun (o : OpSpec) (s : State) (vid : Word) (subj : Laddr) :
    (s.begun o).openPair vid subj = s.openPair vid subj := by simp [State.openPair]

/-! ### Scores (R227, R230) -/

/-- A score restarts where what its subjects are judged by is new: the handle, the side of the value or a threshold (R227). -/
theorem exec_scoreSet_clean {c : Cmd} {s : State} {b : List Byte} {d : ScoreDesc} {q : QModel} (hb : b = cdata c 0)
    (hd : d = parseScore b) (h : Clean opScoreSet c s) (hdata : (ckData opScoreSet c 0 88).ok = true) (hok : scoreOk b d = true)
    (hssh : d.ssh ≤ 8) (hconf : 2 ≤ d.confWin) (hconf' : d.confWin ≤ 16) (hwd : d.confWin ≤ d.wdWin) (hwd' : d.wdWin ≤ 64)
    (hn : 1 ≤ rd b 7 1) (hn' : rd b 7 1 ≤ 8) (hq : s.qModel d.handle = some q)
    (hterms : ∀ t ∈ d.terms, (t.typ = 1 → t.k < q.k) ∧ (t.typ = 3 → q.inmode = 0 ∧ s.isDie = true)) :
    exec (.scoreSet c) s = .next (((match tget s.verd.scores (rd b 0 1) with
      | some o => if o.handle = d.handle ∧ o.drift = d.drift ∧ o.thW = d.thW ∧ o.thS = d.thS ∧ o.thE = d.thE then s.begun opScoreSet
        else (s.begun opScoreSet).restartScore (rd b 0 1)
      | none => s.begun opScoreSet).modVerd fun u => { u with scores := tput u.scores (rd b 0 1) d }).answered opScoreSet c 0 [] []) := by
  subst hb hd
  refine congrArg Host.Outcome.next <| runCmd_ok h ?_ (by simp [hq]) ?_
  · have hfits : ∀ t ∈ (parseScore (cdata c 0)).terms, (¬t.typ = 1 ∨ t.k < q.k) ∧ (¬t.typ = 3 ∨ q.inmode = 0 ∧ s.isDie = true) :=
      fun t ht => (hterms t ht).imp Decidable.not_or_of_imp Decidable.not_or_of_imp
    simp only [List.forall_mem_cons, ckParam_ok, ckRange_ok, hq]
    simpa [hdata, hok, hssh, hconf, hconf', hwd, hwd', hn, hn'] using hfits
  · rw [State.begun_verd]
    cases tget s.verd.scores (rd (cdata c 0) 0 1) with
    | none => rfl
    | some o =>
      simp only [Bool.or_eq_true, bne_iff_ne, ne_eq, ← Decidable.not_and_iff_not_or_not, and_assoc, ite_not]

theorem exec_scoreClear_clean {c : Cmd} {s : State} (h : Clean opScoreClear c s) (hn : NoInput c)
    (hset : (tget s.verd.scores (cp c 0 1)).isSome = true) :
    exec (.scoreClear c) s = .next ((((s.begun opScoreClear).restartScore (cp c 0 1)).modVerd fun u =>
      { u with scores := tdel u.scores (cp c 0 1) }).answered opScoreClear c 0 [] []) :=
  congrArg Host.Outcome.next <| runCmd_ok h (by simp [ckNoInline_ok hn]) (by simp [hset]) rfl

/-! ### VERDICT.WITHDRAW (R231, R240) -/

section Withdraw

variable {c : Cmd} {s : State} (h : Clean opVerdictWithdraw c s) (hn : NoInput c) (hsubj : cp c 4 4 < 2 ^ 18)

include hn hsubj

theorem withdraw_params_ok : ∀ k ∈ [ckNoInline c, ckAddr c 4], k.ok = true := by
  simpa [ckNoInline_ok hn] using hsubj

include h

theorem exec_verdictWithdraw_pair {p : Pair} {v : OpenV}
    (hpair : s.openPair (BitVec.ofNat 32 (cp c 0 4)) (BitVec.ofNat 18 (cp c 4 4)) = some p) (hv : p.v = some v) :
    exec (.verdictWithdraw c) s = .next (((s.begun opVerdictWithdraw).withdrawPair
      (tgetD s.verd.scores p.score (parseScore [])) p v wdOwner s.tb0Ns).answered opVerdictWithdraw c 0 [] []) :=
  congrArg Host.Outcome.next <| runCmd_ok h (withdraw_params_ok hn hsubj) (by simp [hpair]) (by simp [hpair, hv])

/-- A verdict that the block itself raised; that of a hang closes the silence it stood for. -/
theorem exec_verdictWithdraw_own {v : OwnV}
    (hpair : s.openPair (BitVec.ofNat 32 (cp c 0 4)) (BitVec.ofNat 18 (cp c 4 4)) = none)
    (hown : s.verd.own.find? (fun v => v.vid == BitVec.ofNat 32 (cp c 0 4) && v.subj == BitVec.ofNat 18 (cp c 4 4)) = some v) :
    exec (.verdictWithdraw c) s = .next (((((s.begun opVerdictWithdraw).withdrawOwn v 2 wdOwner).hangClosed v).sentrySettle).answered
      opVerdictWithdraw c 0 [] []) :=
  congrArg Host.Outcome.next <| runCmd_ok h (withdraw_params_ok hn hsubj) (by simp [hown]) (by simp [hpair, hown])

/-- An entry of a demoted list leaves it (R240). -/
theorem exec_verdictWithdraw_demoted {m : VRec → Bool}
    (hm : m = fun v => v.vid == BitVec.ofNat 32 (cp c 0 4) && v.subj == BitVec.ofNat 18 (cp c 4 4))
    (hpair : s.openPair (BitVec.ofNat 32 (cp c 0 4)) (BitVec.ofNat 18 (cp c 4 4)) = none)
    (hown : s.verd.own.find? (fun v => v.vid == BitVec.ofNat 32 (cp c 0 4) && v.subj == BitVec.ofNat 18 (cp c 4 4)) = none)
    (hdem : s.verd.tray.demoted.any m = true ∨ s.verd.fleet.demoted.any m = true) :
    exec (.verdictWithdraw c) s = .next ((((s.begun opVerdictWithdraw).modHolder false fun h =>
        { h with demoted := h.demoted.filter fun v => !m v }).modHolder true fun h =>
        { h with demoted := h.demoted.filter fun v => !m v }).answered opVerdictWithdraw c 0 [] []) := by
  subst hm
  refine congrArg Host.Outcome.next <| runCmd_ok h (withdraw_params_ok hn hsubj) ?_
    (by simp only [State.openPair_begun, hpair, hown])
  simpa only [List.forall_mem_singleton, ckState_ok, hpair, hown, Option.isSome_none, Bool.false_or, Bool.or_eq_true] using hdem

end Withdraw

/-! ### Budgets, drills and waits (R238, R241, R243, R244, R246, R247) -/

theorem exec_verdictConfig_clean {c : Cmd} {s : State} (h : Clean opVerdictConfig c s) (hn : NoInput c) (htree : cp c 0 1 < 16) :
    exec (.verdictConfig c) s = .next (((s.begun opVerdictConfig).modVerd fun u => { u with vtree := some (cp c 0 1) }).answered
      opVerdictConfig c 0 [] []) :=
  congrArg Host.Outcome.next <| runCmd_ok h (by simp [ckNoInline_ok hn, htree]) (by simp) rfl

theorem exec_verdictBudget_clean {c : Cmd} {s : State} (h : Clean opVerdictBudget c s) (hn : NoInput c) (hholder : cp c 0 1 ≤ 1)
    (hrate : cp c 4 4 ≤ 1000000) (hdepth : 1 ≤ cp c 8 2) (hdepth' : cp c 8 2 ≤ 4096) :
    exec (.verdictBudget c) s = .next (((s.begun opVerdictBudget).modHolder (cp c 0 1 == 1) fun h =>
      { h with rate := cp c 4 4, depth := cp c 8 2, tokens := min h.tokens (cp c 8 2 * 3600000) }).answered opVerdictBudget c 0 [] []) :=
  congrArg Host.Outcome.next <| runCmd_ok h (by simp [ckNoInline_ok hn, hholder, hrate, hdepth, hdepth']) (by simp) rfl

/-- N = 0 removes the drill, so only an addition is judged by its span and its room (R246). -/
theorem exec_verdictDrill_clean {c : Cmd} {s : State} (h : Clean opVerdictDrill c s)
    (hdata : (ckData opVerdictDrill c 0 (4 * cp c 4 4)).ok = true) (hsubs : ∀ i < cp c 4 4, rd (cdata c 0) (4 * i) 4 < 2 ^ 18)
    (hspan : cp c 4 4 ≠ 0 → cp c 8 8 < cp c 16 8)
    (hroom : cp c 4 4 ≠ 0 → (tget s.verd.drills (cp c 0 4)).isSome = true ∨ s.verd.drills.length < 16) :
    exec (.verdictDrill c) s = .next (((s.begun opVerdictDrill).modVerd fun u =>
      { u with drills := if cp c 4 4 = 0 then tdel u.drills (cp c 0 4)
        else tput u.drills (cp c 0 4) ⟨BitVec.ofNat 32 (cp c 0 4), cp c 8 8, cp c 16 8,
          (List.range (cp c 4 4)).map fun i => BitVec.ofNat 18 (rd (cdata c 0) (4 * i) 4)⟩ }).answered opVerdictDrill c 0 [] []) := by
  refine congrArg Host.Outcome.next <| runCmd_ok h ?_ ?_ rfl
  · simpa [hdata] using ⟨hsubs, Decidable.or_iff_not_imp_left.mpr hspan⟩
  · simpa [or_assoc] using Decidable.or_iff_not_imp_left.mpr hroom

theorem exec_verdictParam_clean {c : Cmd} {s : State} (h : Clean opVerdictParam c s) (hn : NoInput c) (harr : 1 ≤ cp c 0 4)
    (harr' : cp c 0 4 ≤ 10000) (hlate : 1 ≤ cp c 4 4) (hlate' : cp c 4 4 ≤ 1000000) (hsilent : 10 ≤ cp c 8 4)
    (hsilent' : cp c 8 4 ≤ 10000) (hhold : 1 ≤ cp c 12 4) (hhold' : cp c 12 4 ≤ 6000) (hrep : 1 ≤ cp c 16 2)
    (hrep' : cp c 16 2 ≤ 65535) (hcohort : 3 ≤ cp c 18 1) (hcohort' : cp c 18 1 ≤ 64) (hmult : 1 ≤ cp c 19 1)
    (hmult' : cp c 19 1 ≤ 64) :
    exec (.verdictParam c) s = .next (((s.begun opVerdictParam).modVerd fun u =>
      { u with arrWait := cp c 0 4 * 1000000, lateMin := cp c 4 4 * 1000, silentTo := cp c 8 4 * 1000000,
               disHold := cp c 12 4 * 10000000, repMin := cp c 16 2, cohortMin := cp c 18 1, lateMult := cp c 19 1 }).answered
        opVerdictParam c 0 [] []) :=
  congrArg Host.Outcome.next <| runCmd_ok h
    (by simp [ckNoInline_ok hn, harr, harr', hlate, hlate', hsilent, hsilent', hhold, hhold', hrep, hrep', hcohort, hcohort', hmult,
      hmult'])
    (by simp) rfl

/-- A pair that does not exist reads as it would start, and one without an open verdict reads as zeros there. -/
theorem exec_verdictStatus_clean {c : Cmd} {s : State} {p : Pair} {v : OpenV} (h : Clean opVerdictStatus c s) (hn : NoInput c)
    (hsubj : cp c 0 4 < 2 ^ 18)
    (hp : p = (s.verd.pairs.find? fun x => x.score == cp c 4 1 && x.subj == BitVec.ofNat 18 (cp c 0 4)).getD
      (pairNew (cp c 4 1) (BitVec.ofNat 18 (cp c 0 4))))
    (hv : v = p.v.getD { vid := 0, v := 0, hold := 0, age := 0, raiseT := 0, drill := false }) :
    exec (.verdictStatus c) s = .next ((s.begun opVerdictStatus).answered opVerdictStatus c 0
      (be 4 p.h ++ be 1 p.s ++ be 1 v.v ++ be 1 (b2n p.v.isSome) ++ be 1 v.hold ++ be 1 v.age ++ zeros 3 ++ be 4 v.vid.toNat)
      []) := by
  subst hp hv
  exact congrArg Host.Outcome.next <| runCmd_ok h (by simpa [ckNoInline_ok hn] using hsubj) (by simp) rfl

end Sys2Proof.Machine
end

section
/-! The statement of the SCORE and VERDICT commands. -/

namespace Sys2Proof.Machine

/-- Settles O24: each clause is the run lemma of its command. -/
theorem verdictCommandsRun : Obligations.VerdictCommandsRun := by
  unfold Obligations.VerdictCommandsRun
  exact ⟨fun _ _ _ _ _ => exec_scoreSet_clean, fun _ _ => exec_scoreClear_clean,
    fun _ _ _ _ h hn hsubj => exec_verdictWithdraw_pair h hn hsubj,
    fun _ _ _ h hn hsubj => exec_verdictWithdraw_own h hn hsubj, fun _ _ _ hm h hn hsubj => exec_verdictWithdraw_demoted h hn hsubj hm,
    fun _ _ => exec_verdictConfig_clean, fun _ _ => exec_verdictBudget_clean, fun _ _ => exec_verdictDrill_clean,
    fun _ _ => exec_verdictParam_clean, fun _ _ _ _ => exec_verdictStatus_clean⟩

end Sys2Proof.Machine
end

section
/-! SUPPORT. The rows of Verdict and Touchstone: what each leaves once it is due. -/

namespace Sys2Proof.Machine

/-! ### Expulsion buckets and demoted entries (R238, R240) -/

theorem State.expelServe_none {f : Bool} {s : State} (h : (s.holder f).demoted = []) : s.expelServe f = s := by
  simp [State.expelServe, h]

theorem State.holder_modHolder (f : Bool) (g : Holder → Holder) (s : State) : (s.modHolder f g).holder f = g (s.holder f) := by
  cases f <;> rfl

/-- With no entry demoted a refill that is due gives its tokens and nothing else. -/
theorem exec_expelBucketRefill_idle {fleet : Bool} {s t : State} (hao : s.aoUp = true)
    (hdue : ((s.holder fleet).k + 1) * 1000000000 ≤ s.tb1Ns) (hnone : (s.holder fleet).demoted = [])
    (ht : t = (s.modHolder fleet fun h => { h with k := h.k + 1, tokens := min (h.depth * 3600000) (h.tokens + h.rate) })) :
    exec (.expelBucketRefill fleet) s = .next t := by
  have hrefill : s.expelRefill fleet = t := ht ▸ if_pos ⟨hao, hdue⟩
  have hserve : t.expelServe fleet = t := State.expelServe_none (by rw [ht, State.holder_modHolder]; exact hnone)
  exact congrArg Host.Outcome.next (by rw [hrefill, hserve])

/-- After the refill the oldest demoted entry is taken again, from the cycle after its instant on. -/
theorem exec_expelBucketRefill_release {fleet : Bool} {s t : State} {v : VRec} {rest : List VRec} (ht : t = s.expelRefill fleet)
    (heng : t.engUp = true) (hhead : (t.holder fleet).demoted = v :: rest) (htoken : 3600000 ≤ (t.holder fleet).tokens)
    (hpast : t.past1 ((t.holder fleet).k * 1000000000) = true) :
    exec (.expelBucketRefill fleet) s = .next ((t.modHolder fleet fun h => { h with demoted := rest }).takeExpel fleet t.tb0Ns
      { v with vflags := if v.vflags / 4 % 2 = 1 then v.vflags else v.vflags + vfReleased }) := by
  subst ht
  change execExpelBucketRefill fleet s = _
  simp [execExpelBucketRefill, State.expelServe, hhead, heng, htoken, hpast]

/-! ### Arrivals of a collective (R242, R243) -/

theorem exec_arrWaitExpiry_due {job : Word} {coll : BitVec 16} {step : Dword} {s : State} {i : Inst} (heng : s.engUp = true)
    (hjudge : s.judges job = true) (hi : s.verd.insts.find? (sameInst job coll step) = some i)
    (hdue : s.past0 (i.opened + s.verd.arrWait) = true) :
    exec (.arrWaitExpiry job coll step) s = .next (s.closeInst i) := by
  change execArrWaitExpiry job coll step s = _
  simp [execArrWaitExpiry, hi, heng, hjudge, hdue]

theorem exec_batchWaitExpiry_due {job : Word} {coll : BitVec 16} {step : Dword} {s : State} {i : Inst} (heng : s.engUp = true)
    (hjudge : s.judges job = false) (hi : s.verd.insts.find? (sameInst job coll step) = some i)
    (hdue : i.opened + s.verd.arrWait / 4 ≤ s.tb0Ns) (hready : s.arrivalsReady i = true)
    (hunsent : ∃ a ∈ i.arrivals, a.addr ∉ i.sent) :
    exec (.batchWaitExpiry job coll step) s = .next (s.sendBatch i) := by
  change execBatchWaitExpiry job coll step s = _
  simp only [execBatchWaitExpiry, hi]
  exact if_pos (by simpa [heng, hjudge, hdue, hready] using hunsent)

/-! ### Dies (R247) -/

theorem exec_silentToExpiry_engUp {die : Laddr} {s : State} (heng : s.engUp = true) :
    exec (.silentToExpiry die) s = .next (s.reviewDie die) :=
  if_pos heng

/-- Each difference of views that has stood for DIS_HOLD is sent and marked; the views are compared first. -/
theorem exec_disHoldExpiry_due {die : Laddr} {s t : State} {d : DieView} {due : List Dis} (heng : s.engUp = true)
    (hmaster : s.isMaster = true) (ht : t = s.reviewDie die) (hd : tget t.verd.dies die.toNat = some d)
    (hdue : due = (d.dis.filter fun x => !x.onset && s.past1 (x.since1 + s.verd.disHold))) :
    exec (.disHoldExpiry die) s = .next ((due.foldl (fun u x =>
        u.sendDisagree die x (t.deadBasis die == 0) (t.deadBasis die != 0) false (t.deadBasis die)) t).modVerd fun u =>
      { u with dies := tmod u.dies die.toNat fun v =>
        { v with dis := v.dis.map fun x => if due.contains x then { x with onset := true } else x } }) := by
  subst ht hdue
  change execDisHoldExpiry die s = _
  simp only [execDisHoldExpiry, heng, hmaster, Bool.and_self, if_true, hd, bne, Bool.not_not]

/-! ### Steps and replays (R254, R260) -/

/-- The due replays that the block hosts are those of the state in which its own step has closed. -/
theorem exec_snoopSettleExpiry_due {step : Dword} {s : State} {x : TStep} {e : Nat} (heng : s.engUp = true)
    (hx : s.tstep step = some x) (hopen : x.closed = false) (he : x.ended = some e)
    (hdue : s.past1 (e + s.sentry.settle) = true) :
    ∃ t : State, t = s.closeStep step false ∧
    exec (.snoopSettleExpiry step) s = .next ((t.sentry.hosted.filter fun h => h.step == step && h.running && (match h.ended with
      | some e => s.past1 (e + s.sentry.settle) | none => false)).foldl (fun t h => t.answerReplay h) t) := by
  refine ⟨_, rfl, ?_⟩
  change execSnoopSettleExpiry step s = _
  simp only [execSnoopSettleExpiry, heng, if_true, hx, hopen, he, hdue, Bool.not_false, Bool.and_self] <;> rfl

/-- Requests as old as that are dropped, and the step that asked counts as refused. -/
theorem exec_replayToExpiry_due {step : Dword} {s : State} {x : TStep} (heng : s.engUp = true) (hx : s.tstep step = some x)
    (hrep : x.rep = .partner ∨ x.rep = .alternate) (hdue : s.past1 (x.asked + s.sentry.replayTo) = true) :
    exec (.replayToExpiry step) s = .next ((s.modSentry fun u => { u with hosted := u.hosted.filter fun h =>
      !(h.step == step && s.past1 (h.asked + s.sentry.replayTo)) }).refused x) := by
  have hstep : ∀ g : SentryUnit → SentryUnit, (g s.sentry).steps = s.sentry.steps → (s.modSentry g).tstep step = some x :=
    fun g hg => by simpa [State.tstep, hg] using hx
  change execReplayToExpiry step s = _
  simp only [execReplayToExpiry, heng, if_true]
  rw [hstep _ rfl]
  exact if_pos (by simp [hrep, hdue])

end Sys2Proof.Machine
end

section
/-! The statement of the verdict rows. -/

namespace Sys2Proof.Machine

/-- Settles O35: each clause is the run lemma of its row. -/
theorem verdictRowsRun : Obligations.VerdictRowsRun := by
  unfold Obligations.VerdictRowsRun
  exact ⟨fun _ _ _ => exec_expelBucketRefill_idle, fun _ _ _ _ _ => exec_expelBucketRefill_release,
    fun _ _ _ _ _ => exec_arrWaitExpiry_due, fun _ _ _ _ _ => exec_batchWaitExpiry_due, fun _ _ => exec_silentToExpiry_engUp,
    fun _ _ _ _ _ => exec_disHoldExpiry_due, fun _ _ _ _ => exec_snoopSettleExpiry_due, fun _ _ _ => exec_replayToExpiry_due⟩

end Sys2Proof.Machine
end

section
/-! SUPPORT. The rows of the trace port: what each leaves for a packet that the port takes. -/

namespace Sys2Proof.Machine

/-! ### Snoop frames (R250, R255) -/

/-- A frame of a WID that an open step watches is of that step, whatever the watch list says by now. -/
theorem exec_snoopFrame_watched {port : Fin 64} {f : Snoop} {s : State} {x : TStep} (hdie : s.isDie = true) (heng : s.engUp = true)
    (hport : s.portUp .stamp = true) (hown : f.replay = false)
    (hx : (s.sentry.steps.find? fun y =>
      !y.closed && y.step.toNat % 256 == f.stepLo.toNat && y.stats.any fun w => w.wid == f.wid.toNat) = some x) :
    exec (.snoopFrame port f) s = .next (s.modTstep x.step fun y =>
      { y with stats := y.stats.map fun w => if w.wid == f.wid.toNat then w.frame f else w }) := by
  have hwatched : (s.sentry.steps.any fun y => !y.closed && y.stats.any fun w => w.wid == f.wid.toNat) = true := by
    have hfound := List.find?_some hx
    simp only [Bool.and_eq_true] at hfound
    obtain ⟨⟨hopen, _⟩, hwid⟩ := hfound
    exact List.any_eq_true.mpr ⟨x, List.mem_of_find?_eq_some hx, by rw [hopen, hwid]; rfl⟩
  change execSnoopFrame port f s = _
  simp only [execSnoopFrame, hdie, heng, hport, hown, hwatched, hx, Bool.and_self, Bool.not_true, Bool.and_false, if_true,
    Bool.false_eq_true, if_false]

/-! ### Packets of sources, and packets with a bad parity (R306, R311) -/

theorem exec_tracePacket_good {p : TrcPacket} {s : State} (hready : s.trcReady = true) (hgood : tpGood p = true)
    (hkind : tpKind p < 3) :
    exec (.tracePacket p) s = .next (s.traceEntry p (tpClass p) (tpPriv p)) := by
  change execTracePacket p s = _
  simp only [execTracePacket, hready, hgood, hkind, if_true]

/-- A refill of the tensor bucket leaves the port as it was. -/
theorem State.trcReady_tensorRefill (s : State) : s.tensorRefill.trcReady = s.trcReady := rfl

/-- The tensor bucket is refilled before the packet is looked at. -/
theorem exec_badPacket {p : TrcPacket} {s : State} (hready : s.trcReady = true) (hbad : tpGood p = false) :
    exec (.tracePacket p) s = .next (s.bump cTapParity) ∧ exec (.tensorPacket p) s = .next (s.tensorRefill.bump cTapParity)
      ∧ exec (.stepMark p) s = .next (s.bump cTapParity) ∧ exec (.collMark p) s = .next (s.bump cTapParity)
      ∧ exec (.streamMark p) s = .next (s.bump cTapParity) := by
  have hpass : ∀ k, ¬(tpGood p && tpKind p == k) = true := by simp [hbad]
  have hready' : s.tensorRefill.trcReady = true := (State.trcReady_tensorRefill s).trans hready
  exact ⟨(if_pos hready).trans (if_neg (by simp [hbad])), (if_pos hready').trans (if_neg (hpass _)),
    (if_pos hready).trans (if_neg (hpass _)), (if_pos hready).trans (if_neg (hpass _)), (if_pos hready).trans (if_neg (hpass _))⟩

/-! ### Step markers (R256, R260, R308, R309, R322) -/

section StepMark

variable {p : TrcPacket} {s t : State} {job : Word} {step : Dword} (hready : s.trcReady = true) (hgood : tpGood p = true)
  (hkind : tpKind p = 0x10)

include hready hgood hkind

/-- A begin mark drives the sentry, and then each watch. -/
theorem exec_stepMark_begin (hown : bit (tpArg p) 38 = false) (hbegin : bit (tpArg p) 39 = false)
    (hjob : job = BitVec.ofNat 32 (tpWord p 0 / 2 ^ 32)) (hstep : step = BitVec.ofNat 64 (tpWord p 1))
    (ht : t = (s.modTrace fun u => { u with lastStep := step }).sentryMark job step false false (BitVec.ofNat 18 (tpWord p 0))) :
    exec (.stepMark p) s = .next ((t.watchIds.foldl (fun u w => u.watchBegin w job step) t).markCopy p) := by
  subst hjob hstep ht
  change execStepMark p s = _
  simp [execStepMark, hready, hgood, hkind, hown, hbegin]

/-- An end mark does so too, and ends the dumps of its step. -/
theorem exec_stepMark_end (hown : bit (tpArg p) 38 = false) (hend : bit (tpArg p) 39 = true)
    (hjob : job = BitVec.ofNat 32 (tpWord p 0 / 2 ^ 32)) (hstep : step = BitVec.ofNat 64 (tpWord p 1))
    (ht : t = s.sentryMark job step true false (BitVec.ofNat 18 (tpWord p 0))) :
    exec (.stepMark p) s = .next ((t.watchIds.foldl (fun u w => u.watchEnd w job step) t).markCopy p) := by
  subst hjob hstep ht
  change execStepMark p s = _
  simp [execStepMark, hready, hgood, hkind, hown, hend]

/-- A mark of a replay opens or ends it for the trace unit; at its begin waiting entries of the watches take effect, and none opens. -/
theorem exec_stepMark_replay {subj : Laddr} (hreplay : bit (tpArg p) 38 = true)
    (hjob : job = BitVec.ofNat 32 (tpWord p 0 / 2 ^ 32)) (hstep : step = BitVec.ofNat 64 (tpWord p 1))
    (hsubj : subj = BitVec.ofNat 18 (tpWord p 0))
    (ht : t = (s.modTrace fun u =>
      { u with replays := if bit (tpArg p) 39 then u.replays.filter fun x => !(x == (job, step, subj))
          else if u.replays.contains (job, step, subj) then u.replays else u.replays ++ [(job, step, subj)] }).sentryMark job step
        (bit (tpArg p) 39) true subj) :
    exec (.stepMark p) s = .next
      ((if bit (tpArg p) 39 then t else t.watchIds.foldl (fun u w => u.watchApply w) t).markCopy p) := by
  subst hjob hstep hsubj ht
  change execStepMark p s = _
  simp only [execStepMark, hready, hgood, hkind, hreplay, BEq.rfl, Bool.and_self, Bool.not_true, Bool.and_false, Bool.false_eq_true,
    if_true, if_false]

end StepMark

/-! ### Collective markers (R241, R308) -/

/-- The ARRIVAL record of a block that does not gather arrivals itself; its hints are those before the mark is noted. -/
theorem exec_collMark_sent {p : TrcPacket} {s : State} {job : Word} (hready : s.trcReady = true) (hgood : tpGood p = true)
    (hkind : tpKind p = 0x11) (hmaster : s.isMaster = false) (hjob : job = BitVec.ofNat 32 (tpWord p 0 / 2 ^ 32)) :
    exec (.collMark p) s = .next (((s.modVerd fun u => { u with marks := tput u.marks job.toNat (s.tb0Ns, s.tb1Ns) }).send
      { dst := .up, cls := 1, typ := tLateness, unit := uVerdict, flags := 0, stamp := some s.tb0Ns,
        body := be 4 job.toNat ++ be 2 (BitVec.ofNat 16 (tpArg p)).toNat ++ be 1 0 ++ be 1 0
          ++ be 8 (BitVec.ofNat 64 (tpWord p 1)).toNat ++ be 1 (s.arrivalHints job) }).markCopy p) := by
  subst hjob
  change execCollMark p s = _
  simp only [execCollMark, hready, hgood, hkind, hmaster, BEq.rfl, Bool.and_self, if_true, Bool.false_eq_true, if_false]

/-! ### Stream markers (R211, R213, R308) -/

section StreamMark

variable {p : TrcPacket} {s t : State} (hready : s.trcReady = true) (hgood : tpGood p = true) (hkind : tpKind p = 0x12)
  (ht : t = s.switchDue)

include hready hgood hkind ht

theorem exec_streamMark_none (hnone : ∀ e ∈ t.model.chans, e.2.kind = 2 → e.2.stream ≠ bits (tpArg p) 35 24) :
    exec (.streamMark p) s = .next (t.markCopy p) := by
  have hfed : (t.model.chans.filter fun e => e.2.kind == 2 && e.2.stream == bits (tpArg p) 35 24) = [] := by
    simpa using hnone
  change execStreamMark p s = _
  simp only [execStreamMark, hready, hgood, hkind, ← ht, hfed, BEq.rfl, Bool.and_self, if_true, List.foldl_nil]

/-- The one channel of the stream takes an input: IDX 0 is the time since its last marker, IDX 1 to 4 the halves of two words. -/
theorem exec_streamMark_one {e : Nat × Channel} {v : Nat → Nat} (hchans : t.model.chans = [e]) (hchan : e.2.kind = 2)
    (hstream : e.2.stream = bits (tpArg p) 35 24)
    (hv : v = (fun (i : Nat) => if i = 1 then tpWord p 1 / 2 ^ 32 else if i = 2 then tpWord p 1 % 2 ^ 32
      else if i = 3 then tpWord p 2 / 2 ^ 32 else tpWord p 2 % 2 ^ 32)) :
    exec (.streamMark p) s = .next (((t.pushInput e.1
      { stamp := s.tb0Ns, gap := (match e.2.prev with | some q => q.2 + 1 != tpWord p 0 | none => false),
        raws := e.2.idx.map fun j => if j = 0 then e.2.prev.map fun q => (s.tb0Ns : Int) - q.1 else some ((v j : Nat) : Int) }).modChan
          e.1 fun x => { x with prev := some (s.tb0Ns, tpWord p 0) }).markCopy p) := by
  subst hv
  have hfed : (t.model.chans.filter fun e => e.2.kind == 2 && e.2.stream == bits (tpArg p) 35 24) = [e] := by
    simp [hchans, hchan, hstream]
  change execStreamMark p s = _
  simp only [execStreamMark, hready, hgood, hkind, ← ht, hfed, BEq.rfl, Bool.and_self, if_true, List.foldl_cons,
    List.foldl_nil] <;> rfl

end StreamMark

/-! ### Tensor packets (R317, R322 to R325) -/

section TensorPacket

variable {p : TrcPacket} {s t : State} {w : Nat} {e : WatchEnt} {d : Dump} (ht : t = s.tensorRefill) (hready : t.trcReady = true)
  (hgood : tpGood p = true) (hkind : tpKind p = 0x20) (hw : w = bits (tpArg p) 39 34) (hent : (t.twatch w).ent = some e)
  (hopen : (t.twatch w).open' = some d)

include ht hready hgood hkind hw hent hopen

/-- While a replay runs a packet is discarded. -/
theorem exec_tensorPacket_replay (hreplay : t.trace.replays ≠ []) :
    exec (.tensorPacket p) s = .next (t.discardTensor w 0) := by
  subst ht hw
  change execTensorPacket p s = _
  simp only [execTensorPacket, hready, hgood, hkind, hent, hopen, BEq.rfl, Bool.and_self, if_true]
  exact if_pos (by simpa using hreplay)

/-- A packet that has room, lies within the bounds of its watch and has its tokens joins an empty dump, from which whole records
leave. -/
theorem exec_tensorPacket_taken {data : List Byte} {k : Nat} (hk : k = snoopSize e.etype)
    (hdata : data = ((p.words.drop 1).map fun v => be 8 v.toNat).flatten) (hreplay : t.trace.replays = [])
    (hroom : t.traceOcc + 8 + 8 * tpNw p ≤ t.trace.limit (tpClass p)) (hposLo : e.posLo ≤ tpArg p % 2 ^ 24)
    (hposHi : tpArg p % 2 ^ 24 ≤ e.posHi) (hoffLo : e.offLo ≤ tpWord p 0)
    (hoffHi : tpWord p 0 + data.length / k ≤ e.offLo + e.nelem) (hleft : data.length ≤ d.left)
    (htokens : data.length ≤ t.trace.tokens) (hempty : d.data = []) :
    ∃ r : Dump × State,
      r = State.pumpDump w e false (bit (tpArg p) 33) (data.length + 2)
        { d with pos := tpArg p % 2 ^ 24, off := tpWord p 0, data := data, pkts := d.pkts ++ [data.length],
                 left := d.left - data.length }
        (t.modTrace fun u => { u with tokens := u.tokens - data.length }) ∧
      exec (.tensorPacket p) s = .next (r.2.putTwatch w { r.2.twatch w with open' := some r.1 }) := by
  subst ht hw hk hdata
  refine ⟨_, rfl, ?_⟩
  have hspan : ¬(tpArg p % 2 ^ 24 < e.posLo ∨ e.posHi < tpArg p % 2 ^ 24 ∨ tpWord p 0 < e.offLo ∨ e.offLo + e.nelem < tpWord p 0 +
      ((p.words.drop 1).map fun v => be 8 v.toNat).flatten.length / snoopSize e.etype) := by omega
  change execTensorPacket p s = _
  simp only [execTensorPacket, hready, hgood, hkind, hent, hopen, hreplay, hspan, Nat.not_lt.mpr hroom,
    Nat.not_lt.mpr hleft, Nat.not_lt.mpr htokens, hempty, BEq.rfl, Bool.and_self, if_true, List.isEmpty_nil, Bool.not_true,
    Bool.false_and, Bool.false_eq_true, if_false, List.length_nil, List.nil_append, Nat.add_zero]

end TensorPacket

end Sys2Proof.Machine
end

section
/-! The statement of the trace port rows. -/

namespace Sys2Proof.Machine

/-- Settles O36: each clause is the run lemma of its row. -/
theorem tracePortRowsRun : Obligations.TracePortRowsRun := by
  unfold Obligations.TracePortRowsRun
  refine ⟨fun _ _ _ _ => exec_snoopFrame_watched, fun _ _ => exec_tracePacket_good, fun _ _ => exec_badPacket,
    fun _ _ _ _ _ hr hg hk => exec_stepMark_begin hr hg hk, fun _ _ _ _ _ hr hg hk => exec_stepMark_end hr hg hk,
    fun _ _ _ _ _ _ hr hg hk => exec_stepMark_replay hr hg hk, fun _ _ _ => exec_collMark_sent, ?_⟩
  exact ⟨fun _ _ _ hr hg hk ht => exec_streamMark_none hr hg hk ht,
    fun _ _ _ _ _ hr hg hk ht => exec_streamMark_one hr hg hk ht,
    fun _ _ _ _ _ _ ht hr hg hk hw he ho => exec_tensorPacket_replay ht hr hg hk hw he ho,
    fun _ _ _ _ _ _ _ _ ht hr hg hk hw he ho hsz hd => exec_tensorPacket_taken ht hr hg hk hw he ho hsz hd⟩

end Sys2Proof.Machine
end

section
/-! SUPPORT. The commands of the SENTRY group: what each answers where every check passes. -/

namespace Sys2Proof.Machine

@[simp] theorem State.begun_sentry (o : OpSpec) (s : State) : (s.begun o).sentry = s.sentry := State.begun_moves.1 .sentry rfl

/-! ### SENTRY.WATCH (R252, R265) -/

/-- The watch list that a SENTRY.WATCH brings, each entry under its WID. -/
def watchEntries (c : Cmd) : List (Nat × BitVec 128) :=
  (List.range (cp c 4 1)).map fun i => (i, BitVec.ofNat 128 (rd (cdata c 0) (16 * i) 16))

theorem watchEntries_length (c : Cmd) : (watchEntries c).length = cp c 4 1 := by simp [watchEntries]

theorem watchEntries_getElem? {c : Cmd} {i : Nat} (hi : i < cp c 4 1) :
    (watchEntries c)[i]? = some (i, BitVec.ofNat 128 (rd (cdata c 0) (16 * i) 16)) := by simp [watchEntries, hi]

theorem range_map_getD {α β : Type} (n : Nat) (f : Nat → α) (g : Nat → α → β) (d : α) :
    (List.range n).map (fun i => g i (((List.range n).map f).getD i d)) = (List.range n).map fun i => g i (f i) :=
  List.map_congr_left fun i hi => by simp [List.mem_range.mp hi]

/-- The list waits for the next step begin mark; a job that is not the block's yet starts at once, with no step of another left. -/
theorem exec_sentryWatch_clean {c : Cmd} {s t : State} (h : Clean opSentryWatch c s)
    (hdata : (ckData opSentryWatch c 0 (16 * cp c 4 1)).ok = true)
    (hwatch : ∀ i < cp c 4 1, watchOk (rd (cdata c 0) (16 * i) 16) = true) (hfirst : BitVec.ofNat 64 (cp c 16 8) ≠ 0)
    (hcount : cp c 4 1 ≤ 64)
    (ht : t = (if s.sentry.job = some (BitVec.ofNat 32 (cp c 0 4)) then s.begun opSentryWatch
      else (((s.begun opSentryWatch).discardSteps fun _ => true).modSentry fun u =>
        { u with job := some (BitVec.ofNat 32 (cp c 0 4)), first := BitVec.ofNat 64 (cp c 16 8),
                 through := BitVec.ofNat 64 (cp c 16 8) - 1, lt := BitVec.ofNat 64 (cp c 16 8) - 1, unsettled := [],
                 prevs := [], readmit := none, released := none }).intSet 2)) :
    exec (.sentryWatch c) s = .next ((t.modSentry fun u => { u with watchNext := some (watchEntries c) }).answered opSentryWatch c 0
      [] []) := by
  subst ht
  refine congrArg Host.Outcome.next <| runCmd_ok h (by simpa [hdata, hcount] using ⟨hwatch, hfirst⟩) (by simp) ?_
  rw [range_map_getD _ _ fun i e => (i, BitVec.ofNat 128 e), State.begun_sentry, watchEntries]

/-! ### Fields that a command sets (R257, R270) -/

theorem exec_sentryPartners_clean {c : Cmd} {s : State} (h : Clean opSentryPartners c s) (hn : NoInput c)
    (hfirst : cp c 0 4 < 2 ^ 18) (hsecond : cp c 4 4 < 2 ^ 18) :
    exec (.sentryPartners c) s = .next (((s.begun opSentryPartners).modSentry fun u =>
      { u with partner := some (BitVec.ofNat 18 (cp c 0 4), BitVec.ofNat 18 (cp c 4 4)) }).answered opSentryPartners c 0 [] []) :=
  congrArg Host.Outcome.next <| runCmd_ok h (by simpa [ckNoInline_ok hn] using ⟨hfirst, hsecond⟩) (by simp) rfl

/-- The goal waits for the next step begin mark; a word gives the modulus itself, or the figures it is derived from (R270). -/
theorem exec_sentryGoal_clean {c : Cmd} {s : State} {g : BitVec 64} (hg : g = BitVec.ofNat 64 (cp c 0 8))
    (h : Clean opSentryGoal c s) (hn : NoInput c) (hmod : 0 < goalModulus g)
    (hplain : bits g.toNat 63 62 = 0 → bits g.toNat 61 49 ≤ 4096)
    (hother : bits g.toNat 63 62 ≠ 0 → 1 ≤ bits g.toNat 31 16 ∧ 1 ≤ bits g.toNat 15 0) :
    exec (.sentryGoal c) s = .next (((s.begun opSentryGoal).modSentry fun u => { u with goalNext := some g }).answered
      opSentryGoal c 0 [] []) := by
  subst hg
  refine congrArg Host.Outcome.next <| runCmd_ok h ?_ (by simp) rfl
  simp only [List.forall_mem_cons, ckParam_ok, ckRange_ok]
  refine ⟨ckNoInline_ok hn, decide_eq_true hmod, ?_, by simp⟩
  split
  · next hform => exact decide_eq_true (hplain hform)
  · next hform => simpa using hother hform

theorem exec_sentryParam_clean {c : Cmd} {s : State} (h : Clean opSentryParam c s) (hn : NoInput c) (hsettle : 1 ≤ cp c 0 2)
    (hsettle' : cp c 0 2 ≤ 10000) (hmax : 1 ≤ cp c 2 1) (hmax' : cp c 2 1 ≤ 255) (hreplay : 1 ≤ cp c 4 4)
    (hreplay' : cp c 4 4 ≤ 600000) (hwin : 1 ≤ cp c 8 2) (hwin' : cp c 8 2 ≤ 1440) :
    exec (.sentryParam c) s = .next (((s.begun opSentryParam).modSentry fun u =>
      { u with settle := cp c 0 2 * 1000, faMax := cp c 2 1, replayTo := cp c 4 4 * 1000000,
               faWin := cp c 8 2 * 60000000000 }).answered opSentryParam c 0 [] []) :=
  congrArg Host.Outcome.next <| runCmd_ok h
    (by simp [ckNoInline_ok hn, hsettle, hsettle', hmax, hmax', hreplay, hreplay', hwin, hwin']) (by simp) rfl

/-! ### LT and COMMIT_THROUGH (R268, R269) -/

/-- LASTGOOD may lie below COMMIT_THROUGH: LT stops there, and begin marks are taken again from LASTGOOD on (log entry 85). -/
theorem exec_sentryRollback_clean {c : Cmd} {s : State} {good low : BitVec 64} (hgood : good = BitVec.ofNat 64 (cp c 8 8))
    (hlow : low = (if good < s.sentry.through then s.sentry.through else good)) (h : Clean opSentryRollback c s) (hn : NoInput c)
    (hjob : s.sentry.job = some (BitVec.ofNat 32 (cp c 0 4))) :
    exec (.sentryRollback c) s = .next (((((s.begun opSentryRollback).modSentry fun u =>
      { u with lt := if low < u.lt then low else u.lt, readmit := if good < low then some good else none,
               unsettled := u.unsettled.filter fun q => decide (q ≤ good) }).discardSteps fun x =>
        decide (good < x.step)).sentrySettle).answered opSentryRollback c 0 [] []) := by
  subst hgood hlow
  exact congrArg Host.Outcome.next <| runCmd_ok h (by simp [ckNoInline_ok hn]) (by simp [hjob]) (by rw [State.begun_sentry])

theorem exec_sentryRelease_clean {c : Cmd} {s : State} {step : BitVec 64} (hstep : step = BitVec.ofNat 64 (cp c 0 8))
    (h : Clean opSentryRelease c s) (hn : NoInput c) (hsettled : ∀ q ∈ s.sentry.unsettled, step < q) :
    exec (.sentryRelease c) s = .next ((((((s.begun opSentryRelease).modSentry fun u =>
      { u.dropSteps (TStep.past step) with lt := if u.lt < step then step else u.lt }).commitTo step).stage 0x0902
        .notice 0 step.toNat).sentrySettle).answered opSentryRelease c 0 [] []) := by
  subst hstep
  exact congrArg Host.Outcome.next <| runCmd_ok h (by simp [ckNoInline_ok hn]) (by simpa using hsettled) rfl

theorem exec_sentryStatus_clean {c : Cmd} {s : State} (h : Clean opSentryStatus c s) (hn : NoInput c) :
    exec (.sentryStatus c) s = .next ((s.begun opSentryStatus).answered opSentryStatus c
      (BitVec.ofNat 64 ((s.sentry.suspended.map fun w => 2 ^ w).sum)) (be 8 s.sentry.through.toNat ++ be 8 s.sentry.lt.toNat) []) :=
  congrArg Host.Outcome.next <| runCmd_ok h (by simp [ckNoInline_ok hn]) (by simp) (by rw [State.begun_sentry])

end Sys2Proof.Machine
end

section
/-! The statement of the SENTRY commands. -/

namespace Sys2Proof.Machine

/-- Settles O26: each clause is the run lemma of its command. That begin marks are taken again after a rollback below COMMIT_THROUGH
is log entry 85. -/
theorem sentryCommandsRun : Obligations.SentryCommandsRun := by
  unfold Obligations.SentryCommandsRun
  refine ⟨fun c _ _ h hdata hwatch hfirst hcount ht => ⟨watchEntries c, watchEntries_length c, fun _ => watchEntries_getElem?,
      exec_sentryWatch_clean h hdata hwatch hfirst hcount ht⟩, ?_⟩
  exact ⟨fun _ _ => exec_sentryPartners_clean, fun _ _ _ => exec_sentryGoal_clean, fun _ _ _ _ => exec_sentryRollback_clean,
    fun _ _ _ => exec_sentryRelease_clean, fun _ _ => exec_sentryStatus_clean, fun _ _ => exec_sentryParam_clean⟩

end Sys2Proof.Machine
end

section
/-! SUPPORT. What every row keeps, whatever state it finds: a next state, the queue, and the invariant. -/

namespace Sys2Proof.Machine

/-- Both branches of a guard answer. -/
theorem goesOn_ite {c : Prop} {i : Decidable c} {a b : Host.Outcome State Fault Refusal} (ha : ∃ t, a = .next t)
    (hb : ∃ t, b = .next t) : ∃ t, (if c then a else b) = .next t := by split <;> assumption

/-- No row ends in a fault or a refusal: the rows named answer behind guards, in every branch; the others answer outright. -/
theorem exec_goesOn (i : Instr) (s : State) : ∃ t, exec i s = .next t := by
  cases i with
  | pgAoAssert | restoreDone | pgMetroAssert | rstHostNAssert | rstWarmNAssert | rstWarmNRelease | resetRelease | refclkLoss |
  refclkReturn | epochPulse | syncReceived | followUpReceived | delayRespReceived | announceReceived | delayReq | syncTimeout |
  tapBeat | discConditionedChange | chatterWindowEnd | stuckTimeout | hbPinBeat | pwrReqChange | linkUpRise | linkUpFall |
  creditReturn | linkErrorPulse | insertionSlot | stampPair | snoopFrame | tracePacket | stepMark | collMark | streamMark |
  tensorPacket | smbalert | pmbPoll | sideReadResponse | sideReadTimeout | assayConversion | assaySamplePair | assayPairMissing
  | assayReadoutFrame | heartbeatWrite | cqTailWrite | rqHeadWrite | queuePairEnable | queuePairDisable | tsTb0LoRead |
  loHalfRead | w1cStatusWrite | intEnableWrite | badAccess | registerWrite | replyWriteFail | asyncCommandDone | cmdRetryExpiry
  | seqGapSkip | domainResetStart | ingotTake | traceAuth | updateStart | joinTimeout | fabJoinRepeat | ackTimerExpiry |
  resendAckTimerExpiry | chunkWritten | hoistRtoExpiry | hoistWaitExpiry | startReqTimeout | startGrantExpiry | grantMessage |
  reportMessage | plan | planAck | grantPeriodStart | phase2Start | glToExpiry | memberSilent | silentAccountRelease |
  reportInterval | grantRecBoundary | planHoldRelease | tmPeriodBoundary | temperMeasurementDone | sampleBoundary |
  residWaitExpiry | reconcilePeriod | epochRecordInterval | frameSelection | fwdFrameStale | creditTimerExpiry | teardownFlush |
  correctionWindowEnd | correctionPublish | solveDeadline | cutWindowEnd | cutClose | quernEvalStart | quernEvalComplete |
  eachWaitExpiry | actAtReached | modelLoadComplete | modelBroadcastWaitExpiry | millraceStepStart | millraceStepComplete |
  rolloutComplete | batchWaitExpiry | arrWaitExpiry | silentToExpiry | disHoldExpiry | snoopSettleExpiry | replayToExpiry |
  heartbeatPeriodEnd | bootToExpiry | engConfToExpiry | blockBeatPeriodEnd | internalWatchPeriod | recovToExpiry | coldRung |
  reqToExpiry | peerLinkDownTimeout | ingotCaptureEnd | ingotWriteDone | gpToExpiry | trFlushExpiry | authExpiry |
  authLockoutEnd | hallmarkFlashWriteDone | flashBucketRefill | optTick | testDue | reaskExpiry | testOverdue | winUsExpiry |
  selAckTimeout | scanSegmentEnd | exitSequenceDone | stageComplete | fwSelfConfirm | fwHealthDeadline | drainEnd |
  offFlashFlushDone | wakeDemand | wakeHoldExpiry | ctlIdleStop | crownPowered | scrubWord | monitorWindowEnd | other1588Message
  | portClockStop | assayCalibrationWrite | faultInjectionEnd | resetRequestRelease | portDomainRelease =>
    dsimp only [exec, execPgAoAssert, execRestoreDone, execPgMetroAssert, execRstHostNAssert, execRstWarmNAssert, execRstWarmNRelease,
      execResetRelease, execRefclkLoss, execRefclkReturn, execEpochPulse, execSyncReceived, execFollowUpReceived,
      execDelayRespReceived, execAnnounceReceived, execDelayReq, execSyncTimeout, execTapBeat, execDiscConditionedChange,
      execChatterWindowEnd, execStuckTimeout, execHbPinBeat, execPwrReqChange, execLinkUpRise, execLinkUpFall, execCreditReturn,
      execLinkErrorPulse, execInsertionSlot, execStampPair, execSnoopFrame, execTracePacket, execStepMark, execCollMark,
      execStreamMark, execTensorPacket, execSmbalert, execPmbPoll, execSideReadResponse, execSideReadTimeout,
      execAssayConversion, execAssaySamplePair, execAssayPairMissing, execAssayReadoutFrame, execHeartbeatWrite,
      execCqTailWrite, execRqHeadWrite, execQueuePairEnable, execQueuePairDisable, execTsTb0LoRead, execLoHalfRead,
      execW1cStatusWrite, execIntEnableWrite, execBadAccess, execRegisterWrite, execReplyWriteFail, execAsyncCommandDone,
      execCmdRetryExpiry, execSeqGapSkip, execDomainResetStart, execIngotTake, execTraceAuth, execUpdateStart, execJoinTimeout,
      execFabJoinRepeat, execAckTimerExpiry, execResendAckTimerExpiry, execChunkWritten, execHoistRtoExpiry,
      execHoistWaitExpiry, execStartReqTimeout, execStartGrantExpiry, execGrantMessage, execReportMessage, execPlan,
      execPlanAck, execGrantPeriodStart, execPhase2Start, execGlToExpiry, execMemberSilent, execSilentAccountRelease,
      execReportInterval, execGrantRecBoundary, execPlanHoldRelease, execTmPeriodBoundary, execTemperMeasurementDone,
      execSampleBoundary, execResidWaitExpiry, execReconcilePeriod, execEpochRecordInterval, execFrameSelection,
      execFwdFrameStale, execCreditTimerExpiry, execTeardownFlush, execCorrectionWindowEnd, execCorrectionPublish,
      execSolveDeadline, execCutWindowEnd, execCutClose, execQuernEvalStart, execQuernEvalComplete, execEachWaitExpiry,
      execActAtReached, execModelLoadComplete, execModelBroadcastWaitExpiry, execMillraceStepStart, execMillraceStepComplete,
      execRolloutComplete, execBatchWaitExpiry, execArrWaitExpiry, execSilentToExpiry, execDisHoldExpiry, execSnoopSettleExpiry,
      execReplayToExpiry, execHeartbeatPeriodEnd, execBootToExpiry, execEngConfToExpiry, execBlockBeatPeriodEnd,
      execInternalWatchPeriod, execRecovToExpiry, execColdRung, execReqToExpiry, execPeerLinkDownTimeout, execIngotCaptureEnd,
      execIngotWriteDone, execGpToExpiry, execTrFlushExpiry, execAuthExpiry, execAuthLockoutEnd, execHallmarkFlashWriteDone,
      execFlashBucketRefill, execOptTick, execTestDue, execReaskExpiry, execTestOverdue, execWinUsExpiry, execSelAckTimeout,
      execScanSegmentEnd, execExitSequenceDone, execStageComplete, execFwSelfConfirm, execFwHealthDeadline, execDrainEnd,
      execOffFlashFlushDone, execWakeDemand, execWakeHoldExpiry, execCtlIdleStop, execCrownPowered, execScrubWord,
      execMonitorWindowEnd, execOther1588Message, execPortClockStop, execAssayCalibrationWrite, execFaultInjectionEnd,
      execResetRequestRelease, execPortDomainRelease]
    repeat' first | with_reducible apply goesOn_ite | split
    all_goals exact ⟨_, rfl⟩
  | _ => exact ⟨_, rfl⟩

/-- Every part of the state but the queue. -/
def Area.allButPending : List Area :=
  [.sys, .pow, .time, .coll, .hop, .hall, .cmd, .crown, .model, .verd, .sentry, .trace, .brake, .test, .gov, .temper, .metro, .assay,
    .flash, .conf, .hoist, .outs]

/-- Whatever the row, it keeps the invariant and leaves the queue. -/
theorem exec_moves (i : Instr) (s : State) : OutMoves Area.allButPending s (exec i s) := by
  cases i with
  | pgAoAssert => exact execPgAoAssert_moves.mono (by decide)
  | restoreDone => exact execRestoreDone_moves.mono (by decide)
  | pgAoDeassert => exact execPgAoDeassert_moves.mono (by decide)
  | pgMetroAssert => exact execPgMetroAssert_moves.mono (by decide)
  | pgMetroDeassert => exact execPgMetroDeassert_moves.mono (by decide)
  | rstHostNAssert => exact execRstHostNAssert_moves.mono (by decide)
  | rstWarmNAssert => exact execRstWarmNAssert_moves.mono (by decide)
  | rstWarmNRelease => exact execRstWarmNRelease_moves.mono (by decide)
  | resetRelease => exact execResetRelease_moves.mono (by decide)
  | refclkLoss => exact execRefclkLoss_moves.mono (by decide)
  | refclkReturn => exact execRefclkReturn_moves.mono (by decide)
  | epochPulse => exact execEpochPulse_moves.mono (by decide)
  | syncReceived => exact execSyncReceived_moves.mono (by decide)
  | followUpReceived => exact execFollowUpReceived_moves.mono (by decide)
  | delayRespReceived => exact execDelayRespReceived_moves.mono (by decide)
  | announceReceived => exact execAnnounceReceived_moves.mono (by decide)
  | delayReq => exact execDelayReq_moves.mono (by decide)
  | syncTimeout => exact execSyncTimeout_moves.mono (by decide)
  | tapBeat => exact execTapBeat_moves.mono (by decide)
  | discConditionedChange => exact execDiscConditionedChange_moves.mono (by decide)
  | chatterWindowEnd => exact execChatterWindowEnd_moves.mono (by decide)
  | stuckTimeout => exact execStuckTimeout_moves.mono (by decide)
  | hbPinBeat => exact execHbPinBeat_moves.mono (by decide)
  | pwrReqChange => exact execPwrReqChange_moves.mono (by decide)
  | linkUpRise => exact execLinkUpRise_moves.mono (by decide)
  | linkUpFall => exact execLinkUpFall_moves.mono (by decide)
  | creditReturn => exact execCreditReturn_moves.mono (by decide)
  | linkErrorPulse => exact execLinkErrorPulse_moves.mono (by decide)
  | insertionSlot => exact execInsertionSlot_moves.mono (by decide)
  | stampPair => exact execStampPair_moves.mono (by decide)
  | snoopFrame p => exact (execSnoopFrame_moves (_port := p)).mono (by decide)
  | tracePacket => exact execTracePacket_moves.mono (by decide)
  | stepMark => exact execStepMark_moves.mono (by decide)
  | collMark => exact execCollMark_moves.mono (by decide)
  | streamMark => exact execStreamMark_moves.mono (by decide)
  | tensorPacket => exact execTensorPacket_moves.mono (by decide)
  | smbalert => exact execSmbalert_moves.mono (by decide)
  | pmbPoll => exact execPmbPoll_moves.mono (by decide)
  | sideReadResponse => exact execSideReadResponse_moves.mono (by decide)
  | sideReadTimeout => exact execSideReadTimeout_moves.mono (by decide)
  | assayConversion => exact execAssayConversion_moves.mono (by decide)
  | assaySamplePair => exact execAssaySamplePair_moves.mono (by decide)
  | assayPairMissing => exact execAssayPairMissing_moves.mono (by decide)
  | assayReadoutFrame => exact execAssayReadoutFrame_moves.mono (by decide)
  | heartbeatWrite v => exact (execHeartbeatWrite_moves (_value := v)).mono (by decide)
  | cqTailWrite => exact execCqTailWrite_moves.mono (by decide)
  | rqHeadWrite => exact execRqHeadWrite_moves.mono (by decide)
  | queuePairEnable => exact execQueuePairEnable_moves.mono (by decide)
  | queuePairDisable => exact execQueuePairDisable_moves.mono (by decide)
  | tsTb0LoRead => exact execTsTb0LoRead_moves.mono (by decide)
  | loHalfRead => exact execLoHalfRead_moves.mono (by decide)
  | w1cStatusWrite => exact execW1cStatusWrite_moves.mono (by decide)
  | intEnableWrite => exact execIntEnableWrite_moves.mono (by decide)
  | badAccess => exact execBadAccess_moves.mono (by decide)
  | registerWrite => exact execRegisterWrite_moves.mono (by decide)
  | commandFetch => exact execCommandFetch_moves.mono (by decide)
  | replyWriteFail => exact execReplyWriteFail_moves.mono (by decide)
  | asyncCommandDone => exact execAsyncCommandDone_moves.mono (by decide)
  | fabricQueueEntry => exact execFabricQueueEntry_moves.mono (by decide)
  | commandRecordReceived => exact execCommandRecordReceived_moves.mono (by decide)
  | replyRecordReceived => exact execReplyRecordReceived_moves.mono (by decide)
  | cmdRetryExpiry => exact execCmdRetryExpiry_moves.mono (by decide)
  | seqGapSkip => exact execSeqGapSkip_moves.mono (by decide)
  | sysIdentify => exact execSysIdentify_moves.mono (by decide)
  | sysStatus => exact execSysStatus_moves.mono (by decide)
  | sysAddress => exact execSysAddress_moves.mono (by decide)
  | sysPhase => exact execSysPhase_moves.mono (by decide)
  | sysPstate => exact execSysPstate_moves.mono (by decide)
  | domainReset => exact execDomainReset_moves.mono (by decide)
  | domainResetStart => exact execDomainResetStart_moves.mono (by decide)
  | serviceRestore => exact execServiceRestore_moves.mono (by decide)
  | trayDesignate => exact execTrayDesignate_moves.mono (by decide)
  | sysInject => exact execSysInject_moves.mono (by decide)
  | timeConfig => exact execTimeConfig_moves.mono (by decide)
  | timeJob => exact execTimeJob_moves.mono (by decide)
  | timeAsym => exact execTimeAsym_moves.mono (by decide)
  | timeCal => exact execTimeCal_moves.mono (by decide)
  | timeStatus => exact execTimeStatus_moves.mono (by decide)
  | collectCounter => exact execCollectCounter_moves.mono (by decide)
  | collectSet => exact execCollectSet_moves.mono (by decide)
  | collectArm => exact execCollectArm_moves.mono (by decide)
  | collectMap => exact execCollectMap_moves.mono (by decide)
  | collectRead => exact execCollectRead_moves.mono (by decide)
  | discConfig => exact execDiscConfig_moves.mono (by decide)
  | collectStatus => exact execCollectStatus_moves.mono (by decide)
  | streamConfig => exact execStreamConfig_moves.mono (by decide)
  | streamShaper => exact execStreamShaper_moves.mono (by decide)
  | streamGate => exact execStreamGate_moves.mono (by decide)
  | streamLink => exact execStreamLink_moves.mono (by decide)
  | streamStatus => exact execStreamStatus_moves.mono (by decide)
  | reduceDefine => exact execReduceDefine_moves.mono (by decide)
  | reduceDelete => exact execReduceDelete_moves.mono (by decide)
  | cutConfig => exact execCutConfig_moves.mono (by decide)
  | cutRead => exact execCutRead_moves.mono (by decide)
  | cutRegister => exact execCutRegister_moves.mono (by decide)
  | cutRelease => exact execCutRelease_moves.mono (by decide)
  | treeInstall => exact execTreeInstall_moves.mono (by decide)
  | bcastSend => exact execBcastSend_moves.mono (by decide)
  | mapConfig => exact execMapConfig_moves.mono (by decide)
  | reduceStatus => exact execReduceStatus_moves.mono (by decide)
  | modelLoad => exact execModelLoad_moves.mono (by decide)
  | modelActivate => exact execModelActivate_moves.mono (by decide)
  | modelDeactivate => exact execModelDeactivate_moves.mono (by decide)
  | modelUnload => exact execModelUnload_moves.mono (by decide)
  | modelStatus => exact execModelStatus_moves.mono (by decide)
  | channelOpen => exact execChannelOpen_moves.mono (by decide)
  | channelClose => exact execChannelClose_moves.mono (by decide)
  | channelReset => exact execChannelReset_moves.mono (by decide)
  | channelForecast => exact execChannelForecast_moves.mono (by decide)
  | modelParam => exact execModelParam_moves.mono (by decide)
  | scoreSet => exact execScoreSet_moves.mono (by decide)
  | scoreClear => exact execScoreClear_moves.mono (by decide)
  | verdictWithdraw => exact execVerdictWithdraw_moves.mono (by decide)
  | verdictConfig => exact execVerdictConfig_moves.mono (by decide)
  | verdictBudget => exact execVerdictBudget_moves.mono (by decide)
  | verdictDrill => exact execVerdictDrill_moves.mono (by decide)
  | jobMembers => exact execJobMembers_moves.mono (by decide)
  | jobEnd => exact execJobEnd_moves.mono (by decide)
  | verdictParam => exact execVerdictParam_moves.mono (by decide)
  | verdictStatus => exact execVerdictStatus_moves.mono (by decide)
  | sentryWatch => exact execSentryWatch_moves.mono (by decide)
  | sentryPartners => exact execSentryPartners_moves.mono (by decide)
  | sentryGoal => exact execSentryGoal_moves.mono (by decide)
  | sentryRollback => exact execSentryRollback_moves.mono (by decide)
  | sentryRelease => exact execSentryRelease_moves.mono (by decide)
  | sentryStatus => exact execSentryStatus_moves.mono (by decide)
  | sentryParam => exact execSentryParam_moves.mono (by decide)
  | heartbeatConfig => exact execHeartbeatConfig_moves.mono (by decide)
  | ingotConfig => exact execIngotConfig_moves.mono (by decide)
  | ingotTake => exact execIngotTake_moves.mono (by decide)
  | ingotRead => exact execIngotRead_moves.mono (by decide)
  | ingotClear => exact execIngotClear_moves.mono (by decide)
  | contextResult => exact execContextResult_moves.mono (by decide)
  | brakeStatus => exact execBrakeStatus_moves.mono (by decide)
  | traceConfig => exact execTraceConfig_moves.mono (by decide)
  | traceAuth => exact execTraceAuth_moves.mono (by decide)
  | traceDeauth => exact execTraceDeauth_moves.mono (by decide)
  | traceStatus => exact execTraceStatus_moves.mono (by decide)
  | watchArm => exact execWatchArm_moves.mono (by decide)
  | watchDisarm => exact execWatchDisarm_moves.mono (by decide)
  | watchRate => exact execWatchRate_moves.mono (by decide)
  | watchStatus => exact execWatchStatus_moves.mono (by decide)
  | recorderRead => exact execRecorderRead_moves.mono (by decide)
  | recorderStatus => exact execRecorderStatus_moves.mono (by decide)
  | recorderClear => exact execRecorderClear_moves.mono (by decide)
  | recorderNote => exact execRecorderNote_moves.mono (by decide)
  | recorderConfig => exact execRecorderConfig_moves.mono (by decide)
  | powerBudget => exact execPowerBudget_moves.mono (by decide)
  | powerMember => exact execPowerMember_moves.mono (by decide)
  | powerStatic => exact execPowerStatic_moves.mono (by decide)
  | powerConfig => exact execPowerConfig_moves.mono (by decide)
  | powerStatus => exact execPowerStatus_moves.mono (by decide)
  | temperConfig => exact execTemperConfig_moves.mono (by decide)
  | metroRead => exact execMetroRead_moves.mono (by decide)
  | testConfig => exact execTestConfig_moves.mono (by decide)
  | testGrant => exact execTestGrant_moves.mono (by decide)
  | testDefer => exact execTestDefer_moves.mono (by decide)
  | testDone => exact execTestDone_moves.mono (by decide)
  | testClear => exact execTestClear_moves.mono (by decide)
  | testStatus => exact execTestStatus_moves.mono (by decide)
  | updateStage => exact execUpdateStage_moves.mono (by decide)
  | updateChain => exact execUpdateChain_moves.mono (by decide)
  | updateStart => exact execUpdateStart_moves.mono (by decide)
  | updateConfirm => exact execUpdateConfirm_moves.mono (by decide)
  | updateStatus => exact execUpdateStatus_moves.mono (by decide)
  | dataFrameReceived => exact execDataFrameReceived_moves.mono (by decide)
  | overflowFrameReceived => exact execOverflowFrameReceived_moves.mono (by decide)
  | epochReceived => exact execEpochReceived_moves.mono (by decide)
  | reconcileReceived => exact execReconcileReceived_moves.mono (by decide)
  | lastGaspReceived => exact execLastGaspReceived_moves.mono (by decide)
  | joinReceived => exact execJoinReceived_moves.mono (by decide)
  | joinAnswerReceived => exact execJoinAnswerReceived_moves.mono (by decide)
  | joinTimeout => exact execJoinTimeout_moves.mono (by decide)
  | fabJoinRepeat => exact execFabJoinRepeat_moves.mono (by decide)
  | stampPairsReceived => exact execStampPairsReceived_moves.mono (by decide)
  | correctionReceived => exact execCorrectionReceived_moves.mono (by decide)
  | featuresReceived => exact execFeaturesReceived_moves.mono (by decide)
  | arrivalReceived => exact execArrivalReceived_moves.mono (by decide)
  | batchReceived => exact execBatchReceived_moves.mono (by decide)
  | expelVerdictReceived => exact execExpelVerdictReceived_moves.mono (by decide)
  | healthyStepReceived => exact execHealthyStepReceived_moves.mono (by decide)
  | replayReqReceived => exact execReplayReqReceived_moves.mono (by decide)
  | replayDigestReceived => exact execReplayDigestReceived_moves.mono (by decide)
  | refusedReceived => exact execRefusedReceived_moves.mono (by decide)
  | jobReleaseReceived => exact execJobReleaseReceived_moves.mono (by decide)
  | cutContribReceived => exact execCutContribReceived_moves.mono (by decide)
  | broadcastReceived => exact execBroadcastReceived_moves.mono (by decide)
  | broadcastAckReceived => exact execBroadcastAckReceived_moves.mono (by decide)
  | ackTimerExpiry => exact execAckTimerExpiry_moves.mono (by decide)
  | resendAckTimerExpiry => exact execResendAckTimerExpiry_moves.mono (by decide)
  | imageChunkData => exact execImageChunkData_moves.mono (by decide)
  | chunkWritten => exact execChunkWritten_moves.mono (by decide)
  | imageChunkAck => exact execImageChunkAck_moves.mono (by decide)
  | hoistRtoExpiry => exact execHoistRtoExpiry_moves.mono (by decide)
  | hoistWaitExpiry => exact execHoistWaitExpiry_moves.mono (by decide)
  | startReq => exact execStartReq_moves.mono (by decide)
  | startGrant => exact execStartGrant_moves.mono (by decide)
  | startDeny => exact execStartDeny_moves.mono (by decide)
  | startDone => exact execStartDone_moves.mono (by decide)
  | startReqTimeout => exact execStartReqTimeout_moves.mono (by decide)
  | startGrantExpiry => exact execStartGrantExpiry_moves.mono (by decide)
  | grantMessage => exact execGrantMessage_moves.mono (by decide)
  | reportMessage => exact execReportMessage_moves.mono (by decide)
  | plan => exact execPlan_moves.mono (by decide)
  | planAck => exact execPlanAck_moves.mono (by decide)
  | grantPeriodStart => exact execGrantPeriodStart_moves.mono (by decide)
  | phase2Start => exact execPhase2Start_moves.mono (by decide)
  | glToExpiry => exact execGlToExpiry_moves.mono (by decide)
  | memberSilent => exact execMemberSilent_moves.mono (by decide)
  | silentAccountRelease => exact execSilentAccountRelease_moves.mono (by decide)
  | reportInterval => exact execReportInterval_moves.mono (by decide)
  | grantRecBoundary => exact execGrantRecBoundary_moves.mono (by decide)
  | planHoldRelease => exact execPlanHoldRelease_moves.mono (by decide)
  | tmPeriodBoundary => exact execTmPeriodBoundary_moves.mono (by decide)
  | temperMeasurementDone => exact execTemperMeasurementDone_moves.mono (by decide)
  | sampleBoundary => exact exec_sampleBoundary ▸ execSampleBoundary_moves.mono (by decide)
  | residWaitExpiry => exact execResidWaitExpiry_moves.mono (by decide)
  | reconcilePeriod => exact execReconcilePeriod_moves.mono (by decide)
  | epochRecordInterval => exact execEpochRecordInterval_moves.mono (by decide)
  | frameSelection => exact execFrameSelection_moves.mono (by decide)
  | fwdFrameStale => exact execFwdFrameStale_moves.mono (by decide)
  | creditTimerExpiry => exact execCreditTimerExpiry_moves.mono (by decide)
  | shaperRefill => exact execShaperRefill_moves.mono (by decide)
  | sluiceRefill => exact execSluiceRefill_moves.mono (by decide)
  | admissionRefill => exact execAdmissionRefill_moves.mono (by decide)
  | teardownFlush => exact execTeardownFlush_moves.mono (by decide)
  | correctionWindowEnd => exact execCorrectionWindowEnd_moves.mono (by decide)
  | correctionPublish => exact execCorrectionPublish_moves.mono (by decide)
  | solveDeadline => exact execSolveDeadline_moves.mono (by decide)
  | cutWindowEnd => exact execCutWindowEnd_moves.mono (by decide)
  | cutClose => exact execCutClose_moves.mono (by decide)
  | quernEvalStart => exact execQuernEvalStart_moves.mono (by decide)
  | quernEvalComplete => exact execQuernEvalComplete_moves.mono (by decide)
  | eachWaitExpiry => exact execEachWaitExpiry_moves.mono (by decide)
  | actAtReached => exact execActAtReached_moves.mono (by decide)
  | modelLoadComplete => exact execModelLoadComplete_moves.mono (by decide)
  | modelBroadcastWaitExpiry => exact execModelBroadcastWaitExpiry_moves.mono (by decide)
  | millraceStepStart => exact execMillraceStepStart_moves.mono (by decide)
  | millraceStepComplete => exact execMillraceStepComplete_moves.mono (by decide)
  | rolloutComplete => exact execRolloutComplete_moves.mono (by decide)
  | expelBucketRefill => exact execExpelBucketRefill_moves.mono (by decide)
  | batchWaitExpiry => exact execBatchWaitExpiry_moves.mono (by decide)
  | arrWaitExpiry => exact execArrWaitExpiry_moves.mono (by decide)
  | silentToExpiry => exact execSilentToExpiry_moves.mono (by decide)
  | disHoldExpiry => exact execDisHoldExpiry_moves.mono (by decide)
  | snoopSettleExpiry => exact execSnoopSettleExpiry_moves.mono (by decide)
  | replayToExpiry => exact execReplayToExpiry_moves.mono (by decide)
  | heartbeatPeriodEnd => exact execHeartbeatPeriodEnd_moves.mono (by decide)
  | bootToExpiry => exact execBootToExpiry_moves.mono (by decide)
  | engConfToExpiry => exact execEngConfToExpiry_moves.mono (by decide)
  | blockBeatPeriodEnd => exact execBlockBeatPeriodEnd_moves.mono (by decide)
  | internalWatchPeriod => exact execInternalWatchPeriod_moves.mono (by decide)
  | recovToExpiry => exact execRecovToExpiry_moves.mono (by decide)
  | coldRung => exact execColdRung_moves.mono (by decide)
  | reqToExpiry => exact execReqToExpiry_moves.mono (by decide)
  | peerLinkDownTimeout => exact execPeerLinkDownTimeout_moves.mono (by decide)
  | ingotCaptureEnd => exact execIngotCaptureEnd_moves.mono (by decide)
  | ingotWriteDone => exact execIngotWriteDone_moves.mono (by decide)
  | gpToExpiry => exact execGpToExpiry_moves.mono (by decide)
  | trFlushExpiry => exact execTrFlushExpiry_moves.mono (by decide)
  | syncPeriodBoundary => exact execSyncPeriodBoundary_moves.mono (by decide)
  | authExpiry => exact execAuthExpiry_moves.mono (by decide)
  | authLockoutEnd => exact execAuthLockoutEnd_moves.mono (by decide)
  | tensorBucketRefill => exact execTensorBucketRefill_moves.mono (by decide)
  | hallmarkFlashWriteDone => exact execHallmarkFlashWriteDone_moves.mono (by decide)
  | rlBucketRefill => exact execRlBucketRefill_moves.mono (by decide)
  | flashBucketRefill => exact execFlashBucketRefill_moves.mono (by decide)
  | optTick => exact execOptTick_moves.mono (by decide)
  | testDue => exact execTestDue_moves.mono (by decide)
  | reaskExpiry => exact execReaskExpiry_moves.mono (by decide)
  | testOverdue => exact execTestOverdue_moves.mono (by decide)
  | winUsExpiry => exact execWinUsExpiry_moves.mono (by decide)
  | selAckTimeout => exact execSelAckTimeout_moves.mono (by decide)
  | scanSegmentEnd => exact execScanSegmentEnd_moves.mono (by decide)
  | exitSequenceDone => exact execExitSequenceDone_moves.mono (by decide)
  | stageComplete => exact execStageComplete_moves.mono (by decide)
  | fwSelfConfirm => exact execFwSelfConfirm_moves.mono (by decide)
  | fwHealthDeadline => exact execFwHealthDeadline_moves.mono (by decide)
  | drainEnd => exact execDrainEnd_moves.mono (by decide)
  | offFlashFlushDone => exact execOffFlashFlushDone_moves.mono (by decide)
  | wakeDemand => exact execWakeDemand_moves.mono (by decide)
  | wakeHoldExpiry => exact execWakeHoldExpiry_moves.mono (by decide)
  | ctlIdleStop => exact execCtlIdleStop_moves.mono (by decide)
  | crownPowered => exact execCrownPowered_moves.mono (by decide)
  | scrubWord => exact execScrubWord_moves.mono (by decide)
  | monitorWindowEnd => exact execMonitorWindowEnd_moves.mono (by decide)
  | other1588Message => exact execOther1588Message_moves.mono (by decide)
  | portClockStop => exact execPortClockStop_moves.mono (by decide)
  | assayCalibrationWrite => exact execAssayCalibrationWrite_moves.mono (by decide)
  | faultInjectionEnd => exact execFaultInjectionEnd_moves.mono (by decide)
  | resetRequestRelease => exact execResetRequestRelease_moves.mono (by decide)
  | portDomainRelease => exact execPortDomainRelease_moves.mono (by decide)

theorem exec_pending {i : Instr} {s t : State} (h : exec i s = .next t) : t.pending = s.pending :=
  (exec_moves i s t h).1 .pending rfl

/-- The command at the front runs on the state with the queue's rest. -/
theorem step_cons {i : Instr} {rest : List Instr} {s : State} (h : s.pending = i :: rest) :
    step s = exec i { s with pending := rest } := by
  unfold step
  rw [h]

theorem step_nil {s : State} (h : s.pending = []) : step s = .next s.aoTick := by
  unfold step
  rw [h]

end Sys2Proof.Machine
end

section
/-! The statements of the step, of the queue and of the invariant. -/

namespace Sys2Proof.Machine

/-- Settles O1: the step's own case of a queue with a front. -/
theorem stepRunsFront : Obligations.StepRunsFront := by
  unfold Obligations.StepRunsFront
  exact fun _ _ _ => step_cons

/-- Settles O6: on an empty queue by the moves of the AO cycle, else by those of the row in front; taking a row from the queue leaves
alone what the invariant reads. -/
theorem stepKeepsInvariant : Obligations.StepKeepsInvariant := by
  unfold Obligations.StepKeepsInvariant
  intro s t hs ht
  cases hq : s.pending with
  | nil =>
    rw [step_nil hq] at ht
    cases ht
    exact State.aoTick_moves.2 hs
  | cons c rest =>
    rw [step_cons hq] at ht
    exact (exec_moves c _ t ht).2 hs

/-- Settles O7: the queue is no part that any row moves. -/
theorem commandsLeaveQueue : Obligations.CommandsLeaveQueue := by
  unfold Obligations.CommandsLeaveQueue
  exact fun _ _ _ => exec_pending

/-- Settles O8: the row in front answers, and leaves the queue's rest; on an empty queue the AO cycle leaves it empty. -/
theorem everyStepGoesOn : Obligations.EveryStepGoesOn := by
  unfold Obligations.EveryStepGoesOn
  intro s
  cases hq : s.pending with
  | nil => exact ⟨s.aoTick, step_nil hq, (State.aoTick_moves.1 .pending rfl).trans hq⟩
  | cons c rest =>
    obtain ⟨t, ht⟩ := exec_goesOn c { s with pending := rest }
    exact ⟨t, (step_cons hq).trans ht, exec_pending ht⟩

/-- Settles O9: neither METRO nor the queue is among the parts that a packet moves. -/
theorem packetsCannotReachMetro : Obligations.PacketsCannotReachMetro := by
  unfold Obligations.PacketsCannotReachMetro
  exact fun _ _ _ _ _ _ => ⟨State.runPacket_moves.1 .metro rfl, State.runPacket_moves.1 .pending rfl⟩

end Sys2Proof.Machine
end

section
/-! The frames of the command packets. -/

namespace Sys2Proof.Machine

/-- Settles O57: each clause is the frame half of the `Moves` law of the command's meaning. -/
theorem framesOfSystemToModelCommands : Obligations.FramesOfSystemToModelCommands := by
  unfold Obligations.FramesOfSystemToModelCommands
  -- SYS and TIME.
  refine ⟨fun _ => .of_moves execSysIdentify_moves, fun _ => .of_moves execSysStatus_moves,
    fun _ => .of_moves execSysAddress_moves, fun _ => .of_moves execSysPhase_moves, fun _ => .of_moves execSysPstate_moves,
    fun _ => .of_moves execDomainReset_moves, fun _ => .of_moves execServiceRestore_moves,
    fun _ => .of_moves execTrayDesignate_moves, fun _ => .of_moves execSysInject_moves,
    fun _ => .of_moves execTimeConfig_moves, fun _ => .of_moves execTimeJob_moves, fun _ => .of_moves execTimeAsym_moves,
    fun _ => .of_moves execTimeCal_moves, fun _ => .of_moves execTimeStatus_moves, ?_⟩
  -- COLLECT, DISC and STREAM.
  refine ⟨fun _ => .of_moves execCollectCounter_moves, fun _ => .of_moves execCollectSet_moves,
    fun _ => .of_moves execCollectArm_moves, fun _ => .of_moves execCollectMap_moves,
    fun _ => .of_moves execCollectRead_moves, fun _ => .of_moves execDiscConfig_moves,
    fun _ => .of_moves execCollectStatus_moves, fun _ => .of_moves execStreamConfig_moves,
    fun _ => .of_moves execStreamShaper_moves, fun _ => .of_moves execStreamGate_moves,
    fun _ => .of_moves execStreamLink_moves, fun _ => .of_moves execStreamStatus_moves, ?_⟩
  -- REDUCE, CUT, TREE, BCAST and MAP.
  refine ⟨fun _ => .of_moves execReduceDefine_moves, fun _ => .of_moves execReduceDelete_moves,
    fun _ => .of_moves execCutConfig_moves, fun _ => .of_moves execCutRead_moves, fun _ => .of_moves execCutRegister_moves,
    fun _ => .of_moves execCutRelease_moves, fun _ => .of_moves execTreeInstall_moves, fun _ => .of_moves execBcastSend_moves,
    fun _ => .of_moves execMapConfig_moves, fun _ => .of_moves execReduceStatus_moves, ?_⟩
  -- MODEL and CHANNEL.
  exact ⟨fun _ => .of_moves execModelLoad_moves, fun _ => .of_moves execModelActivate_moves,
    fun _ => .of_moves execModelDeactivate_moves, fun _ => .of_moves execModelUnload_moves,
    fun _ => .of_moves execModelStatus_moves, fun _ => .of_moves execChannelOpen_moves,
    fun _ => .of_moves execChannelClose_moves, fun _ => .of_moves execChannelReset_moves,
    fun _ => .of_moves execChannelForecast_moves, fun _ => .of_moves execModelParam_moves⟩

/-- Settles O58: each clause is the frame half of the `Moves` law of the command's meaning. -/
theorem framesOfVerdictToUpdateCommands : Obligations.FramesOfVerdictToUpdateCommands := by
  unfold Obligations.FramesOfVerdictToUpdateCommands
  -- SCORE, VERDICT and JOB.
  refine ⟨fun _ => .of_moves execScoreSet_moves, fun _ => .of_moves execScoreClear_moves,
    fun _ => .of_moves execVerdictWithdraw_moves, fun _ => .of_moves execVerdictConfig_moves,
    fun _ => .of_moves execVerdictBudget_moves, fun _ => .of_moves execVerdictDrill_moves,
    fun _ => .of_moves execJobMembers_moves, fun _ => .of_moves execJobEnd_moves, fun _ => .of_moves execVerdictParam_moves,
    fun _ => .of_moves execVerdictStatus_moves, ?_⟩
  -- SENTRY.
  refine ⟨fun _ => .of_moves execSentryWatch_moves, fun _ => .of_moves execSentryPartners_moves,
    fun _ => .of_moves execSentryGoal_moves, fun _ => .of_moves execSentryRollback_moves,
    fun _ => .of_moves execSentryRelease_moves, fun _ => .of_moves execSentryStatus_moves,
    fun _ => .of_moves execSentryParam_moves, ?_⟩
  -- HEARTBEAT, INGOT, CONTEXT and BRAKE.
  refine ⟨fun _ => .of_moves execHeartbeatConfig_moves, fun _ => .of_moves execIngotConfig_moves,
    fun _ => .of_moves execIngotTake_moves, fun _ => .of_moves execIngotRead_moves, fun _ => .of_moves execIngotClear_moves,
    fun _ => .of_moves execContextResult_moves, fun _ => .of_moves execBrakeStatus_moves, ?_⟩
  -- TRACE and WATCH.
  refine ⟨fun _ => .of_moves execTraceConfig_moves, fun _ => .of_moves execTraceAuth_moves,
    fun _ => .of_moves execTraceDeauth_moves, fun _ => .of_moves execTraceStatus_moves, fun _ => .of_moves execWatchArm_moves,
    fun _ => .of_moves execWatchDisarm_moves, fun _ => .of_moves execWatchRate_moves,
    fun _ => .of_moves execWatchStatus_moves, ?_⟩
  -- RECORDER.
  refine ⟨fun _ => .of_moves execRecorderRead_moves, fun _ => .of_moves execRecorderStatus_moves,
    fun _ => .of_moves execRecorderClear_moves, fun _ => .of_moves execRecorderNote_moves,
    fun _ => .of_moves execRecorderConfig_moves, ?_⟩
  -- POWER, TEMPER and METRO.
  refine ⟨fun _ => .of_moves execPowerBudget_moves, fun _ => .of_moves execPowerMember_moves,
    fun _ => .of_moves execPowerStatic_moves, fun _ => .of_moves execPowerConfig_moves,
    fun _ => .of_moves execPowerStatus_moves, fun _ => .of_moves execTemperConfig_moves,
    fun _ => .of_moves execMetroRead_moves, ?_⟩
  -- TEST.
  refine ⟨fun _ => .of_moves execTestConfig_moves, fun _ => .of_moves execTestGrant_moves,
    fun _ => .of_moves execTestDefer_moves, fun _ => .of_moves execTestDone_moves, fun _ => .of_moves execTestClear_moves,
    fun _ => .of_moves execTestStatus_moves, ?_⟩
  -- UPDATE.
  exact ⟨fun _ => .of_moves execUpdateStage_moves, fun _ => .of_moves execUpdateChain_moves,
    fun _ => .of_moves execUpdateStart_moves, fun _ => .of_moves execUpdateConfirm_moves,
    fun _ => .of_moves execUpdateStatus_moves⟩

end Sys2Proof.Machine
end

section
/-! SUPPORT. What a reply, and so a command that is turned away, leaves of the commands in progress and of Hoist. -/

namespace Sys2Proof.Machine

/-! ### The commands without their final reply (R401) -/

theorem State.intSet_acc (i : Nat) (s : State) : (s.intSet i).cmd.acc = s.cmd.acc := by
  unfold State.intSet
  dsimp only
  split
  · split <;> rfl
  · rfl

theorem State.stageRaw_acc (code : BitVec 16) (sev : Sev) (argb arg : Nat) (drill supp : Bool) (at1 : Nat) (s : State) :
    (s.stageRaw code sev argb arg drill supp at1).cmd.acc = s.cmd.acc := by
  unfold State.stageRaw
  dsimp only
  repeat' split
  all_goals simp [State.intSet_acc, show ∀ t : State, (t.bump cHallmarkDrop).cmd = t.cmd from fun _ => rfl]

theorem State.stageQuiet_acc (code : BitVec 16) (sev : Sev) (argb arg : Nat) (s : State) :
    (s.stageQuiet code sev argb arg).cmd.acc = s.cmd.acc := by
  unfold State.stageQuiet
  dsimp only
  repeat' split
  all_goals simp [State.stageRaw_acc]

theorem State.place_cmd (q : Req) (s : State) : (s.place q).1.cmd = s.cmd := State.place_moves.1 .cmd rfl

theorem State.modOut_cmd (c : Nat) (f : OutStream → OutStream) (s : State) : (s.modOut c f).cmd = s.cmd := rfl

theorem State.putEpochTo_cmd (d : Dest) (c : Fin 4) (s : State) : (s.putEpochTo d c).cmd = s.cmd := State.putEpochTo_moves.1 .cmd rfl

theorem State.putRecon_acc (c : Fin 4) (s : State) : (s.putRecon c).cmd.acc = s.cmd.acc := by
  have hrecount : s.recount.cmd.acc = s.cmd.acc := by
    unfold State.recount
    dsimp only
    split
    · rfl
    · exact State.stageQuiet_acc ..
  unfold State.putRecon
  dsimp only
  split <;> simp [State.modOut_cmd, State.place_cmd, hrecount]

theorem State.putEpoch_acc (c : Fin 4) (s : State) : (s.putEpoch c).cmd.acc = s.cmd.acc := by
  unfold State.putEpoch
  dsimp only
  repeat' split
  all_goals simp [State.putRecon_acc, State.modOut_cmd, State.putEpochTo_cmd]

theorem State.send_acc (q : Req) (s : State) : (s.send q).cmd.acc = s.cmd.acc := by
  have hsettle : (s.settleEpoch q.cls q.dst (q.typ == tJoin)).cmd.acc = s.cmd.acc := by
    unfold State.settleEpoch
    dsimp only
    repeat' split
    all_goals simp [State.putEpochTo_cmd, State.putEpoch_acc]
  unfold State.send State.offer
  repeat' split
  all_goals simp [State.place_cmd, hsettle]

theorem State.sendReplyRecs_acc (dst : Laddr) (r : Reply) (out : List Byte) (s : State) :
    (s.sendReplyRecs dst r out).cmd.acc = s.cmd.acc := by
  unfold State.sendReplyRecs State.sendReplyTo
  exact List.foldlRecOn (motive := fun t : State => t.cmd.acc = s.cmd.acc) _ _ rfl fun t ht _ _ => (State.send_acc _ t).trans ht

theorem State.putReply_acc (fab : Bool) (r : Reply) (tail : List Byte) (s : State) :
    (s.putReply fab r tail).cmd.acc = s.cmd.acc := by
  unfold State.putReply State.putSlot State.modPair
  dsimp only
  repeat' split
  all_goals simp [State.intSet_acc]

theorem State.gatewayReply_acc (f : Flight) (src : Laddr) (r : Reply) (out : List Byte) (s : State) :
    (s.gatewayReply f src r out).cmd.acc = s.cmd.acc := by
  unfold State.gatewayReply
  dsimp only
  repeat' split
  all_goals exact State.putReply_acc ..

theorem State.bump_cmd (i : Nat) (s : State) : (s.bump i).cmd = s.cmd := rfl

theorem CmdUnit.storeReply_acc (c : CmdUnit) (src : Laddr) (iss : Issuer) (seq : BitVec 16) (r : Option (Reply × List Byte)) :
    (c.storeReply src iss seq r).acc = c.acc := by
  simp only [CmdUnit.storeReply]

theorem State.reply_acc (p : Path) (ptr : Dword) (r : Reply) (out : List Byte) (s : State) :
    (s.reply p ptr r out).cmd.acc = s.cmd.acc := by
  unfold State.reply
  dsimp only
  cases p <;> dsimp only
  all_goals repeat' split
  all_goals simp [State.putReply_acc, State.gatewayReply_acc, State.sendReplyRecs_acc, State.bump_cmd, CmdUnit.storeReply_acc]

theorem State.turnedAway_acc (o : OpSpec) (c : Cmd) (st : BitVec 16) (d : Dword) (s : State) :
    (s.turnedAway o c st d).cmd.acc = s.cmd.acc :=
  (congrArg CmdUnit.acc (State.restoreNext_moves.1 .cmd rfl)).trans (State.reply_acc ..)

/-! ### Hoist -/

/-- Of Hoist a reply changes at most whether the restored configuration was taken whole (R430). -/
theorem State.reply_hoist (p : Path) (ptr : Dword) (r : Reply) (out : List Byte) (s : State) :
    ∃ ok, (s.reply p ptr r out).hoist = { s.hoist with restoreOk := ok } := by
  have hput : ∀ fab r tail (t : State), (t.putReply fab r tail).hoist = t.hoist := fun _ _ _ _ => State.putReply_moves.1 .hoist rfl
  have hgate : ∀ f src (t : State), (t.gatewayReply f src r out).hoist = t.hoist := fun _ _ _ => State.gatewayReply_moves.1 .hoist rfl
  have hsend : ∀ dst (t : State), (t.sendReplyRecs dst r out).hoist = t.hoist := fun _ _ => State.sendReplyRecs_moves.1 .hoist rfl
  have hcount : (if r.status.toNat < 0x20 then s else s.bump cCmdRejected).hoist = s.hoist := by split <;> rfl
  unfold State.reply
  dsimp only
  generalize (if r.status.toNat < 0x20 then s else s.bump cCmdRejected) = u at hcount
  rw [← hcount]
  cases p <;> dsimp only
  case restore =>
    split
    · exact ⟨_, rfl⟩
    · exact ⟨false, rfl⟩
  all_goals refine ⟨u.hoist.restoreOk, ?_⟩
  all_goals repeat' split
  all_goals simp [hput, hgate, hsend]

theorem State.turnedAway_hoist (o : OpSpec) (c : Cmd) (st : BitVec 16) (d : Dword) (s : State) :
    ∃ ok, (s.turnedAway o c st d).hoist = { s.hoist with restoreOk := ok } := by
  obtain ⟨ok, hok⟩ := State.reply_hoist c.path 0
    { tag := c.tag, status := st, opcode := o.code, final := true, event := false, detail := d, result := [] } [] s
  exact ⟨ok, (State.restoreNext_moves.1 .hoist rfl).trans hok⟩

end Sys2Proof.Machine
end

section
/-! SUPPORT. The commands that fail a check which every command shares (R397). -/

namespace Sys2Proof.Machine

section Refused

variable {o : OpSpec} {c : Cmd} {pr rest : List Check} {eff : State → Ans} {s : State} {k : Check}

/-- The checks that every command shares come before the opcode's own. -/
theorem checks_refused (hbase : firstFail (baseChecks o c s) = some k) : firstFail (s.checks o c pr rest) = some k := by
  simp [State.checks, firstFail_append, hbase]

theorem runCmd_refused (hpath : s.pathReady o.code c = true) (hbase : firstFail (baseChecks o c s) = some k) :
    runCmd o c pr rest eff s = (s.bump cCmdReceived).turnedAway o c k.status k.detail :=
  runCmd_away hpath (checks_refused hbase)

/-- A count in the collector and an answer are all that a command turned away changes. -/
theorem refused_hoist {st : BitVec 16} {d : Dword} :
    ∃ ok, ((s.bump cCmdReceived).turnedAway o c st d).hoist = { s.hoist with restoreOk := ok } :=
  State.turnedAway_hoist o c st d (s.bump cCmdReceived)

end Refused

/-- Most commands are `runCmd` alone. -/
theorem RefusedFirst.of_runCmd {o : Cmd → OpSpec} {mk : Cmd → Instr}
    (h : ∀ c s, ∃ pr rest eff, exec (mk c) s = .next (runCmd (o c) c pr rest eff s)) : RefusedFirst o mk := by
  intro c s k hpath hbase
  obtain ⟨pr, rest, eff, hrun⟩ := h c s
  exact hrun.trans <| congrArg Host.Outcome.next <| runCmd_refused hpath hbase

/-! ### Commands that look at their answer -/

/-- The target moves only where every check passes. -/
theorem sysPstate_refusedFirst : RefusedFirst (fun _ => opSysPstate) .sysPstate := by
  intro c s k hpath hbase
  refine congrArg Host.Outcome.next ?_
  simp [cmdSysPstate, runCmd_refused hpath hbase, checks_refused hbase]

/-- Turned away, a broadcast takes no BID. -/
theorem bcastSend_refusedFirst : RefusedFirst (fun _ => opBcastSend) .bcastSend := by
  intro c s k hpath hbase
  have hbid : ((s.bump cCmdReceived).turnedAway opBcastSend c k.status k.detail).crown = s.crown :=
    State.turnedAway_moves.1 .crown rfl
  refine congrArg Host.Outcome.next ?_
  rw [runCmd_refused hpath hbase]
  exact if_pos (congrArg CrownUnit.bidNext hbid)

/-- Turned away, the command is not among those in progress, and no capture starts. -/
theorem ingotTake_refusedFirst : RefusedFirst (fun _ => opIngotTake) .ingotTake := by
  intro c s k hpath hbase
  have hacc : ((s.bump cCmdReceived).turnedAway opIngotTake c k.status k.detail).cmd.acc = s.cmd.acc := State.turnedAway_acc ..
  change execIngotTake c s = _
  simp only [execIngotTake, runCmd_refused hpath hbase, hacc, Bool.and_not_self]
  rfl

/-- A token is judged only once the shared checks have passed. -/
theorem traceAuth_refusedFirst : RefusedFirst (fun _ => opTraceAuth) .traceAuth := by
  intro c s k hpath hbase
  change execTraceAuth c s = _
  simp [execTraceAuth, runCmd_refused hpath hbase, firstFail_append, hbase]

/-- Turned away, the command waits for no grant of the master. -/
theorem updateStart_refusedFirst : RefusedFirst (fun _ => opUpdateStart) .updateStart := by
  intro c s k hpath hbase
  obtain ⟨ok, hoist⟩ := refused_hoist (o := opUpdateStart) (c := c) (s := s) (st := k.status) (d := k.detail)
  change execUpdateStart c s = _
  simp only [execUpdateStart, runCmd_refused hpath hbase, hoist]
  cases s.hoist.waitStart <;> rfl

theorem exec_domainReset_refused {c : Cmd} {s : State} {k : Check} (hfree : s.hangHold = false)
    (hpath : s.pathReady opDomainReset.code c = true) (hbase : firstFail (baseChecks opDomainReset c s) = some k) :
    exec (.domainReset c) s = .next ((s.bump cCmdReceived).turnedAway opDomainReset c k.status k.detail) := by
  change execDomainReset c s = _
  simp only [execDomainReset, hfree, Bool.false_eq_true, if_false, runCmd_refused hpath hbase]

/-- With no stage in progress there is none to go on with. -/
theorem exec_updateStage_refused {c : Cmd} {s : State} {k : Check} (hidle : s.hoist.stage = none)
    (hpath : s.pathReady opUpdateStage.code c = true) (hbase : firstFail (baseChecks opUpdateStage c s) = some k) :
    exec (.updateStage c) s = .next ((s.bump cCmdReceived).turnedAway opUpdateStage c k.status k.detail) := by
  obtain ⟨ok, hoist⟩ := refused_hoist (o := opUpdateStage) (c := c) (s := s) (st := k.status) (d := k.detail)
  change execUpdateStage c s = _
  simp only [execUpdateStage, runCmd_refused hpath hbase, State.stageStart, hoist, hidle]

theorem exec_updateChain_refused {c : Cmd} {s : State} {k : Check} (hidle : s.hoist.stage = none)
    (hpath : s.pathReady opUpdateChain.code c = true) (hbase : firstFail (baseChecks opUpdateChain c s) = some k) :
    exec (.updateChain c) s = .next ((s.bump cCmdReceived).turnedAway opUpdateChain c k.status k.detail) := by
  obtain ⟨ok, hoist⟩ := refused_hoist (o := opUpdateChain) (c := c) (s := s) (st := k.status) (d := k.detail)
  change execUpdateChain c s = _
  simp only [execUpdateChain, runCmd_refused hpath hbase, State.pumpStage, State.pumpChunks, hoist, hidle]

end Sys2Proof.Machine
end

section
/-! The statement of the commands that fail a shared check. -/

namespace Sys2Proof.Machine

/-- Settles O17: a command that is `runCmd` alone is turned away by it; those that look at its answer find nothing done. -/
theorem rejectedCommandsHaveNoEffect : Obligations.RejectedCommandsHaveNoEffect := by
  unfold Obligations.RejectedCommandsHaveNoEffect
  refine ⟨
    -- SYS and TIME.
    .of_runCmd ?_, .of_runCmd ?_, .of_runCmd ?_, .of_runCmd ?_, sysPstate_refusedFirst, .of_runCmd ?_, .of_runCmd ?_,
    .of_runCmd ?_, .of_runCmd ?_, .of_runCmd ?_, .of_runCmd ?_, .of_runCmd ?_, .of_runCmd ?_,
    -- COLLECT, DISC and STREAM.
    .of_runCmd ?_, .of_runCmd ?_, .of_runCmd ?_, .of_runCmd ?_, .of_runCmd ?_, .of_runCmd ?_, .of_runCmd ?_, .of_runCmd ?_,
    .of_runCmd ?_, .of_runCmd ?_, .of_runCmd ?_, .of_runCmd ?_,
    -- REDUCE, CUT, TREE, BCAST and MAP.
    .of_runCmd ?_, .of_runCmd ?_, .of_runCmd ?_, .of_runCmd ?_, .of_runCmd ?_, .of_runCmd ?_, .of_runCmd ?_,
    bcastSend_refusedFirst, .of_runCmd ?_, .of_runCmd ?_,
    -- MODEL and CHANNEL.
    .of_runCmd ?_, .of_runCmd ?_, .of_runCmd ?_, .of_runCmd ?_, .of_runCmd ?_, .of_runCmd ?_, .of_runCmd ?_, .of_runCmd ?_,
    .of_runCmd ?_, .of_runCmd ?_,
    -- SCORE, VERDICT, JOB and SENTRY.
    .of_runCmd ?_, .of_runCmd ?_, .of_runCmd ?_, .of_runCmd ?_, .of_runCmd ?_, .of_runCmd ?_, .of_runCmd ?_, .of_runCmd ?_,
    .of_runCmd ?_, .of_runCmd ?_, .of_runCmd ?_, .of_runCmd ?_, .of_runCmd ?_, .of_runCmd ?_, .of_runCmd ?_, .of_runCmd ?_,
    .of_runCmd ?_,
    -- HEARTBEAT, INGOT, CONTEXT and BRAKE.
    .of_runCmd ?_, .of_runCmd ?_, ingotTake_refusedFirst, .of_runCmd ?_, .of_runCmd ?_, .of_runCmd ?_, .of_runCmd ?_,
    -- TRACE and WATCH.
    .of_runCmd ?_, traceAuth_refusedFirst, .of_runCmd ?_, .of_runCmd ?_, .of_runCmd ?_, .of_runCmd ?_, .of_runCmd ?_,
    .of_runCmd ?_,
    -- RECORDER, POWER, TEMPER and METRO.
    .of_runCmd ?_, .of_runCmd ?_, .of_runCmd ?_, .of_runCmd ?_, .of_runCmd ?_, .of_runCmd ?_, .of_runCmd ?_, .of_runCmd ?_,
    .of_runCmd ?_, .of_runCmd ?_, .of_runCmd ?_, .of_runCmd ?_,
    -- TEST, and the rest of UPDATE.
    .of_runCmd ?_, .of_runCmd ?_, .of_runCmd ?_, .of_runCmd ?_, .of_runCmd ?_, .of_runCmd ?_, updateStart_refusedFirst,
    .of_runCmd ?_, .of_runCmd ?_, fun _ _ _ => exec_domainReset_refused, fun _ _ _ => exec_updateStage_refused,
    fun _ _ _ => exec_updateChain_refused⟩
  all_goals exact fun _ _ => ⟨_, _, _, rfl⟩

end Sys2Proof.Machine
end

section
/-! SUPPORT. What the commands of the groups HEARTBEAT to UPDATE read after the start of their command, and checks of ranges. -/

namespace Sys2Proof.Machine

@[simp] theorem State.begun_brake (o : OpSpec) (s : State) : (s.begun o).brake = s.brake := State.begun_moves.1 .brake rfl

@[simp] theorem State.begun_flash (o : OpSpec) (s : State) : (s.begun o).flash = s.flash := State.begun_moves.1 .flash rfl

@[simp] theorem State.begun_trace (o : OpSpec) (s : State) : (s.begun o).trace = s.trace := State.begun_moves.1 .trace rfl

@[simp] theorem State.begun_hall (o : OpSpec) (s : State) : (s.begun o).hall = s.hall := State.begun_moves.1 .hall rfl

@[simp] theorem State.begun_gov (o : OpSpec) (s : State) : (s.begun o).gov = s.gov := State.begun_moves.1 .gov rfl

@[simp] theorem State.begun_temper (o : OpSpec) (s : State) : (s.begun o).temper = s.temper := State.begun_moves.1 .temper rfl

@[simp] theorem State.begun_assay (o : OpSpec) (s : State) : (s.begun o).assay = s.assay := State.begun_moves.1 .assay rfl

@[simp] theorem State.begun_test (o : OpSpec) (s : State) : (s.begun o).test = s.test := State.begun_moves.1 .test rfl

@[simp] theorem State.begun_hoist (o : OpSpec) (s : State) : (s.begun o).hoist = s.hoist := State.begun_moves.1 .hoist rfl

@[simp] theorem ckIn_ok (lo v hi off : Nat) : (ckIn lo v hi off).ok = (decide (lo ≤ v) && decide (v ≤ hi)) := rfl

end Sys2Proof.Machine
end

section
/-! SUPPORT. The HEARTBEAT, INGOT, CONTEXT and BRAKE commands: what each answers where every check passes. -/

namespace Sys2Proof.Machine

/-! ### HEARTBEAT.CONFIG (R275) -/

/-- The parameters are in their ranges (Table 16.15). -/
abbrev HeartbeatRanges (c : Cmd) : Prop :=
  cp c 0 1 ≤ 2 ∧ cp c 1 1 ≤ 2 ∧ (1 ≤ cp c 2 1 ∧ cp c 2 1 ≤ 15) ∧ (cp c 2 1 + 1 ≤ cp c 3 1 ∧ cp c 3 1 ≤ 64) ∧
    (1 ≤ cp c 4 2 ∧ cp c 4 2 ≤ 10000) ∧ (1 ≤ cp c 6 2 ∧ cp c 6 2 ≤ 6000) ∧ (1 ≤ cp c 8 2 ∧ cp c 8 2 ≤ 1000) ∧
    (1 ≤ cp c 10 1 ∧ cp c 10 1 ≤ 100) ∧ cp c 11 1 ≤ 1 ∧ (1 ≤ cp c 12 2 ∧ cp c 12 2 ≤ 1000) ∧ (1 ≤ cp c 14 2 ∧ cp c 14 2 ≤ 1000) ∧
    (1 ≤ cp c 16 1 ∧ cp c 16 1 ≤ 16) ∧ (1 ≤ cp c 18 2 ∧ cp c 18 2 ≤ 1440) ∧ cp c 20 1 ≤ 1 ∧ (1 ≤ cp c 21 1 ∧ cp c 21 1 ≤ 100) ∧
    (1 ≤ cp c 22 1 ∧ cp c 22 1 ≤ 100) ∧ cp c 23 1 ≤ 1 ∧ (1 ≤ cp c 24 2 ∧ cp c 24 2 ≤ 60000)

theorem exec_heartbeatConfig_clean {c : Cmd} {s t : State} (h : Clean opHeartbeatConfig c s) (hn : NoInput c)
    (hr : HeartbeatRanges c) (ht : t = (s.begun opHeartbeatConfig).brakeCfg (parseBrake c)) :
    exec (.heartbeatConfig c) s = .next ((if cp c 0 1 = 0 then t.watchTo .off else if cp c 0 1 = 1 then t.watchTo .armed
      else t).answered opHeartbeatConfig c 0 [] []) := by
  subst ht
  refine congrArg Host.Outcome.next <| runCmd_ok h (by simpa [ckNoInline_ok hn, HeartbeatRanges, Nat.succ_le_iff] using hr) (by simp) ?_
  match cp c 0 1 with
  | 0 => rfl
  | 1 => rfl
  | _ + 2 => rfl

/-! ### Ingots (R295 to R298) -/

theorem exec_ingotConfig_clean {c : Cmd} {s : State} {l : List Region}
    (hl : l = (List.range (cp c 0 1)).map fun i => parseRegion (cdata c 0) (16 * i)) (h : Clean opIngotConfig c s)
    (hdata : (ckData opIngotConfig c 0 (16 * cp c 0 1)).ok = true) (hctx : cp c 8 8 < 2 ^ 48) (hcount : cp c 0 1 ≤ 64)
    (hregion : ∀ r ∈ l, r.level ≤ 2 ∧ r.addr < 2 ^ 48 ∧ 8 ≤ r.len ∧ r.len ≤ 1048576 ∧ r.len % 8 = 0)
    (hrsvd : ∀ i < cp c 0 1, rd (cdata c 0) (16 * i + 3) 1 = 0) :
    exec (.ingotConfig c) s = .next (((s.begun opIngotConfig).modBrake fun u =>
      { u with regions := l, ctxBase := cp c 8 8 }).answered opIngotConfig c 0 [] []) := by
  subst hl
  refine congrArg Host.Outcome.next <| runCmd_ok h ?_ (by simp) rfl
  simp only [List.forall_mem_cons, ckParam_ok, ckRange_ok, List.all_eq_true, List.mem_range, Bool.and_eq_true, decide_eq_true_eq,
    beq_iff_eq]
  exact ⟨hdata, hctx, fun r hr => ⟨(hregion r hr).1, (hregion r hr).2.1⟩, hrsvd, hcount,
    fun r hr => and_assoc.2 (hregion r hr).2.2, by simp⟩

theorem State.takenOn_acc (o : OpSpec) (c : Cmd) (obj : Nat) (f : Option Final) (s : State) : (s.takenOn o c obj f).cmd.acc =
    s.cmd.acc ++ [{ path := c.path, tag := c.tag, opcode := o.code, ptr := outPtr o c, obj := obj, ready := f }] := by
  have hcmd : ∀ (p : Path) (t : State), (t.restoreNext p).cmd = t.cmd := fun _ _ => State.restoreNext_moves.1 .cmd rfl
  simp [State.takenOn, hcmd, State.keepAcc, State.reply_acc]

/-- A tag in use would have failed its check, so the command in progress that starts the capture is this one. -/
theorem exec_ingotTake_clean {c : Cmd} {s : State} (h : Clean opIngotTake c s) (hn : NoInput c) (hcap : s.brake.capture = none)
    (hwr : s.brake.writing = none) :
    exec (.ingotTake c) s = .next (((s.begun opIngotTake).takenOn opIngotTake c 2 none).captureStart 5 0 0xFF 0xFF false
      s.brake.regions) := by
  have ⟨_, hbase, _⟩ := h
  have htag : s.dupTag c = false := by
    simpa using firstFail_none.1 hbase { ok := !s.dupTag c, status := stParam, detail := errDetail 0 2 0xFF } (by simp [baseChecks])
  have hnew : (s.cmd.acc.any fun a => a.opcode == 0x0902 && a.path == c.path && a.tag == c.tag) = false := by
    refine Bool.eq_false_iff.mpr fun hany => Bool.eq_false_iff.mp htag ?_
    obtain ⟨a, ha, hsame⟩ := List.any_eq_true.1 hany
    exact List.any_eq_true.2 ⟨a, ha, by simp_all⟩
  have hbrake : ((s.begun opIngotTake).takenOn opIngotTake c 2 none).brake = s.brake :=
    (State.takenOn_moves.1 .brake rfl).trans (State.begun_brake ..)
  have hrun : runCmd opIngotTake c [ckNoInline c] [ckState (s.brake.capture.isNone && s.brake.writing.isNone)]
      (fun t => .acc 2 none t) s = (s.begun opIngotTake).takenOn opIngotTake c 2 none :=
    runCmd_acc h (by simp [ckNoInline_ok hn]) (by simp [hcap, hwr]) rfl
  change execIngotTake c s = _
  simp only [execIngotTake, hrun, State.takenOn_acc, State.begun_cmd, List.any_append, hnew, hbrake]
  simp [show opIngotTake.code = 0x0902 from rfl]

theorem exec_ingotRead_clean {c : Cmd} {s : State} {d : List Byte}
    (hd : d = ((s.ingotImage (cp c 0 1)).drop (cp c 4 4)).take (cp c 8 4)) (h : Clean opIngotRead c s) (hn : NoInput c)
    (hwr : (ckWrite opIngotRead c 0).ok = true) (hdie : cp c 0 1 = 0 → s.isDie = true) (hslot : cp c 0 1 ≤ 3) :
    exec (.ingotRead c) s = .next ((if cp c 0 1 ≤ 2 then (s.begun opIngotRead).readFlash (ingotBase (cp c 0 1) + cp c 4 4) d.length
      else s.begun opIngotRead).takenOn opIngotRead c 0
      (some { status := stOk, detail := 0, result := be 4 d.length, out := d })) := by
  subst hd
  exact congrArg Host.Outcome.next <| runCmd_acc h
    (by simpa [ckNoInline_ok hn, hslot, hwr] using Decidable.not_or_of_imp hdie) (by simp)
    (by simp [State.ingotImage, finOk])

theorem exec_ingotClear_clean {c : Cmd} {s : State} (h : Clean opIngotClear c s) (hn : NoInput c) (hslot : cp c 0 1 ≤ 2) :
    exec (.ingotClear c) s = .next ((if cp c 0 1 = 0 ∧ (s.brake.capture.isSome ∨ s.brake.writing.isSome) then
        (s.begun opIngotClear).modBrake fun b => { b with clearDue := true }
      else (s.begun opIngotClear).clearIngot (cp c 0 1)).answered opIngotClear c 0 [] []) := by
  refine congrArg Host.Outcome.next <| runCmd_ok h (by simp [ckNoInline_ok hn, hslot]) (by simp) ?_
  by_cases hzero : cp c 0 1 = 0
  · simp [hzero]
  · simp [hzero]

/-! ### The context search and BRAKE.STATUS (R304) -/

theorem exec_contextResult_clean {c : Cmd} {s : State} {q : Search} (h : Clean opContextResult c s) (hn : NoInput c)
    (hq : s.brake.search = some q) (hcur : q.cur.toNat = cp c 0 4) (hres : cp c 4 1 ≤ 1) :
    exec (.contextResult c) s = .next ((if cp c 4 1 = 0 then (s.begun opContextResult).searchNext q
      else (s.begun opContextResult).guilty q).answered opContextResult c 0 [] []) :=
  congrArg Host.Outcome.next <| runCmd_ok h (by simp [ckNoInline_ok hn, hq, hcur, hres]) (by simp [hq]) (by simp [hq])

theorem exec_brakeStatus_clean {c : Cmd} {s : State} (h : Clean opBrakeStatus c s) (hn : NoInput c) :
    exec (.brakeStatus c) s = .next ((s.begun opBrakeStatus).answered opBrakeStatus c 0
      (be 1 (min s.brake.miss 255) ++ be 1 s.brakeState ++ be 1 (min s.nesc 255) ++ zeros 5 ++ be 8 s.brake.lastBeat) []) :=
  congrArg Host.Outcome.next <| runCmd_ok h (by simp [ckNoInline_ok hn]) (by simp) (by simp [State.brakeState, State.nesc])

end Sys2Proof.Machine
end

section
/-! The statement of the recovery commands. -/

namespace Sys2Proof.Machine

/-- Settles O27: each clause is the run lemma of its command. -/
theorem recoveryCommandsRun : Obligations.RecoveryCommandsRun := by
  unfold Obligations.RecoveryCommandsRun
  refine ⟨fun c _ _ h hn h0 h1 h2 h2' h3 h3' h4 h4' h6 h6' h8 h8' h10 h10' h11 h12 h12' h14 h14' h16 h16' h18 h18' h20 h21 h21' h22
    h22' h23 h24 h24' => exec_heartbeatConfig_clean h hn ⟨h0, h1, ⟨h2, h2'⟩, ⟨h3, h3'⟩, ⟨h4, h4'⟩, ⟨h6, h6'⟩, ⟨h8, h8'⟩, ⟨h10, h10'⟩,
      h11, ⟨h12, h12'⟩, ⟨h14, h14'⟩, ⟨h16, h16'⟩, ⟨h18, h18'⟩, h20, ⟨h21, h21'⟩, ⟨h22, h22'⟩, h23, h24, h24'⟩, ?_⟩
  exact ⟨fun _ _ _ => exec_ingotConfig_clean, fun _ _ => exec_ingotTake_clean, fun _ _ _ => exec_ingotRead_clean,
    fun _ _ => exec_ingotClear_clean, fun _ _ _ => exec_contextResult_clean, fun _ _ => exec_brakeStatus_clean⟩

end Sys2Proof.Machine
end

section
/-! SUPPORT. The TRACE and WATCH commands: what each answers where every check passes, and TRACE.AUTH refused. -/

namespace Sys2Proof.Machine

/-! ### TRACE.CONFIG and TRACE.STATUS (R311 to R314) -/

theorem exec_traceConfig_clean {c : Cmd} {s : State} (h : Clean opTraceConfig c s) (hn : NoInput c) (hmap : cp c 32 1 < 16)
    (hout : cp c 33 1 ≤ 1) (h3 : cp c 34 1 ≤ cp c 35 1) (h2 : cp c 35 1 ≤ cp c 36 1) (h1 : cp c 36 1 ≤ 64)
    (hflush : 1 ≤ cp c 38 2) (hflush' : cp c 38 2 ≤ 1000) (hsync : 1 ≤ cp c 40 2) (hsync' : cp c 40 2 ≤ 10000) :
    exec (.traceConfig c) s = .next (((s.begun opTraceConfig).modTrace fun u =>
      { u with mask := BitVec.ofNat 256 (cp c 0 32), tcmap := BitVec.ofNat 4 (cp c 32 1), mout := cp c 33 1 == 1,
               th3 := cp c 34 1, th2 := cp c 35 1, th1 := cp c 36 1, flush := cp c 38 2 * 10000,
               syncNext := some (cp c 40 2 * 100000) }).answered opTraceConfig c 0 [] []) :=
  congrArg Host.Outcome.next <| runCmd_ok h
    (by simp [ckNoInline_ok hn, hmap, hout, h3, h2, h1, h2.trans h1, h3.trans (h2.trans h1), hflush, hflush', hsync, hsync'])
    (by simp) rfl

/-- AUTHLEFT is in whole seconds, truncated (log entry 60). -/
theorem exec_traceStatus_clean {c : Cmd} {s : State} (h : Clean opTraceStatus c s) (hn : NoInput c) :
    exec (.traceStatus c) s = .next ((s.begun opTraceStatus).answered opTraceStatus c 0
      (be 4 (s.tsrc (cp c 0 1)).excl ++ be 4 (s.tsrc (cp c 0 1)).drops ++ be 4 (s.tsrc (cp c 0 1)).syncw
        ++ be 4 (s.trace.auth.elim 0 fun a => (a.til - s.tb0Ns) / 1000000000)) []) := by
  refine congrArg Host.Outcome.next <| runCmd_ok h (by simp [ckNoInline_ok hn]) (by simp) ?_
  cases hauth : s.trace.auth <;> simp [State.tsrc, hauth]

/-! ### Authorisation (R315 to R317) -/

theorem exec_traceDeauth_clean {c : Cmd} {s : State} (h : Clean opTraceDeauth c s) (hn : NoInput c) :
    exec (.traceDeauth c) s = .next ((s.begun opTraceDeauth).endAuth.answered opTraceDeauth c 0 [] []) :=
  congrArg Host.Outcome.next <| runCmd_ok h (by simp [ckNoInline_ok hn]) (by simp) rfl

theorem exec_traceAuth_granted {c : Cmd} {s : State} (h : Clean opTraceAuth c s) (hn : NoInput c) (hsec : 1 ≤ cp c 8 4)
    (hsec' : cp c 8 4 ≤ 86400) (hauth : s.authRefused c = false) :
    exec (.traceAuth c) s = .next ((((s.begun opTraceAuth).modTrace fun u =>
      { u with auth := some { mask := BitVec.ofNat 256 (cp c 12 32), since := s.time.tb1.toNat, before := s.authMask,
                                til := s.tb0Ns + cp c 8 4 * 1000000000 } }).authRecords 0x0B02
        (BitVec.ofNat 256 (cp c 12 32))).answered opTraceAuth c 0 [] []) := by
  have htoken : s.badToken c = false := (Bool.or_eq_false_iff.1 hauth).2
  change execTraceAuth c s = _
  unfold execTraceAuth
  dsimp only
  rw [htoken, Bool.and_false, if_neg Bool.false_ne_true]
  exact congrArg Host.Outcome.next <| runCmd_ok h (by simp [ckNoInline_ok hn, hsec, hsec']) (by simp [hauth])
    (by simp [State.authMask])

theorem runCmd_authRefused {c : Cmd} {s : State} {eff : State → Ans} (h : Clean opTraceAuth c s) (hn : NoInput c)
    (hsec : 1 ≤ cp c 8 4) (hsec' : cp c 8 4 ≤ 86400) (hauth : s.authRefused c = true) :
    runCmd opTraceAuth c [ckNoInline c, ckRange (decide (1 ≤ cp c 8 4) && decide (cp c 8 4 ≤ 86400)) 8]
      [ckStatus (!s.authRefused c) stAuth] eff s = (s.bump cCmdReceived).turnedAway opTraceAuth c stAuth (errDetail 0 0 0xFF) := by
  obtain ⟨hpath, hbase, heng, -⟩ := h
  refine runCmd_away (k := ckStatus false stAuth) hpath ?_
  have hrest : (opTraceAuth.served || s.engUp) = true := by simpa using heng
  simp [State.checks, firstFail_append, hbase, firstFail, ckNoInline_ok hn, hsec, hsec', hrest, hauth, ckStatus]

/-- A token that does not match is counted, and the fourth within an hour starts the lockout. -/
theorem exec_traceAuth_badToken {c : Cmd} {s : State} {l : List Nat} (h : Clean opTraceAuth c s) (hn : NoInput c)
    (hsec : 1 ≤ cp c 8 4) (hsec' : cp c 8 4 ≤ 86400) (htoken : s.badToken c = true) (hfree : s.authLocked = false)
    (hl : l = (if s.trace.lockAt.isSome then [] else s.trace.refusals.filter fun t => decide (s.tb1Ns < t + hourNs)) ++ [s.tb1Ns]) :
    exec (.traceAuth c) s = .next ((((s.bump cCmdReceived).turnedAway opTraceAuth c stAuth (errDetail 0 0 0xFF)).modTrace fun u =>
      { u with refusals := l, lockAt := if 4 ≤ l.length then some s.tb1Ns else none }).stage 0x0B01 .notice l.length 0) := by
  subst hl
  have hauth : s.authRefused c = true := by simp [State.authRefused, htoken]
  have ⟨hpath, hbase, hserved, _⟩ := h
  have heng : s.engUp = true := hserved.resolve_left (by decide)
  change execTraceAuth c s = _
  simp only [execTraceAuth, runCmd_authRefused h hn hsec hsec' hauth]
  simp [hpath, hbase, heng, firstFail_append, firstFail, ckNoInline_ok hn, hsec, hsec', htoken, hfree]

/-- In the lockout a token that matches is refused as well, and not counted (log entry 60). -/
theorem exec_traceAuth_locked {c : Cmd} {s : State} (h : Clean opTraceAuth c s) (hn : NoInput c) (hsec : 1 ≤ cp c 8 4)
    (hsec' : cp c 8 4 ≤ 86400) (htoken : s.badToken c = false) (hlock : s.authLocked = true) :
    exec (.traceAuth c) s = .next ((s.bump cCmdReceived).turnedAway opTraceAuth c stAuth (errDetail 0 0 0xFF)) := by
  have hauth : s.authRefused c = true := by simp [State.authRefused, hlock]
  change execTraceAuth c s = _
  simp only [execTraceAuth, runCmd_authRefused h hn hsec hsec' hauth, htoken, Bool.and_false, Bool.false_eq_true, if_false]

/-! ### Tensor watches (R321, R324) -/

@[simp] theorem State.twatch_begun (o : OpSpec) (s : State) (w : Nat) : (s.begun o).twatch w = s.twatch w := by simp [State.twatch]

theorem exec_watchArm_clean {c : Cmd} {s : State} {e : WatchEnt} {w : Nat} (he : e = parseWatch (cdata c 0))
    (hw : w = rd (cdata c 0) 0 1) (h : Clean opWatchArm c s) (hdata : (ckData opWatchArm c 0 64).ok = true)
    (hent : watchEntOk (cdata c 0) e = true) (hrange : w < 64) (hcap : 1 ≤ e.cap) (hcap' : e.cap ≤ 268435456) (hel : 1 ≤ e.nelem) :
    exec (.watchArm c) s = .next ((((s.begun opWatchArm).putTwatch w { s.twatch w with next := some e }).event 0x0BE0 e.raw).answered
      opWatchArm c 0 [] []) := by
  subst he hw
  exact congrArg Host.Outcome.next <| runCmd_ok h (by simp [hdata, hent, hrange, hcap, hcap', hel]) (by simp) (by simp)

theorem exec_watchDisarm_clean {c : Cmd} {s : State} (h : Clean opWatchDisarm c s) (hn : NoInput c) (hw : cp c 0 1 < 64)
    (harmed : (tget s.trace.watches (cp c 0 1)).isSome = true) :
    exec (.watchDisarm c) s = .next (((s.begun opWatchDisarm).disarm (cp c 0 1) 0).answered opWatchDisarm c 0 [] []) :=
  congrArg Host.Outcome.next <| runCmd_ok h (by simp [ckNoInline_ok hn, hw]) (by simp [harmed]) rfl

theorem exec_watchRate_clean {c : Cmd} {s : State} (h : Clean opWatchRate c s) (hn : NoInput c) (hrate : 1 ≤ cp c 0 2)
    (hrate' : cp c 0 2 ≤ 1000) (hdepth : 1 ≤ cp c 2 1) (hdepth' : cp c 2 1 ≤ 64) :
    exec (.watchRate c) s = .next (((s.begun opWatchRate).modTrace fun u =>
      { u with twRate := cp c 0 2, twDepth := cp c 2 1 * 1048576, tokens := min u.tokens (cp c 2 1 * 1048576) }).answered
        opWatchRate c 0 [] []) :=
  congrArg Host.Outcome.next <| runCmd_ok h (by simp [ckNoInline_ok hn, hrate, hrate', hdepth, hdepth']) (by simp) rfl

/-- STATE has no codes in the spec: the byte is a free value of free, armed or open (log entry 37). -/
theorem exec_watchStatus_clean {c : Cmd} {s : State} (h : Clean opWatchStatus c s) (hn : NoInput c) (hw : cp c 0 1 < 64) :
    ∃ k ≤ 2, exec (.watchStatus c) s = .next ((s.begun opWatchStatus).answered opWatchStatus c 0
      (be 1 (Config.watchState k) ++ zeros 3 ++ be 4 (s.twatch (cp c 0 1)).dumps ++ be 4 (s.twatch (cp c 0 1)).disc.sum
        ++ be 4 s.trace.tokens) []) := by
  refine ⟨if (tget s.trace.watches (cp c 0 1)).isNone then 0 else if (s.twatch (cp c 0 1)).open'.isNone then 1 else 2, ?_,
    congrArg Host.Outcome.next <| runCmd_ok h (by simp [ckNoInline_ok hn, hw]) (by simp) (by simp)⟩
  split
  · omega
  · split <;> omega

end Sys2Proof.Machine
end

section
/-! The statement of the trace commands. -/

namespace Sys2Proof.Machine

/-- Settles O28: each clause is the run lemma of its command. -/
theorem traceCommandsRun : Obligations.TraceCommandsRun := by
  unfold Obligations.TraceCommandsRun
  refine ⟨fun _ _ => exec_traceConfig_clean, fun _ _ => exec_traceAuth_granted, fun _ _ _ => exec_traceAuth_badToken,
    fun _ _ => exec_traceAuth_locked, fun _ _ => exec_traceDeauth_clean, fun _ s h hn => (exec_traceStatus_clean h hn).trans ?_,
    fun _ _ _ _ => exec_watchArm_clean, fun _ _ => exec_watchDisarm_clean, fun _ _ => exec_watchRate_clean,
    fun _ _ => exec_watchStatus_clean⟩
  cases s.trace.auth <;> rfl

end Sys2Proof.Machine
end

section
/-! SUPPORT. The RECORDER commands: what each answers where every check passes. -/

namespace Sys2Proof.Machine

/-- NEXT is the SEQ of the first record not returned, or the next to be given (log entry 17). -/
theorem exec_recorderRead_clean {c : Cmd} {s : State} {r : List HRec × Nat} (h : Clean opRecorderRead c s) (hn : NoInput c)
    (hwr : (ckWrite opRecorderRead c 0).ok = true) (hincl : cp c 6 1 ≤ 1)
    (hr : r = s.recorderRead (cp c 0 4) (cp c 4 2) (cp c 6 1 == 1)) :
    exec (.recorderRead c) s = .next ((s.begun opRecorderRead).takenOn opRecorderRead c 0
      (some { status := stOk, detail := 0, result := be 2 r.1.length ++ zeros 2 ++ be 4 r.2, out := (r.1.map hrecBytes).flatten })) := by
  subst hr
  exact congrArg Host.Outcome.next <| runCmd_acc h (by simp [ckNoInline_ok hn, hincl, hwr]) (by simp)
    (by simp [State.recorderRead, finOk])

theorem exec_recorderStatus_clean {c : Cmd} {s : State} (h : Clean opRecorderStatus c s) (hn : NoInput c) :
    exec (.recorderStatus c) s = .next ((s.begun opRecorderStatus).answered opRecorderStatus c 0
      (be 1 s.hall.head ++ be 1 ((s.hall.head + 1) % 32) ++ be 2 s.hall.sorted.length
        ++ be 1 (s.hall.ents.filter fun e => !e.written).length ++ zeros 3 ++ be 4 s.hall.drop ++ be 4 (clearSeq s.hall.all)) []) :=
  congrArg Host.Outcome.next <| runCmd_ok h (by simp [ckNoInline_ok hn]) (by simp) (by simp)

/-- At least 60 s lie between two of them (R342). -/
theorem exec_recorderClear_clean {c : Cmd} {s : State} (h : Clean opRecorderClear c s) (hn : NoInput c)
    (hlast : ∀ t, s.hall.lastClear = some t → t + 60000000000 ≤ s.tb1Ns) :
    exec (.recorderClear c) s = .next ((((s.begun opRecorderClear).modHall fun h => { h with lastClear := some s.tb1Ns }).stage 0x0C03
      .notice (s.clearPath c.path).1 (s.hall.lastSeq.toNat * 2 ^ 32 + (s.clearPath c.path).2.toNat)).answered opRecorderClear c 0
        (be 4 s.hall.lastSeq.toNat) []) := by
  have hpath : (s.begun opRecorderClear).clearPath c.path = s.clearPath c.path := by
    cases c.path <;> simp [State.clearPath, State.isTray]
  refine congrArg Host.Outcome.next <| runCmd_ok h (by simp [ckNoInline_ok hn]) ?_ (by simp [hpath])
  cases hclear : s.hall.lastClear with
  | none => simp
  | some t => simpa using hlast t hclear

theorem exec_recorderNote_clean {c : Cmd} {s : State} {p : State × Word} (h : Clean opRecorderNote c s) (hn : NoInput c)
    (hsev : cp c 1 1 ≤ 1) (hcode : 0x80 ≤ cp c 0 1)
    (hp : p = (s.begun opRecorderNote).stageSeq (BitVec.ofNat 16 (0x1100 + cp c 0 1)) (if cp c 1 1 = 0 then .info else .notice)
      (cp c 2 1) (cp c 8 8) false) :
    exec (.recorderNote c) s = .next (p.1.answered opRecorderNote c 0 (be 4 p.2.toNat) []) := by
  subst hp
  exact congrArg Host.Outcome.next <| runCmd_ok h (by simp [ckNoInline_ok hn, hsev, hcode]) (by simp) rfl

/-- The tokens in hand are capped, and the buckets refill an interval from now (log entry 51). -/
theorem exec_recorderConfig_clean {c : Cmd} {s : State} (h : Clean opRecorderConfig c s) (hn : NoInput c) (hd : 1 ≤ cp c 0 1)
    (hd' : cp c 0 1 ≤ 64) (hr : 1 ≤ cp c 1 1) (hr' : cp c 1 1 ≤ 16) (hi : 1 ≤ cp c 2 2) (hi' : cp c 2 2 ≤ 3600)
    (hf : 16 ≤ cp c 4 2) (hf' : cp c 4 2 ≤ 512) (h16 : cp c 4 2 % 16 = 0) :
    exec (.recorderConfig c) s = .next (((s.begun opRecorderConfig).modHall fun h =>
      { h with rlDepth := cp c 0 1, flRate := cp c 1 1, rlInt := cp c 2 2, flDepth := cp c 4 2,
               flash := min h.flash (cp c 4 2),
               buckets := h.buckets.map fun b =>
                 { b with tokens := min b.tokens (cp c 0 1), nextAt := refillAt (cp c 2 2) s.tb1Ns } }).answered
      opRecorderConfig c 0 [] []) :=
  congrArg Host.Outcome.next <| runCmd_ok h (by simp [ckNoInline_ok hn, hd, hd', hr, hr', hi, hi', hf, hf', h16]) (by simp)
    (by simp)

end Sys2Proof.Machine
end

section
/-! The statement of the recorder commands. -/

namespace Sys2Proof.Machine

/-- Settles O29: each clause is the run lemma of its command. -/
theorem recorderCommandsRun : Obligations.RecorderCommandsRun := by
  unfold Obligations.RecorderCommandsRun
  exact ⟨fun _ _ _ => exec_recorderRead_clean, fun _ _ => exec_recorderStatus_clean, fun _ _ => exec_recorderClear_clean,
    fun _ _ _ => exec_recorderNote_clean, fun _ _ => exec_recorderConfig_clean⟩

end Sys2Proof.Machine
end

section
/-! SUPPORT. The POWER, TEMPER and METRO commands: what each answers where every check passes. -/

namespace Sys2Proof.Machine

/-! ### What a power command reads after the start of its command -/

@[simp] theorem State.isTray_begun (o : OpSpec) (s : State) : (s.begun o).isTray = s.isTray := by simp [State.isTray]

@[simp] theorem State.isDie_begun (o : OpSpec) (s : State) : (s.begun o).isDie = s.isDie := by simp [State.isDie]

@[simp] theorem State.mem_begun (o : OpSpec) (s : State) (i : Nat) : (s.begun o).mem i = s.mem i := by simp [State.mem]

theorem State.begun_disc (o : OpSpec) (s : State) : (s.begun o).coll.disc = s.coll.disc := by
  unfold State.begun
  dsimp only
  split
  · rfl
  · rfl

@[simp] theorem State.trip_begun (o : OpSpec) (s : State) : (s.begun o).trip = s.trip := by
  simp [State.trip, State.disc, State.begun_disc]

/-! ### Budgets and members (R353, R355) -/

theorem exec_powerBudget_clean {c : Cmd} {s : State} (h : Clean opPowerBudget c s) (hn : NoInput c) (hmax : cp c 0 2 ≤ 1920)
    (hfloor : s.gov.sumFloor 16 0 ≤ cp c 0 2) :
    exec (.powerBudget c) s = .next ((((s.begun opPowerBudget).modGov fun g => { g with budgetNext := some (cp c 0 2) }).stage 0x0D01
      .notice 0 (s.gov.budgetNext.getD s.gov.budget * 2 ^ 32 + cp c 0 2)).answered opPowerBudget c 0 [] []) :=
  congrArg Host.Outcome.next <| runCmd_ok h (by simp [ckNoInline_ok hn, hmax, hfloor]) (by simp) (by simp)

theorem exec_powerMember_clean {c : Cmd} {s : State} {m : MemberCfg}
    (hm : m = ⟨BitVec.ofNat 18 (cp c 4 4), cp c 8 2, cp c 10 2, cp c 12 1, cp c 13 1, cp c 14 1⟩) (h : Clean opPowerMember c s)
    (hn : NoInput c) (ha : cp c 4 4 < 2 ^ 18) (hi : cp c 0 1 < 16) (hfc : cp c 8 2 ≤ cp c 10 2) (hc : cp c 10 2 ≤ 1920)
    (hw : 1 ≤ cp c 12 1) (hpm : cp c 13 1 < 128)
    (hfit : s.gov.sumFloor (cp c 0 1) (cp c 8 2) ≤ s.gov.budgetNext.getD s.gov.budget) :
    exec (.powerMember c) s = .next (((s.begun opPowerMember).modMem (cp c 0 1) fun x => { x with cfgNext := some m }).answered
      opPowerMember c 0 [] []) := by
  subst hm
  exact congrArg Host.Outcome.next <| runCmd_ok h
    (by simp [ckNoInline_ok hn, show cp c 4 4 < 262144 from ha, hfit, hi, hfc.trans hc, hfc, hc, hw, hpm]) (by simp) rfl

/-! ### The agent's parameters and state (R346, R349) -/

theorem exec_powerStatic_clean {c : Cmd} {s : State} (h : Clean opPowerStatic c s) (hn : NoInput c) (hmax : cp c 0 2 ≤ 1920) :
    exec (.powerStatic c) s = .next (((s.begun opPowerStatic).modGov fun g => { g with static := cp c 0 2 }).floorReset.answered
      opPowerStatic c 0 [] []) :=
  congrArg Host.Outcome.next <| runCmd_ok h (by simp [ckNoInline_ok hn, hmax]) (by simp) rfl

/-- The arbiter's parameters are a tray's alone. -/
theorem exec_powerConfig_clean {c : Cmd} {s : State} (h : Clean opPowerConfig c s) (hn : NoInput c) (hgl : 5 ≤ cp c 0 2)
    (hgl' : cp c 0 2 ≤ 500) (htray : s.isTray = true → 1 ≤ cp c 2 2 ∧ cp c 2 2 ≤ 10000 ∧ 1 ≤ cp c 4 2 ∧ cp c 4 2 ≤ 10000 ∧ cp c 6 1 ≤ 2) :
    exec (.powerConfig c) s = .next (((s.begun opPowerConfig).modGov fun g =>
      if s.isTray then { g with glTo := cp c 0 2 * 20000, grantRec := cp c 2 2, poll := cp c 4 2, speed := cp c 6 1 }
      else { g with glTo := cp c 0 2 * 20000 }).answered opPowerConfig c 0 [] []) := by
  refine congrArg Host.Outcome.next <| runCmd_ok h ?_ (by simp) rfl
  cases hrole : s.isTray with
  | false => simp [ckNoInline_ok hn, hgl, hgl']
  | true =>
    obtain ⟨hrec, hrec', hpoll, hpoll', hspeed⟩ := htray hrole
    simp [ckNoInline_ok hn, hgl, hgl', hrec, hrec', hpoll, hpoll', hspeed]

theorem exec_powerStatus_agent {c : Cmd} {s : State} (h : Clean opPowerStatus c s) (hn : NoInput c) (htray : s.isTray = false)
    (hi : s.isDie = false → cp c 0 1 < 16) :
    exec (.powerStatus c) s = .next ((s.begun opPowerStatus).answered opPowerStatus c 0
      (be 2 s.geff ++ be 2 s.gov.req ++ be 2 s.fb ++ be 2 s.gov.static ++ be 1 (offByte s.gov.off) ++ zeros 7) []) := by
  have hgeff : (s.begun opPowerStatus).geff = s.geff := by simp [State.geff, State.fb]
  have hfb : (s.begun opPowerStatus).fb = s.fb := by simp [State.fb]
  refine congrArg Host.Outcome.next <| runCmd_ok h ?_ (by simp) (by simp [htray, hgeff, hfb])
  cases hdie : s.isDie with
  | true => simp [ckNoInline_ok hn]
  | false => simp [ckNoInline_ok hn, hi hdie]

theorem exec_powerStatus_tray {c : Cmd} {s : State} {m : GovMember} (hm : m = s.mem (cp c 0 1)) (h : Clean opPowerStatus c s)
    (hn : NoInput c) (htray : s.isTray = true) (hi : cp c 0 1 < 16) :
    exec (.powerStatus c) s = .next ((s.begun opPowerStatus).answered opPowerStatus c 0
      (be 2 m.acct ++ be 2 m.tgt ++ be 2 (match m.last with | some r => r.req | none => 0) ++ be 2 m.err ++ be 2 m.read.iout.toNat
        ++ be 2 m.read.vout.toNat ++ be 2 m.read.temp.toNat ++ zeros 2) []) := by
  subst hm
  refine congrArg Host.Outcome.next <| runCmd_ok h (by simp [ckNoInline_ok hn, hi]) (by simp) ?_
  cases hlast : (s.mem (cp c 0 1)).last <;> simp [htray, hlast]

/-! ### TEMPER.CONFIG and METRO.READ (R360, R368) -/

theorem exec_temperConfig_clean {c : Cmd} {s : State} (h : Clean opTemperConfig c s) (hn : NoInput c)
    (hr : (1 ≤ cp c 0 2 ∧ cp c 0 2 ≤ 1440) ∧ (4 ≤ cp c 2 1 ∧ cp c 2 1 ≤ 80) ∧ (1 ≤ cp c 3 1 ∧ cp c 3 1 ≤ 16) ∧
      (1 ≤ cp c 4 1 ∧ cp c 4 1 ≤ 255) ∧ (1 ≤ cp c 5 1 ∧ cp c 5 1 ≤ 64) ∧ (1 ≤ cp c 6 1 ∧ cp c 6 1 ≤ 64) ∧ 1 ≤ cp c 8 2 ∧ cp c 8 2 ≤ 2000) :
    exec (.temperConfig c) s = .next (((s.begun opTemperConfig).modTemper fun u =>
      { u with periodNext := some (cp c 0 2), band := cp c 2 1, qn := cp c 3 1, tgt := cp c 4 1, hyst := cp c 5 1, tps := cp c 6 1,
               warn := cp c 8 2 }).answered opTemperConfig c 0 [] []) :=
  congrArg Host.Outcome.next <| runCmd_ok h (by simpa [ckNoInline_ok hn] using hr) (by simp) rfl

theorem exec_metroRead_clean {c : Cmd} {s : State} (h : Clean opMetroRead c s) (hn : NoInput c)
    (hwr : (ckWrite opMetroRead c 0).ok = true) (hcount : cp c 0 1 ≤ 4) :
    exec (.metroRead c) s = .next ((s.begun opMetroRead).takenOn opMetroRead c 0
      (some { status := stOk, detail := 0, result := be 1 (s.assay.frames.take (cp c 0 1)).length,
              out := ((s.assay.frames.take (cp c 0 1)).map (·.bytes)).flatten })) :=
  congrArg Host.Outcome.next <| runCmd_acc h (by simp [ckNoInline_ok hn, hwr, hcount]) (by simp) (by simp [finOk])

end Sys2Proof.Machine
end

section
/-! The statement of the power commands. -/

namespace Sys2Proof.Machine

/-- Settles O30: each clause is the run lemma of its command. -/
theorem powerCommandsRun : Obligations.PowerCommandsRun := by
  unfold Obligations.PowerCommandsRun
  exact ⟨fun _ _ => exec_powerBudget_clean, fun _ _ _ => exec_powerMember_clean, fun _ _ => exec_powerStatic_clean,
    fun _ _ => exec_powerConfig_clean, fun _ _ => exec_powerStatus_agent, fun _ _ _ => exec_powerStatus_tray,
    fun _ _ h hn h0 h0' h2 h2' h3 h3' h4 h4' h5 h5' h6 h6' h8 h8' => exec_temperConfig_clean h hn
      ⟨⟨h0, h0'⟩, ⟨h2, h2'⟩, ⟨h3, h3'⟩, ⟨h4, h4'⟩, ⟨h5, h5'⟩, ⟨h6, h6'⟩, h8, h8'⟩, fun _ _ => exec_metroRead_clean⟩

end Sys2Proof.Machine
end

section
/-! SUPPORT. The TEST commands: what each answers where every check passes. -/

namespace Sys2Proof.Machine

@[simp] theorem State.tcore_begun (o : OpSpec) (s : State) (k : Nat) : (s.begun o).tcore k = s.tcore k := by simp [State.tcore]

@[simp] theorem State.dueAt_begun (o : OpSpec) (s : State) (k : Nat) : (s.begun o).dueAt k = s.dueAt k := by simp [State.dueAt]

/-! ### The plan (R373, R375) -/

theorem exec_testConfig_clean {c : Cmd} {s : State} {d : List Byte × List Byte} {ids : List Word} (hd : d = testInputs c (cp c 6 1))
    (hids : ids = (List.range (cp c 6 1)).map fun i => BitVec.ofNat 32 (rd d.2 (4 * i) 4)) (h : Clean opTestConfig c s)
    (hdata : if inlinePath c.path then (ckData opTestConfig c 0 (32 + 4 * cp c 6 1)).ok = true
      else (ckData opTestConfig c 0 32).ok = true ∧ (ckData opTestConfig c 1 (4 * cp c 6 1)).ok = true)
    (hitem : ∀ i ∈ ids, (s.item i).isSome = true) (hint : 1 ≤ cp c 0 2) (hint' : cp c 0 2 ≤ 2160) (hdef : 1 ≤ cp c 2 2)
    (hdef' : cp c 2 2 ≤ 720) (hask : 1 ≤ cp c 4 2) (hask' : cp c 4 2 ≤ 1440) (hcount : cp c 6 1 ≤ 64) :
    exec (.testConfig c) s = .next (((s.begun opTestConfig).modTest fun u =>
      { u with tint := cp c 0 2, maxdef := cp c 2 2, reask := cp c 4 2, mask := d.1, planNext := some ids,
               req := if u.win.isNone then none else u.req }).askNext.answered opTestConfig c 0 [] []) := by
  subst hd hids
  have hreads : ∀ k ∈ (if inlinePath c.path then [ckData opTestConfig c 0 (32 + 4 * cp c 6 1)]
      else [ckData opTestConfig c 0 32, ckData opTestConfig c 1 (4 * cp c 6 1)]), k.ok = true := by
    split at hdata
    · next hin => simpa [hin] using hdata
    · next hin => simpa [hin] using hdata
  refine congrArg Host.Outcome.next <| runCmd_ok h (List.forall_mem_append.2 ⟨hreads, ?_⟩) (by simp) rfl
  simp only [List.forall_mem_cons, ckParam_ok, ckRange_ok, List.all_eq_true, Bool.and_eq_true, decide_eq_true_eq]
  exact ⟨hitem, ⟨hint, hint'⟩, ⟨hdef, hdef'⟩, ⟨hask, hask'⟩, hcount, by simp⟩

/-! ### The pending request and its window (R376, R377, R380, R382) -/

theorem exec_testGrant_clean {c : Cmd} {s : State} {r : TestReq} (h : Clean opTestGrant c s) (hn : NoInput c)
    (hreq : s.test.req = some r) (hcore : r.core = cp c 0 1) (hwin : 1000 ≤ cp c 4 4) (hwin' : cp c 4 4 ≤ 10000000)
    (hest : r.est ≤ cp c 4 4) (hquiet : ∀ t, (s.tcore (cp c 0 1)).activeAt = some t → t + 103 < s.tb1Ns) :
    exec (.testGrant c) s = .next (((s.begun opTestGrant).openWindow r (cp c 4 4) (BitVec.ofNat 64 (cp c 8 8))).answered
      opTestGrant c 0 [] []) := by
  refine congrArg Host.Outcome.next <| runCmd_ok h (by simp [ckNoInline_ok hn, hreq, hcore, hwin, hwin', hest]) ?_ (by simp [hreq])
  cases hact : (s.tcore (cp c 0 1)).activeAt with
  | none => simp
  | some t => simpa using hquiet t hact

theorem exec_testDefer_clean {c : Cmd} {s : State} {r : TestReq} (h : Clean opTestDefer c s) (hn : NoInput c)
    (hreq : s.test.req = some r) (hcore : r.core = cp c 0 1) :
    exec (.testDefer c) s = .next ((s.begun opTestDefer).answered opTestDefer c 0 [] []) :=
  congrArg Host.Outcome.next <| runCmd_ok h (by simp [ckNoInline_ok hn]) (by simp [hreq, hcore]) rfl

/-- The result is PASS where the signatures agree, else MISMATCH with the number of bits that differ. -/
theorem exec_testDone_clean {c : Cmd} {s : State} {w : TestWindow} (h : Clean opTestDone c s) (hn : NoInput c)
    (hwin : s.test.win = some w) (hkind : w.kind = 0) (hcore : w.core = cp c 0 1) :
    exec (.testDone c) s = .next ((if cp c 8 8 = w.ksig.toNat then (s.begun opTestDone).closeWindow 0 0xFFFFFFFF 0
      else (s.begun opTestDone).closeWindow 1 0xFFFFFFFF (popcount64 (cp c 8 8 ^^^ w.ksig.toNat))).answered opTestDone c 0 [] []) :=
  congrArg Host.Outcome.next <| runCmd_ok h (by simp [ckNoInline_ok hn]) (by simp [hwin, hkind, hcore]) (by simp [hwin])

/-! ### TEST.CLEAR and TEST.STATUS (R385) -/

theorem exec_testClear_clean {c : Cmd} {s : State} (h : Clean opTestClear c s) (hn : NoInput c) :
    exec (.testClear c) s = .next (((s.begun opTestClear).modTcore (cp c 0 1) fun x =>
      { x with failed := false, failed1 := false, overdue := false, dueAt := some s.tb0Ns }).askNext.answered opTestClear c 0 []
        []) :=
  congrArg Host.Outcome.next <| runCmd_ok h (by simp [ckNoInline_ok hn]) (by simp) (by simp)

/-- ST of TEST.STATUS: the core's window is open, the core FAILED, its request is pending, or none of these (Table 16.20). -/
def State.testSt (s : State) (k : Nat) : Nat :=
  if s.test.win.any fun w => w.core == k then 2
  else if (s.tcore k).failed then 3
  else if s.test.req.any fun r => r.core == k then 1 else 0

theorem State.testSt_le (s : State) (k : Nat) : s.testSt k ≤ 3 := by
  unfold State.testSt
  repeat' split
  all_goals omega

theorem State.testSt_eq_two_iff {s : State} {k : Nat} : s.testSt k = 2 ↔ ∃ w, s.test.win = some w ∧ w.core = k := by
  unfold State.testSt
  split
  · next hwin => simpa [Option.any_eq_true] using hwin
  · next hwin =>
    refine iff_of_false ?_ (by simpa [Option.any_eq_true] using hwin)
    repeat' split
    all_goals omega

/-- ST is 2 exactly while the window of the core is open. -/
theorem exec_testStatus_clean {c : Cmd} {s : State} (h : Clean opTestStatus c s) (hn : NoInput c) :
    exec (.testStatus c) s = .next ((s.begun opTestStatus).answered opTestStatus c 0
      (be 1 (s.testSt (cp c 0 1)) ++ be 1 (s.tcore (cp c 0 1)).last ++ be 1 ((s.tcore (cp c 0 1)).pos % 64) ++ zeros 5
        ++ be 8 ((s.dueAt (cp c 0 1)).getD 0)) []) := by
  refine congrArg Host.Outcome.next <| runCmd_ok h (by simp [ckNoInline_ok hn]) (by simp) ?_
  cases hwin : s.test.win <;> cases hreq : s.test.req <;> simp [State.testSt, hwin, hreq]

end Sys2Proof.Machine
end

section
/-! The statement of the test commands. -/

namespace Sys2Proof.Machine

/-- Settles O31: each clause is the run lemma of its command. -/
theorem testCommandsRun : Obligations.TestCommandsRun := by
  unfold Obligations.TestCommandsRun
  exact ⟨fun _ _ _ _ => exec_testConfig_clean, fun _ _ _ => exec_testGrant_clean, fun _ _ _ => exec_testDefer_clean,
    fun _ _ _ => exec_testDone_clean, fun _ _ => exec_testClear_clean, fun _ s h hn =>
      ⟨s.testSt _, s.testSt_le _, exec_testStatus_clean h hn, State.testSt_eq_two_iff⟩⟩

end Sys2Proof.Machine
end

section
/-! SUPPORT. The UPDATE commands: what each answers where every check passes. -/

namespace Sys2Proof.Machine

/-! ### UPDATE.STAGE (R425 to R427) -/

/-- The stage that UPDATE.STAGE begins: an image of host memory is taken whole at once, one from the chain waits for its chunks. -/
def stageBegun (c : Cmd) (t : State) : Stage :=
  let local' := cp c 2 1 = 0
  let digest := if local' then rd (cdata c 0) 32 8 else 0
  { kind := cp c 0 1, slot := cp c 1 1, src := cp c 2 1, len := cp c 4 4, digest := digest,
    xfer := if local' then some t.hoist.xferNext else none, bytes := if local' then cdata c 0 else [],
    expect := if local' then chunkCount (cp c 4 4) else 0, written := 0, sent := 0, acked := 0, rounds := 0, broken := false,
    dup := cp c 2 1 == 0 && (t.chain (cp c 0 1) (cp c 1 1)).isSome && t.slotHolds (cp c 0 1) (cp c 1 1) (cp c 4 4) digest,
    erased := cp c 2 1 == 0 && cp c 0 1 != 2, lastChunk := t.tb1Ns, lastAck := t.tb1Ns, ended := false }

theorem State.slotBegin_ite_hoist {p : Prop} [Decidable p] (kind slot : Nat) (s : State) :
    (if p then s.slotBegin kind slot else s).hoist = s.hoist := by
  split
  · exact State.slotBegin_moves.1 .hoist rfl
  · rfl

theorem exec_updateStage_clean {c : Cmd} {s : State} {kind slot len : Nat} (hkind : kind = cp c 0 1) (hslot : slot = cp c 1 1)
    (hlen : len = cp c 4 4) (h : Clean opUpdateStage c s) (hk3 : kind ≤ 3) (hslotOk : kindSlotOk kind slot = true)
    (hsrc : cp c 2 1 ≤ 1) (hlocal : cp c 2 1 = 0 → inlinePath c.path = false ∧ (ckData opUpdateStage c 0 len).ok = true)
    (hchain : cp c 2 1 = 1 → NoInput c ∧ (s.chain kind slot).isSome = true) (hsize : len ≤ regionSize kind)
    (hfw : kind = 0 → slot ≠ s.hoist.running ∧ (s.dirEnt (dirIndex kind slot)).st ≠ .confirmed ∧
      (s.dirEnt (dirIndex kind slot)).st ≠ .trial) (hidle : s.hoist.stage = none) :
    ∃ t : State, ∃ g : Stage, g.kind = kind ∧ g.slot = slot ∧ g.src = cp c 2 1 ∧ g.len = len ∧ g.ended = false
      ∧ g.bytes = (if cp c 2 1 = 0 then cdata c 0 else []) ∧ t.hoist.stage = some g
      ∧ exec (.updateStage c) s = .next (State.stageStart (t.takenOn opUpdateStage c 0 none)) := by
  subst hkind hslot hlen
  refine ⟨_, stageBegun c (s.begun opUpdateStage), rfl, rfl, rfl, rfl, rfl, rfl, congrArg HoistUnit.stage (State.slotBegin_ite_hoist ..),
    congrArg Host.Outcome.next <| congrArg State.stageStart <| runCmd_acc h ?_ ?_ rfl⟩
  · rcases Nat.le_one_iff_eq_zero_or_eq_one.1 hsrc with hzero | hone
    · obtain ⟨hinline, hdata⟩ := hlocal hzero
      simp [hk3, hslotOk, hsize, hzero, hinline, hdata]
    · simp [hk3, hslotOk, hsize, hone, ckNoInline_ok (hchain hone).1]
  · have hplace : cp c 2 1 = 0 ∨ (s.chain (cp c 0 1) (cp c 1 1)).isSome = true :=
      (Nat.le_one_iff_eq_zero_or_eq_one.1 hsrc).imp_right fun hone => (hchain hone).2
    simpa [hidle, hplace, and_assoc] using Decidable.not_or_of_imp hfw

/-! ### UPDATE.CHAIN (R428) -/

theorem exec_updateChain_clean {c : Cmd} {s : State} (h : Clean opUpdateChain c s) (hn : NoInput c) (hkind : cp c 0 1 ≤ 3)
    (hslot : kindSlotOk (cp c 0 1) (cp c 1 1) = true) (hprev : cp c 4 4 < 2 ^ 18) (hnext : cp c 8 4 < 2 ^ 18) :
    exec (.updateChain c) s = .next (State.pumpStage (((s.begun opUpdateChain).modHoist fun h =>
      { h with chains := (h.chains.filter fun x => !(x.kind == cp c 0 1 && x.slot == cp c 1 1)) ++
          [{ kind := cp c 0 1, slot := cp c 1 1, prev := BitVec.ofNat 18 (cp c 4 4), next := BitVec.ofNat 18 (cp c 8 4) }] }).answered
      opUpdateChain c 0 [] [])) :=
  congrArg Host.Outcome.next <| congrArg State.pumpStage <|
    runCmd_ok h (by simpa [ckNoInline_ok hn, hkind, hslot] using ⟨hprev, hnext⟩) (by simp) rfl

/-! ### UPDATE.START, UPDATE.CONFIRM and UPDATE.STATUS (R431 to R435) -/

theorem State.takenOn_waitStart (o : OpSpec) (c : Cmd) (obj : Nat) (f : Option Final) (s : State) :
    (s.takenOn o c obj f).hoist.waitStart = s.hoist.waitStart := by
  obtain ⟨ok, hok⟩ := State.reply_hoist c.path 0
    { tag := c.tag, status := stAccepted, opcode := o.code, final := false, event := false, detail := 0, result := [] } [] s
  have hnext : ∀ (p : Path) (t : State), (t.restoreNext p).hoist = t.hoist := fun _ _ => State.restoreNext_moves.1 .hoist rfl
  have hreply := congrArg HoistUnit.waitStart hok
  exact (congrArg HoistUnit.waitStart (hnext ..)).trans hreply

/-- The master is asked, or the trial starts at once; the check that no start waits makes the start that waits this command's. -/
theorem exec_updateStart_clean {c : Cmd} {s t : State} (h : Clean opUpdateStart c s) (hn : NoInput c) (hslot : cp c 0 1 < 2)
    (hst : (s.dirEnt (cp c 0 1)).st = .valid ∨ (s.dirEnt (cp c 0 1)).st = .trial) (hrun : cp c 0 1 ≠ s.hoist.running)
    (hgrant : s.isMaster = true → s.grantStands = false) (hwait : s.hoist.waitStart = none) (htrial : s.hoist.trialAt = none)
    (ht : t = ((s.begun opUpdateStart).modHoist fun h =>
      { h with waitStart := some (cp c 0 1, s.tb1Ns, c.path, c.tag) }).takenOn opUpdateStart c 1 none) :
    exec (.updateStart c) s = .next (if s.asksMaster then t.sendChunk (t.sys.master.getD 0) 2 0 (cp c 0 1) 0 0 0 0 0 []
      else t.startTrial (cp c 0 1) c.path c.tag) := by
  have htaken : runCmd opUpdateStart c [ckNoInline c, ckParam (decide (cp c 0 1 < 2)) 0]
      [ckState (((s.dirEnt (cp c 0 1)).st == .valid || (s.dirEnt (cp c 0 1)).st == .trial) && cp c 0 1 != s.hoist.running),
       ckStatus (!(s.isMaster && s.grantStands) && s.hoist.waitStart.isNone && s.hoist.trialAt.isNone) stBusy]
      (fun t => .acc 1 none (t.modHoist fun h => { h with waitStart := some (cp c 0 1, t.tb1Ns, c.path, c.tag) })) s = t := by
    subst ht
    refine runCmd_acc h (by simp [ckNoInline_ok hn, hslot]) ?_ (by simp)
    simpa [hwait, htrial, hst, hrun] using Decidable.not_or_of_imp hgrant
  have hstarts : t.hoist.waitStart = some (cp c 0 1, s.tb1Ns, c.path, c.tag) := by
    subst ht
    simp [State.takenOn_waitStart]
  have hacc : (t.cmd.acc.any fun a => a.path == c.path && a.tag == c.tag) = true := by
    subst ht
    simp [State.takenOn_acc]
  change execUpdateStart c s = _
  simp only [execUpdateStart, htaken]
  simp only [hwait, hstarts, hacc, Bool.and_true]
  split <;> rfl

theorem exec_updateConfirm_clean {c : Cmd} {s : State} (h : Clean opUpdateConfirm c s) (hn : NoInput c)
    (htrial : s.hoist.trialAt.isSome = true) (hfall : s.fallDue = false) :
    exec (.updateConfirm c) s = .next ((s.begun opUpdateConfirm).confirmTrial.answered opUpdateConfirm c 0 [] []) :=
  congrArg Host.Outcome.next <| runCmd_ok h (by simp [ckNoInline_ok hn]) (by simp [htrial, hfall]) rfl

theorem exec_updateStatus_clean {c : Cmd} {s : State} (h : Clean opUpdateStatus c s) (hn : NoInput c) :
    exec (.updateStatus c) s = .next ((s.begun opUpdateStatus).answered opUpdateStatus c 0
      (be 1 s.hoist.running ++ be 1 s.hoist.fwState ++ zeros 2 ++ be 4 s.sys.fwver.toNat ++ be 4 s.cfgVer ++ be 4 s.healthLeft) []) :=
  congrArg Host.Outcome.next <| runCmd_ok h (by simp [ckNoInline_ok hn]) (by simp) (by simp [State.cfgVer, State.healthLeft])

end Sys2Proof.Machine
end

section
/-! The statement of the update commands. -/

namespace Sys2Proof.Machine

/-- Settles O32: each clause is the run lemma of its command. -/
theorem updateCommandsRun : Obligations.UpdateCommandsRun := by
  unfold Obligations.UpdateCommandsRun
  exact ⟨fun _ _ _ _ _ => exec_updateStage_clean, fun _ _ => exec_updateChain_clean, fun _ _ _ => exec_updateStart_clean,
    fun _ _ => exec_updateConfirm_clean, fun _ _ => exec_updateStatus_clean⟩

end Sys2Proof.Machine
end

section
/-! SUPPORT. The rows of Tailrace that time brings: what each leaves once it is due. -/

namespace Sys2Proof.Machine

/-! ### Synchronisation and flushes (R312, R313) -/

theorem exec_syncPeriodBoundary_due {s t : State} {k : Nat} (hk : k = gridAt s.trace.syncP s.tb0Past) (heng : s.engUp = true)
    (hready : s.trcReady = true) (hdue : s.trace.syncK < k)
    (ht : t = (s.modTrace fun u => { u with syncK := k, syncP := u.syncNext.getD u.syncP, syncNext := none }).fullIfDue) :
    exec .syncPeriodBoundary s =
      .next (if t.trace.inUse false || t.trace.inUse true then t.placeSync false s.tb0Ns else t) := by
  subst hk ht
  refine congrArg Host.Outcome.next ?_
  simp only [State.syncTo, heng, hdue, hready, decide_true, Bool.and_self, if_true]

theorem exec_trFlushExpiry_due {cls : Bool} {s : State} {r : TrRec} (heng : s.engUp = true)
    (hopen : (if cls then s.trace.open3 else s.trace.open2) = some r) (hpast : s.past1 (r.opened + s.trace.flush) = true) :
    exec (.trFlushExpiry cls) s = .next (s.closeTrace cls) := by
  change execTrFlushExpiry cls s = _
  unfold execTrFlushExpiry
  rw [hopen]
  exact if_pos (by simp [heng, hpast])

/-! ### Authorisation (R316) -/

theorem exec_authExpiry_due {s : State} {a : TrAuth} (hao : s.aoUp = true) (hauth : s.trace.auth = some a) (htil : a.til ≤ s.tb0Ns) :
    exec .authExpiry s = .next s.endAuth := by
  change execAuthExpiry s = _
  unfold execAuthExpiry
  rw [hauth]
  exact if_pos (by simp [hao, htil])

theorem exec_authLockoutEnd_due {s : State} {t : Nat} (hao : s.aoUp = true) (hlock : s.trace.lockAt = some t)
    (hhour : t + hourNs ≤ s.tb1Ns) : exec .authLockoutEnd s = .next (s.modTrace fun u => { u with lockAt := none, refusals := [] }) := by
  change execAuthLockoutEnd s = _
  unfold execAuthLockoutEnd
  rw [hlock]
  exact if_pos (by simp [hao, hhour])

end Sys2Proof.Machine
end

section
/-! The statement of the trace rows. -/

namespace Sys2Proof.Machine

/-- Settles O37: each clause is the run lemma of its row; the tensor bucket's refill is the row's whole meaning. -/
theorem traceRowsRun : Obligations.TraceRowsRun := by
  unfold Obligations.TraceRowsRun
  exact ⟨fun _ _ _ => exec_syncPeriodBoundary_due, fun _ _ _ => exec_trFlushExpiry_due, fun _ => rfl, fun _ _ => exec_authExpiry_due,
    fun _ _ => exec_authLockoutEnd_due⟩

end Sys2Proof.Machine
end

section
/-! SUPPORT. The rows of Hallmark that time brings: what each leaves once it is due. -/

namespace Sys2Proof.Machine

/-! ### The flash log (R336, R337) -/

theorem State.programRec_hall (slot : Nat) (r : HRec) (s : State) : (s.programRec slot r).hall = s.hall :=
  State.programRec_moves.1 .hall rfl

/-- A record written leaves the head with room. -/
theorem exec_hallmarkFlashWriteDone_room {s t : State} {e : HEnt} (hao : s.aoUp = true)
    (he : s.hall.ents.find? (fun x => x.begun && !x.written) = some e) (hslot : s.hall.nextSlot + 1 < 128)
    (ht : t = ((s.programRec (s.hall.head * 128 + s.hall.nextSlot) e.r).modHall fun h =>
      { h with log := tput h.log (h.head * 128 + h.nextSlot) (.holds e.r), nextSlot := h.nextSlot + 1,
               ents := markEnt h.ents e.r.seq fun x => { x with written := true } })) :
    exec .hallmarkFlashWriteDone s = .next t.hallSettle := by
  have hroom : ¬ 128 ≤ t.hall.nextSlot := by
    subst ht
    simpa [State.programRec_hall] using Nat.lt_of_succ_lt_succ hslot
  change execHallmarkFlashWriteDone s = _
  unfold execHallmarkFlashWriteDone
  rw [he]
  simp only [hao, if_true, ← ht, State.reclaimFull, if_neg hroom]

/-- The last slot of the head's sector: the sector before the oldest is reclaimed, the records it carries written anew. -/
theorem exec_hallmarkFlashWriteDone_full {s t u : State} {e : HEnt} {keep : List HRec} (hao : s.aoUp = true)
    (he : s.hall.ents.find? (fun x => x.begun && !x.written) = some e) (hslot : s.hall.nextSlot = 127)
    (ht : t = ((s.programRec (s.hall.head * 128 + s.hall.nextSlot) e.r).modHall fun h =>
      { h with log := tput h.log (h.head * 128 + h.nextSlot) (.holds e.r), nextSlot := h.nextSlot + 1,
               ents := markEnt h.ents e.r.seq fun x => { x with written := true } }))
    (hkeep : keep = carryList t.hall.log (clearSeq t.hall.all) ((t.hall.head + 2) % 32))
    (hu : u = (List.range keep.length).foldl (fun v i =>
      match keep[i]? with
      | some x => v.programRec ((t.hall.head + 1) % 32 * 128 + i) { x with carried := true }
      | none => v) t) :
    exec .hallmarkFlashWriteDone s = .next ((((u.eraseFlash (hallArea + (t.hall.head + 2) % 32 * 4096) 4096).modHall fun h =>
      h.reclaim.1).overwriteLoss t.hall.reclaim.2.1 t.hall.reclaim.2.2).hallSettle) := by
  have hfull : 128 ≤ t.hall.nextSlot := by
    subst ht
    simp [State.programRec_hall, hslot]
  subst hu hkeep
  change execHallmarkFlashWriteDone s = _
  unfold execHallmarkFlashWriteDone
  rw [he]
  simp only [hao, if_true, ← ht, State.reclaimFull, if_pos hfull] <;> rfl

/-! ### The buckets (R334, R335) -/

theorem HBucket.refill_due {b : HBucket} {depth secs now1 : Nat} (hdue : b.nextAt ≤ now1) :
    b.refill depth secs now1 =
      { b with tokens := min depth (b.tokens + ((now1 - b.nextAt) / (secs * 1000000000) + 1)), supp := 0,
               nextAt := b.nextAt + ((now1 - b.nextAt) / (secs * 1000000000) + 1) * (secs * 1000000000) } :=
  if_pos hdue

theorem exec_rlBucketRefill_own {code : BitVec 16} {s : State} {b : HBucket} {n : Nat} (hao : s.aoUp = true)
    (hb : s.hall.buckets.find? (fun x => x.code == code) = some b) (hdue : b.nextAt ≤ s.tb1Ns)
    (honly : ∀ x ∈ s.hall.buckets, x.code = code → x = b) (hn : n = (s.tb1Ns - b.nextAt) / (s.hall.rlInt * 1000000000) + 1) :
    exec (.rlBucketRefill code) s = .next ((s.modHall fun h => { h with buckets := h.buckets.map fun x =>
      if x.code == code then { x with tokens := min h.rlDepth (x.tokens + n), supp := 0,
                                      nextAt := x.nextAt + n * (h.rlInt * 1000000000) } else x }).suppressed true b) := by
  subst hn
  have hmap : (s.hall.buckets.map fun x => if x.code == code then x.refill s.hall.rlDepth s.hall.rlInt s.tb1Ns else x) =
      s.hall.buckets.map fun x =>
        if x.code == code then
          { x with tokens := min s.hall.rlDepth (x.tokens + ((s.tb1Ns - b.nextAt) / (s.hall.rlInt * 1000000000) + 1)), supp := 0,
                   nextAt := x.nextAt + ((s.tb1Ns - b.nextAt) / (s.hall.rlInt * 1000000000) + 1) * (s.hall.rlInt * 1000000000) }
        else x := by
    refine List.map_congr_left fun x hx => ?_
    split
    · next hcode => rw [honly x hx (by simpa using hcode), HBucket.refill_due hdue]
    · rfl
  refine congrArg Host.Outcome.next ?_
  simp only [hao, if_true, State.refillBucket, hb, hdue, decide_true, State.modHall, hmap]

theorem exec_rlBucketRefill_common {code : BitVec 16} {s : State} {b : HBucket} {n : Nat} (hao : s.aoUp = true)
    (hnone : s.hall.buckets.find? (fun x => x.code == code) = none) (hb : b = s.hall.common) (hdue : b.nextAt ≤ s.tb1Ns)
    (hn : n = (s.tb1Ns - b.nextAt) / 1000000000 + 1) :
    exec (.rlBucketRefill code) s = .next ((s.modHall fun h => { h with common :=
      { b with tokens := min 16 (b.tokens + n), supp := 0, nextAt := b.nextAt + n * 1000000000 } }).suppressed true b) := by
  subst hn hb
  refine congrArg Host.Outcome.next ?_
  simp only [hao, if_true, State.refillBucket, hnone, hdue, decide_true, HBucket.refill_due, Nat.one_mul]

theorem exec_flashBucketRefill_due {s : State} (hao : s.aoUp = true) (hdue : s.hall.flashAt + 1000000000 ≤ s.tb1Ns) :
    exec .flashBucketRefill s = .next (s.modHall fun h =>
      HallUnit.beginWrite { h with flash := min h.flDepth (h.flash + h.flRate), flashAt := h.flashAt + 1000000000 }) :=
  if_pos ⟨hao, hdue⟩

/-! ### The operating time (R339) -/

theorem exec_optTick_due {s t : State} {o : Nat} (hao : s.aoUp = true) (hdue : s.hall.optAt + 360000000000 ≤ s.tb1Ns)
    (ho : o = satAdd 24 s.hall.opt.toNat 1)
    (ht : t = s.modHall fun h => { h with opt := BitVec.ofNat 24 o, optAt := h.optAt + 360000000000 }) :
    exec .optTick s = .next (if o % 80 = 0 then t.stage 0x0C02 .info 0 0 else t) := by
  subst ht ho
  exact if_pos ⟨hao, hdue⟩

end Sys2Proof.Machine
end

section
/-! The statement of the recorder rows. -/

namespace Sys2Proof.Machine

/-- Settles O38: each clause is the run lemma of its row. -/
theorem recorderRowsRun : Obligations.RecorderRowsRun := by
  unfold Obligations.RecorderRowsRun
  exact ⟨fun _ _ _ => exec_hallmarkFlashWriteDone_room,
    fun _ _ _ _ hao he hslot ht hu => exec_hallmarkFlashWriteDone_full hao he hslot ht rfl hu,
    fun _ _ _ _ => exec_rlBucketRefill_own, fun _ _ _ _ => exec_rlBucketRefill_common, fun _ => exec_flashBucketRefill_due,
    fun _ _ _ => exec_optTick_due⟩

end Sys2Proof.Machine
end

section
/-! SUPPORT. The rows of the Brake: what each leaves once it is due. -/

namespace Sys2Proof.Machine

/-! ### The watch of the host's firmware (R274, R275) -/

theorem exec_hbPinBeat_taken {s : State} (hport : s.portUp .hb = true) (hsrc : s.brake.cfg.src ≠ 0) (hrun : s.hbStopped = false) :
    exec .hbPinBeat s = .next s.takeBeat :=
  if_pos (by simp [hport, hsrc, hrun])

theorem exec_heartbeatPeriodEnd_due {s t : State} {k : Nat} (hk : k = gridAt s.brake.cfg.period s.tb0Past) (hao : s.aoUp = true)
    (hdue : s.brake.hbK < k)
    (ht : t = s.modBrake fun b =>
      { b with hbK := k, hbSteps := s.time.steps, beaten := false, cfg := { b.cfg with period := b.hbNext.getD b.cfg.period },
               hbNext := none }) :
    exec .heartbeatPeriodEnd s = .next (if s.brake.watch = .armed then
      t.judgePeriod (s.brake.beaten || s.time.steps != s.brake.hbSteps) else t) := by
  subst hk ht
  exact (if_pos (by simp [hao, hdue])).trans (by simp)

theorem exec_bootToExpiry_due {s : State} {t : Nat} (hao : s.aoUp = true) (hwatch : s.brake.watch = .waiting (some t))
    (hpast : s.past1 (t + s.brake.cfg.bootTo) = true) :
    exec .bootToExpiry s = .next (s.modBrake fun b => { b with watch := .armed, miss := 0, closed := false, beaten := true }) := by
  change execBootToExpiry s = _
  unfold execBootToExpiry
  rw [hwatch]
  exact if_pos (by simp [hao, hpast])

/-! ### ENG, members and the internal watch (R276 to R281) -/

theorem exec_engConfToExpiry_due {s : State} {e : EngHang} (hao : s.aoUp = true) (heng : s.brake.eng = some e)
    (hpast : s.past1 (e.since + s.brake.cfg.engConfTo) = true) :
    exec .engConfToExpiry s = .next ((s.engHangV.elim s s.confirmHang).modBrake fun b => { b with eng := none }) := by
  change execEngConfToExpiry s = _
  unfold execEngConfToExpiry
  rw [heng]
  refine (if_pos (by simp [hao, hpast])).trans ?_
  cases s.engHangV <;> rfl

theorem exec_blockBeatPeriodEnd_due {m : Laddr} {s : State} {b : BlockBeat} {k : Nat} (hk : k = gridAt (s.brake.blkP b.k) s.tb0Past)
    (hb : s.brake.blocks.find? (fun x => x.addr == m) = some b) (hao : s.aoUp = true) (hmaster : s.isMaster = true)
    (hmember : s.sys.members.any (fun x => x.addr == m) = true) (hdue : b.k < k) :
    exec (.blockBeatPeriodEnd m) s = .next (s.judgeBlock b k) := by
  subst hk
  change execBlockBeatPeriodEnd m s = _
  unfold execBlockBeatPeriodEnd
  rw [hb]
  exact (if_pos (by simp [hao, hmaster, hmember])).trans (if_pos hdue)

/-- The fourth period of TB1 in which CTL has not beaten. -/
theorem exec_internalWatchPeriod_ctlFourth {s : State} {k : Nat} (hk : k = s.tb1Ns / 1000000) (hao : s.aoUp = true)
    (hnew : k ≠ s.brake.intK) (hctl : s.ctlUp = true) (hmiss : s.brake.ctlMiss = 3) :
    ∃ t : State, exec (.internalWatchPeriod false true) s = .next (t.confirmInternal 3) ∧ t.brake.intK = k ∧ t.brake.ctlMiss = 4 := by
  subst hk
  refine ⟨_, (if_pos (by simpa [hao] using hnew)).trans (congrArg Host.Outcome.next (if_pos ?_)), rfl, ?_⟩
  · simp [hctl, hmiss]
  · simp [hctl, hmiss]

theorem exec_internalWatchPeriod_beats {s : State} {k : Nat} (hk : k = s.tb1Ns / 1000000) (hao : s.aoUp = true)
    (hnew : k ≠ s.brake.intK) :
    ∃ t : State, exec (.internalWatchPeriod true true) s = .next t ∧ t.brake.intK = k ∧ t.brake.ctlMiss = 0 ∧ t.brake.engMiss = 0 := by
  subst hk
  refine ⟨_, (if_pos (by simpa [hao] using hnew)).trans (congrArg Host.Outcome.next ((if_neg ?_).trans (if_neg ?_))), rfl, ?_, ?_⟩
  all_goals simp

/-! ### The ladder and its requests (R282 to R290) -/

theorem exec_recovToExpiry_due {s : State} {l : Ladder} {t : Nat} (hao : s.aoUp = true) (hl : s.brake.ladder = some l)
    (hrung : l.rung = .recover t) (hpast : s.past1 (t + s.brake.cfg.recovTo) = true) :
    exec .recovToExpiry s = .next (s.setRung .coldWait).tryCold := by
  change execRecovToExpiry s = _
  unfold execRecovToExpiry
  simp only [hl, hrung]
  exact if_pos (by simp [hao, hpast])

theorem exec_coldRung_aoUp {s : State} (hao : s.aoUp = true) : exec .coldRung s = .next s.tryCold := if_pos hao

theorem State.stage_brake (code : BitVec 16) (sev : Sev) (argb arg : Nat) (s : State) :
    (s.stage code sev argb arg).brake = s.brake := State.stage_moves.1 .brake rfl

/-- Of the Brake a notice changes at most what is owed while ENG does not run. -/
theorem State.ownNotice_ladder (kind hsrc : Nat) (vid : Word) (core engine detail ctx extra : Nat) (s : State) :
    (s.ownNotice kind hsrc vid core engine detail ctx extra).brake.ladder = s.brake.ladder := by
  unfold State.ownNotice State.notice State.sendOwed
  split
  · exact congrArg BrakeUnit.ladder (State.send_moves.1 .brake rfl)
  · rfl

theorem exec_reqToExpiry_warm {s t : State} (hao : s.aoUp = true) (hwarm : s.ignored s.brake.reqWarm = true)
    (hcold : s.ignored s.brake.reqCold = false) (hl : s.brake.ladder = none)
    (ht : t = (s.modBrake fun b => { b with reqWarm := none }).stage 0x0A02 .fault 0 0) :
    exec .reqToExpiry s = .next (t.ownNotice 6 0xFF 0 0xFF 0xFF dWarm 0 0) := by
  subst ht
  change execReqToExpiry s = _
  simp [execReqToExpiry, hao, hwarm, hcold, hl, b2n, State.ownNotice_ladder, State.stage_brake]

theorem exec_reqToExpiry_cold {s t : State} (hao : s.aoUp = true) (hwarm : s.ignored s.brake.reqWarm = false)
    (hcold : s.ignored s.brake.reqCold = true) (hoos : s.sys.oos = false) (hl : s.brake.ladder = none)
    (ht : t = (s.modBrake fun b => { b with reqCold := none }).stage 0x0A02 .fault 1 0) :
    exec .reqToExpiry s = .next (t.ownNotice 6 0xFF 0 0xFF 0xFF dCold 0 0).endLadder := by
  subst ht
  change execReqToExpiry s = _
  simp [execReqToExpiry, hao, hwarm, hcold, hoos, hl, b2n]

theorem exec_resetRequestRelease_cold {s : State} (hao : s.aoUp = true) (hoos : s.sys.oos = false)
    (hmay : s.mayRelease s.brake.reqCold = true) :
    exec (.resetRequestRelease true) s = .next (s.modBrake fun b => { b with reqCold := none }) :=
  if_pos (by simp [hao, hoos, hmay])

theorem exec_resetRequestRelease_warm {s : State} (hao : s.aoUp = true) (hmay : s.mayRelease s.brake.reqWarm = true) :
    exec (.resetRequestRelease false) s = .next (s.modBrake fun b => { b with reqWarm := none }) :=
  (if_neg (by simp)).trans (if_pos (by simp [hao, hmay]))

end Sys2Proof.Machine
end

section
/-! The statement of the brake rows. -/

namespace Sys2Proof.Machine

/-- Settles O41: each clause is the run lemma of its row. -/
theorem brakeRowsRun : Obligations.BrakeRowsRun := by
  unfold Obligations.BrakeRowsRun
  refine ⟨fun _ => exec_hbPinBeat_taken, fun _ _ _ => exec_heartbeatPeriodEnd_due, fun _ _ => exec_bootToExpiry_due,
    fun s _ hao heng hpast => (exec_engConfToExpiry_due hao heng hpast).trans ?_, fun _ _ _ _ => exec_blockBeatPeriodEnd_due,
    fun _ _ => exec_internalWatchPeriod_ctlFourth, fun _ _ => exec_internalWatchPeriod_beats, fun _ _ _ => exec_recovToExpiry_due,
    fun _ => exec_coldRung_aoUp, fun _ _ => exec_reqToExpiry_warm, fun _ _ => exec_reqToExpiry_cold,
    fun _ => exec_resetRequestRelease_cold, fun _ => exec_resetRequestRelease_warm⟩
  cases s.engHangV <;> rfl

end Sys2Proof.Machine
end

section
/-! SUPPORT. The rows that follow a confirmed hang or a lost peer: what each leaves once it is due. -/

namespace Sys2Proof.Machine

/-! ### A peer's link (R288) -/

section Peer

variable {i : Iface} {s : State} {t : Nat} {m : Member} (heng : s.engUp = true) (hmaster : s.isMaster = true)
  (hdown : (s.ifc i.val).downAt = some t)
  (hm : s.sys.members.find? (fun m => m.ifc == i.val && i.val != 0) = some m) (hpast : s.past1 (t + 10000) = true)
include heng hmaster hdown hm hpast

/-- A peer heard over the fabric since its link went down is not lost. -/
theorem exec_peerLinkDownTimeout_heard (hfab : (tget s.verd.dies m.addr.toNat).any (fun d => decide (t ≤ d.lastFab)) = true) :
    exec (.peerLinkDownTimeout i) s = .next (s.modIfc i.val fun f => { f with downAt := none }) := by
  obtain ⟨d, hd, hle⟩ := (Option.any_eq_true _ _).1 hfab
  change execPeerLinkDownTimeout i s = _
  unfold execPeerLinkDownTimeout
  rw [hdown, hm]
  refine (if_pos (by simp [heng, hmaster, hpast])).trans (if_pos ?_)
  simp only [hd, hle, Bool.true_or]

theorem exec_peerLinkDownTimeout_lost (hfab : ∀ d, tget s.verd.dies m.addr.toNat = some d → d.lastFab < t)
    (hpeer : (s.peer m.addr).gone = false) :
    exec (.peerLinkDownTimeout i) s = .next (((((s.modIfc i.val fun f => { f with downAt := none }).resetSeen m.addr s.tb0Ns).peerNotice
      m.addr 0 dNoGasp s.tb0Ns 0).putPeer m.addr { gone := true, epochs := [] })) := by
  change execPeerLinkDownTimeout i s = _
  unfold execPeerLinkDownTimeout
  rw [hdown, hm]
  refine (if_pos (by simp [heng, hmaster, hpast])).trans (if_neg ?_)
  cases hd : tget s.verd.dies m.addr.toNat with
  | none => simp [hpeer]
  | some d => simpa [hpeer] using hfab d hd

end Peer

/-! ### Captures (R295 to R303) -/

theorem exec_sideReadResponse_data {s : State} {x : SideRead} {data : List Byte} (hao : s.aoUp = true) (hx : s.brake.side = some x)
    (hlen : data.length = x.len) : exec (.sideReadResponse data none) s = .next (s.sideDone (some data) 0) := by
  change execSideReadResponse data none s = _
  unfold execSideReadResponse
  rw [hx]
  exact (if_pos hao).trans (if_pos hlen)

theorem exec_sideReadResponse_error {s : State} {x : SideRead} {data : List Byte} {ecc : Bool} (hao : s.aoUp = true)
    (hx : s.brake.side = some x) :
    exec (.sideReadResponse data (some ecc)) s = .next (s.sideDone none (if ecc then 4 else 2)) := by
  change execSideReadResponse data (some ecc) s = _
  unfold execSideReadResponse
  rw [hx]
  exact if_pos hao

theorem exec_sideReadTimeout_due {s : State} {x : SideRead} (hao : s.aoUp = true) (hx : s.brake.side = some x)
    (hpast : x.since + sideTimeout ≤ s.time.tb1p1.toNat) : exec .sideReadTimeout s = .next (s.sideDone none 1) := by
  change execSideReadTimeout s = _
  unfold execSideReadTimeout
  rw [hx]
  exact if_pos (by simp [hao, hpast])

theorem exec_ingotCaptureEnd_due {s : State} {c : Capture} (hao : s.aoUp = true) (hc : s.brake.capture = some c)
    (hpast : s.past1 (c.start1 + s.brake.cfg.budget) = true) : exec .ingotCaptureEnd s = .next s.captureEnd := by
  change execIngotCaptureEnd s = _
  unfold execIngotCaptureEnd
  rw [hc]
  exact if_pos (by simp [hao, hpast])

theorem exec_ingotWriteDone_due {s t : State} {w : IngotWrite} (hctl : s.ctlUp = true) (hw : s.brake.writing = some w)
    (ht : t = (s.programFlash (ingotBase 0) (w.image.take 124)).programFlash (ingotBase 0 + 124) (slice (withValid w.image) 124 4)) :
    exec .ingotWriteDone s = .next (((((if s.brake.clearDue then t.clearIngot 0
      else t.modFlash fun u => { u with ingot0 := withValid w.image }).modBrake fun b =>
        { b with writing := none, clearDue := false }).ingotReady w.image w.vid w.source w.drill 0).tryCold)) := by
  subst ht
  change execIngotWriteDone s = _
  unfold execIngotWriteDone
  rw [hw]
  exact if_pos hctl

/-! ### The context search (R304) -/

theorem exec_gpToExpiry_due {s : State} {q : Search} (hctl : s.ctlUp = true) (hq : s.brake.search = some q)
    (hpast : s.past1 (q.since + s.brake.cfg.gpTo) = true) : exec .gpToExpiry s = .next (s.guilty q) := by
  change execGpToExpiry s = _
  unfold execGpToExpiry
  rw [hq]
  exact if_pos (by simp [hctl, hpast])

end Sys2Proof.Machine
end

section
/-! The statement of the recovery rows. -/

namespace Sys2Proof.Machine

/-- Settles O42: each clause is the run lemma of its row. -/
theorem recoveryRowsRun : Obligations.RecoveryRowsRun := by
  unfold Obligations.RecoveryRowsRun
  refine ⟨fun i s t m heng hmaster hdown hm hpast hfab => exec_peerLinkDownTimeout_heard heng hmaster hdown hm hpast ?_,
    fun _ _ _ _ heng hmaster hdown hm hpast => exec_peerLinkDownTimeout_lost heng hmaster hdown hm hpast,
    fun _ _ _ => exec_sideReadResponse_data, fun _ _ _ _ => exec_sideReadResponse_error, fun _ _ => exec_sideReadTimeout_due,
    fun _ _ => exec_ingotCaptureEnd_due, fun _ _ _ => exec_ingotWriteDone_due, fun _ _ => exec_gpToExpiry_due⟩
  cases hd : tget s.verd.dies m.addr.toNat with
  | none => simp [hd] at hfab
  | some d => simpa [hd] using hfab

end Sys2Proof.Machine
end

section
/-! SUPPORT. The rows of a die's agent: what each leaves once it is valid and due. -/

namespace Sys2Proof.Machine

theorem exec_pwrReqChange_up {req : BitVec 11} {s : State} (hao : s.aoUp = true) :
    exec (.pwrReqChange req) s = .next (s.modGov fun g => { g with req := req.toNat }).clampSettle :=
  if_pos hao

section Agent

variable {m : GovMsg} {s : State} (hdie : s.isDie = true) (hport : s.portUp .pwr = true)
include hdie hport

/-- A GRANT is word type 1. -/
theorem exec_grantMessage_ok {w : Nat} (hw : w = m.word.toNat) (hok : govOk w = true) (htype : bits w 63 60 = 1) :
    exec (.grantMessage m) s = .next ((s.modGov fun g =>
      { g with g := bits w 55 45, floorR := bits w 44 34, ackSeq := BitVec.ofNat 4 (bits w 59 56), lastGrant := some s.tb1Ns,
               fallback := false }).clampSettle).agentReport := by
  subst hw
  exact (if_pos (by simp [hdie, hport])).trans ((if_neg (by simp [hok])).trans (if_pos htype))

theorem exec_grantMessage_bad (hbad : govOk m.word.toNat = false) :
    exec (.grantMessage m) s = .next (s.modGov fun g => { g with err := satAdd 16 g.err 1 }) :=
  (if_pos (by simp [hdie, hport])).trans (if_pos (by simp [hbad]))

theorem exec_planAck_bad (hbad : govOk m.word.toNat = false) :
    exec (.planAck m) s = .next (s.modGov fun g => { g with err := satAdd 16 g.err 1 }) :=
  (if_pos (by simp [hdie, hport])).trans (if_pos (by simp [hbad]))

/-- A PLAN_ACK is word type 4, and outcome 0 says that the plan is applied. -/
theorem exec_planAck_applied {w : Nat} (hw : w = m.word.toNat) (hok : govOk w = true) (htype : bits w 63 60 = 4)
    (hout : bits w 39 32 = 0) (hstart : s.gov.startPlan = false) :
    exec (.planAck m) s = .next (s.ownApplied (signed 8 (bits w 59 52))) := by
  subst hw
  exact (if_pos (by simp [hdie, hport])).trans ((if_neg (by simp [hok])).trans
    ((if_pos ⟨htype, hout⟩).trans (congrArg Host.Outcome.next (if_neg (by simp [hstart])))))

theorem exec_reportInterval_due {t : State} {b : Nat} (hb : b = gridAt 20000 s.tb1Ns) (hdue : s.gov.lastRep < b)
    (ht : t = s.modGov fun g => { g with lastRep := b }) (hfree : ∀ u, s.gov.lastGrant = some u → u + 20000 ≤ b) :
    exec .reportInterval s = .next t.agentReport := by
  subst hb ht
  refine (if_pos (by simp [hdie, hport, hdue])).trans (congrArg Host.Outcome.next (if_pos ?_))
  cases hlast : s.gov.lastGrant with
  | none => rfl
  | some u => exact decide_eq_true (hfree u hlast)

/-- A GRANT of the last period has been answered by its own report. -/
theorem exec_reportInterval_granted {t : State} {b u : Nat} (hb : b = gridAt 20000 s.tb1Ns) (hdue : s.gov.lastRep < b)
    (ht : t = s.modGov fun g => { g with lastRep := b }) (hlast : s.gov.lastGrant = some u) (hlt : b < u + 20000) :
    exec .reportInterval s = .next t := by
  subst hb ht
  refine (if_pos (by simp [hdie, hport, hdue])).trans (congrArg Host.Outcome.next (if_neg ?_))
  rw [hlast]
  simpa using hlt

end Agent

theorem exec_glToExpiry_due {s : State} (hdie : s.isDie = true) (hao : s.aoUp = true) (hfb : s.gov.fallback = false)
    (hpast : s.past1 (s.gov.lastGrant.getD 0 + s.gov.glTo) = true) :
    exec .glToExpiry s = .next (s.modGov fun g => { g with fallback := true }).clampSettle :=
  if_pos (by simp [hdie, hao, hfb, hpast])

end Sys2Proof.Machine
end

section
/-! The statement of the agent rows. -/

namespace Sys2Proof.Machine

/-- Settles O43: each clause is the run lemma of its row. -/
theorem agentRowsRun : Obligations.AgentRowsRun := by
  unfold Obligations.AgentRowsRun
  exact ⟨fun _ _ => exec_pwrReqChange_up, fun _ _ _ hw hdie hport hok htype => exec_grantMessage_ok hdie hport hw hok htype,
    fun _ _ hdie hport hbad => ⟨exec_grantMessage_bad hdie hport hbad, exec_planAck_bad hdie hport hbad⟩,
    fun _ => exec_glToExpiry_due,
    fun _ _ _ hb hdie hport hdue ht => ⟨exec_reportInterval_due hdie hport hb hdue ht,
      fun _ => exec_reportInterval_granted hdie hport hb hdue ht⟩,
    fun _ _ _ hw hdie hport hok htype hout => exec_planAck_applied hdie hport hw hok htype hout⟩

end Sys2Proof.Machine
end

section
/-! SUPPORT. The rows of a tray's arbiter: what each leaves once it is valid and due. -/

namespace Sys2Proof.Machine

section Arbiter

variable {s : State} (htray : s.isTray = true)
include htray

/-! ### The grant period (R352 to R356) -/

theorem exec_grantPeriodStart_due {t : State} {k : Nat} (hk : k = s.tb1Ns / 20000) (hao : s.aoUp = true) (hdue : s.gov.period < k)
    (ht : t = ((if s.gov.changed then s.sendGrantRec s.gov.recBody else s).modGov fun g =>
      { g.budgetStart with members := g.members.map fun m => m.periodStart s.tb1Ns g.glTo, period := k, phase := 1,
                           endBody := s.gov.recBody }).boundSettle) :
    exec .grantPeriodStart s = .next (t.gov.targets.foldl State.phase1 t) := by
  subst hk ht
  exact if_pos (by simp [htray, hao, hdue])

/-- Phase 2 begins once every member of phase 1 has answered or is silent, and after 12 µs at the latest. -/
theorem exec_phase2Start_due (hao : s.aoUp = true) (hphase : s.gov.phase = 1)
    (hready : (∀ m ∈ s.gov.members, m.waitAck.isSome = true → s.inPhase1 m = true → m.silent = true) ∨
      s.past1 (s.gov.period * 20000 + 12000) = true) :
    exec .phase2Start s = .next (((List.range 16).foldl State.phase2 s).modGov fun g => { g with phase := 2 }) := by
  refine if_pos ?_
  obtain hready | hpast := hready
  · have hclosed : (s.gov.members.any fun m => m.waitAck.isSome && s.inPhase1 m && !m.silent) = false := by
      simpa using hready
    simp [htray, hao, hphase, hclosed]
  · simp [htray, hao, hphase, hpast]

theorem exec_grantRecBoundary_due {b : Nat} (hb : b = gridAt (s.gov.grantRec * 1000000) s.tb1Ns) (hao : s.aoUp = true)
    (hdue : s.gov.lastRec < b) :
    exec .grantRecBoundary s = .next ((s.sendGrantRec (if s.gov.period * 20000 < b then s.gov.recBody else s.gov.endBody)).modGov
      fun g => { g with lastRec := b }) := by
  subst hb
  exact if_pos (by simp [htray, hao, hdue])

/-! ### Reports and silent members -/

/-- A report is word type 2. -/
theorem exec_reportMessage_ok {i : Fin 16} {m : GovMsg} {r : GovReport} {t : State} (hport : s.portUp .pwr = true)
    (hok : govOk m.word.toNat = true) (htype : bits m.word.toNat 63 60 = 2) (hr : r = parseReport m.word.toNat)
    (ht : t = (s.modMem i.val fun x =>
      { x with last := some r, lastAt := s.tb1Ns, back := x.silent,
               acct := match x.waitAck with | some (q, t) => if q.toNat = r.ackSeq then t else x.acct | none => x.acct,
               waitAck := match x.waitAck with
                 | some (q, t) => if q.toNat = r.ackSeq then none else some (q, t)
                 | none => none }).boundSettle) :
    exec (.reportMessage i m) s = .next (if r.trip = true ∧ (∀ o, (s.mem i.val).last = some o → o.trip = false) then
      t.stage 0x0D03 .fault i.val 0 else t) := by
  subst hr ht
  refine (if_pos (by simp [htray, hport])).trans ((if_neg (by simp [hok])).trans ((if_pos htype).trans
    (congrArg Host.Outcome.next (if_congr ?_ rfl rfl))))
  cases (s.mem i.val).last <;> simp

theorem exec_reportMessage_bad {i : Fin 16} {m : GovMsg} (hport : s.portUp .pwr = true) (hbad : govOk m.word.toNat = false) :
    exec (.reportMessage i m) s = .next (s.linkErr i.val) :=
  (if_pos (by simp [htray, hport])).trans (if_pos (by simp [hbad]))

theorem exec_memberSilent_due {i : Fin 16} {c : MemberCfg} (hao : s.aoUp = true) (hcfg : (s.mem i.val).cfg = some c)
    (hsilent : (s.mem i.val).silent = false) (hpast : s.past1 ((s.mem i.val).lastAt + s.gov.glTo) = true) :
    exec (.memberSilent i) s = .next ((s.modMem i.val fun x =>
      { x with silent := true, back := false, released := false, waitAck := none }).stage 0x0D02 .notice i.val c.addr.toNat) := by
  change execMemberSilent i s = _
  unfold execMemberSilent
  dsimp only
  rw [hcfg]
  exact if_pos (by simp [htray, hao, hsilent, hpast])

theorem exec_silentAccountRelease_due {i : Fin 16} (hao : s.aoUp = true) (hcfg : (s.mem i.val).cfg.isSome = true)
    (hsilent : (s.mem i.val).silent = true) (hheld : (s.mem i.val).released = false)
    (hpast : (s.mem i.val).sentAt + s.gov.glTo + 3000 ≤ s.tb1Ns) :
    exec (.silentAccountRelease i) s = .next (s.modMem i.val fun x =>
      { x with released := true, acct := match x.last with | some r => r.fb | none => 0 }).boundSettle :=
  if_pos (by simp [htray, hao, hcfg, hsilent, hheld, hpast])

/-! ### Plans (R359, R362) -/

/-- A plan is word type 3. One that moves the offset again within six hours is held. -/
theorem exec_plan_ok {i : Fin 16} {m : GovMsg} {w : PmbWrite} {p : State × Int} {c : MemberCfg} {x : Nat} (hx : x = m.word.toNat)
    (hport : s.portUp .pwr = true) (hok : govOk x = true) (htype : bits x 63 60 = 3)
    (hp : p = s.windowClamp (signed 8 (bits x 59 52))) (hcfg : (s.mem i.val).cfg = some c) :
    exec (.plan i m w) s = .next (if p.2 = (s.mem i.val).offset then p.1.rewritePlan i.val c p.2 (bits x 51 40) w
      else if s.tb1Ns < (s.mem i.val).offsetAt + sixHours then
      (p.1.modMem i.val fun y => { y with held := some (p.2, bits x 51 40) }).planAck i.val 1
      else p.1.applyPlan i.val c p.2 (bits x 51 40) w) := by
  subst hx hp
  refine (if_pos (by simp [htray, hport])).trans ((if_neg (by simp [hok])).trans ((if_pos htype).trans ?_))
  dsimp only
  rw [hcfg, apply_ite Host.Outcome.next, apply_ite Host.Outcome.next]

theorem exec_plan_bad {i : Fin 16} {m : GovMsg} {w : PmbWrite} (hport : s.portUp .pwr = true) (hbad : govOk m.word.toNat = false) :
    exec (.plan i m w) s = .next (s.linkErr i.val) :=
  (if_pos (by simp [htray, hport])).trans (if_pos (by simp [hbad]))

theorem exec_planHoldRelease_member {i : Fin 17} {w : PmbWrite} {o : Int} {v : Nat} {c : MemberCfg} (hi : i.val < 16)
    (hao : s.aoUp = true) (hheld : (s.mem i.val).held = some (o, v)) (hcfg : (s.mem i.val).cfg = some c)
    (hpast : (s.mem i.val).offsetAt + sixHours ≤ s.tb1Ns) :
    exec (.planHoldRelease i w) s = .next (s.applyPlan i.val c o v w) := by
  refine (if_neg hi.ne).trans ?_
  rw [hheld, hcfg]
  exact if_pos (by simp [htray, hao, hpast])

/-! ### The regulators (R346) -/

theorem exec_pmbPoll_due {r : List PmbReading} (hport : s.portUp .pwr = true)
    (hdue : s.gov.lastPoll + s.gov.poll * 1000000 ≤ s.tb1Ns) :
    exec (.pmbPoll r) s = .next (s.pages.foldl (State.pollOne r) (s.modGov fun g => { g with lastPoll := s.tb1Ns })) :=
  if_pos (by simp [htray, hport, hdue])

theorem exec_smbalert_up {st : List (BitVec 16)} (hport : s.portUp .pwr = true) :
    exec (.smbalert st) s = .next (((List.range s.pages.length).zip s.pages).foldl (fun t e =>
      match st[e.1]? with
      | some w => ((t.paged e.2.2.pmaddr e.2.2.page 0x79 0).modMem e.2.1 fun m =>
          { m with read := { m.read with status := w } }).pmbStatus e.2.1 e.2.2 w
      | none => ((t.paged e.2.2.pmaddr e.2.2.page 0x79 0).paged e.2.2.pmaddr e.2.2.page 0x79 0).pageFailed e.2.1) s) :=
  if_pos (by simp [htray, hport])

end Arbiter

/-- Place 16 holds the plan of the block itself. -/
theorem exec_planHoldRelease_own {s : State} {i : Fin 17} {w : PmbWrite} {o : Int} (hi : i.val = 16) (hao : s.aoUp = true)
    (hheld : s.gov.heldPlan = some o) (hpast : s.gov.offAt + sixHours ≤ s.tb1Ns) :
    exec (.planHoldRelease i w) s = .next (s.ownPlan o w) := by
  refine (if_pos hi).trans ?_
  rw [hheld]
  exact if_pos (by simp [hao, hpast])

end Sys2Proof.Machine
end

section
/-! The statement of the arbiter rows. -/

namespace Sys2Proof.Machine

/-- Settles O44: each clause is the run lemma of its row. -/
theorem arbiterRowsRun : Obligations.ArbiterRowsRun := by
  unfold Obligations.ArbiterRowsRun
  exact ⟨fun _ _ _ hk htray hao => exec_grantPeriodStart_due htray hk hao, fun _ htray => exec_phase2Start_due htray,
    fun _ _ _ _ _ htray hport hok htype hr ht => exec_reportMessage_ok htray hport hok htype hr ht,
    fun _ _ _ _ htray hport hbad => ⟨exec_reportMessage_bad htray hport hbad, exec_plan_bad htray hport hbad⟩,
    fun _ _ _ htray => exec_memberSilent_due htray, fun _ _ htray => exec_silentAccountRelease_due htray,
    fun _ _ hb htray hao => exec_grantRecBoundary_due htray hb hao,
    fun _ _ _ _ _ _ _ hx htray hport hok htype => exec_plan_ok htray hx hport hok htype,
    fun _ _ _ _ => exec_planHoldRelease_own, fun _ _ _ _ _ _ hi htray => exec_planHoldRelease_member htray hi,
    fun _ _ htray => exec_pmbPoll_due htray, fun _ _ htray => exec_smbalert_up htray⟩

end Sys2Proof.Machine
end

section
/-! SUPPORT. The rows of the in-field test: what each leaves once it is due. -/

namespace Sys2Proof.Machine

/-! ### Requests (R373, R376) -/

theorem exec_testDue_picked {core : BitVec 8} {s : State} (hpick : s.planApply.pickCore = some core.toNat) :
    exec (.testDue core) s = .next s.askNext :=
  if_pos (by simp [hpick])

theorem exec_reaskExpiry_due {s : State} {q : TestReq} (hctl : s.ctlUp = true) (hlib : s.libReady = true)
    (hq : s.test.req = some q) (hpast : q.asked + s.test.reask * 60000000000 ≤ s.tb1Ns) :
    exec .reaskExpiry s = .next (s.postRequest q) := by
  change execReaskExpiry s = _
  unfold execReaskExpiry
  rw [hq]
  exact if_pos (by simp [hctl, hlib, hpast])

theorem exec_testOverdue_due {core : BitVec 8} {s t : State} {d : Nat} (hdie : s.isDie = true) (hao : s.aoUp = true)
    (hcore : s.testCore core.toNat = true) (hgood : (s.tcore core.toNat).failed = false)
    (hnew : (s.tcore core.toNat).overdue = false) (hplan : s.test.plan ≠ []) (hd : s.dueAt core.toNat = some d)
    (hpast : s.past0 (d + s.test.maxdef * 3600000000000) = true)
    (ht : t = (((s.bump cTestOverdue).stage 0x1201 .notice core.toNat d).modTcore core.toNat fun y => { y with overdue := true })) :
    exec (.testOverdue core) s = .next (match t.test.req with
      | some q => if t.ctlUp && t.libReady then t.postRequest q else t
      | none => t.askNext) := by
  subst ht
  change execTestOverdue core s = _
  unfold execTestOverdue
  dsimp only
  rw [hd]
  exact if_pos (by simp [hdie, hao, hcore, hgood, hnew, hplan, hpast])

/-! ### Windows (R377 to R382) -/

section Window

variable {s : State} {w : TestWindow} (hao : s.aoUp = true) (hw : s.test.win = some w)
include hao hw

theorem exec_winUsExpiry_due (hopen : w.leaving = none) (hpast : s.past1 (w.open1 + w.winUs * 1000) = true) :
    exec .winUsExpiry s = .next (s.endWindow 7) := by
  change execWinUsExpiry s = _
  unfold execWinUsExpiry
  rw [hw]
  exact if_pos (by simp [hao, hopen, hpast])

theorem exec_selAckTimeout_scan (hkind : w.kind = 1) (hopen : w.leaving = none) :
    exec .selAckTimeout s = .next (s.endWindow 7) := by
  change execSelAckTimeout s = _
  unfold execSelAckTimeout
  rw [hw]
  exact if_pos (by simp [hao, hkind, hopen])

theorem exec_scanSegmentEnd_pass (hkind : w.kind = 1) (hopen : w.leaving = none) :
    exec (.scanSegmentEnd .pass) s = .next (s.leaveWindow 0 0xFFFFFFFF 0) := by
  change execScanSegmentEnd .pass s = _
  unfold execScanSegmentEnd
  rw [hw]
  exact if_pos (by simp [hao, hkind, hopen])

theorem exec_scanSegmentEnd_fail {op n : Word} (hkind : w.kind = 1) (hopen : w.leaving = none) :
    exec (.scanSegmentEnd (.fail op n)) s = .next (s.leaveWindow 1 op.toNat n.toNat) := by
  change execScanSegmentEnd (.fail op n) s = _
  unfold execScanSegmentEnd
  rw [hw]
  exact if_pos (by simp [hao, hkind, hopen])

theorem exec_exitSequenceDone_leaving {r f n : Nat} (hleave : w.leaving = some (r, f, n)) :
    exec .exitSequenceDone s = .next (s.closeWindow r f n) := by
  change execExitSequenceDone s = _
  unfold execExitSequenceDone
  simp only [hw, hleave]
  exact if_pos hao

end Window

end Sys2Proof.Machine
end

section
/-! The statement of the test rows. -/

namespace Sys2Proof.Machine

/-- Settles O45: each clause is the run lemma of its row. -/
theorem testRowsRun : Obligations.TestRowsRun := by
  unfold Obligations.TestRowsRun
  exact ⟨fun _ _ => exec_testDue_picked, fun _ _ => exec_reaskExpiry_due, fun _ _ _ _ => exec_testOverdue_due,
    fun _ _ => exec_winUsExpiry_due, fun _ _ => exec_selAckTimeout_scan,
    fun _ _ hao hw hkind hopen => ⟨exec_scanSegmentEnd_pass hao hw hkind hopen, fun _ _ => exec_scanSegmentEnd_fail hao hw hkind hopen⟩,
    fun _ _ _ _ _ hao hw => exec_exitSequenceDone_leaving hao hw⟩

end Sys2Proof.Machine
end

section
/-! SUPPORT. The rows of Hoist: what each leaves once it is due. -/

namespace Sys2Proof.Machine

/-! ### Stages (R425 to R431) -/

theorem exec_chunkWritten_due {i : Word} {s t : State} {g : Stage} (hctl : s.ctlUp = true) (hg : s.hoist.stage = some g)
    (hended : g.ended = false) (hdup : g.dup = false) (hi : i.toNat = g.written) (hlt : g.written < g.expect)
    (herase : s.eraseReady g = true) (ht : t = (if g.kind = 2 ∧ g.erased = false then s.eraseSlot 2 0 else s)) :
    exec (.chunkWritten i) s = .next ((((if g.kind = 3 then t
      else t.programFlash (regionBase g.kind g.slot + 2000 * g.written) ((g.bytes.drop (2000 * g.written)).take 2000)).modStage
        fun x => { x with written := x.written + 1, erased := true }).sendAck g (g.written + 1))) := by
  subst ht
  change execChunkWritten i s = _
  unfold execChunkWritten
  rw [hg]
  refine (if_pos (by simp [hctl, hended, hdup, hi, hlt, herase])).trans ?_
  simp only [Bool.not_eq_true']

section Retransmission

variable {s : State} {g : Stage} (hctl : s.ctlUp = true) (hg : s.hoist.stage = some g) (hwhole : g.broken = false)
  (hopen : g.acked < g.sent) (hpast : s.past1 (g.lastAck + s.hoistRto) = true)
include hctl hg hwhole hopen hpast

theorem exec_hoistRtoExpiry_again (hrounds : g.rounds < 5) :
    exec .hoistRtoExpiry s = .next (((List.range (g.sent - g.acked)).foldl (fun t i => t.sendData g (g.acked + i)) s).modStage
      fun x => { x with rounds := x.rounds + 1, lastAck := s.tb1Ns }) := by
  change execHoistRtoExpiry s = _
  unfold execHoistRtoExpiry
  rw [hg]
  exact (if_pos (by simp [hctl, hwhole, hopen, hpast])).trans (if_pos hrounds)

/-- After five rounds the stage is given up. -/
theorem exec_hoistRtoExpiry_last (hrounds : 5 ≤ g.rounds) :
    exec .hoistRtoExpiry s = .next (((s.modStage fun x => { x with broken := true }).stage 0x1007 .notice 0
      (s.stageNext g).toNat).stageDrop) := by
  change execHoistRtoExpiry s = _
  unfold execHoistRtoExpiry
  rw [hg]
  exact (if_pos (by simp [hctl, hwhole, hopen, hpast])).trans (if_neg (Nat.not_lt.2 hrounds))

end Retransmission

theorem exec_hoistWaitExpiry_due {s : State} {g : Stage} (hctl : s.ctlUp = true) (hg : s.hoist.stage = some g) (hsrc : g.src = 1)
    (hended : g.ended = false) (hpart : g.xfer = none ∨ g.expect < chunkCount g.len)
    (hpast : s.past1 (g.lastChunk + s.hoistWait) = true) : exec .hoistWaitExpiry s = .next (s.stageFail g stTimeout) := by
  change execHoistWaitExpiry s = _
  unfold execHoistWaitExpiry
  rw [hg]
  exact if_pos (by simp [hctl, hsrc, hended, hpart, hpast])

section Complete

variable {s : State} {g : Stage} (hctl : s.ctlUp = true) (hg : s.hoist.stage = some g) (hended : g.ended = false)
  (hdup : g.dup = false) (hexpect : g.expect = chunkCount g.len) (hlen : g.bytes.length = g.len)
  (hsrc : g.src ≠ 0 → g.written = chunkCount g.len ∧ g.xfer.isSome = true) (herase : s.eraseReady g = true)
include hctl hg hended hdup hexpect hlen hsrc herase

/-- A whole image that does not pass its checks. -/
theorem exec_stageComplete_fails {ok : Bool} {st : BitVec 16} (hst : st = (if ok then s.imageStatus g.kind g.bytes else stCheck))
    (hbad : st ≠ stOk) : exec (.stageComplete ok) s = .next ((s.stageWritten g).stageFail { g with erased := true } st) := by
  subst hst
  have hwritten : g.src = 0 ∨ g.written = chunkCount g.len := or_iff_not_imp_left.2 fun h => (hsrc h).1
  have hxfer : g.src = 0 ∨ g.xfer.isSome = true := or_iff_not_imp_left.2 fun h => (hsrc h).2
  change execStageComplete ok s = _
  unfold execStageComplete
  rw [hg]
  exact (if_pos (by simp [hctl, hended, hdup, hexpect, hlen, hwritten, hxfer, herase])).trans (if_pos hbad)

/-- An image of firmware that passes them: its slot is VALID. -/
theorem exec_stageComplete_firmware {t : State} (hgood : s.imageStatus g.kind g.bytes = stOk) (hkind : g.kind < 2)
    (ht : t = (((s.stageWritten g).putImage g.kind g.slot g.bytes).modDir (dirIndex g.kind g.slot) fun _ =>
      { st := .valid, ver := imageVer g.kind g.bytes, len := g.len, digest := rd g.bytes 32 8, tstage := s.tb0Ns })) :
    exec (.stageComplete true) s = .next (t.stageOk { g with erased := true } (imageVer g.kind g.bytes)) := by
  subst ht
  have hwritten : g.src = 0 ∨ g.written = chunkCount g.len := or_iff_not_imp_left.2 fun h => (hsrc h).1
  have hxfer : g.src = 0 ∨ g.xfer.isSome = true := or_iff_not_imp_left.2 fun h => (hsrc h).2
  change execStageComplete true s = _
  unfold execStageComplete
  rw [hg]
  refine (if_pos (by simp [hctl, hended, hdup, hexpect, hlen, hwritten, hxfer, herase])).trans
    ((if_neg (by simp [hgood])).trans ((if_neg (by omega)).trans ?_))
  dsimp only
  rw [if_neg (by omega)]

end Complete

/-! ### Trials and starts (R433 to R439) -/

theorem exec_fwSelfConfirm_healthy {s : State} (hao : s.aoUp = true) (hhealthy : s.healthy433 = true) :
    exec .fwSelfConfirm s = .next s.confirmTrial :=
  if_pos (by simp [hao, hhealthy])

theorem exec_fwHealthDeadline_due {s : State} {t : Nat} (hao : s.aoUp = true) (ht : s.hoist.trialAt = some t)
    (hpast : t + healthDeadline ≤ s.tb1Ns) :
    exec .fwHealthDeadline s = .next (if s.healthy433 then s.confirmTrial else s.fallBack 0) := by
  change execFwHealthDeadline s = _
  unfold execFwHealthDeadline
  rw [ht]
  exact (if_pos (by simp [hao, hpast])).trans (apply_ite _ _ _ _).symm

theorem exec_startReqTimeout_due {s : State} {w : Nat × Nat × Path × BitVec 16} (hctl : s.ctlUp = true) (hw : s.hoist.waitStart = some w)
    (hpast : s.past1 (w.2.1 + 100000000) = true) : exec .startReqTimeout s = .next s.startBusy := by
  change execStartReqTimeout s = _
  unfold execStartReqTimeout
  rw [hw]
  exact if_pos (by simp [hctl, hpast])

theorem exec_startGrantExpiry_due {s : State} {g : Laddr × Nat} (hctl : s.ctlUp = true) (hg : s.hoist.grant = some g)
    (hpast : s.past1 (g.2 + 660000000000) = true) :
    exec .startGrantExpiry s = .next (s.modHoist fun h => { h with grant := none }) := by
  change execStartGrantExpiry s = _
  unfold execStartGrantExpiry
  rw [hg]
  exact if_pos (by simp [hctl, hpast])

end Sys2Proof.Machine
end

section
/-! The statement of the hoist rows. -/

namespace Sys2Proof.Machine

/-- Settles O46: each clause is the run lemma of its row. -/
theorem hoistRowsRun : Obligations.HoistRowsRun := by
  unfold Obligations.HoistRowsRun
  exact ⟨fun _ _ _ _ => exec_chunkWritten_due,
    fun _ _ hctl hg hwhole hopen hpast => ⟨exec_hoistRtoExpiry_again hctl hg hwhole hopen hpast,
      exec_hoistRtoExpiry_last hctl hg hwhole hopen hpast⟩,
    fun _ _ => exec_hoistWaitExpiry_due,
    fun _ _ _ _ hctl hg hended hdup hexpect hlen hsrc herase => exec_stageComplete_fails hctl hg hended hdup hexpect hlen hsrc herase,
    fun _ _ _ hctl hg hended hdup hexpect hlen hsrc herase hgood hkind =>
      exec_stageComplete_firmware hctl hg hended hdup hexpect hlen hsrc herase hgood hkind,
    fun _ => exec_fwSelfConfirm_healthy, fun _ _ => exec_fwHealthDeadline_due, fun _ _ => exec_startReqTimeout_due,
    fun _ _ => exec_startGrantExpiry_due⟩

end Sys2Proof.Machine
end

section
/-! SUPPORT. The pointers of the queue pairs and the rows that write them. -/

namespace Sys2Proof.Machine

/-! ### Distances in a ring (R418, R419) -/

theorem qSize_pos (log2 : BitVec 4) : 0 < qSize log2 := Nat.two_pow_pos _

/-- A ring's distance is computed without a negative number: from `h` to `t` among `n` places. -/
theorem ring_distance_cast {t h n : Nat} (hlt : h < n) :
    (((t + n - h) % n : Nat) : Int) = ((t : Int) - (h : Int)) % (n : Int) := by
  have hcast : ((t + n - h : Nat) : Int) = (t : Int) - (h : Int) + (n : Int) := by omega
  rw [Int.natCast_mod, hcast, Int.add_emod_right]

theorem QPair.visible_eq {p : QPair} (hhead : p.cqHead.toNat < qSize p.cqLog2) :
    (p.visible : Int) = ((p.cqTail.toNat : Int) - (p.cqHead.toNat : Int)) % (qSize p.cqLog2 : Int) :=
  ring_distance_cast hhead

theorem QPair.visible_lt (p : QPair) : p.visible + 1 ≤ qSize p.cqLog2 := Nat.mod_lt _ (qSize_pos _)

theorem QPair.freeSlots_eq {p : QPair} (hhead : p.rqHead.toNat < qSize p.rqLog2) :
    (p.freeSlots : Int) = (qSize p.rqLog2 : Int) - 1 - ((p.rqTail.toNat : Int) - (p.rqHead.toNat : Int)) % (qSize p.rqLog2 : Int) := by
  rw [← ring_distance_cast hhead]
  have hlt := Nat.mod_lt (p.rqTail.toNat + qSize p.rqLog2 - p.rqHead.toNat) (qSize_pos p.rqLog2)
  simp only [QPair.freeSlots]
  omega

/-! ### A full reply queue takes nothing (R419) -/

/-- Of a state with an updated command unit, what the replies need: the two pairs are as before. -/
theorem State.pair_modCmd {f : CmdUnit → CmdUnit} (hloc : ∀ c, (f c).loc = c.loc) (hfab : ∀ c, (f c).fab = c.fab) (fab : Bool)
    (s : State) : (s.modCmd f).pair fab = s.pair fab := by
  cases fab
  · exact hloc s.cmd
  · exact hfab s.cmd

theorem State.putReply_full {fab : Bool} {r : Reply} {tail : List Byte} {s : State} (hfull : (s.pair fab).freeSlots = 0) :
    (s.putReply fab r tail).outs = s.outs ∧ (s.putReply fab r tail).pair fab = s.pair fab := by
  have hno : s.canPut fab = false := by simp [State.canPut, hfull]
  unfold State.putReply
  split
  · exact ⟨rfl, rfl⟩
  · rw [hno]
    exact ⟨rfl, State.pair_modCmd (fun _ => rfl) (fun _ => rfl) fab s⟩

theorem State.putEvent_full {fab : Bool} {l : List Reply} {tail : List Byte} {s : State}
    (hfull : (s.pair fab).freeSlots < l.length) :
    (s.putEvent fab l tail).outs = s.outs ∧ (s.putEvent fab l tail).pair fab = s.pair fab := by
  have hno : s.eventFits fab l = false := by simp [State.eventFits, hfull]
  unfold State.putEvent
  rw [hno]
  split
  · contradiction
  · split
    · exact ⟨rfl, State.pair_modCmd (fun _ => rfl) (fun _ => rfl) fab s⟩
    · refine ⟨rfl, State.pair_modCmd (fun _ => ?_) (fun _ => ?_) fab s⟩ <;> cases fab <;> rfl

/-! ### The writes of the pointers -/

section Window

variable {fab : Bool} {v : BitVec 12} {s : State} {p : QPair} (hwin : s.windowUp = true) (hpair : s.hasPair fab = true)
  (hp : p = s.pair fab)
include hwin hpair hp

theorem exec_cqTailWrite_moves (hen : p.en = true) (hlt : v.toNat < qSize p.cqLog2) :
    exec (.cqTailWrite fab v) s = .next ((s.unlatch.modCmd fun u => { u with tailWas := u.tailWas ++ [(fab, p.cqTail)] }).modPair
      fab fun q => { q with cqTail := v }).ctlWake := by
  subst hp
  exact (if_pos (by simp [hwin, hpair])).trans (if_neg (by simp [hen, hlt]))

theorem exec_cqTailWrite_ignored (hbad : p.en = false ∨ qSize p.cqLog2 ≤ v.toNat) :
    exec (.cqTailWrite fab v) s = .next (s.unlatch.pairError fab 1 fun q => { q with dberr := true }) := by
  subst hp
  exact (if_pos (by simp [hwin, hpair])).trans (if_pos (by simpa using hbad))

variable {n : Nat} (hn : n = qSize p.rqLog2)
include hn

theorem exec_rqHeadWrite_moves (hlt : v.toNat < n)
    (hspan : (v.toNat + n - p.rqHead.toNat) % n ≤ (p.rqTail.toNat + n - p.rqHead.toNat) % n) :
    exec (.rqHeadWrite fab v) s = .next ((s.unlatch.modPair fab fun q => { q with rqHead := v }).drainSlots fab 4096) := by
  subst hn hp
  exact (if_pos (by simp [hwin, hpair])).trans (if_neg (by simp [hlt, hspan]))

theorem exec_rqHeadWrite_ignored
    (hbad : n ≤ v.toNat ∨ (p.rqTail.toNat + n - p.rqHead.toNat) % n < (v.toNat + n - p.rqHead.toNat) % n) :
    exec (.rqHeadWrite fab v) s = .next (s.unlatch.pairError fab 1 fun q => { q with dberr := true }) := by
  subst hn hp
  exact (if_pos (by simp [hwin, hpair])).trans (if_pos hbad)

end Window

end Sys2Proof.Machine
end

section
/-! The statements of the command queue and of the reply queue. -/

namespace Sys2Proof.Machine

/-- Settles O13: the count by distances in the ring, the write by the two run lemmas of its row. -/
theorem commandQueuePointers : Obligations.CommandQueuePointers := by
  unfold Obligations.CommandQueuePointers
  exact ⟨fun p hhead => ⟨QPair.visible_eq hhead, p.visible_lt⟩,
    fun _ _ _ _ hwin hpair hp => ⟨exec_cqTailWrite_moves hwin hpair hp, exec_cqTailWrite_ignored hwin hpair hp⟩⟩

/-- Settles O14: the count by distances in the ring, a full queue by the two ways into it, the write by the run lemmas of its row. -/
theorem replyQueuePointers : Obligations.ReplyQueuePointers := by
  unfold Obligations.ReplyQueuePointers
  exact ⟨fun _ => QPair.freeSlots_eq, fun _ _ _ _ => State.putReply_full, fun _ _ _ _ => State.putEvent_full,
    fun _ _ _ _ _ hwin hpair hp hn => ⟨exec_rqHeadWrite_moves hwin hpair hp hn, exec_rqHeadWrite_ignored hwin hpair hp hn⟩⟩

end Sys2Proof.Machine
end

section
/-! SUPPORT. The rows of the register window: what each leaves while the window is up. -/

namespace Sys2Proof.Machine

/-! ### Ones that clear (R420) -/

/-- The flags `i < n` for which `f i` holds, as a number. -/
def flagSum (f : Nat → Bool) (n : Nat) : Nat := ((List.range n).map fun i => if f i then 2 ^ i else 0).sum

theorem flagSum_succ (f : Nat → Bool) (n : Nat) : flagSum f (n + 1) = flagSum f n + (if f n then 2 ^ n else 0) := by
  simp [flagSum, List.range_succ]

theorem flagSum_lt (f : Nat → Bool) (n : Nat) : flagSum f n < 2 ^ n := by
  induction n with
  | zero => exact Nat.one_pos
  | succ n ih =>
    rw [flagSum_succ, Nat.pow_succ]
    split <;> omega

theorem bit_eq_testBit (v i : Nat) : bit v i = v.testBit i := by
  rw [Nat.testBit_eq_decide_div_mod_eq]
  rfl

theorem bit_flagSum (f : Nat → Bool) {n i : Nat} (hi : i < n) : bit (flagSum f n) i = f i := by
  rw [bit_eq_testBit]
  induction n with
  | zero => exact absurd hi (Nat.not_lt_zero i)
  | succ n ih =>
    rw [flagSum_succ]
    cases hf : f n
    · obtain hlt | rfl := Nat.lt_succ_iff_lt_or_eq.1 hi
      · exact ih hlt
      · exact (Nat.testBit_lt_two_pow (flagSum_lt f i)).trans hf.symm
    · rw [if_pos rfl, Nat.add_comm]
      obtain hlt | rfl := Nat.lt_succ_iff_lt_or_eq.1 hi
      · exact (Nat.testBit_two_pow_add_gt hlt _).trans (ih hlt)
      · rw [Nat.testBit_two_pow_add_eq, Nat.testBit_lt_two_pow (flagSum_lt f i), hf, Bool.not_false]

/-- A written one clears its flag unless the flag was set again since it was read. -/
theorem CmdUnit.bit_clearable (u : CmdUnit) (base : Nat) (v : Word) {i : Nat} (hi : i < 11) :
    bit (u.clearable base v) i = (bit v.toNat i && !u.fresh.contains (base + i)) :=
  bit_flagSum (fun i => bit v.toNat i && !u.fresh.contains (base + i)) hi

theorem badAccess_guard {n : Nat} {off : BitVec 16} (hbad : (n = 4 ∨ n = 8) → off.toNat % n ≠ 0) :
    ¬((n == 4 || n == 8) && off.toNat % n == 0) = true := by
  simpa using hbad

section Window

variable {s : State} (hwin : s.windowUp = true)
include hwin

theorem exec_w1cStatusWrite_int {v : Word} :
    exec (.w1cStatusWrite 0x0200 v) s = .next (State.intWritten (s.unlatch.modCmd fun c =>
      { c with intStatus := c.intStatus &&& ~~~(BitVec.ofNat 11 (s.cmd.clearable 0 v)) })) :=
  (if_pos hwin).trans (if_pos rfl)

theorem exec_w1cStatusWrite_pair {v : Word} {fab : Bool} {x : Nat} (htray : fab = true → s.isTray = true)
    (hx : x = s.cmd.clearable (if fab then 24 else 16) v) :
    exec (.w1cStatusWrite (if fab then 0x1134 else 0x1034) v) s = .next (s.unlatch.modPair fab fun p =>
      { p with wrerr := p.wrerr && !bit x 3, cfgerr := p.cfgerr && !bit x 2, dberr := p.dberr && !bit x 1 }) := by
  subst hx
  refine (if_pos hwin).trans ?_
  cases fab
  · exact (if_neg (by decide)).trans (if_pos rfl)
  · exact (if_neg (by decide)).trans ((if_neg (by decide)).trans (if_pos ⟨rfl, htray rfl⟩))

theorem exec_intEnableWrite_up {v : Word} :
    exec (.intEnableWrite v) s = .next (State.intWritten (s.unlatch.modCmd fun c =>
      { c with intEnable := BitVec.ofNat 11 v.toNat })) :=
  if_pos hwin

/-! ### Enabling and disabling a pair (R408 to R413) -/

section Enable

variable {fab : Bool} (hpair : s.hasPair fab = true)
include hpair

theorem exec_queuePairEnable_good {r c : BitVec 4} {p : QPair} (hp : p = s.pair fab) (hen : p.en = false)
    (hcqBase : baseOk p.cqBase = true) (hrqBase : baseOk p.rqBase = true) (hr : log2Ok r = true) (hc : log2Ok c = true) :
    exec (.queuePairEnable fab r c) s = .next ((s.unlatch.modPair fab fun q =>
      { q with en := true, rqLog2 := r, cqLog2 := c, cqHead := 0, cqTail := 0, rqHead := 0, rqTail := 0, phase := true,
               idle := false }).drainSlots fab 4096) := by
  subst hp
  exact (if_pos (by simp [hwin, hpair])).trans ((if_neg (by simp [hen])).trans (if_pos (by simp [hcqBase, hrqBase, hr, hc])))

theorem exec_queuePairEnable_bad {r c : BitVec 4} {p : QPair} (hp : p = s.pair fab) (hen : p.en = false)
    (hbad : (baseOk p.cqBase && baseOk p.rqBase && log2Ok r && log2Ok c) = false) :
    exec (.queuePairEnable fab r c) s = .next (s.unlatch.pairError fab 2 fun q => { q with cfgerr := true }) := by
  subst hp
  exact (if_pos (by simp [hwin, hpair])).trans ((if_neg (by simp [hen])).trans (if_neg (by simp only [hbad, Bool.false_eq_true,
    not_false_eq_true])))

theorem exec_queuePairDisable_enabled (hen : (s.pair fab).en = true) :
    exec (.queuePairDisable fab) s = .next ((s.unlatch.stopPair fab).tailUndone fab) :=
  (if_pos (by simp [hwin, hpair])).trans (if_pos hen)

end Enable

/-! ### Reads and writes of the other registers -/

/-- A read gives the half latched by the read before it, else the register, whose own upper half it latches. -/
theorem exec_loHalfRead_aligned {off : BitVec 16} {v : Nat} (halign : off.toNat % 4 = 0) (hsnap : off.toNat ≠ 0x0140)
    (hv : v = match tget s.cmd.latch winPath with
      | some l => if l.1 = off.toNat then l.2.toNat else s.reg off.toNat
      | none => s.reg off.toNat) :
    exec (.loHalfRead off) s = .next ((match hiOf off.toNat with
      | some h => s.unlatch.modCmd fun c => { c with latch := tput c.latch winPath (h, BitVec.ofNat 32 (s.reg h)) }
      | none => s.unlatch).emit (.readData v)) := by
  subst hv
  exact (if_neg (by simp [halign, hsnap])).trans (if_pos hwin)

theorem exec_badAccess_write {n : Nat} {off : BitVec 16} (hbad : (n = 4 ∨ n = 8) → off.toNat % n ≠ 0) :
    exec (.badAccess true off n) s = .next (s.unlatch.intSet 10) :=
  (if_neg (badAccess_guard hbad)).trans (congrArg Host.Outcome.next (if_pos hwin))

theorem exec_badAccess_read {n : Nat} {off : BitVec 16} (hbad : (n = 4 ∨ n = 8) → off.toNat % n ≠ 0) :
    exec (.badAccess false off n) s = .next ((s.unlatch.intSet 10).emit (.readData 0)) :=
  (if_neg (badAccess_guard hbad)).trans (congrArg (fun t => Host.Outcome.next (State.emit (.readData 0) t)) (if_pos hwin))

theorem exec_heartbeatWrite_taken {v : Word} (hport : s.portUp .hb = true) (hsrc : s.brake.cfg.src ≠ 1) (hrun : s.hbStopped = false) :
    exec (.heartbeatWrite v) s = .next s.unlatch.takeBeat :=
  (if_pos hwin).trans (if_pos (by simp [hport, hsrc, hrun]))

section Write

variable {off : BitVec 16} {v : Word}

theorem exec_registerWrite_local (hlo : 0x1000 ≤ off.toNat) (hhi : off.toNat < 0x1038) :
    exec (.registerWrite off v) s = .next (s.unlatch.modPair false (QPair.write (off.toNat - 0x1000) v)) :=
  (if_pos hwin).trans (if_pos ⟨hlo, hhi⟩)

theorem exec_registerWrite_fabric (hlo : 0x1100 ≤ off.toNat) (hhi : off.toNat < 0x1138) (htray : s.isTray = true) :
    exec (.registerWrite off v) s = .next (s.unlatch.modPair true (QPair.write (off.toNat - 0x1100) v)) :=
  (if_pos hwin).trans ((if_neg (by omega)).trans (if_pos ⟨hlo, hhi, htray⟩))

/-- Below the registers of the pairs a plain write changes nothing. -/
theorem exec_registerWrite_below (hlt : off.toNat < 0x1000) : exec (.registerWrite off v) s = .next s.unlatch :=
  (if_pos hwin).trans ((if_neg (by omega)).trans (if_neg (by omega)))

end Write

end Window

theorem exec_replyWriteFail_enabled {fab : Bool} {s : State} (hport : s.portUp .cmd = true) (hpair : s.hasPair fab = true)
    (hen : (s.pair fab).en = true) :
    exec (.replyWriteFail fab) s = .next ((s.stopPair fab).pairError fab 3 fun q => { q with wrerr := true }) :=
  if_pos (by simp [hport, hpair, hen])

end Sys2Proof.Machine
end

section
/-! The statement of the register rows. -/

namespace Sys2Proof.Machine

/-- Settles O52: each clause is the run lemma of its row. -/
theorem registerRowsRun : Obligations.RegisterRowsRun := by
  unfold Obligations.RegisterRowsRun
  exact ⟨fun _ _ _ _ _ hwin hpair hp hen => ⟨exec_queuePairEnable_good hwin hpair hp hen, exec_queuePairEnable_bad hwin hpair hp hen⟩,
    fun _ _ hwin hpair => exec_queuePairDisable_enabled hwin hpair, fun _ _ => exec_replyWriteFail_enabled,
    fun _ _ _ hwin halign hsnap hv => exec_loHalfRead_aligned hwin halign hsnap hv,
    fun v s hwin => ⟨_, fun _ hi => (s.cmd.bit_clearable 0 v hi).trans (by rw [Nat.zero_add]), exec_w1cStatusWrite_int hwin⟩,
    fun v fab s hwin htray => ⟨_, fun _ hi => s.cmd.bit_clearable (if fab then 24 else 16) v hi,
      exec_w1cStatusWrite_pair hwin htray rfl⟩,
    fun _ _ hwin => exec_intEnableWrite_up hwin,
    fun _ _ _ hwin hbad => ⟨exec_badAccess_write hwin hbad, exec_badAccess_read hwin hbad⟩,
    fun _ _ hwin => exec_heartbeatWrite_taken hwin,
    fun _ _ _ hwin => ⟨exec_registerWrite_local hwin, exec_registerWrite_fabric hwin, exec_registerWrite_below hwin⟩⟩

end Sys2Proof.Machine
end

section
/-! SUPPORT. The rows of the command transport: what each leaves once it is due. -/

namespace Sys2Proof.Machine

/-! ### Entries (R390, R404) -/

/-- An entry that was read is run once no fence holds it. -/
theorem State.fetchEntry_some {fab : Bool} {b : List Byte} {run : List Byte → State → State} {s : State}
    (hready : s.fetchReady fab = true) (hctl : s.ctlUp = true) (hfence : s.fenceHolds fab b = false) :
    s.fetchEntry fab (some b) run = run b (s.advanceHead fab) :=
  (if_pos hready).trans (if_neg (by simp [hctl, hfence]))

theorem State.fetchEntry_none {fab : Bool} {run : List Byte → State → State} {s : State} (hready : s.fetchReady fab = true)
    (hctl : s.ctlUp = true) : s.fetchEntry fab none run = (s.advanceHead fab).readFailed fab (s.pair fab).cqHead.toNat :=
  (if_pos hready).trans (if_pos hctl)

/-! ### Retries and gaps (R406, R488) -/

section Retry

variable {dest : Laddr} {seq : BitVec 16} {s : State} {f : Flight} (hctl : s.ctlUp = true)
  (hf : s.cmd.flight.find? (flightIs dest seq) = some f) (hopen : f.answered = false)
  (hpast : f.lastSent + s.cmdRetry cmdRetryDflt ≤ s.tb1Ns)
include hctl hf hopen hpast

theorem exec_cmdRetryExpiry_again (hsent : f.sent < 3) :
    exec (.cmdRetryExpiry dest seq) s = .next ((s.modCmd fun c =>
      { c with flight := c.flight.map fun x =>
        if flightIs dest seq x then { x with sent := x.sent + 1, lastSent := s.tb1Ns } else x }).sendFlight f) := by
  change execCmdRetryExpiry dest seq s = _
  unfold execCmdRetryExpiry
  rw [hf]
  exact (if_pos (by simp [hctl, hopen, hpast])).trans (if_pos hsent)

theorem exec_cmdRetryExpiry_last (hsent : 3 ≤ f.sent) :
    exec (.cmdRetryExpiry dest seq) s = .next (State.gwPump ((s.modCmd fun c =>
      { c with flight := c.flight.filter fun x => !flightIs dest seq x }).gwError f.tag f.opcode stTimeout (errDetail 0 0 0xFF))) := by
  change execCmdRetryExpiry dest seq s = _
  unfold execCmdRetryExpiry
  rw [hf]
  exact (if_pos (by simp [hctl, hopen, hpast])).trans (if_neg (Nat.not_lt.2 hsent))

end Retry

/-- The order goes on with the waiting command nearest to the one that is missing. -/
theorem exec_seqGapSkip_due {src : Laddr} {iss : Issuer} {s : State} {o : SeqOrder} {t : Nat} {h : Held} {l : List Held}
    (hctl : s.ctlUp = true) (hphase : s.pow.phase = .running) (ho : s.cmd.orderOf src iss = some o) (hgap : o.gapAt = some t)
    (hheld : s.cmd.heldOf src iss = h :: l) (hpast : t + 3 * s.cmdRetry cmdRetryDflt ≤ s.tb1Ns) :
    exec (.seqGapSkip src iss) s = .next ((s.modCmd fun c => c.putOrder { o with expect := (l.foldl (fun (m : Held) x =>
      if (x.seq - o.expect).toNat < (m.seq - o.expect).toNat then x else m) h).seq }).releaseCmds src iss releaseFuel) := by
  change execSeqGapSkip src iss s = _
  unfold execSeqGapSkip
  simp only [ho, hgap, hheld]
  exact if_pos (by simp [hctl, hphase, hpast])

theorem exec_asyncCommandDone_ready {path : Path} {tag : BitVec 16} {s : State} {a : Acc} {f : Final} (hctl : s.ctlUp = true)
    (ha : s.cmd.acc.find? (fun a => a.path == path && a.tag == tag && a.ready.isSome) = some a) (hf : a.ready = some f) :
    exec (.asyncCommandDone path tag) s = .next (s.finish a f).gwPump := by
  change execAsyncCommandDone path tag s = _
  unfold execAsyncCommandDone
  simp only [ha, hf]
  exact if_pos hctl

end Sys2Proof.Machine
end

section
/-! The statement of the transport rows. -/

namespace Sys2Proof.Machine

/-- Settles O53: the entries by what becomes of one that is fetched, each other clause by the run lemma of its row. -/
theorem transportRowsRun : Obligations.TransportRowsRun := by
  unfold Obligations.TransportRowsRun
  exact ⟨fun _ _ _ _ hready hctl hfence => congrArg Host.Outcome.next (State.fetchEntry_some hready hctl hfence),
    fun _ _ _ _ hready hctl hfence => congrArg Host.Outcome.next (State.fetchEntry_some hready hctl hfence),
    fun _ _ _ _ hready hctl => congrArg Host.Outcome.next (State.fetchEntry_none hready hctl),
    fun _ _ _ _ hready hctl hfence => congrArg Host.Outcome.next (State.fetchEntry_some hready hctl hfence),
    fun _ _ _ _ hctl hf hopen hpast => ⟨exec_cmdRetryExpiry_again hctl hf hopen hpast, exec_cmdRetryExpiry_last hctl hf hopen hpast⟩,
    fun _ _ _ _ _ _ _ => exec_seqGapSkip_due, fun _ _ _ _ _ => exec_asyncCommandDone_ready⟩

end Sys2Proof.Machine
end

section
/-! SUPPORT. The power states: what each row leaves once it is due. -/

namespace Sys2Proof.Machine

section Power

variable {s : State} (hao : s.aoUp = true)
include hao

theorem exec_drainEnd_up : exec .drainEnd s = .next s.drainEnd.drainRx := if_pos hao

theorem exec_offFlashFlushDone_written (hflush : s.pow.offFlush = true) (hall : ∀ e ∈ s.hall.ents, e.written = true) :
    exec .offFlashFlushDone s = .next (s.modPow fun u => { u with offFlush := false, offReq := true }) :=
  if_pos (by simpa [hao, hflush] using hall)

theorem exec_wakeDemand_stands {k : Demand} (hdemand : s.demandStands k = true) :
    exec (.wakeDemand k) s = .next (if k = .doorbell then s.ctlWake else s.demand.drainRx) :=
  if_pos (by simp [hao, hdemand])

theorem exec_wakeHoldExpiry_served (hover : s.holdOver = true) (hnone : ∀ k ∈ standing, s.demandStands k = false) :
    exec .wakeHoldExpiry s = .next (s.beginEntry s.pow.target) := by
  have hserved : standing.any s.demandStands = false := by simpa using hnone
  exact if_pos (by simp [hao, hover, hserved])

theorem exec_ctlIdleStop_idle {t : Nat} (hawake : s.pow.ctlAwake = some t) (hsleep : s.pow.pstate = .sleep)
    (hpast : s.past1 (t + 1000000) = true) (hloc : s.cmd.loc.busy = false) (hfab : s.cmd.fab.busy = false)
    (hacc : ∀ a ∈ s.cmd.acc, pairPath a.path = false) :
    exec .ctlIdleStop s = .next (s.modPow fun u => { u with ctlOn := false, ctlAwake := none }) := by
  have hserved : (s.cmd.acc.any fun a => pairPath a.path) = false := by simpa using hacc
  change execCtlIdleStop s = _
  unfold execCtlIdleStop
  rw [hawake]
  exact if_pos (by simp [hao, hsleep, hpast, hloc, hfab, hserved])

end Power

end Sys2Proof.Machine
end

section
/-! The statement of the power state rows. -/

namespace Sys2Proof.Machine

/-- Settles O55: each clause is the run lemma of its row. -/
theorem powerStateRowsRun : Obligations.PowerStateRowsRun := by
  unfold Obligations.PowerStateRowsRun
  exact ⟨fun _ => exec_drainEnd_up, fun _ => exec_offFlashFlushDone_written, fun _ _ hao => exec_wakeDemand_stands hao,
    fun _ => exec_wakeHoldExpiry_served, fun _ _ hao => exec_ctlIdleStop_idle hao⟩

end Sys2Proof.Machine
end
